-- ==== Sys2Proof/Word.lean ====
section
/-!
DEFINITION. The words of the terminal: 32-bit registers (spec/00, R16), bytes of frames and of memory.
-/
namespace Sys2Proof

/-- A register or table word: all registers are 32 bits wide (spec/00, "Registers and access types"). -/
abbrev Word := BitVec 32

/-- An octet of a frame, a message or the external memory. -/
abbrev Byte := BitVec 8

/-- A run of octets in the order they are sent. -/
abbrev Bytes := List Byte

end Sys2Proof
end

