-- ==== Sys2Proof/Machine/Terms.lean ====
section
/-!
DEFINITION. The operands of the commands: who accesses, which function or clock, what a received structure held.
-/
namespace Sys2Proof.Machine

/-- Who makes an access (R59). -/
inductive Master
  | core (i : Fin 4)
  | engine (e : Fin 64)
  | host
  | jtag
  | twin
  | husk
  deriving DecidableEq, Repr

/-- A plain access: a read, or a write of a word. -/
inductive Access
  | read
  | write (v : Word)
  deriving DecidableEq, Repr

/-- A startable function (R60). Rings are direction (0 delivery, 1 transmit) and number. -/
inductive Fn
  | trk (c : Fin 4)
  | member (g : Fin 16) (c : Fin 4)
  | lane (l : Fin 64)
  | port (p : Fin 512)
  | page (p : Fin 2)
  | engine (e : Fin 64)
  | ring (d : Fin 2) (r : Fin 1024)
  | twinLink
  deriving DecidableEq, Repr

/-- A block, or an instance of one, with a common header (R48). -/
inductive Blk
  | glb | pwr | srd
  | lane (l : Fin 76)
  | trk (c : Fin 4)
  | shf | thr | grn | tms
  | sub (p : Fin 520)
  | slt | tim | til
  | eng (e : Fin 64)
  | ctl | hsk | cip | twn | pm
  deriving DecidableEq, Repr

/-- A reference clock judged under R523. -/
inductive Clk
  | sys | trk | twin | pcie | xtal
  deriving DecidableEq, Repr

/-- The outcome of a 13-bit HEC check (R103). -/
inductive Hec
  | ok | corrected | bad
  deriving DecidableEq, Repr

/-- What a codeword holds for the decoder (R101): every check holds at entry; after `iters` iterations, which change
`bits` bits, every check holds; no number of iterations makes them hold. -/
inductive Codeword
  | clean
  | corrected (bits iters : Nat)
  | bad
  deriving DecidableEq, Repr

/-- A lane with an equaliser and a pattern checker: a trunk receive lane or a subscriber lane. -/
inductive RxLane
  | trunk (c : Fin 4)
  | sub (l : Fin 72)
  deriving DecidableEq, Repr

/-- What an uncorrectable memory error was read for (R257): the oldest external packet of a queue, a flow context, the
window. -/
inductive UncorrAt
  | packet (q : Nat)
  | context (flow : Nat)
  | window
  deriving DecidableEq, Repr

/-- A transmit descriptor as fetched, with the octets of its buffer (spec/15, transmit descriptor). -/
structure TxDesc where
  len : Nat := 0
  sop : Bool := false
  eop : Bool := false
  oneStep : Bool := false
  tsReq : Bool := false
  tsId : Nat := 0
  tc : Nat := 0
  color : Nat := 0
  queue : Nat := 0
  data : Bytes := []
  deriving DecidableEq, Repr

/-- What one step of header parsing left (R203 gives it as a record; `words` is that record, word 0 first). -/
structure ParseRec where
  /-- stack entries, outermost first: offset, node, level -/
  stack : List (Nat × Nat × Nat) := []
  /-- layer of each: 0 none, 1 L2, 2 L3, 3 L4 -/
  layers : List Nat := []
  depthStop : Bool := false
  trailer : Bool := false
  ipFrag : Bool := false
  chaff : Nat := 0
  chaffHdr : Nat := 0
  chaffOff : Nat := 0
  frameLen : Nat := 0
  start : Nat := 0
  source : Nat := 0
  user : List Nat := [0, 0, 0]
  deriving DecidableEq, Repr

/-- A packet and what travels with it. `bytes` runs from the destination address through the FCS (R12). -/
structure Pkt where
  bytes : Bytes := []
  /-- source index (R187): 0-519 ports, 520-523 trunk channels -/
  source : Nat := 0
  /-- traffic class (R239) -/
  tc : Nat := 0
  /-- 0 green, 1 yellow, 2 red -/
  color : Nat := 0
  /-- pass 1-3 (R234) -/
  pass : Nat := 1
  recircMeta : Nat := 0
  flowId : Nat := 0
  /-- the classifier's CRC-32C flow hash (R230) -/
  hash : Nat := 0
  /-- epoch stamped at entry (R212) -/
  epoch : Nat := 0
  /-- failed MACsec integrity (R308) -/
  untrusted : Bool := false
  /-- secure entity that decrypted it and whose integrity check failed (R308) -/
  icv : Option Nat := none
  /-- receive timestamp: seconds [31:0], nanoseconds (R342) -/
  rxTs : Option (Nat × Nat) := none
  /-- spread group and sequence number (R232) -/
  spread : Option (Nat × Nat) := none
  /-- a copy (COPY, mirror) -/
  copy : Bool := false
  chaff : Nat := 0
  /-- PTP one-step request (R343) -/
  oneStep : Bool := false
  /-- transmit-timestamp request: TS_ID (R344) -/
  tsReq : Option Nat := none
  /-- egress modification: profile and data (R216) -/
  modProf : Nat := 0
  modData : Nat := 0
  /-- offset of the outer IP header the classifier saw (R217) -/
  ipOff : Option Nat := none
  /-- octets already sent as fragments with LF = 0 (R145) -/
  sent : Nat := 0
  deriving DecidableEq, Repr

/-- UNTRUSTED, or about to be marked so (R308): a packet is whole when it leaves, so its check has ended by then. -/
abbrev Pkt.tainted (p : Pkt) : Bool := p.untrusted || p.icv.isSome

/-- Frame length of R12. -/
abbrev Pkt.len (p : Pkt) : Nat := p.bytes.length

/-- The cells a packet takes on chip (spec/09, "Cells and queues"). -/
abbrev Pkt.cells (p : Pkt) : Nat := (p.bytes.length + 255) / 256

end Sys2Proof.Machine
end

