-- ==== Sys2Proof/Syntax.lean ====
section
/-!
DEFINITION. The commands of the terminal: one constructor per row of spec/opcode_table.json, in the table's order, with the
row's operands. A row that is a register access carries the master that makes it and, of a write, the word written; a row
that is an event carries what the outside gives it (frames, levels, outcomes of decoding, times that have come).
-/
namespace Sys2Proof
open Sys2Proof.Machine

/-- A command (spec/opcode_table.json). -/
inductive Instr
  /-- REGISTER_WRITE (R16): A write to a register field that has no row of its own sets, clears or discards the field
  according to its access type. -/
  | registerWrite (m : Master) (a : Fin 1099511627776) (size : Nat) (acc : Access)
  /-- ACCESS_WAKE_RETURN (R481): A domain woken by an access returns to RET 100 µs after its last access. -/
  | accessWakeReturn (d : Fin 32)
  /-- COUNTER_LO_READ (R50): A read of the lo half of a 64-bit counter copies the hi half into the reading master's
  latch. -/
  | counterLoRead (m : Master) (a : Fin 268435456)
  /-- COUNTER_HI_READ (R50): A read of the hi half returns the reading master's latch. -/
  | counterHiRead (m : Master) (a : Fin 268435456)
  /-- COUNTER_CLEAR (R51): A write of 0 to the lo half of a 64-bit counter clears both halves; other writes are
  discarded. -/
  | counterClear (m : Master) (a : Fin 268435456) (v : Word)
  /-- INT_SET (R48): A write to BLK_INT_SET sets status bits exactly as the hardware events would. -/
  | intSet (m : Master) (b : Blk) (v : Word)
  /-- INT_EOI (R58): A write to GLB_INT_EOI re-evaluates a summary bit and sends a further MSI-X message if it is
  still 1. -/
  | intEoi (m : Master) (v : Word)
  /-- TABLE_READ (R52): A gate READ copies the selected entry segment into BLK_TBL_DATA0–15. -/
  | tableRead (m : Master) (b : Blk) (v : Word)
  /-- TABLE_WRITE (R52): A gate WRITE copies BLK_TBL_DATA0–15 into the entry segment word by word. -/
  | tableWrite (m : Master) (b : Blk) (v : Word)
  /-- TABLE_COMMIT (R52): A gate COMMIT copies the data into the entry segment as one indivisible update. -/
  | tableCommit (m : Master) (b : Blk) (v : Word)
  /-- TABLE_CMD_COMPLETE (R53): A running gate command completes, BUSY clears and ERR records the result. -/
  | tableCmdComplete (b : Blk) (ecc : Fin 3 := 0)
  /-- FUNCTION_ENABLE (R60): The effective enable of a startable function becomes 1, moving it from OFF to STARTING
  with its configuration captured, or setting RESTART_PENDING while STOPPING. -/
  | functionEnable (m : Master) (f : Fn) (v : Option Word)
  /-- FUNCTION_DISABLE (R60): The effective enable of a function becomes 0, moving it from STARTING or ON to STOPPING,
  or clearing RESTART_PENDING. -/
  | functionDisable (m : Master) (f : Fn) (v : Option Word)
  /-- START_CONDITION_MET (R60): A function in STARTING whose start condition holds moves to ON and sets
  LIFECYCLE_DONE. -/
  | startConditionMet (f : Fn)
  /-- STOP_FLUSH_COMPLETE (R60): A function in STOPPING whose stop and flushes complete moves to OFF, or to STARTING
  under RESTART_PENDING. -/
  | stopFlushComplete (f : Fn)
  /-- DOMAIN_SOFT_RESET (R64): A write to GLB_SOFT_RESET resets the named domains' registers and functions and
  discards held packets. -/
  | domainSoftReset (m : Master) (v : Word)
  /-- SOFT_RESET_COMPLETE (R64): A domain soft reset ends after 2 µs and its DOMAIN bit clears. -/
  | softResetComplete (d : Fin 32)
  /-- CHIP_RESET (R65): A write of 0x0000_4512 to GLB_CHIP_RESET resets the whole terminal except the AON domain and
  the straps. -/
  | chipReset (m : Master) (v : Word)
  /-- PORN_ASSERT (R547): PORN held low for at least 1 µs resets the terminal and puts every pin in its PORN-low
  state. -/
  | pornAssert
  /-- PORN_RELEASE (R63): The rising edge of the effective PORN captures the straps and starts Husk's boot ROM. -/
  | pornRelease (straps : Fin 64)
  /-- VIN_UVLO_FALL (R542): VIN below V_UVLO_F for 10 µs resets every domain except AON and puts every pin in its
  PORN-low state. -/
  | vinUvloFall
  /-- VIN_GOOD (R542): VIN above V_UVLO_R for 5 ms counts as good, which can raise the effective PORN. -/
  | vinGood (straps : Fin 64)
  /-- CLOCK_LOSS (R523): At a judgement a reference clock found absent or beyond 1,000 ppm clears its OK bit and takes
  the effects of R523. -/
  | clockLoss (k : Clk)
  /-- CLOCK_RECOVER (R523): A reference clock present and within 1,000 ppm over a full 100 µs window sets its OK bit
  again. -/
  | clockRecover (k : Clk)
  /-- CDR_LOCK_ACQUIRED (R70): The trunk CDR locks phase to the received data and sets CDR_LOCK. -/
  | cdrLockAcquired (c : Fin 4)
  /-- CDR_UNLOCK (R70): A frequency error, a phase slip or LOS clears CDR_LOCK, sets CDR_UNLOCK and starts re-
  acquisition. -/
  | cdrUnlock (c : Fin 4)
  /-- ADAPT_STEP (R71): The trunk or lane equaliser and threshold adaptation takes one step within its bounds and
  counts any clamp. -/
  | adaptStep (lane : RxLane) (ctle : Nat) (thr dfe1 : Int) (dfe : List Int) (converged : Bool)
  /-- RX_BOUNDS_WRITE (R72): A write to TRK_RX_BOUNDS or SRD_LANE_EQ changes live bounds, discarding inverted pairs
  and moving an excluded value to the nearest bound. -/
  | rxBoundsWrite (m : Master) (lane : RxLane) (v : Word)
  /-- LOS_CFG_WRITE (R73): A write to TRK_LOS_CFG re-judges the LOS sources from the cycle of the write, starting or
  stopping their counts. -/
  | losCfgWrite (m : Master) (c : Fin 4) (v : Word)
  /-- LOS_SOURCE_CHANGE (R73): The filtered TRK_LOS pin or the signal detector changes, starting or stopping a
  LOS_ASSERT or LOS_CLEAR count. -/
  | losSourceChange (c : Fin 4) (pin : Bool) (ampMv : Nat)
  /-- LOS_DECLARE (R73): An enabled source held for LOS_ASSERT µs declares LOS, sets LOS_CHANGE and sends the
  alignment machine to HUNT. -/
  | losDeclare (c : Fin 4)
  /-- LOS_CLEAR (R73): Every enabled source clear for LOS_CLEAR µs clears LOS and sets LOS_CHANGE. -/
  | losClear (c : Fin 4)
  /-- MODULE_REMOVED (R85): TRK_MOD_ABS high for 1 µs declares the module absent, darkens the laser, clears TX_ALLOW
  and aborts any two-wire transaction. -/
  | moduleRemoved (c : Fin 4)
  /-- MODULE_INSERTED (R85): TRK_MOD_ABS low for 100 ms declares the module present and sets MOD_CHANGE. -/
  | moduleInserted (c : Fin 4)
  /-- BURST_LAUNCH (R76): At the instant ranging sets, a staged burst is launched and TRK_BEN rises LEAD before its
  first bit. -/
  | burstLaunch (c : Fin 4)
  /-- BURST_END (R77): A burst's last bit leaves and TRK_BEN falls LAG after it unless the next burst keeps it high.
  -/
  | burstEnd (c : Fin 4)
  /-- GUARD_OUTSIDE_WINDOW (R81): The TRK_BEN pad is high while no window is open, which trips the guard with reason
  OUTSIDE_WINDOW. -/
  | guardOutsideWindow (c : Fin 4)
  /-- GUARD_TOO_LONG (R81): The TRK_BEN pad has been high for more than MAX_BEN µs, which trips the guard with reason
  TOO_LONG. -/
  | guardTooLong (c : Fin 4)
  /-- GUARD_PAD_MISMATCH (R81): The TRK_BEN pad level has differed from the driven level for more than 2 CLK_TRK
  cycles, which trips the guard. -/
  | guardPadMismatch (c : Fin 4)
  /-- TWI_COMMAND (R87): A write of GO starts a two-wire read or write of 1–64 bytes to the module. -/
  | twiCommand (m : Master) (c : Fin 4) (v : Word)
  /-- TWI_DONE (R88): A two-wire transaction ends with its ERR code and sets TWI_DONE, and TWI_ERR when ERR is not 0.
  -/
  | twiDone (c : Fin 4) (err : Fin 5) (data : Bytes)
  /-- TWI_RECOVER (R88): A write of RECOVER runs nine SCL pulses and a STOP on the module bus. -/
  | twiRecover (m : Master) (c : Fin 4) (v : Word)
  /-- TWI_MONITOR_POLL (R89): Every PERIOD × 10 ms the monitor poll reads the module and copies the bytes to
  TRK_TWI_MON0–3 on success. -/
  | twiMonitorPoll (c : Fin 4) (err : Option (Fin 5)) (data : Bytes)
  /-- PRBS_CLEAR (R90): A write of CLEAR clears TRK_PRBS_ERR and TRK_PRBS_BITS. -/
  | prbsClear (m : Master) (lane : RxLane) (v : Word)
  /-- PRBS_CHECKER_LOCK (R90): The pattern checker locks after 128 consecutive correct bits. -/
  | prbsCheckerLock (lane : RxLane)
  /-- PRBS_LOCK_LOSS (R90): The checker loses lock after 4 bad words, sets LOCK_LOST and PRBS_LOCK_LOST and hunts
  again. -/
  | prbsLockLoss (lane : RxLane) (wrong : Nat)
  /-- TEST_BURST_LAUNCH (R92): Every PERIOD µs an armed test burst of LENGTH µs is launched as a guard window. -/
  | testBurstLaunch (c : Fin 4)
  /-- PSYNC_MATCH (R96): 64 received bits equal PSync exactly, taking the position as candidate in HUNT or recording
  it in the candidate table. -/
  | psyncMatch (c : Fin 4) (pos : Nat) (sfc : Nat := 0) (hec : Hec := .ok)
  /-- CANDIDATE_STALE (R97): A recorded candidate whose next frame position has passed untaken is removed from the
  table. -/
  | candidateStale (c : Fin 4)
  /-- FRAME_POSITION (R98): A frame position falls due in PRESYNC or SYNC and is judged for PSync and SFC HEC, moving
  the alignment machine. -/
  | framePosition (c : Fin 4) (errs : Nat) (hec : Hec) (sfc : Nat) (oc : Hec)
  /-- RESYNC (R99): A write of RESYNC forces the alignment machine to HUNT with an empty candidate table. -/
  | resync (m : Master) (c : Fin 4) (v : Word)
  /-- CODEWORD_DECODED (R101): LDPC decoding of a codeword ends and it is counted as clean, corrected or
  uncorrectable. -/
  | codewordDecoded (c : Fin 4) (w : Codeword) (line : Bytes := [])
  /-- HLEND_RX (R106): The frame's HLend is checked, and an uncorrectable HLend discards the map, PLOAM partition and
  FS payload. -/
  | hlendRx (c : Fin 4) (hec : Hec) (maps ploams : Nat := 0)
  /-- ALLOCATION_STRUCTURE (R107): An allocation structure is checked in order and its grant goes to burst assembly or
  activation or is discarded. -/
  | allocationStructure (c : Fin 4) (hec : Hec) (id : Nat) (start : Option Nat) (size : Nat) (profile : Fin 4) (ploamu dbru wake late : Bool)
  /-- PLOAM_MESSAGE_RX (R111): A downstream PLOAM message for this ONU-ID or broadcast is accepted into the receive
  queue or dropped when it is full. -/
  | ploamMessageRx (c : Fin 4) (onu : Nat) (msg : Bytes) (errored : Bool)
  /-- PLOAM_POP (R112): A write of POP removes the oldest message from the PLOAM receive queue. -/
  | ploamPop (m : Master) (c : Fin 4) (v : Word)
  /-- HE_DISABLE_ONU (R133): A Disable_Serial_Number message with code 0xFF and this serial number sets HE_DISABLE in
  hardware. -/
  | heDisableOnu (c : Fin 4) (serial : Nat)
  /-- HE_ENABLE_ONU (R133): A Disable_Serial_Number message with code 0x00 and this serial number clears HE_DISABLE in
  hardware. -/
  | heEnableOnu (c : Fin 4) (serial : Nat)
  /-- HE_DISABLE_ALL (R133): A Disable_Serial_Number message with code 0xF0 sets HE_DISABLE whatever the serial
  number. -/
  | heDisableAll (c : Fin 4)
  /-- HE_ENABLE_ALL (R133): A Disable_Serial_Number message with code 0x0F clears HE_DISABLE whatever the serial
  number. -/
  | heEnableAll (c : Fin 4)
  /-- GEM_FRAME_RX (R116): A GEM frame is delineated, looked up in GEM_PORT, decrypted and sent to Sheaf, OMCI or the
  slot service, or discarded. -/
  | gemFrameRx (c : Fin 4) (hec : Hec) (pli : Nat) (idx : Fin 4) (port : Nat) (lf idle errored : Bool) (remaining pos : Nat) (payload : Bytes)
  /-- ENTER_O4 (R126): The ENTER_O4 command moves activation from O2-3 to O4 and starts TO1 when ONU_ID_VALID = 1. -/
  | enterO4 (m : Master) (c : Fin 4) (v : Word) (beaten : Bool := false)
  /-- ENTER_O5 (R126): The ENTER_O5 command moves activation from O4 to O5 and stops TO1 when EQD_VALID = 1. -/
  | enterO5 (m : Master) (c : Fin 4) (v : Word) (beaten : Bool := false)
  /-- DEACTIVATE (R126): The DEACTIVATE command returns activation from O2-3, O4 or O5 to O1.1 with clear. -/
  | deactivate (m : Master) (c : Fin 4) (v : Word) (beaten : Bool := false)
  /-- RESTART (R126): The RESTART command returns activation to O1.1 with clear from any state but O7. -/
  | restart (m : Master) (c : Fin 4) (v : Word) (beaten : Bool := false)
  /-- SERIAL_NUMBER_ADVANCE (R126): In O1.2 with a valid burst profile and SN_EN = 1 the machine advances to O2-3 and
  reseeds the random delay. -/
  | serialNumberAdvance (c : Fin 4)
  /-- TO1_EXPIRE (R126): TO1 expires in O4, returning activation to O1.1 and setting TO1_EXPIRED. -/
  | to1Expire (c : Fin 4)
  /-- TO2_EXPIRE (R126): TO2 expires in O6, returning activation to O1.1 and setting TO2_EXPIRED. -/
  | to2Expire (c : Fin 4)
  /-- TEST_HOLD_WRITE (R130): A write of TEST_HOLD is accepted only in O1.1 or O1.2 and holds activation in O1 for
  testing. -/
  | testHoldWrite (m : Master) (c : Fin 4) (v : Word)
  /-- PLOAM_PUSH (R134): A write of PUSH appends the staged PLOAM_TXQ message to the upstream PLOAM queue, or counts
  PLOAM_TX_FULL. -/
  | ploamPush (m : Master) (c : Fin 4) (v : Word)
  /-- EQD_WRITE (R139): A write to TRK_EQD sets EQD_VALID and holds the value pending. -/
  | eqdWrite (m : Master) (c : Fin 4) (v : Word)
  /-- ASSEMBLY_CUTOFF (R143): The burst start minus CUTOFF is reached and the burst's staging begins. -/
  | assemblyCutoff (c : Fin 4)
  /-- LA_ESTIMATE_UPDATE (R148): Every 1 µs each allocation's arrival estimate r is updated from the bytes enqueued.
  -/
  | laEstimateUpdate
  /-- UPSTREAM_SELECT (R279): Each cycle the upstream scheduler selects one packet for the earliest staging burst and
  charges its shapers. -/
  | upstreamSelect (underrun : Bool) (full : Fin 16 := 0)
  /-- KEY_SWITCH_ARM (R151): A write of ARM arms the upstream key switch at SWITCH_SFC, or applies it from the next
  map when that count has passed. -/
  | keySwitchArm (m : Master) (c : Fin 4) (v : Word)
  /-- WS_ALLOWED_WRITE (R153): A write of WS_ALLOWED moves power management between ACTIVE_HELD and ACTIVE_FREE, or
  wakes a sleeping channel. -/
  | wsAllowedWrite (m : Master) (c : Fin 4) (v : Word)
  /-- AWARE_TO_WATCH (R153): Two frames in AWARE without wake move the channel to WATCH with its receiver duty-cycled.
  -/
  | awareToWatch (c : Fin 4)
  /-- WATCH_INTERVAL_START (R153): In WATCH the receiver turns on for WS_ON and delineation restarts from HUNT. -/
  | watchIntervalStart (c : Fin 4)
  /-- WATCH_INTERVAL_END (R153): In WATCH the receiver's on-interval ends and it turns off until the next period. -/
  | watchIntervalEnd (c : Fin 4)
  /-- WATCH_SYNC_TIMEOUT (R153): SYNC not regained within WS_ON returns the channel to ACTIVE_HELD and LODS is handled
  under R126. -/
  | watchSyncTimeout (c : Fin 4)
  /-- BONDED_FRAME_RX (R160): Sheaf takes a bonded frame from a channel FIFO, checks its shim and reorders, holds or
  delivers it to pipeline A. The channel served is the one whose turn it is (R179), whatever `c` says (log entry 188). -/
  | bondedFrameRx (c : Fin 4)
  /-- REORDER_TIMEOUT (R177): The reorder timer expires, NEXT_SN moves to the lowest held SN and held frames are
  delivered. -/
  | reorderTimeout (g : Fin 16)
  /-- JOIN_ACK_RX (R165): A matching JOIN_ACK makes the member ACTIVE, includes it in distribution and moves its
  lifecycle to ON. -/
  | joinAckRx (g : Fin 16) (c : Fin 4) (token : Nat)
  /-- LEAVE_RX (R165): A LEAVE from the head end moves the member to HOLDOFF, excludes it and sends LEAVE_ACK. -/
  | leaveRx (g : Fin 16) (c : Fin 4) (reason token : Nat)
  /-- LEAVE_ACK_RX (R165): A matching LEAVE_ACK in LEAVE_WAIT returns the member to IDLE and its lifecycle to OFF or
  STARTING. -/
  | leaveAckRx (g : Fin 16) (c : Fin 4) (token : Nat)
  /-- JOIN_RETRY_EXPIRE (R165): JOIN_RETRY elapses after a placed JOIN_REQ, sending another or moving the member to
  JOIN_FAILED. -/
  | joinRetryExpire (g : Fin 16) (c : Fin 4)
  /-- JOIN_RETRY (R165): A write of RETRY moves a member from JOIN_FAILED to JOIN_WAIT with a new token. -/
  | joinRetry (m : Master) (g : Fin 16) (c : Fin 4) (v : Word)
  /-- REJOIN_HOLD_EXPIRE (R165): REJOIN_HOLD elapses in HOLDOFF and the member returns to JOIN_WAIT. -/
  | rejoinHoldExpire (g : Fin 16) (c : Fin 4)
  /-- LEAVE_FLUSH_DRAINED (R167): A member in LEAVE_WAIT finishes draining its queues and sends its LEAVE, starting
  LEAVE_TIMEOUT. -/
  | leaveFlushDrained (g : Fin 16) (c : Fin 4)
  /-- LEAVE_TIMEOUT_EXPIRE (R165): LEAVE_TIMEOUT elapses in LEAVE_WAIT and the member returns to IDLE. -/
  | leaveTimeoutExpire (g : Fin 16) (c : Fin 4)
  /-- SHED_EVALUATE (R180): Every EVAL × 10 ms the shedding loop compares the group load with its thresholds and sheds
  or adds a member within FLOOR and CEIL. The load is the group's own count, whatever `load` says (log entry 188). -/
  | shedEvaluate (g : Fin 16) (load : Nat)
  /-- INPUT_FIFO_ARRIVAL (R26): A frame arrives at a pipeline input FIFO and is held or dropped whole when the FIFO is
  full. -/
  | inputFifoArrival (pipe : Fin 2) (p : Pkt)
  /-- PIPELINE_INPUT_GRANT (R25): A pipeline grants one source per cycle and takes its packet through parse,
  classification, metering and enqueue. -/
  | pipelineInputGrant (pipe : Fin 2) (upset : List (Fin 262144) := [])
  /-- CONTEXT_READ_RETURN (R222): A flow context read for a cache miss returns and the packets parked on it are
  resolved in arrival order. -/
  | contextReadReturn (flow : Fin 1048576) (err : Bool) (corr : Nat := 0)
  /-- TASK_ACCEPTED (R218): The Tiller accepts a held classifier task and the pipeline takes new packets again. -/
  | taskAccepted (pipe : Fin 2)
  /-- EPOCH_SWAP (R212): A write of SWAP advances CUR_EPOCH, records OLD_EPOCH and clears SWAP_COMPLETE, or is
  rejected while a swap drains. -/
  | epochSwap (m : Master) (v : Word)
  /-- EPOCH_DRAIN_COMPLETE (R212): No packet in flight carries OLD_EPOCH, so SWAP_COMPLETE sets and EPOCH_DONE is
  raised. -/
  | epochDrainComplete
  /-- CTX_UPDATE (R223): A write of GO with WMASK ≠ 0 writes the selected words of a flow context to memory and cache
  as one update. -/
  | ctxUpdate (m : Master) (v : Word)
  /-- CTX_READ (R223): A write of GO with WMASK = 0 reads the current flow context record into THR_CTX_DATA0–15. -/
  | ctxRead (m : Master) (v : Word)
  /-- CTX_INVAL (R224): A write of GO to THR_CTX_INVAL writes back and drops a cached flow context record. -/
  | ctxInval (m : Master) (v : Word)
  /-- CTX_CMD_DONE (R223): A flow context command completes, BUSY clears and CTX_DONE is set. -/
  | ctxCmdDone
  /-- AGE_SWEEP (R229): Every AGE_TIME / 2 seconds the sweep removes unused non-static bridging entries and clears HIT
  on the others. -/
  | ageSweep
  /-- SPREAD_RR_TIMEOUT (R233): The oldest outstanding spread number not released within RR_TIMEOUT is skipped and
  RR_SKIP increments. -/
  | spreadRrTimeout (g : Fin 64)
  /-- METER_STAT_WRITE (R244): A write to a METER_STAT entry fills both buckets to their sizes and clears its
  counters. -/
  | meterStatWrite (m : Master) (i : Fin 131072)
  /-- QUEUE_FLUSH (R250): A write of GO to GRN_Q_FLUSH discards every packet of the queue and refuses arrivals while
  BUSY. -/
  | queueFlush (m : Master) (v : Word)
  /-- QUEUE_FLUSH_DONE (R250): The background release of a flushed queue's external blocks completes, BUSY clears and
  FLUSH_DONE is set. -/
  | queueFlushDone
  /-- SPILL_MOVE (R252): A staged packet of a queue in spill mode is moved to its external block. -/
  | spillMove (q : Fin 262144)
  /-- REFILL_MOVE (R253): The mover reads a queue's oldest external packet back into on-chip cells. -/
  | refillMove (q : Fin 262144) (corr : Nat := 0)
  /-- DRAM_INIT (R254): A write of INIT trains and starts every LPDDR5X channel. -/
  | dramInit (m : Master) (v : Word)
  /-- DRAM_UP (R254): Training completes, every channel becomes ACTIVE and DRAM_UP sets. -/
  | dramUp
  /-- DRAM_RETRAIN (R258): A write of RETRAIN moves an ACTIVE channel to RETRAIN. -/
  | dramRetrain (m : Master) (r : Fin 4) (v : Word)
  /-- DRAM_RETRAIN_COMPLETE (R258): Retraining passes, returning the channel to ACTIVE, or fails, retiring it as
  failed. -/
  | dramRetrainComplete (r : Fin 4) (pass : Bool)
  /-- DRAM_RETIRE (R258): A write of RETIRE starts moving a channel's shared pages to their spare slots. -/
  | dramRetire (m : Master) (r : Fin 4) (v : Word)
  /-- DRAM_PAGE_COPY_DONE (R258): The copy of one shared page completes and the page is remapped. -/
  | dramPageCopyDone (r : Fin 4)
  /-- DRAM_RELOCATION_DONE (R258): Block relocation of a retiring channel completes, and it is powered down and
  RETIRE_DONE set. -/
  | dramRelocationDone (r : Fin 4)
  /-- DRAM_UNCORR_ERROR (R257): An uncorrectable memory error discards the packet or returns 0, sets DRAM_UNCORR_EV
  and may fail the channel. -/
  | dramUncorrError (r : Fin 4) (w : UncorrAt)
  /-- REFRESH_ADJUST (R260): The refresh loop sets a channel's refresh interval within REF_MIN and REF_MAX and counts
  clamps. -/
  | refreshAdjust (r : Fin 4) (want : Fin 5)
  /-- DS_SELECT (R270): Each cycle the downstream scheduler selects one packet for an eligible port node and charges
  its shapers. -/
  | dsSelect
  /-- CLEAR_DEBT (R278): A write of CLEAR_DEBT sets the negative credit of the named node's selected buckets to 0. -/
  | clearDebt (m : Master) (v : Word)
  /-- PCS_LOCK_ACQUIRE (R289): A lane's PCS acquires lock, which can raise LINK of its ports. -/
  | pcsLockAcquire (l : Fin 64)
  /-- PCS_LOCK_LOSS (R289): A lane's PCS loses lock, which takes LINK of its ports down. -/
  | pcsLockLoss (l : Fin 64)
  /-- POLARITY_FLIP (R290): Sixteen inverted idle blocks or code groups invert the lane's receive polarity. -/
  | polarityFlip (l : Fin 64)
  /-- MDIO_WRITE (R292): An MDIO write command drives a write frame to the PHY. -/
  | mdioWrite (m : Master) (i : Fin 4) (v : Word)
  /-- MDIO_READ (R292): An MDIO read command reads a PHY register. -/
  | mdioRead (m : Master) (i : Fin 4) (v : Word)
  /-- MDIO_ADDRESS (R292): A clause 45 address command sets the PHY's register address. -/
  | mdioAddress (m : Master) (i : Fin 4) (v : Word)
  /-- MDIO_READ_INCREMENT (R292): A clause 45 read with post-increment reads a PHY register and advances the address.
  -/
  | mdioReadIncrement (m : Master) (i : Fin 4) (v : Word)
  /-- MDIO_DONE (R292): An MDIO command completes, setting MDIO_DONE and MDIO_ERR when the turnaround was not driven.
  -/
  | mdioDone (i : Fin 4) (undriven : Bool) (data : Fin 65536)
  /-- MDIO_POLL_ROUND (R293): Every POLL_MS ms an MDIO master starts a poll round of the valid ports on its lanes. -/
  | mdioPollRound (i : Fin 4)
  /-- MDIO_POLL_FRAME_DONE (R293): One poll frame ends and sets PHY_LINK of its port, or counts POLL_ERR. -/
  | mdioPollFrameDone (i : Fin 4) (undriven : Bool) (data : Fin 65536)
  /-- SPIKELET_FRAME_RX (R287): A Spikelet frame's port tag is checked and the frame goes to its port or is discarded.
  -/
  | spikeletFrameRx (l : Fin 64) (t0 t1 : Byte) (bs : Bytes) (codeErr : Bool)
  /-- MAC_FRAME_RX (R298): A received frame is checked for code errors, FCS, length and FIFO room and passed to
  pipeline B or discarded. -/
  | macFrameRx (p : Fin 512) (bs : Bytes) (codeErr : Bool)
  /-- MACSEC_ICV_FAIL (R308): A decrypted frame's ICV check fails after its processing began, marking its descriptor
  UNTRUSTED. -/
  | macsecIcvFail (e : Fin 65)
  /-- PFC_FRAME_RX (R302): A received PFC frame loads the pause timers of the priorities it names. -/
  | pfcFrameRx (p : Fin 512) (bs : Bytes)
  /-- PFC_PAUSE_EXPIRE (R302): A priority's received pause timer runs out and its class is no longer paused. -/
  | pfcPauseExpire (p : Fin 512) (i : Fin 8)
  /-- PFC_REFRESH (R301): While a priority stays in XOFF, the PFC frame is repeated every REFRESH quanta. -/
  | pfcRefresh (p : Fin 512)
  /-- LPI_ENTER (R303): A port idle for LPI_IDLE µs starts transmitting LPI. -/
  | lpiEnter (p : Fin 512)
  /-- LPI_WAKE_DONE (R303): TW_SYS after LPI ends, the port node becomes eligible again. -/
  | lpiWakeDone (p : Fin 512)
  /-- RATE_DOWN_EVAL (R305): Every RD_EVAL ms the rate-down loop steps the lane mode up or down within its bounds and
  counts clamps. The load is the lane's own count, whatever `load` says (log entry 188). -/
  | rateDownEval (l : Fin 64) (load : Nat)
  /-- RATE_STEP_PHY_WRITTEN (R306): The RD_PHY write of a rate-down step completes and the lane retrains at the new
  rate, or the step is abandoned. -/
  | rateStepPhyWritten (l : Fin 64)
  /-- RATE_STEP_LOCKED (R306): The lane regains lock at the new rate, the node becomes eligible and RATE_CHANGE is
  set. -/
  | rateStepLocked (l : Fin 64)
  /-- RATE_STEP_TIMEOUT (R306): The lane does not lock within 1 ms of a step and returns to MODE. -/
  | rateStepTimeout (l : Fin 64)
  /-- RECAL_GO (R309): A write of RECAL_GO starts recalibration on the shadow slicer. -/
  | recalGo (m : Master) (l : Fin 72) (v : Word)
  /-- RECAL_PERIOD_EXPIRE (R309): RECAL_PERIOD expires and recalibration starts. -/
  | recalPeriodExpire (l : Fin 72)
  /-- RECAL_DONE (R309): The new receive values are switched in at a block boundary and RECAL_DONE is set. -/
  | recalDone (l : Fin 72) (ctle : Fin 16 := 0) (dfe : List Int := [0, 0, 0, 0]) (offset : Int := 0)
  /-- ENERGY_DETECT (R311): Signal energy appears on a held lane with ED_EN = 1 and ENERGY sets. -/
  | energyDetect (l : Fin 64)
  /-- CONTAINER_RX (R317): A slot container is checked and demapped with the page in force, updating labels. -/
  | containerRx (c : Fin 4)
  /-- SLOT_FRAME_BOUNDARY (R315): F_loc changes; missing containers are counted and twin SLOT_US containers are built.
  -/
  | slotFrameBoundary
  /-- FRAME_PLAYOUT (R326): A slot frame of a circuit is played from the active path's store, or as 0xFF. -/
  | framePlayout (x : Fin 1024)
  /-- SLOT_PACKET_RX (R325): A received slot packet is checked and its frames enter the circuit's jitter buffer. -/
  | slotPacketRx (p : Fin 512) (bs : Bytes)
  /-- PAGE_SCAN_DONE (R320): A starting page's connection memory scan completes, arming it or making it ON. -/
  | pageScanDone (p : Fin 2)
  /-- PAGE_RETIRE (R321): 32 slot frames after S, a stopping page reaches OFF. -/
  | pageRetire (p : Fin 2)
  /-- PSW_CLEAR (R329): The CLEAR selector command removes the held command of a circuit. -/
  | pswClear (m : Master) (v : Word)
  /-- PSW_LOCKOUT (R329): The LOCKOUT selector command holds a circuit on its working path. -/
  | pswLockout (m : Master) (v : Word)
  /-- PSW_FORCE_WORK (R329): The FORCE_WORK selector command forces the working path. -/
  | pswForceWork (m : Master) (v : Word)
  /-- PSW_FORCE_PROT (R329): The FORCE_PROT selector command forces the protection path. -/
  | pswForceProt (m : Master) (v : Word)
  /-- PSW_MANUAL_WORK (R329): The MANUAL_WORK selector command requests the working path unless it has SF. -/
  | pswManualWork (m : Master) (v : Word)
  /-- PSW_MANUAL_PROT (R329): The MANUAL_PROT selector command requests the protection path unless it has SF. -/
  | pswManualProt (m : Master) (v : Word)
  /-- PSW_HOLDOFF_EXPIRE (R329): SF on one path held for HOLDOFF switches the selector. -/
  | pswHoldoffExpire (x : Fin 1024)
  /-- PSW_WTR_EXPIRE (R329): Wait-to-restore expires and the selector returns to the working path. -/
  | pswWtrExpire (x : Fin 1024)
  /-- TIME_SET (R334): The SET command loads the local clock from TIM_SET_SEC and TIM_SET_NS at the next tick. -/
  | timeSet (m : Master)
  /-- TIME_ADD (R334): The ADD command adds the signed TIM_SET_NS to the local clock at the next tick. -/
  | timeAdd (m : Master)
  /-- TIME_READ_LATCH (R334): A read of TIM_NOW_NS latches the seconds and fraction of the same tick for the reader.
  -/
  | timeReadLatch (m : Master)
  /-- TOD_ARM (R337): A write of ARM arms a time-of-day update, or ends it as late when TOD_SFC has passed. -/
  | todArm (m : Master) (v : Word)
  /-- TOD_UPDATE (R335): The frame carrying TOD_SFC arrives, the offset is computed and accepted or refused under
  JUMP_LIMIT. -/
  | todUpdate
  /-- TIM_SOURCE_WRITE (R340): A write of SRC_CH or SRC_EN moves the frequency lock, sends the clock to HOLDOVER or
  ends an armed update. -/
  | timSourceWrite (m : Master) (v : Word)
  /-- FREQ_MEASUREMENT (R340): Every 1 s the ratio of the locked rate to the CLK_SYS PLL is stored as the frequency
  memory. -/
  | freqMeasurement (inc : Word) (off : Bool := false)
  /-- PPS_PULSE (R348): At each local-time second boundary PPS_OUT rises for PPS_WIDTH × 10 µs. -/
  | ppsPulse
  /-- EDGE_CAPTURE (R349): A filtered edge on EVT_IN or PPS_IN is timestamped into its capture FIFO, or dropped when
  full. -/
  | edgeCapture (i : Fin 5) (falling : Bool)
  /-- CAPTURE_POP (R349): A write of POP removes the head entry of a capture FIFO. -/
  | capturePop (m : Master) (i : Fin 5) (v : Word)
  /-- TS_QUEUE_POP (R344): A write of POP removes the head entry of a timestamp queue. -/
  | tsQueuePop (m : Master) (q : Fin 16) (v : Word)
  /-- SLOT_FIRE (R350): A valid time-event slot fires at its TIME, acting on its pin and consumers and advancing or
  clearing. -/
  | slotFire (x : Fin 64)
  /-- GATE_CONFIG_CHANGE (R355): A write of CONFIG_CHANGE schedules the pending gate list at BASE or a later cycle
  boundary. -/
  | gateConfigChange (m : Master) (p : Fin 512) (v : Word)
  /-- GATE_LIST_START (R355): At its start time the pending gate list becomes active and GATE_SWITCHED is set. -/
  | gateListStart (p : Fin 512)
  /-- GATE_ENTRY_ADVANCE (R354): A gate-list entry's interval ends and the next entry's gate states apply. -/
  | gateEntryAdvance (p : Fin 512)
  /-- TILLER_TICK (R373): A delay list's tick advances its TICK_COUNT. -/
  | tillerTick (i : Fin 4)
  /-- DELAY_DUE (R374): A delay-list entry falls due and moves to its ready list, or waits blocked by the quota. -/
  | delayDue (i : Fin 4)
  /-- TASK_DISPATCH (R369): An idle ON engine takes the best ready task and the Tiller fills a task frame. -/
  | taskDispatch (e : Fin 64)
  /-- EMIT (R366): The EMIT command enqueues the task's built packet and the task no longer holds it. -/
  | emit (e : Fin 64) (v : Word)
  /-- EMIT_COPY (R366): The EMIT_COPY command enqueues a copy of the task's packet. -/
  | emitCopy (e : Fin 64) (v : Word)
  /-- DROP (R365): The DROP command discards the task's packet. -/
  | drop (e : Fin 64) (v : Word)
  /-- NEW (R365): The NEW command builds a packet from DMEM and enqueues it. -/
  | new (e : Fin 64) (v : Word)
  /-- POST (R371): The POST command creates a task in a ready list or a delay list. -/
  | post (e : Fin 64) (v : Word)
  /-- CANCEL (R374): The CANCEL command removes a delay-list entry and frees its descriptor. -/
  | cancel (e : Fin 64) (v : Word)
  /-- END (R367): The END command ends the task, discarding any packet it holds and releasing its spread number. -/
  | endTask (e : Fin 64) (v : Word)
  /-- ENGINE_FAULT (R378): A fault aborts the task, discards its packet, records the fault and may stop the engine. -/
  | engineFault (e : Fin 64) (code : Fin 8) (pc : Fin 65536) (addr : Fin 1099511627776)
  /-- CLUSTER_DRAIN_DONE (R375): A draining cluster's lists are empty and no engine holds a task, so DRAIN_DONE is
  set. -/
  | clusterDrainDone (k : Fin 8)
  /-- THROTTLE_STEP (R380): Every 1 ms the throttling loop gates one more or one fewer sixteenth of a cluster's cycles
  within bounds. -/
  | throttleStep (k : Fin 8) (temp : BitVec 8)
  /-- PERF_COUNTER_WRAP (R381): An engine event counter wraps and sets PERF_OVF when OVF_INT = 1. -/
  | perfCounterWrap (e : Fin 64) (n : Fin 8)
  /-- GLEANER_SAMPLE (R383): Every PERIOD-th selected event of an engine writes a Gleaner record, or is lost when the
  buffer is full. -/
  | gleanerSample (e : Fin 64) (pc : Fin 65536) (addr : Fin 1099511627776) (latency : Word)
  /-- WDOG_KICK (R388): A write of 0x4B1C to CTL_WDOG_KICK restarts the watchdog count. -/
  | wdogKick (m : Master) (v : Word)
  /-- WDOG_WARN (R388): 75 % of TIMEOUT elapses since the last kick and WDOG_WARN is set. -/
  | wdogWarn (halted : Nat := 0)
  /-- WDOG_EXPIRE (R388): TIMEOUT elapses and the terminal is reset with WATCHDOG set in GLB_RESET_CAUSE. -/
  | wdogExpire (halted : Nat := 0)
  /-- PCIE_FUNCTION_RESET (R390): A function-level or hot reset soft-resets domain PCIE and stops every host ring. -/
  | pcieFunctionReset
  /-- PERST_ASSERT (R527): PERST_N low holds domain PCIE in soft reset until released. -/
  | perstAssert
  /-- RING_TAIL_WRITE (R391): A write to RING_TAIL hands descriptors to the terminal and may clear NOBUF. -/
  | ringTailWrite (m : Master) (d : Fin 2) (r : Fin 1024) (v : Word)
  /-- TX_RING_FETCH (R394): A transmit frame is fetched from its ring and enters a pipeline or queue, or is discarded
  with ERR. -/
  | txRingFetch (r : Fin 1024) (ds : List TxDesc) (dmaErr : Bool)
  /-- RING_INT_TIMER (R396): INT_USEC elapses since the first unsignalled write-back and the ring raises its
  interrupt. -/
  | ringIntTimer (d : Fin 2) (r : Fin 1024)
  /-- RING_INT_ACK (R396): A write of RING_INT_ACK clears the ring's interrupt level. -/
  | ringIntAck (m : Master) (d : Fin 2) (r : Fin 1024) (v : Word)
  /-- MBX_SEND (R399): A read of MBX_SEND posts the staged message and returns its status. -/
  | mbxSend (m : Master) (ch : Fin 256)
  /-- MBX_POP (R402): A write of POP removes the head message and may give the sender its empty interrupt. -/
  | mbxPop (m : Master) (ch : Fin 256) (v : Word)
  /-- MBX_EMPTY_STATUS_READ (R405): A read of EMPTY_STATUS by the sender returns and clears it and DISCARD_COUNT. -/
  | mbxEmptyStatusRead (m : Master) (ch : Fin 256)
  /-- DB_SET (R406): A write to MBX_DB_SET rings a doorbell, setting its pending bit or merging. -/
  | dbSet (m : Master) (v : Word)
  /-- LOCK_ACQUIRE (R407): A read of HW_LOCKn acquires a free lock or reports its holder. -/
  | lockAcquire (m : Master) (n : Fin 64) (rivals : List Master)
  /-- LOCK_RELEASE (R409): A write of the owner's ID releases the lock; another ID is counted as a bad release. -/
  | lockRelease (m : Master) (n : Fin 64) (v : Word)
  /-- LOCK_BREAK (R409): A write to HW_LOCK_BREAK frees a lock. -/
  | lockBreak (m : Master) (v : Word)
  /-- UART_DATA_WRITE (R539): A write to CTL_UART_DATA queues a byte for transmission. -/
  | uartDataWrite (m : Master) (v : Word)
  /-- UART_DATA_READ (R539): A read of CTL_UART_DATA returns and removes the oldest received byte. -/
  | uartDataRead (m : Master)
  /-- UART_BYTE_RX (R539): A byte arrives on the console and enters the receive FIFO or is discarded. -/
  | uartByteRx (b : Byte) (frameErr : Bool)
  /-- IMAGE_VERIFY_DONE (R415): Husk finishes reading and checking an image and records BOOT_RESULT. -/
  | imageVerifyDone (slotA slotB : Bytes) (readErr : Bool) (flash : Nat × Bool := (0x8000000, true))
  /-- RECORD_WRITE (R492): A WRITE record read-modify-writes a register. -/
  | recordWrite
  /-- RECORD_WAIT (R492): A WAIT record polls a register every 1 µs. -/
  | recordWait
  /-- RECORD_WAIT_DONE (R492): A WAIT record's condition holds or its timeout is reached. -/
  | recordWaitDone
  /-- RECORD_DELAY (R492): A DELAY record waits its time. -/
  | recordDelay
  /-- RECORD_TABLE (R492): A TABLE record commits COUNT segments into a table. -/
  | recordTable
  /-- RECORD_SECTIONS (R492): The SECTIONS record loads every section of the image. -/
  | recordSections
  /-- HANDOFF (R499): After the last record, staging cells are zeroed, HANDOFF is set and the control cores are
  released. -/
  | handoff
  /-- CONFIRM (R495): A write of CONFIRM sets CONF_GEN to the running image's GEN and may clear ATTEMPTS. -/
  | confirm (m : Master) (v : Word)
  /-- PCIE_LOAD_WORD (R497): A host write of IMAGE_LEN to the load word starts verification of the staged image. -/
  | pcieLoadWord (v : Word)
  /-- XMODEM_BLOCK_RX (R498): A recovery image block arrives over XMODEM-1K. -/
  | xmodemBlockRx (bs : Bytes)
  /-- RECOVERY_TIMEOUT (R498): 60 s without a block brings the recovery prompt back. -/
  | recoveryTimeout
  /-- GET_ID (R421): The GET_ID command writes the 884-byte identity block. -/
  | getId (m : Master) (v : Word)
  /-- ATTEST (R422): The ATTEST command writes signed attestation evidence over the nonce. -/
  | attest (m : Master) (v : Word)
  /-- MEAS_EXTEND (R419): The MEAS_EXTEND command extends a measurement register with 48 bytes. -/
  | measExtend (m : Master) (v : Word)
  /-- REVOKE (R420): The REVOKE command blows a key slot's REVOKED bit unless refused. -/
  | revoke (m : Master) (v : Word) (fail : Bool)
  /-- ADVANCE_SVN (R420): The ADVANCE_SVN command blows SVN bits up to the target unless refused. -/
  | advanceSvn (m : Master) (v : Word) (fail : Option (Fin 64))
  /-- SET_PRODUCTION (R419): The SET_PRODUCTION command advances LIFECYCLE from DEVELOPMENT to PRODUCTION. -/
  | setProduction (m : Master) (v : Word) (fail : Bool)
  /-- HSK_CMD_DONE (R419): A Husk command completes with its STATUS and CMD_DONE is set. -/
  | hskCmdDone
  /-- HSK_RNG_READ (R424): A read of HSK_RNG returns the next random word, or 0 while RNG_OK = 0. -/
  | hskRngRead (m : Master)
  /-- RNG_HEALTH_FAIL (R424): A health test fails, clearing RNG_OK and setting RNG_FAIL. -/
  | rngHealthFail
  /-- RNG_RECOVER (R424): The entropy source passes 1,024 consecutive samples and RNG_OK returns. -/
  | rngRecover
  /-- CVE_GENERATE (R434): The GENERATE operation writes a MAC tag to CVE_TAG. -/
  | cveGenerate (m : Master) (v : Word)
  /-- CVE_VERIFY (R434): The VERIFY operation compares the MAC with CVE_TAG in constant time. -/
  | cveVerify (m : Master) (v : Word)
  /-- CVE_DERIVE (R434): The DERIVE operation writes a MAC into a destination key slot. -/
  | cveDerive (m : Master) (v : Word)
  /-- CVE_DONE (R434): A CVE operation ends with its RESULT and CVE_DONE is set. -/
  | cveDone
  /-- ZEROISE (R436): A write of ZEROISE clears every key, shadow, PN and VALID in the cipher tables. -/
  | zeroise (m : Master) (v : Word)
  /-- ZEROISE_DONE (R436): Zeroisation completes and ZEROISED is set. -/
  | zeroiseDone
  /-- TWN_ACT_IN_CHANGE (R443): The filtered TWN_ACT_IN changes, which can withdraw a claim or split the roles. -/
  | twnActInChange (v : Bool)
  /-- CLAIM_HOLD_EXPIRE (R442): ACT_IN low for CLAIM_HOLD with the link down starts a takeover claim. -/
  | claimHoldExpire
  /-- CONTENTION_WINDOW_END (R443): The 4 µs contention window ends and the twin becomes ACTIVE, clearing HELD and
  writing PHY_SEL. -/
  | contentionWindowEnd
  /-- HANDOVER (R467): A write of HANDOVER moves the active twin to YIELDING and sends HANDOVER_REQ, or is refused. -/
  | handover (m : Master) (v : Word)
  /-- HANDOVER_REQ_RX (R467): A heartbeat with HANDOVER_REQ is answered with HANDOVER_ACK. -/
  | handoverReqRx
  /-- HANDOVER_ACK_RX (R467): HANDOVER_ACK makes the port nodes forward to the peer and starts DRAIN. -/
  | handoverAckRx
  /-- YIELD_RX (R442): A YIELD from the peer starts a handover claim. -/
  | yieldRx
  /-- HANDOVER_ACK_TIMEOUT (R443): No HANDOVER_ACK within 1 ms returns the yielding twin to ACTIVE. -/
  | handoverAckTimeout
  /-- HANDOVER_DRAIN_EXPIRE (R467): DRAIN elapses and HELD is set on the ports. -/
  | handoverDrainExpire
  /-- HANDOVER_PORTS_OFF (R467): Every port is OFF, YIELD is sent and ACT_OUT is released. -/
  | handoverPortsOff
  /-- HEARTBEAT_TX (R449): Every 10 µs a BEAT row is sent on all lanes. -/
  | heartbeatTx
  /-- HEARTBEAT_RX (R449): A BEAT row is received and the peer's state, commands and generations are taken. -/
  | heartbeatRx (bs : Vector Byte 6) (differ : Fin 8) (bad : Nat := 0)
  /-- HEARTBEAT_MISS (R449): 10 µs without a valid BEAT counts HB_MISS and the fifth takes the link DOWN. -/
  | heartbeatMiss
  /-- TWIN_TRAIN_COMPLETE (R448): Block lock, lane order and deskew complete and the link enters UP. -/
  | twinTrainComplete (invert : Fin 256) (order : Option Bool) (skew : Fin 32)
  /-- TWIN_IDLE_ENTRY (R450): No frame for IDLE_ENTRY µs puts the twin lanes in electrical idle. -/
  | twinIdleEntry
  /-- PORT_FRAME_RX (R454): A PORT frame enters pipeline A as source 514. -/
  | portFrameRx (bs : Bytes)
  /-- DS_PORT_RX (R454): A DS_PORT frame is enqueued to its DS_Q queue. -/
  | dsPortRx (bs : Bytes)
  /-- US_QUEUE_RX (R455): A US_QUEUE frame is enqueued to its upstream queue. -/
  | usQueueRx (bs : Bytes)
  /-- MIRROR_RX (R459): A MIRROR record is applied by the standby as one commit, or refused. -/
  | mirrorRx (bs : Bytes)
  /-- MAILBOX_RX (R456): A MAILBOX frame is posted to the local channel and answered with MBX_RESULT. -/
  | mailboxRx (bs : Bytes)
  /-- MBX_RESULT_RX (R456): A MBX_RESULT frame pops, resends or refuses the forwarded mailbox message. -/
  | mbxResultRx (bs : Bytes)
  /-- MBX_RESEND_TIMER (R456): 10 µs after a FULL result the forwarded message is resent. -/
  | mbxResendTimer (ch : Fin 256)
  /-- SLOT_DS_RX (R457): A SLOT_DS frame is demapped into the store of the twin channel. -/
  | slotDsRx (bs : Bytes)
  /-- SLOT_US_RX (R457): A SLOT_US frame is kept for the local slot grant of its channel. -/
  | slotUsRx (bs : Bytes)
  /-- MIRROR_SWEEP (R460): A write of SWEEP, or entry to UP, starts a mirror sweep. -/
  | mirrorSweep (m : Master) (v : Word)
  /-- REVERT_HOLD_EXPIRE (R463): A covered channel in O5 for REVERT_HOLD clears REDIRECT. -/
  | revertHoldExpire
  /-- CLEAR_REDIRECT (R463): A write of CLEAR_REDIRECT clears REDIRECT while a covered channel is in O5. -/
  | clearRedirect (m : Master) (v : Word)
  /-- STATE_REQUEST (R474): A write of GO requests a change of power state, or ends with BAD_REQ or DONE. -/
  | stateRequest (m : Master) (v : Word)
  /-- DOMAIN_AGREE (R476): A domain being stopped agrees and is put in its target condition, and the next is stopped.
  -/
  | domainAgree
  /-- ENTRY_TIMEOUT (R476): A domain does not agree within ENTRY_TIMEOUT and refuses with TIMEOUT. -/
  | entryTimeout
  /-- WAKE_SOURCE_FIRE (R479): An enabled wake source fires, ending Rest or aborting Rest entry. -/
  | wakeSourceFire (src : Fin 6)
  /-- WAKE_TIMER_EXPIRE (R479): WAKE_MS elapses since Rest entry and the TIMER wake source fires. -/
  | wakeTimerExpire
  /-- DOMAIN_RESTART_NEXT (R480): The next domain is restarted in reverse stop order. -/
  | domainRestartNext
  /-- TRIM_MASK_WRITE (R473): A write of PWR_TRIM_MASK in Trim sheds or restarts domains. -/
  | trimMaskWrite (m : Master) (v : Word)
  /-- DOM_OFF_WRITE (R471): A write of PWR_DOM_OFF turns domains off once their functions are OFF, or turns them on.
  -/
  | domOffWrite (m : Master) (v : Word)
  /-- AVS_STEP (R483): The AVS loop moves the core voltage 5 mV toward VREQ + 10 mV within bounds. -/
  | avsStep (vreq : Fin 64)
  /-- THERMAL_SAMPLE (R484): Sensors are sampled every 10 µs, asserting TEMP_ALERT_N or tripping. -/
  | thermalSample (temps : Vector (BitVec 8) 16)
  /-- THERMAL_RECOVER (R484): Every sensor below 100 °C for 1 s restarts the terminal with THERMAL set. -/
  | thermalRecover
  /-- GPIO_CHANGE (R538): A filtered GPIO with INT_EN changes level and sets GPIO_EV. -/
  | gpioChange (j : Fin 16) (v : Bool)
  /-- ALARM_SAMPLE (R506): Every 1 ms each alarm's defect is sampled and the alarm is raised or cleared after its
  soak. -/
  | alarmSample
  /-- ALARM_MASK_WRITE (R508): A write of MASK or TYPE_MASK logs a raised alarm as cleared or raised. -/
  | alarmMaskWrite (m : Master) (whole : Bool) (t : Fin 32) (x : Fin 1024) (v : Fin 2)
  /-- LOG_POP (R509): A write of POP removes the head log entry. -/
  | logPop (m : Master) (v : Word)
  /-- HISTORY_WRITE_DONE (R515): The closed records are written out and BUSY clears. -/
  | historyWriteDone (daily : Bool) (lost : List (Fin 1540))
  /-- BW_WINDOW_END (R517): A bandwidth window ends and its buffer becomes readable. -/
  | bwWindowEnd (o : Fin 1540)
  /-- AUTONEG_COMPLETE (R294): Clause 37 auto-negotiation completes on a mode-0 lane with AN_EN = 1, which lets LINK
  of its port become 1. -/
  | autonegComplete (l : Fin 64)
  /-- LPI_RX_CHANGE (R304): Received LPI starts or ends on a lane and LPI_RX follows it. -/
  | lpiRxChange (l : Fin 64) (v : Bool)
  /-- PERST_RELEASE (R527): PERST_N rises, ending the soft reset of domain PCIE, and the link starts to train. -/
  | perstRelease
  /-- PCIE_LINK_UP (R391): The PCIe link finishes training, so rings with LOC = 0 can meet their start condition. -/
  | pcieLinkUp
  /-- PCIE_LINK_DOWN (R390): The PCIe link goes down, after which rings with LOC = 0 stay in STARTING. -/
  | pcieLinkDown
  /-- TWIN_LINK_RETRAIN (R448): 1 µs after the twin link enters DOWN it moves to TRAIN and sends TRAIN on all lanes.
  -/
  | twinLinkRetrain
  /-- TWIN_LANE_FAULT (R448): A twin lane loses block lock or the skew exceeds 16 blocks, taking the link from UP to
  DOWN. -/
  | twinLaneFault (lock : Fin 256) (skew : Nat)
  /-- HANDOVER_CLAIM_TIMEOUT (R443): A handover claim still sees ACT_IN high 20 µs after YIELD, returns to STANDBY and
  sets WIRE_FAULT. -/
  | handoverClaimTimeout
  /-- TWIN_FRAME_TX (R452): The twin transmitter finishes a frame and picks the next from slot, mailbox, mirror and
  data frames in priority order, with fillers for rate matching. -/
  | twinFrameTx
  /-- REDIRECT_SERVE (R462): While REDIRECT = 1, one packet per datapath cycle is taken from a mapped upstream queue
  into the twin FIFO as US_QUEUE. -/
  | redirectServe
  /-- VKEEP_LOSS (R543): VKEEP is lost while VIN is absent, and all AON-held state is lost. -/
  | vkeepLoss
  /-- VKEEP_RETURN (R543): VKEEP returns while VIN is absent, and the AON domain runs again from cleared state. -/
  | vkeepReturn
  /-- UART_BYTE_SENT (R539): A console byte finishes transmission and leaves the transmit FIFO, unblocking a stalled
  write. -/
  | uartByteSent
  /-- CROSSING_FIFO_ERROR (R36): A clock-domain crossing FIFO overflows or underflows with an input clock out of
  tolerance, setting CDC_ERR and discarding the frame in transit. -/
  | crossingFifoError (b : Blk) (arriving : Bool := false)
  /-- AON_WRITE_ARRIVE (R34): A register write to an AON-domain register reaches the AON logic 61.0–91.6 µs after it
  completed on the bus. -/
  | aonWriteArrive
  /-- FLUSH_ONCHIP_RELEASE (R250): The on-chip part and descriptors of a flushed queue are released, within 2 µs, and
  the queue accepts packets again. -/
  | flushOnchipRelease
  /-- ENGINE_DATA_ACCESS (R360): An engine program reads or writes DMEM, cluster memory, its packet window or external
  memory. -/
  | engineDataAccess (e : Fin 64) (pc : Fin 65536) (a : Fin 1099511627776) (n : Fin 65) (w : Option Bytes)
  deriving DecidableEq, Repr

end Sys2Proof
end

