-- ==== Sys2Proof/Decode.lean ====
section
/-!
DEFINITION. The command a word spells. No row of spec/opcode_table.json gives bits to a command (every row's list of
fields is empty), so no word spells one: commands are operands of the interface, not words.
-/
namespace Sys2Proof

/-- The command that the `nbits` low bits of `w` spell by the table's bits: none. -/
def decodeTableWord (_nbits _w : Nat) : Option Instr := none

end Sys2Proof
end

