-- ==== Sys2Proof/Machine/Balls.lean ====
section
/-! DEFINITION. The ball grid of chapter 21 (R533 to R537): which ball carries which signal.
Nothing here is state: it is the map from the signals of `Pin` to the places on the package. -/

namespace Sys2Proof
namespace Machine

/-- A ball by its row index and its column, both 1 to 64 (R533). -/
structure Ball where
  row : Nat
  col : Nat
  deriving DecidableEq, Repr

/-- The nineteen letters of a run of rows; the first run ends in W and Y, and the index here counts from 0 (R533). -/
def rowLetter (k : Nat) : String :=
  ["A", "B", "C", "D", "E", "F", "G", "H", "J", "K", "L", "M", "N", "P", "T", "U", "V", "W", "Y"].getD k ""

/-- The name of row index i: single letters, then AA to AY, BA to BY, and CA to CG (R533). -/
def rowName (i : Nat) : String :=
  ["", "A", "B", "C"].getD ((i - 1) / 19) "" ++ rowLetter ((i - 1) % 19)

/-- R533: a ball's name. -/
def Ball.name (b : Ball) : String := rowName b.row ++ toString b.col

/-- The row index of a row's name, 0 where no row has it. -/
def rowIndex (n : String) : Nat := ((List.range 65).find? fun i => i != 0 && rowName i == n).getD 0

/-- The four balls of one lane (R535). -/
structure LaneBalls where
  rxp : Ball
  rxn : Ball
  txp : Ball
  txn : Ball
  deriving DecidableEq, Repr

/-- A lane whose pairs lie along a row, receive in row r and transmit in row t, from column c. -/
def LaneBalls.across (r t c : Nat) : LaneBalls := ⟨⟨r, c⟩, ⟨r, c + 1⟩, ⟨t, c⟩, ⟨t, c + 1⟩⟩

/-- A lane whose pairs lie along a column, receive in column r and transmit in column t, from row i. -/
def LaneBalls.down (i r t : Nat) : LaneBalls := ⟨⟨i, r⟩, ⟨i + 1, r⟩, ⟨i, t⟩, ⟨i + 1, t⟩⟩

/-- R535: the balls of trunk channel c. -/
def trunkBalls (c : Nat) : LaneBalls := .across 2 4 (10 + 12 * c)

/-- R535: the balls of SRD lane l: subscriber lanes 0 to 63, twin lanes 64 to 71, PCIe lanes 72 to 75. -/
def laneBalls (l : Nat) : LaneBalls :=
  if l < 32 then .down (6 + 3 * (l % 16)) (1 + 4 * (l / 16)) (3 + 4 * (l / 16))
  else if l < 64 then .across (64 - 4 * ((l - 32) / 8)) (62 - 4 * ((l - 32) / 8)) (10 + 3 * ((l - 32) % 8))
  else .down (20 + 3 * (l - 64)) 62 64

/-- R536: the pattern of an LPDDR5X channel, row BV first. -/
def ddrPattern : List (List String) :=
  [["DQ0", "DQ1", "DQ2", "DQ3", "DQ4", "DQ5", "DQ6"],
   ["DQ7", "DMI0", "WCK_T0", "WCK_C0", "RDQS_T0", "RDQS_C0", "GND"],
   ["DQ8", "DQ9", "DQ10", "DQ11", "DQ12", "DQ13", "DQ14"],
   ["DQ15", "DMI1", "WCK_T1", "WCK_C1", "RDQS_T1", "RDQS_C1", "GND"],
   ["CA0", "CA1", "CA2", "CA3", "CA4", "CA5", "CA6"],
   ["CS0", "CS1", "CK_T", "CK_C", "ZQ", "GND", "GND"],
   ["DQ16", "DQ17", "DQ18", "DQ19", "DQ20", "DQ21", "DQ22"],
   ["DQ23", "DMI2", "WCK_T2", "WCK_C2", "RDQS_T2", "RDQS_C2", "GND"],
   ["DQ24", "DQ25", "DQ26", "DQ27", "DQ28", "DQ29", "DQ30"],
   ["DQ31", "DMI3", "WCK_T3", "WCK_C3", "RDQS_T3", "RDQS_C3", "GND"]]

/-- R536: the signal at a ball of rows BV to CG and columns 34 to 64. -/
def ddrBall (b : Ball) : String :=
  if 62 ≤ b.col then (if b = ⟨55, 62⟩ then "DRAM_RESET_N" else "GND")
  else
    let r := (b.col - 34) / 7
    let n := (ddrPattern.getD (b.row - 55) []).getD ((b.col - 34) % 7) "GND"
    if n = "GND" then n else "DDR" ++ toString r ++ "_" ++ n

/-- The signals of a numbered group at the balls of one row, one every `step` columns from column c. -/
def rowOf (row c step : Nat) (names : List String) : List (Ball × String) :=
  names.mapIdx fun k n => (⟨row, c + step * k⟩, n)

/-- The n names of a numbered group from index k. -/
def numbered (g : String) (k n : Nat) : List String :=
  (List.range n).map fun j => g ++ "[" ++ toString (k + j) ++ "]"

/-- R537: the balls of the low-speed, always-on, clock and supply pins; VIN's block is `ballUse`'s. -/
def otherBalls : List (Ball × String) :=
  rowOf 1 52 3 (numbered "TRK_BEN" 0 4) ++ rowOf 2 52 3 (numbered "TRK_TXDIS" 0 4) ++
  rowOf 3 52 3 (numbered "TRK_LOS" 0 4) ++ rowOf 4 52 3 (numbered "TRK_MOD_ABS" 0 4) ++
  rowOf 5 52 3 (numbered "TRK_SCL" 0 4) ++ rowOf 6 52 3 (numbered "TRK_SDA" 0 4) ++
  rowOf 7 52 3 (numbered "MDC" 0 4) ++ rowOf 8 52 3 (numbered "MDIO" 0 4) ++
  rowOf 9 52 2 ["SPI_CLK", "SPI_CS_N", "SPI_DQS", "SPI_RESET_N", "UART_TX", "UART_RX"] ++
  rowOf 10 50 2 (numbered "SPI_IO" 0 8) ++
  rowOf 11 50 2 (numbered "GPIO" 0 8) ++ rowOf 12 50 2 (numbered "GPIO" 8 8) ++
  rowOf 13 50 2 (numbered "EVT_IN" 0 4 ++ numbered "EVT_OUT" 0 4) ++
  rowOf 14 50 2 ["PPS_IN", "PPS_OUT", "CLKOUT", "INT_N", "PERST_N"] ++
  rowOf 15 50 2 ["TCK", "TMS", "TDI", "TDO", "TRST_N"] ++
  rowOf 16 50 2 ["PORN", "BOOT_SEL[0]", "BOOT_SEL[1]", "VIO_SEL", "TWIN_EN", "TWIN_ROLE", "TEST_MODE", "VAON"] ++
  rowOf 17 50 2 ["TWN_ACT_IN", "TWN_ACT_OUT", "XTAL32K_IN", "XTAL32K_OUT", "TEMP_ALERT_N", "VKEEP", "VKEEP"] ++
  [(⟨2, 6⟩, "CLK_TRK_P"), (⟨2, 7⟩, "CLK_TRK_N"), (⟨39, 12⟩, "CLK_SYS_P"), (⟨39, 13⟩, "CLK_SYS_N"),
   (⟨18, 63⟩, "CLK_TWIN_P"), (⟨18, 64⟩, "CLK_TWIN_N"), (⟨53, 60⟩, "PCIE_REFCLK_P"), (⟨53, 61⟩, "PCIE_REFCLK_N")]

/-- The names of a lane's four signals with their balls. -/
def LaneBalls.named (l : LaneBalls) (g k : String) : List (Ball × String) :=
  [(l.rxp, g ++ "_RXP[" ++ k ++ "]"), (l.rxn, g ++ "_RXN[" ++ k ++ "]"),
   (l.txp, g ++ "_TXP[" ++ k ++ "]"), (l.txn, g ++ "_TXN[" ++ k ++ "]")]

/-- R535: every serial lane's balls with their signals. -/
def serialBalls : List (Ball × String) :=
  (List.range 4).flatMap (fun c => (trunkBalls c).named "TRK" (toString c)) ++
  (List.range 64).flatMap (fun l => (laneBalls l).named "SUB" (toString l)) ++
  (List.range 8).flatMap (fun n => (laneBalls (64 + n)).named "TWN" (toString n)) ++
  (List.range 4).flatMap (fun n => (laneBalls (72 + n)).named "PCIE" (toString n))

/-- R534: what every ball of the grid carries; a ball no table names is ground. -/
def ballUse (b : Ball) : String :=
  if 25 ≤ b.row ∧ b.row ≤ 40 ∧ 25 ≤ b.col ∧ b.col ≤ 40 then "VIN"
  else if (b.row = 1 ∨ b.row = 64) ∧ b.col ≤ 6 then "DNC"
  else if 55 ≤ b.row ∧ 34 ≤ b.col then ddrBall b
  else ((serialBalls ++ otherBalls).find? (·.1 = b)).elim "GND" (·.2)

/-- R535, R537: the balls of a signal by its name. -/
def ballsOf (n : String) : List Ball :=
  (serialBalls ++ otherBalls).filterMap fun p => if p.2 = n then some p.1 else none

end Machine
end Sys2Proof
end

