-- ==== Sys2Proof/Machine/Bits.lean ====
section
/-!
DEFINITION. Bit fields of words, sign extension and byte order, as the register and table descriptions of the
spec use them (spec/00: bit 0 is the least significant bit, ranges are [msb:lsb]; R11 for network order).
-/
namespace Sys2Proof.Machine

/-- Field [lo + n - 1 : lo] of a word. -/
def getField (w : Word) (lo n : Nat) : Nat := w.toNat / 2 ^ lo % 2 ^ n

/-- The ones of field [lo + n - 1 : lo]. -/
def fieldMask (lo n : Nat) : Word := BitVec.ofNat 32 ((2 ^ n - 1) * 2 ^ lo)

/-- A word with field [lo + n - 1 : lo] holding `v` modulo 2^n and every other bit kept. -/
def setField (w : Word) (lo n v : Nat) : Word :=
  (w &&& ~~~(fieldMask lo n)) ||| BitVec.ofNat 32 (v % 2 ^ n * 2 ^ lo)

/-- Bit `i` of a natural number, as 0 or 1. -/
def bitN (v i : Nat) : Nat := v / 2 ^ i % 2

/-- 1 for true, 0 for false. -/
def b2n (b : Bool) : Nat := if b then 1 else 0

/-- Field [lo + n - 1 : lo] of a number of any width (records and messages wider than a word). -/
def bitsOf (v lo n : Nat) : Nat := v / 2 ^ lo % 2 ^ n

/-- The number with field [lo + n - 1 : lo] replaced. -/
def putBits (v lo n x : Nat) : Nat := v - bitsOf v lo n * 2 ^ lo + x % 2 ^ n * 2 ^ lo

/-- The signed value of an n-bit two's complement field. -/
def signed (n v : Nat) : Int := if v % 2 ^ n < 2 ^ (n - 1) then Int.ofNat (v % 2 ^ n) else Int.ofNat (v % 2 ^ n) - Int.ofNat (2 ^ n)

/-- The n-bit two's complement field of a signed value. -/
def unsigned (n : Nat) (x : Int) : Nat := (x % Int.ofNat (2 ^ n)).toNat

/-- The big-endian (network order, R11) value of a run of octets. -/
def beNat : Bytes → Nat
  | [] => 0
  | b :: t => b.toNat * 256 ^ t.length + beNat t

/-- The little-endian value of a run of octets. -/
def leNat : Bytes → Nat
  | [] => 0
  | b :: t => b.toNat + 256 * leNat t

/-- `n` octets of a value, most significant first (R11). -/
def beBytes : Nat → Nat → Bytes
  | 0, _ => []
  | n + 1, v => BitVec.ofNat 8 (v / 256 ^ n) :: beBytes n v

/-- `n` octets of a value, least significant first. -/
def leBytes : Nat → Nat → Bytes
  | 0, _ => []
  | n + 1, v => BitVec.ofNat 8 v :: leBytes n (v / 256)

/-- Octet `i` of a run, 0 beyond its end. -/
def byteAt (bs : Bytes) (i : Nat) : Nat := (bs.getD i 0).toNat

/-- The big-endian value of `n` octets from offset `i`. -/
def beAt (bs : Bytes) (i n : Nat) : Nat := beNat ((bs.drop i).take n)

/-- Quotient rounded up. -/
def ceilDiv (a b : Nat) : Nat := (a + b - 1) / b

/-- The lesser of a saturating sum and its ceiling. -/
def satAdd (v n ceil : Nat) : Nat := min (v + n) ceil

end Sys2Proof.Machine
end

