-- ==== Sys2Proof/Machine/Crc.lean ====
section
/-!
DEFINITION. The checksums the spec names: the Ethernet FCS (R12, R217, R300), CRC-32C of flow and spread hashing
(R230), the CRC-8 of the Spikelet tag (R286), 16-bit CRCs, the Internet checksum and the Toeplitz hash (R231).
-/
namespace Sys2Proof.Machine

/-- One bit of a reflected CRC with the reflected polynomial `poly`. -/
def crcBitR (poly c : Nat) : Nat := if c % 2 = 1 then (c / 2) ^^^ poly else c / 2

/-- One octet of a reflected CRC. -/
def crcByteR (poly c b : Nat) : Nat :=
  let c := c ^^^ b
  crcBitR poly (crcBitR poly (crcBitR poly (crcBitR poly (crcBitR poly (crcBitR poly (crcBitR poly (crcBitR poly c)))))))

/-- A reflected 32-bit CRC with initial value and final XOR of all ones. -/
def crcR32 (poly : Nat) (bs : Bytes) : Nat :=
  bs.foldl (fun c b => crcByteR poly c b.toNat) 0xFFFFFFFF ^^^ 0xFFFFFFFF

/-- CRC-32 of Ethernet. -/
def crc32 (bs : Bytes) : Nat := crcR32 0xEDB88320 bs

/-- CRC-32C (Castagnoli). -/
def crc32c (bs : Bytes) : Nat := crcR32 0x82F63B78 bs

/-- The four FCS octets of a frame without its FCS, in the order sent. -/
def fcsOf (bs : Bytes) : Bytes := leBytes 4 (crc32 bs)

/-- A frame with its FCS is intact. -/
def fcsOk (bs : Bytes) : Bool := bs.drop (bs.length - 4) == fcsOf (bs.take (bs.length - 4))

/-- One bit of a CRC of width `n`, most significant bit first. -/
def crcBitM (n poly c : Nat) : Nat :=
  if 2 ^ (n - 1) ≤ c then ((2 * c) % 2 ^ n) ^^^ poly else 2 * c

/-- A CRC of width `n` ≥ 8, most significant bit first, no final XOR. -/
def crcM (n poly init : Nat) (bs : Bytes) : Nat :=
  bs.foldl (fun c b =>
    (List.range 8).foldl (fun c _ => crcBitM n poly c) (c ^^^ (b.toNat * 2 ^ (n - 8)))) init

/-- CRC-8 of the Spikelet port tag (R286). -/
def crc8 (bs : Bytes) : Nat := crcM 8 0x07 0 bs

/-- CRC-16 of XMODEM (R498), polynomial 0x1021. -/
def crc16 (bs : Bytes) : Nat := crcM 16 0x1021 0 bs

/-- The 16-bit ones' complement sum of an octet run, an odd last octet padded with zero. -/
def onesSum : Bytes → Nat
  | [] => 0
  | [a] => a.toNat * 256
  | a :: b :: t =>
    let x := a.toNat * 256 + b.toNat + onesSum t
    if 65536 ≤ x then x - 65535 else x

/-- Bit `i` of an octet run, most significant bit of the first octet first. -/
def msbBit (bs : Bytes) (i : Nat) : Nat := bitN (byteAt bs (i / 8)) (7 - i % 8)

/-- The Toeplitz hash: XOR of the 32-bit windows of the key at every set input bit. The key is `kbits` bits wide,
its most significant bit first. -/
def toeplitz (key kbits : Nat) (bs : Bytes) : Nat :=
  (List.range (8 * bs.length)).foldl
    (fun h i => if msbBit bs i = 1 then h ^^^ (key / 2 ^ (kbits - 32 - i) % 2 ^ 32) else h) 0

end Sys2Proof.Machine
end

