-- ==== Sys2Proof/Config.lean ====
section
/-!
DEFINITION. What one terminal fixes and the spec leaves open: free values (constants without a body, so that nothing
can be proved of them).
-/
namespace Sys2Proof.Config

/-- A value the spec leaves open. `tag` tells the uses apart, `n` is a count the step advances.
Log entry 3. -/
opaque free : (tag : Nat) → (n : Nat) → Nat

/-- The counter block of block `i` of a payload under the line cipher (R119, R150), from the superframe count and the word
position. The spec leaves its form to the recommendation and prints none. Log entry 4. -/
opaque lineCounter : (sfc : Nat) → (pos : Nat) → (i : Nat) → Nat

/-- The label of seed `i` of the device's SLH-DSA key (0 SK.seed, 1 SK.prf, 2 PK.seed, R421). Log entry 4. -/
opaque slhLabel : (i : Nat) → Bytes

/-- Modulus, public and private exponent of the RSA identity key that the wrapped key holds under the device secret (R421;
the spec prints neither the derivation of the wrapping key nor the form of the key within). Log entry 4. -/
opaque idRsa : (uds wrap : Bytes) → Nat × Nat × Nat

/-- A Spikelet port's rate in Mb/s, less 1, for a SPK_SPEED its lane mode does not offer (R285). Log entry 173. -/
opaque spkRate : (mode speed : Nat) → Nat

/-- Set of the flow context cache a flow falls in (R222 gives 65,536 records, 16 ways, and no index). Log entry 32. -/
opaque ctxSet : (flow : Nat) → Fin 4096

/-- An octet of a circuit's slot frame that no position of the path carries (R319, R326 give it no value). Log entry
36. -/
opaque slotGap : (circuit octet : Nat) → Byte

end Sys2Proof.Config
end

