-- ==== Sys2Proof/Machine/MapTypes.lean ====
section
/-!
DEFINITION. The shape of a register row and of a table row of the spec: fields, access types (R16), reset values
(R19), encodings that are reserved (R18).
-/
namespace Sys2Proof.Machine

/-- How a field answers a plain access (R16). The kinds after `wo` are the spec's own special cases. -/
inductive Acc
  | rw | ro | w1c | w1s | rc | wo
  /-- lo half of a 64-bit counter (R50, R51) -/
  | c64lo
  /-- hi half of a 64-bit counter (R50, R51) -/
  | c64hi
  /-- lo half of TRK_SFC, whose read latches the hi half (R50) -/
  | sfclo
  /-- hi half of TRK_SFC -/
  | sfchi
  /-- one copy per master (MBX_STAGE) -/
  | stage
  /-- a field whose reads and writes are rows of their own (locks, MBX_SEND, console data, HSK_RNG) -/
  | own
  /-- key material: written, never read back (table fields that read 0) -/
  | key
  deriving DecidableEq, Repr

/-- The place of a register field: byte address of its register, lowest bit, width. -/
structure FRef where
  addr : Nat
  lo : Nat
  width : Nat
  deriving DecidableEq, Repr

/-- The place of a table field: key of the entry's first word, lowest bit within the entry, width. -/
structure TRef where
  base : Nat
  lo : Nat
  width : Nat
  deriving DecidableEq, Repr

/-- One field of a register or entry. `own` marks a writable field whose write is a row of the operation table of
its own, which a plain write therefore leaves; `ok` lists the accepted encodings (empty: all, R18). -/
structure FieldRow where
  lo : Nat
  width : Nat
  acc : Acc
  own : Bool
  reset : Nat
  ok : List (Nat × Nat)
  deriving DecidableEq, Repr

/-- One register of the map: name, address of its first instance, repetition counts with strides, fields. -/
structure RegRow where
  name : String
  base : Nat
  dims : List (Nat × Nat)
  fields : List FieldRow
  deriving DecidableEq, Repr

/-- When a gate accepts WRITE and COMMIT to a table. -/
inductive TabW
  /-- at any time -/
  | any
  /-- never: ERR 4 -/
  | never
  /-- COMMIT only (R425, R430) -/
  | commitOnly
  /-- while the page is OFF (R320, R332) -/
  | page
  /-- gate lists, under R356 -/
  | gcl
  /-- while the engine is OFF (R379, R385) -/
  | engOff
  deriving DecidableEq, Repr

/-- One table of a gate: entries, width in words, when it may be written, fields of an entry. -/
structure TabRow where
  name : String
  id : Nat
  entries : Nat
  words : Nat
  wr : TabW
  fields : List FieldRow
  deriving DecidableEq, Repr

end Sys2Proof.Machine
end

