-- ==== Sys2Proof/Machine/RegMap.lean ====
section
/-!
DEFINITION. The register map as data: every register of spec/02 to spec/21 with its address, its fields, their access
types, reset values and reserved encodings. A field marked `true` after its access type is one whose write is a row
of the operation table of its own. Bits no row lists are reserved: they read 0 and ignore writes (R16).
-/
namespace Sys2Proof.Machine

/-- The common header of every block and instance (R48). -/
def mapHdr_0 : List RegRow := [
  ⟨"GLB_INT_STATUS", 0, [], [⟨0, 5, .w1c, false, 0, []⟩, ⟨8, 3, .w1c, false, 0, []⟩]⟩,
  ⟨"GLB_INT_ENABLE", 4, [], [⟨0, 5, .rw, false, 0, []⟩, ⟨8, 3, .rw, false, 0, []⟩]⟩,
  ⟨"GLB_INT_SET", 8, [], [⟨0, 5, .w1s, true, 0, []⟩, ⟨8, 3, .w1s, true, 0, []⟩]⟩,
  ⟨"PWR_INT_STATUS", 0x100000, [], [⟨0, 5, .w1c, false, 0, []⟩, ⟨8, 5, .w1c, false, 0, []⟩]⟩,
  ⟨"PWR_INT_ENABLE", 0x100004, [], [⟨0, 5, .rw, false, 0, []⟩, ⟨8, 5, .rw, false, 0, []⟩]⟩,
  ⟨"PWR_INT_SET", 0x100008, [], [⟨0, 5, .w1s, true, 0, []⟩, ⟨8, 5, .w1s, true, 0, []⟩]⟩,
  ⟨"SRD_INT_STATUS", 0x200000, [], [⟨0, 5, .w1c, false, 0, []⟩, ⟨8, 2, .w1c, false, 0, []⟩]⟩,
  ⟨"SRD_INT_ENABLE", 0x200004, [], [⟨0, 5, .rw, false, 0, []⟩, ⟨8, 2, .rw, false, 0, []⟩]⟩,
  ⟨"SRD_INT_SET", 0x200008, [], [⟨0, 5, .w1s, true, 0, []⟩, ⟨8, 2, .w1s, true, 0, []⟩]⟩,
  ⟨"SRD_TBL_SEL", 0x200040, [], [⟨0, 32, .rw, false, 0, []⟩]⟩,
  ⟨"SRD_TBL_INDEX", 0x200044, [], [⟨0, 32, .rw, false, 0, []⟩]⟩,
  ⟨"SRD_TBL_CMD", 0x200048, [], [⟨0, 2, .wo, false, 0, []⟩, ⟨4, 4, .rw, false, 0, []⟩, ⟨16, 1, .ro, false, 0, []⟩, ⟨17, 3, .ro, false, 0, []⟩]⟩,
  ⟨"SRD_TBL_DATA", 0x200080, [(16, 4)], [⟨0, 32, .rw, false, 0, []⟩]⟩,
  ⟨"LANE_INT_STATUS", 0x210000, [(76, 0x10000)], [⟨0, 5, .w1c, false, 0, []⟩, ⟨8, 7, .w1c, false, 0, []⟩]⟩,
  ⟨"LANE_INT_ENABLE", 0x210004, [(76, 0x10000)], [⟨0, 5, .rw, false, 0, []⟩, ⟨8, 7, .rw, false, 0, []⟩]⟩,
  ⟨"LANE_INT_SET", 0x210008, [(76, 0x10000)], [⟨0, 5, .w1s, true, 0, []⟩, ⟨8, 7, .w1s, true, 0, []⟩]⟩,
  ⟨"TRK_INT_STATUS", 0x1000000, [(4, 0x100000)], [⟨0, 5, .w1c, false, 0, []⟩, ⟨8, 24, .w1c, false, 0, []⟩]⟩,
  ⟨"TRK_INT_ENABLE", 0x1000004, [(4, 0x100000)], [⟨0, 5, .rw, false, 0, []⟩, ⟨8, 24, .rw, false, 0, []⟩]⟩,
  ⟨"TRK_INT_SET", 0x1000008, [(4, 0x100000)], [⟨0, 5, .w1s, true, 0, []⟩, ⟨8, 24, .w1s, true, 0, []⟩]⟩,
  ⟨"TRK_TBL_SEL", 0x1000040, [(4, 0x100000)], [⟨0, 32, .rw, false, 0, []⟩]⟩]

/-- The common header of every block and instance (R48). -/
def mapHdr_1 : List RegRow := [
  ⟨"TRK_TBL_INDEX", 0x1000044, [(4, 0x100000)], [⟨0, 32, .rw, false, 0, []⟩]⟩,
  ⟨"TRK_TBL_CMD", 0x1000048, [(4, 0x100000)], [⟨0, 2, .wo, false, 0, []⟩, ⟨4, 4, .rw, false, 0, []⟩, ⟨16, 1, .ro, false, 0, []⟩, ⟨17, 3, .ro, false, 0, []⟩]⟩,
  ⟨"TRK_TBL_DATA", 0x1000080, [(4, 0x100000), (16, 4)], [⟨0, 32, .rw, false, 0, []⟩]⟩,
  ⟨"SHF_INT_STATUS", 0x1800000, [], [⟨0, 5, .w1c, false, 0, []⟩, ⟨8, 9, .w1c, false, 0, []⟩]⟩,
  ⟨"SHF_INT_ENABLE", 0x1800004, [], [⟨0, 5, .rw, false, 0, []⟩, ⟨8, 9, .rw, false, 0, []⟩]⟩,
  ⟨"SHF_INT_SET", 0x1800008, [], [⟨0, 5, .w1s, true, 0, []⟩, ⟨8, 9, .w1s, true, 0, []⟩]⟩,
  ⟨"SHF_TBL_SEL", 0x1800040, [], [⟨0, 32, .rw, false, 0, []⟩]⟩,
  ⟨"SHF_TBL_INDEX", 0x1800044, [], [⟨0, 32, .rw, false, 0, []⟩]⟩,
  ⟨"SHF_TBL_CMD", 0x1800048, [], [⟨0, 2, .wo, false, 0, []⟩, ⟨4, 4, .rw, false, 0, []⟩, ⟨16, 1, .ro, false, 0, []⟩, ⟨17, 3, .ro, false, 0, []⟩]⟩,
  ⟨"SHF_TBL_DATA", 0x1800080, [(16, 4)], [⟨0, 32, .rw, false, 0, []⟩]⟩,
  ⟨"THR_INT_STATUS", 0x2000000, [], [⟨0, 5, .w1c, false, 0, []⟩, ⟨8, 2, .w1c, false, 0, []⟩, ⟨16, 6, .w1c, false, 0, []⟩]⟩,
  ⟨"THR_INT_ENABLE", 0x2000004, [], [⟨0, 5, .rw, false, 0, []⟩, ⟨8, 2, .rw, false, 0, []⟩, ⟨16, 6, .rw, false, 0, []⟩]⟩,
  ⟨"THR_INT_SET", 0x2000008, [], [⟨0, 5, .w1s, true, 0, []⟩, ⟨8, 2, .w1s, true, 0, []⟩, ⟨16, 6, .w1s, true, 0, []⟩]⟩,
  ⟨"THR_TBL_SEL", 0x2000040, [], [⟨0, 32, .rw, false, 0, []⟩]⟩,
  ⟨"THR_TBL_INDEX", 0x2000044, [], [⟨0, 32, .rw, false, 0, []⟩]⟩,
  ⟨"THR_TBL_CMD", 0x2000048, [], [⟨0, 2, .wo, false, 0, []⟩, ⟨4, 4, .rw, false, 0, []⟩, ⟨16, 1, .ro, false, 0, []⟩, ⟨17, 3, .ro, false, 0, []⟩]⟩,
  ⟨"THR_TBL_DATA", 0x2000080, [(16, 4)], [⟨0, 32, .rw, false, 0, []⟩]⟩,
  ⟨"GRN_INT_STATUS", 0x2800000, [], [⟨0, 5, .w1c, false, 0, []⟩, ⟨8, 8, .w1c, false, 0, []⟩]⟩,
  ⟨"GRN_INT_ENABLE", 0x2800004, [], [⟨0, 5, .rw, false, 0, []⟩, ⟨8, 8, .rw, false, 0, []⟩]⟩,
  ⟨"GRN_INT_SET", 0x2800008, [], [⟨0, 5, .w1s, true, 0, []⟩, ⟨8, 8, .w1s, true, 0, []⟩]⟩]

/-- The common header of every block and instance (R48). -/
def mapHdr_2 : List RegRow := [
  ⟨"GRN_TBL_SEL", 0x2800040, [], [⟨0, 32, .rw, false, 0, []⟩]⟩,
  ⟨"GRN_TBL_INDEX", 0x2800044, [], [⟨0, 32, .rw, false, 0, []⟩]⟩,
  ⟨"GRN_TBL_CMD", 0x2800048, [], [⟨0, 2, .wo, false, 0, []⟩, ⟨4, 4, .rw, false, 0, []⟩, ⟨16, 1, .ro, false, 0, []⟩, ⟨17, 3, .ro, false, 0, []⟩]⟩,
  ⟨"GRN_TBL_DATA", 0x2800080, [(16, 4)], [⟨0, 32, .rw, false, 0, []⟩]⟩,
  ⟨"TMS_INT_STATUS", 0x3000000, [], [⟨0, 5, .w1c, false, 0, []⟩, ⟨8, 2, .w1c, false, 0, []⟩]⟩,
  ⟨"TMS_INT_ENABLE", 0x3000004, [], [⟨0, 5, .rw, false, 0, []⟩, ⟨8, 2, .rw, false, 0, []⟩]⟩,
  ⟨"TMS_INT_SET", 0x3000008, [], [⟨0, 5, .w1s, true, 0, []⟩, ⟨8, 2, .w1s, true, 0, []⟩]⟩,
  ⟨"TMS_TBL_SEL", 0x3000040, [], [⟨0, 32, .rw, false, 0, []⟩]⟩,
  ⟨"TMS_TBL_INDEX", 0x3000044, [], [⟨0, 32, .rw, false, 0, []⟩]⟩,
  ⟨"TMS_TBL_CMD", 0x3000048, [], [⟨0, 2, .wo, false, 0, []⟩, ⟨4, 4, .rw, false, 0, []⟩, ⟨16, 1, .ro, false, 0, []⟩, ⟨17, 3, .ro, false, 0, []⟩]⟩,
  ⟨"TMS_TBL_DATA", 0x3000080, [(16, 4)], [⟨0, 32, .rw, false, 0, []⟩]⟩,
  ⟨"SUB_INT_STATUS", 0x4000000, [(520, 0x1000)], [⟨0, 5, .w1c, false, 0, []⟩, ⟨8, 5, .w1c, false, 0, []⟩]⟩,
  ⟨"SUB_INT_ENABLE", 0x4000004, [(520, 0x1000)], [⟨0, 5, .rw, false, 0, []⟩, ⟨8, 5, .rw, false, 0, []⟩]⟩,
  ⟨"SUB_INT_SET", 0x4000008, [(520, 0x1000)], [⟨0, 5, .w1s, true, 0, []⟩, ⟨8, 5, .w1s, true, 0, []⟩]⟩,
  ⟨"SUB_TBL_SEL", 0x4000040, [(520, 0x1000)], [⟨0, 32, .rw, false, 0, []⟩]⟩,
  ⟨"SUB_TBL_INDEX", 0x4000044, [(520, 0x1000)], [⟨0, 32, .rw, false, 0, []⟩]⟩,
  ⟨"SUB_TBL_CMD", 0x4000048, [(520, 0x1000)], [⟨0, 2, .wo, false, 0, []⟩, ⟨4, 4, .rw, false, 0, []⟩, ⟨16, 1, .ro, false, 0, []⟩, ⟨17, 3, .ro, false, 0, []⟩]⟩,
  ⟨"SUB_TBL_DATA", 0x4000080, [(520, 0x1000), (16, 4)], [⟨0, 32, .rw, false, 0, []⟩]⟩,
  ⟨"SLT_INT_STATUS", 0x4800000, [], [⟨0, 5, .w1c, false, 0, []⟩, ⟨8, 5, .w1c, false, 0, []⟩]⟩,
  ⟨"SLT_INT_ENABLE", 0x4800004, [], [⟨0, 5, .rw, false, 0, []⟩, ⟨8, 5, .rw, false, 0, []⟩]⟩]

/-- The common header of every block and instance (R48). -/
def mapHdr_3 : List RegRow := [
  ⟨"SLT_INT_SET", 0x4800008, [], [⟨0, 5, .w1s, true, 0, []⟩, ⟨8, 5, .w1s, true, 0, []⟩]⟩,
  ⟨"SLT_TBL_SEL", 0x4800040, [], [⟨0, 32, .rw, false, 0, []⟩]⟩,
  ⟨"SLT_TBL_INDEX", 0x4800044, [], [⟨0, 32, .rw, false, 0, []⟩]⟩,
  ⟨"SLT_TBL_CMD", 0x4800048, [], [⟨0, 2, .wo, false, 0, []⟩, ⟨4, 4, .rw, false, 0, []⟩, ⟨16, 1, .ro, false, 0, []⟩, ⟨17, 3, .ro, false, 0, []⟩]⟩,
  ⟨"SLT_TBL_DATA", 0x4800080, [(16, 4)], [⟨0, 32, .rw, false, 0, []⟩]⟩,
  ⟨"TIM_INT_STATUS", 0x5000000, [], [⟨0, 5, .w1c, false, 0, []⟩, ⟨8, 9, .w1c, false, 0, []⟩]⟩,
  ⟨"TIM_INT_ENABLE", 0x5000004, [], [⟨0, 5, .rw, false, 0, []⟩, ⟨8, 9, .rw, false, 0, []⟩]⟩,
  ⟨"TIM_INT_SET", 0x5000008, [], [⟨0, 5, .w1s, true, 0, []⟩, ⟨8, 9, .w1s, true, 0, []⟩]⟩,
  ⟨"TIM_TBL_SEL", 0x5000040, [], [⟨0, 32, .rw, false, 0, []⟩]⟩,
  ⟨"TIM_TBL_INDEX", 0x5000044, [], [⟨0, 32, .rw, false, 0, []⟩]⟩,
  ⟨"TIM_TBL_CMD", 0x5000048, [], [⟨0, 2, .wo, false, 0, []⟩, ⟨4, 4, .rw, false, 0, []⟩, ⟨16, 1, .ro, false, 0, []⟩, ⟨17, 3, .ro, false, 0, []⟩]⟩,
  ⟨"TIM_TBL_DATA", 0x5000080, [(16, 4)], [⟨0, 32, .rw, false, 0, []⟩]⟩,
  ⟨"TIL_INT_STATUS", 0x5800000, [], [⟨0, 5, .w1c, false, 0, []⟩, ⟨8, 7, .w1c, false, 0, []⟩]⟩,
  ⟨"TIL_INT_ENABLE", 0x5800004, [], [⟨0, 5, .rw, false, 0, []⟩, ⟨8, 7, .rw, false, 0, []⟩]⟩,
  ⟨"TIL_INT_SET", 0x5800008, [], [⟨0, 5, .w1s, true, 0, []⟩, ⟨8, 7, .w1s, true, 0, []⟩]⟩,
  ⟨"ENG_INT_STATUS", 0x6000000, [(64, 0x10000)], [⟨0, 5, .w1c, false, 0, []⟩, ⟨8, 2, .w1c, false, 0, []⟩]⟩,
  ⟨"ENG_INT_ENABLE", 0x6000004, [(64, 0x10000)], [⟨0, 5, .rw, false, 0, []⟩, ⟨8, 2, .rw, false, 0, []⟩]⟩,
  ⟨"ENG_INT_SET", 0x6000008, [(64, 0x10000)], [⟨0, 5, .w1s, true, 0, []⟩, ⟨8, 2, .w1s, true, 0, []⟩]⟩,
  ⟨"CTL_INT_STATUS", 0x7000000, [], [⟨0, 5, .w1c, false, 0, []⟩, ⟨8, 7, .w1c, false, 0, []⟩]⟩,
  ⟨"CTL_INT_ENABLE", 0x7000004, [], [⟨0, 5, .rw, false, 0, []⟩, ⟨8, 7, .rw, false, 0, []⟩]⟩]

/-- The common header of every block and instance (R48). -/
def mapHdr_4 : List RegRow := [
  ⟨"CTL_INT_SET", 0x7000008, [], [⟨0, 5, .w1s, true, 0, []⟩, ⟨8, 7, .w1s, true, 0, []⟩]⟩,
  ⟨"CTL_TBL_SEL", 0x7000040, [], [⟨0, 32, .rw, false, 0, []⟩]⟩,
  ⟨"CTL_TBL_INDEX", 0x7000044, [], [⟨0, 32, .rw, false, 0, []⟩]⟩,
  ⟨"CTL_TBL_CMD", 0x7000048, [], [⟨0, 2, .wo, false, 0, []⟩, ⟨4, 4, .rw, false, 0, []⟩, ⟨16, 1, .ro, false, 0, []⟩, ⟨17, 3, .ro, false, 0, []⟩]⟩,
  ⟨"CTL_TBL_DATA", 0x7000080, [(16, 4)], [⟨0, 32, .rw, false, 0, []⟩]⟩,
  ⟨"HSK_INT_STATUS", 0x7800000, [], [⟨0, 5, .w1c, false, 0, []⟩, ⟨8, 3, .w1c, false, 0, []⟩]⟩,
  ⟨"HSK_INT_ENABLE", 0x7800004, [], [⟨0, 5, .rw, false, 0, []⟩, ⟨8, 3, .rw, false, 0, []⟩]⟩,
  ⟨"HSK_INT_SET", 0x7800008, [], [⟨0, 5, .w1s, true, 0, []⟩, ⟨8, 3, .w1s, true, 0, []⟩]⟩,
  ⟨"CIP_INT_STATUS", 0x8000000, [], [⟨0, 5, .w1c, false, 0, []⟩, ⟨8, 8, .w1c, false, 0, []⟩]⟩,
  ⟨"CIP_INT_ENABLE", 0x8000004, [], [⟨0, 5, .rw, false, 0, []⟩, ⟨8, 8, .rw, false, 0, []⟩]⟩,
  ⟨"CIP_INT_SET", 0x8000008, [], [⟨0, 5, .w1s, true, 0, []⟩, ⟨8, 8, .w1s, true, 0, []⟩]⟩,
  ⟨"CIP_TBL_SEL", 0x8000040, [], [⟨0, 32, .rw, false, 0, []⟩]⟩,
  ⟨"CIP_TBL_INDEX", 0x8000044, [], [⟨0, 32, .rw, false, 0, []⟩]⟩,
  ⟨"CIP_TBL_CMD", 0x8000048, [], [⟨0, 2, .wo, false, 0, []⟩, ⟨4, 4, .rw, false, 0, []⟩, ⟨16, 1, .ro, false, 0, []⟩, ⟨17, 3, .ro, false, 0, []⟩]⟩,
  ⟨"CIP_TBL_DATA", 0x8000080, [(16, 4)], [⟨0, 32, .rw, false, 0, []⟩]⟩,
  ⟨"TWN_INT_STATUS", 0x8800000, [], [⟨0, 5, .w1c, false, 0, []⟩, ⟨8, 13, .w1c, false, 0, []⟩]⟩,
  ⟨"TWN_INT_ENABLE", 0x8800004, [], [⟨0, 5, .rw, false, 0, []⟩, ⟨8, 13, .rw, false, 0, []⟩]⟩,
  ⟨"TWN_INT_SET", 0x8800008, [], [⟨0, 5, .w1s, true, 0, []⟩, ⟨8, 13, .w1s, true, 0, []⟩]⟩,
  ⟨"TWN_TBL_SEL", 0x8800040, [], [⟨0, 32, .rw, false, 0, []⟩]⟩,
  ⟨"TWN_TBL_INDEX", 0x8800044, [], [⟨0, 32, .rw, false, 0, []⟩]⟩]

/-- The common header of every block and instance (R48). -/
def mapHdr_5 : List RegRow := [
  ⟨"TWN_TBL_CMD", 0x8800048, [], [⟨0, 2, .wo, false, 0, []⟩, ⟨4, 4, .rw, false, 0, []⟩, ⟨16, 1, .ro, false, 0, []⟩, ⟨17, 3, .ro, false, 0, []⟩]⟩,
  ⟨"TWN_TBL_DATA", 0x8800080, [(16, 4)], [⟨0, 32, .rw, false, 0, []⟩]⟩,
  ⟨"PM_INT_STATUS", 0x9000000, [], [⟨0, 5, .w1c, false, 0, []⟩, ⟨8, 6, .w1c, false, 0, []⟩]⟩,
  ⟨"PM_INT_ENABLE", 0x9000004, [], [⟨0, 5, .rw, false, 0, []⟩, ⟨8, 6, .rw, false, 0, []⟩]⟩,
  ⟨"PM_INT_SET", 0x9000008, [], [⟨0, 5, .w1s, true, 0, []⟩, ⟨8, 6, .w1s, true, 0, []⟩]⟩,
  ⟨"PM_TBL_SEL", 0x9000040, [], [⟨0, 32, .rw, false, 0, []⟩]⟩,
  ⟨"PM_TBL_INDEX", 0x9000044, [], [⟨0, 32, .rw, false, 0, []⟩]⟩,
  ⟨"PM_TBL_CMD", 0x9000048, [], [⟨0, 2, .wo, false, 0, []⟩, ⟨4, 4, .rw, false, 0, []⟩, ⟨16, 1, .ro, false, 0, []⟩, ⟨17, 3, .ro, false, 0, []⟩]⟩,
  ⟨"PM_TBL_DATA", 0x9000080, [(16, 4)], [⟨0, 32, .rw, false, 0, []⟩]⟩]

/-- The common header of every block and instance (R48). -/
def mapHdr_6 : List RegRow := [
  ⟨"TIL_TBL_SEL", 0x5800040, [], [⟨0, 32, .rw, false, 0, []⟩]⟩,
  ⟨"TIL_TBL_INDEX", 0x5800044, [], [⟨0, 32, .rw, false, 0, []⟩]⟩,
  ⟨"TIL_TBL_CMD", 0x5800048, [], [⟨0, 2, .wo, false, 0, []⟩, ⟨4, 4, .rw, false, 0, []⟩, ⟨16, 1, .ro, false, 0, []⟩, ⟨17, 3, .ro, false, 0, []⟩]⟩,
  ⟨"TIL_TBL_DATA", 0x5800080, [(16, 4)], [⟨0, 32, .rw, false, 0, []⟩]⟩,
  ⟨"ENG_TBL_SEL", 0x6000040, [(64, 0x10000)], [⟨0, 32, .rw, false, 0, []⟩]⟩,
  ⟨"ENG_TBL_INDEX", 0x6000044, [(64, 0x10000)], [⟨0, 32, .rw, false, 0, []⟩]⟩,
  ⟨"ENG_TBL_CMD", 0x6000048, [(64, 0x10000)], [⟨0, 2, .wo, false, 0, []⟩, ⟨4, 4, .rw, false, 0, []⟩, ⟨16, 1, .ro, false, 0, []⟩, ⟨17, 3, .ro, false, 0, []⟩]⟩,
  ⟨"ENG_TBL_DATA", 0x6000080, [(64, 0x10000), (16, 4)], [⟨0, 32, .rw, false, 0, []⟩]⟩]

/-- The common header of every block and instance (R48). -/
def mapHdr : List RegRow := mapHdr_0 ++ mapHdr_1 ++ mapHdr_2 ++ mapHdr_3 ++ mapHdr_4 ++ mapHdr_5 ++ mapHdr_6

/-- Registers of block glb (spec/02, spec/21). -/
def mapGlb : List RegRow := [
  ⟨"GLB_CHIP_ID", 0x100, [], [⟨0, 16, .ro, false, 0xA01, []⟩, ⟨16, 16, .ro, false, 0x4512, []⟩]⟩,
  ⟨"GLB_STRAP", 0x104, [], [⟨0, 2, .ro, false, 0, []⟩, ⟨2, 1, .ro, false, 0, []⟩, ⟨3, 1, .ro, false, 0, []⟩, ⟨4, 1, .ro, false, 0, []⟩, ⟨5, 1, .ro, false, 0, []⟩]⟩,
  ⟨"GLB_RESET_CAUSE", 0x108, [], [⟨0, 1, .w1c, false, 1, []⟩, ⟨1, 1, .w1c, false, 0, []⟩, ⟨2, 1, .w1c, false, 0, []⟩, ⟨3, 1, .w1c, false, 0, []⟩, ⟨4, 1, .w1c, false, 0, []⟩, ⟨8, 8, .ro, false, 0, []⟩]⟩,
  ⟨"GLB_SOFT_RESET", 0x110, [], [⟨2, 30, .w1s, true, 0, []⟩]⟩,
  ⟨"GLB_CHIP_RESET", 0x114, [], [⟨0, 32, .wo, false, 0, []⟩]⟩,
  ⟨"GLB_INT_SUMMARY", 0x120, [], [⟨0, 1, .ro, false, 0, []⟩, ⟨1, 1, .ro, false, 0, []⟩, ⟨2, 1, .ro, false, 0, []⟩, ⟨3, 4, .ro, false, 0, []⟩, ⟨7, 1, .ro, false, 0, []⟩, ⟨8, 1, .ro, false, 0, []⟩, ⟨9, 1, .ro, false, 0, []⟩, ⟨10, 1, .ro, false, 0, []⟩, ⟨11, 1, .ro, false, 0, []⟩, ⟨12, 1, .ro, false, 0, []⟩, ⟨13, 1, .ro, false, 0, []⟩, ⟨14, 1, .ro, false, 0, []⟩, ⟨15, 1, .ro, false, 0, []⟩, ⟨16, 1, .ro, false, 0, []⟩, ⟨17, 1, .ro, false, 0, []⟩, ⟨18, 1, .ro, false, 0, []⟩, ⟨19, 1, .ro, false, 0, []⟩, ⟨20, 1, .ro, false, 0, []⟩]⟩,
  ⟨"GLB_INT_EOI", 0x124, [], [⟨0, 5, .wo, false, 0, []⟩]⟩,
  ⟨"GLB_INT_SUB_PEND", 0x140, [(17, 4)], [⟨0, 32, .ro, false, 0, []⟩]⟩,
  ⟨"GLB_INT_ENG_PEND", 0x184, [(2, 4)], [⟨0, 32, .ro, false, 0, []⟩]⟩,
  ⟨"GLB_BUS_ERR_ADDR", 0x190, [], [⟨0, 32, .ro, false, 0, []⟩]⟩,
  ⟨"GLB_BUS_ERR_INFO", 0x194, [], [⟨0, 8, .ro, false, 0, []⟩, ⟨8, 1, .ro, false, 0, []⟩, ⟨9, 3, .ro, false, 0, []⟩, ⟨31, 1, .w1c, false, 0, []⟩]⟩,
  ⟨"GLB_BUS_ERR_ADDR_HI", 0x198, [], [⟨0, 5, .ro, false, 0, []⟩]⟩,
  ⟨"GLB_BUS_ERR_COUNT", 0x19C, [], [⟨0, 32, .rc, false, 0, []⟩]⟩,
  ⟨"GLB_INT_ROUTE", 0x200, [(32, 4)], [⟨0, 4, .rw, false, 1, []⟩, ⟨8, 1, .rw, false, 0, []⟩, ⟨16, 11, .rw, false, 0, []⟩, ⟨31, 1, .rw, false, 0, []⟩]⟩,
  ⟨"GLB_CLK_STATUS", 0x300, [], [⟨0, 1, .ro, false, 0, []⟩, ⟨1, 1, .ro, false, 0, []⟩, ⟨2, 1, .ro, false, 0, []⟩, ⟨3, 1, .ro, false, 0, []⟩, ⟨4, 1, .ro, false, 0, []⟩, ⟨5, 1, .ro, false, 0, []⟩]⟩,
  ⟨"GLB_GPIO_OUT", 0x310, [], [⟨0, 16, .rw, false, 0, []⟩, ⟨16, 16, .rw, false, 0, []⟩]⟩,
  ⟨"GLB_GPIO_IN", 0x314, [], [⟨0, 16, .ro, false, 0, []⟩, ⟨16, 16, .rw, false, 0, []⟩]⟩]

/-- Registers of block trk (spec/03). -/
def mapTrk_0 : List RegRow := [
  ⟨"TRK_PMA_CTRL", 0x1001000, [(4, 0x100000)], [⟨0, 1, .rw, true, 0, []⟩, ⟨1, 1, .rw, false, 0, []⟩, ⟨2, 2, .rw, false, 2, [(0, 2)]⟩, ⟨4, 1, .rw, false, 0, []⟩, ⟨5, 1, .rw, false, 0, []⟩, ⟨6, 1, .rw, false, 0, []⟩]⟩,
  ⟨"TRK_PMA_STATUS", 0x1001004, [(4, 0x100000)], [⟨0, 2, .ro, false, 0, []⟩, ⟨2, 1, .ro, false, 0, []⟩, ⟨3, 1, .ro, false, 0, []⟩, ⟨4, 1, .ro, false, 0, []⟩, ⟨5, 1, .ro, false, 1, []⟩, ⟨6, 1, .ro, false, 0, []⟩, ⟨7, 1, .ro, false, 1, []⟩, ⟨8, 1, .ro, false, 1, []⟩, ⟨9, 1, .ro, false, 0, []⟩, ⟨10, 1, .ro, false, 0, []⟩, ⟨11, 1, .ro, false, 0, []⟩]⟩,
  ⟨"TRK_RX_EQ_STATUS", 0x1001010, [(4, 0x100000)], [⟨0, 5, .ro, false, 0, []⟩, ⟨8, 6, .ro, false, 0, []⟩, ⟨16, 8, .ro, false, 0, []⟩, ⟨24, 1, .ro, false, 0, []⟩]⟩,
  ⟨"TRK_RX_BOUNDS", 0x1001014, [(4, 0x100000)], [⟨0, 5, .rw, true, 0, []⟩, ⟨8, 5, .rw, true, 0x1F, []⟩, ⟨16, 6, .rw, true, 0x20, []⟩, ⟨24, 6, .rw, true, 0x1F, []⟩, ⟨31, 1, .rw, true, 1, []⟩]⟩,
  ⟨"TRK_RX_CLAMP_COUNT", 0x1001018, [(4, 0x100000)], [⟨0, 32, .rc, false, 0, []⟩]⟩,
  ⟨"TRK_LOS_CFG", 0x1001020, [(4, 0x100000)], [⟨0, 1, .rw, true, 1, []⟩, ⟨1, 1, .rw, true, 1, []⟩, ⟨2, 6, .rw, true, 0xA, []⟩, ⟨8, 8, .rw, true, 0xA, [(1, 255)]⟩, ⟨16, 16, .rw, true, 0x64, [(10, 65535)]⟩]⟩,
  ⟨"TRK_BEN_TIMING", 0x1001030, [(4, 0x100000)], [⟨0, 10, .rw, false, 0x40, []⟩, ⟨16, 10, .rw, false, 0x20, []⟩]⟩,
  ⟨"TRK_GUARD_CFG", 0x1001034, [(4, 0x100000)], [⟨0, 8, .rw, false, 0x7E, [(1, 130)]⟩, ⟨8, 4, .rw, false, 3, [(1, 15)]⟩]⟩,
  ⟨"TRK_GUARD_STATUS", 0x1001038, [(4, 0x100000)], [⟨0, 1, .w1c, false, 0, []⟩, ⟨1, 3, .ro, false, 0, []⟩, ⟨4, 1, .ro, false, 0, []⟩, ⟨8, 8, .ro, false, 0, []⟩, ⟨16, 16, .ro, false, 0, []⟩]⟩,
  ⟨"TRK_TWI_CFG", 0x1001040, [(4, 0x100000)], [⟨0, 1, .rw, false, 0, []⟩, ⟨8, 8, .rw, false, 0x19, [(1, 255)]⟩, ⟨16, 1, .wo, false, 0, []⟩]⟩,
  ⟨"TRK_TWI_CMD", 0x1001044, [(4, 0x100000)], [⟨0, 7, .rw, false, 0x50, []⟩, ⟨7, 1, .rw, false, 1, []⟩, ⟨8, 8, .rw, false, 0, []⟩, ⟨16, 6, .rw, false, 0, []⟩, ⟨24, 1, .wo, false, 0, []⟩, ⟨25, 1, .ro, false, 0, []⟩, ⟨26, 3, .ro, false, 0, []⟩]⟩,
  ⟨"TRK_TWI_MON_CFG", 0x1001048, [(4, 0x100000)], [⟨0, 7, .rw, false, 0x51, []⟩, ⟨8, 8, .rw, false, 0x60, []⟩, ⟨16, 4, .rw, false, 9, []⟩, ⟨20, 12, .rw, false, 0xA, [(0, 1000)]⟩]⟩,
  ⟨"TRK_TWI_MON", 0x1001050, [(4, 0x100000), (4, 4)], [⟨0, 32, .ro, false, 0, []⟩]⟩,
  ⟨"TRK_TWI_DATA", 0x1001080, [(4, 0x100000), (16, 4)], [⟨0, 32, .rw, false, 0, []⟩]⟩,
  ⟨"TRK_PRBS_CTRL", 0x1001100, [(4, 0x100000)], [⟨0, 3, .rw, false, 0, [(0, 5)]⟩, ⟨4, 3, .rw, false, 0, [(0, 4)]⟩, ⟨8, 1, .rw, false, 0, []⟩, ⟨9, 1, .wo, false, 0, []⟩]⟩,
  ⟨"TRK_PRBS_STATUS", 0x1001104, [(4, 0x100000)], [⟨0, 1, .ro, false, 0, []⟩, ⟨1, 1, .w1c, false, 0, []⟩]⟩,
  ⟨"TRK_PRBS_ERR", 0x1001110, [(4, 0x100000)], [⟨0, 32, .c64lo, false, 0, []⟩]⟩,
  ⟨"TRK_PRBS_ERR_HI", 0x1001114, [(4, 0x100000)], [⟨0, 32, .c64hi, false, 0, []⟩]⟩,
  ⟨"TRK_PRBS_BITS", 0x1001118, [(4, 0x100000)], [⟨0, 32, .c64lo, false, 0, []⟩]⟩,
  ⟨"TRK_PRBS_BITS_HI", 0x100111C, [(4, 0x100000)], [⟨0, 32, .c64hi, false, 0, []⟩]⟩]

/-- Registers of block trk (spec/03). -/
def mapTrk_1 : List RegRow := [
  ⟨"TRK_TEST_BURST", 0x1001120, [(4, 0x100000)], [⟨0, 10, .rw, false, 0, [(0, 0), (2, 1000)]⟩, ⟨16, 8, .rw, false, 0, []⟩, ⟨31, 1, .rw, false, 0, []⟩]⟩]

/-- Registers of block trk (spec/03). -/
def mapTrk : List RegRow := mapTrk_0 ++ mapTrk_1

/-- Registers of block dln (spec/04). -/
def mapDln : List RegRow := [
  ⟨"TRK_DLN_CFG", 0x1002000, [(4, 0x100000)], [⟨0, 3, .rw, false, 2, [(1, 7)]⟩, ⟨4, 4, .rw, false, 3, [(1, 15)]⟩, ⟨8, 2, .rw, false, 0, []⟩, ⟨10, 6, .rw, false, 0xC, [(1, 32)]⟩, ⟨16, 1, .wo, false, 0, []⟩]⟩,
  ⟨"TRK_DLN_STATUS", 0x1002004, [(4, 0x100000)], [⟨0, 2, .ro, false, 0, []⟩, ⟨2, 1, .ro, false, 0, []⟩, ⟨3, 1, .ro, false, 1, []⟩, ⟨4, 3, .ro, false, 0, []⟩, ⟨8, 4, .ro, false, 0, []⟩, ⟨12, 4, .ro, false, 0, []⟩]⟩,
  ⟨"TRK_SFC", 0x1002008, [(4, 0x100000)], [⟨0, 32, .sfclo, false, 0, []⟩]⟩,
  ⟨"TRK_SFC_HI", 0x100200C, [(4, 0x100000)], [⟨0, 19, .sfchi, false, 0, []⟩]⟩,
  ⟨"TRK_ONU_ID", 0x1002010, [(4, 0x100000)], [⟨0, 10, .rw, false, 0x3FF, []⟩, ⟨16, 1, .rw, false, 0, []⟩]⟩,
  ⟨"TRK_PLOAM_RX", 0x1002014, [(4, 0x100000)], [⟨0, 6, .ro, false, 0, []⟩, ⟨8, 1, .wo, false, 0, []⟩]⟩,
  ⟨"TRK_FEC_CW", 0x1002040, [(4, 0x100000)], [⟨0, 32, .c64lo, false, 0, []⟩]⟩,
  ⟨"TRK_FEC_CW_HI", 0x1002044, [(4, 0x100000)], [⟨0, 32, .c64hi, false, 0, []⟩]⟩,
  ⟨"TRK_FEC_CW_CORR", 0x1002048, [(4, 0x100000)], [⟨0, 32, .c64lo, false, 0, []⟩]⟩,
  ⟨"TRK_FEC_CW_CORR_HI", 0x100204C, [(4, 0x100000)], [⟨0, 32, .c64hi, false, 0, []⟩]⟩,
  ⟨"TRK_FEC_CW_UNCORR", 0x1002050, [(4, 0x100000)], [⟨0, 32, .c64lo, false, 0, []⟩]⟩,
  ⟨"TRK_FEC_CW_UNCORR_HI", 0x1002054, [(4, 0x100000)], [⟨0, 32, .c64hi, false, 0, []⟩]⟩,
  ⟨"TRK_FEC_BITS_CORR", 0x1002058, [(4, 0x100000)], [⟨0, 32, .c64lo, false, 0, []⟩]⟩,
  ⟨"TRK_FEC_BITS_CORR_HI", 0x100205C, [(4, 0x100000)], [⟨0, 32, .c64hi, false, 0, []⟩]⟩,
  ⟨"TRK_DLN_CNT", 0x1002100, [(4, 0x100000), (24, 4)], [⟨0, 32, .rc, false, 0, []⟩]⟩]

/-- Registers of block act (spec/05). -/
def mapAct : List RegRow := [
  ⟨"TRK_ACT_CTRL", 0x1003000, [(4, 0x100000)], [⟨0, 1, .rw, false, 0, []⟩, ⟨1, 1, .rw, true, 0, []⟩, ⟨2, 1, .rw, true, 0, []⟩, ⟨3, 1, .rw, false, 1, []⟩, ⟨8, 3, .wo, false, 0, []⟩, ⟨16, 6, .rw, false, 0x30, []⟩]⟩,
  ⟨"TRK_ACT_STATUS", 0x1003004, [(4, 0x100000)], [⟨0, 4, .ro, false, 1, []⟩, ⟨4, 2, .ro, false, 0, []⟩, ⟨6, 1, .ro, false, 0, []⟩, ⟨7, 1, .ro, false, 0, []⟩, ⟨8, 1, .ro, false, 0, []⟩, ⟨9, 1, .ro, false, 0, []⟩]⟩,
  ⟨"TRK_SERIAL", 0x1003008, [(4, 0x100000)], [⟨0, 32, .rw, false, 0, []⟩]⟩,
  ⟨"TRK_SERIAL_HI", 0x100300C, [(4, 0x100000)], [⟨0, 32, .rw, false, 0, []⟩]⟩,
  ⟨"TRK_ACT_TIMERS", 0x1003010, [(4, 0x100000)], [⟨0, 8, .rw, false, 0x64, [(1, 255)]⟩, ⟨16, 10, .rw, false, 0x64, [(1, 1000)]⟩]⟩,
  ⟨"TRK_EQD", 0x1003014, [(4, 0x100000)], [⟨0, 32, .rw, true, 0, []⟩]⟩,
  ⟨"TRK_EQD_ACTIVE", 0x1003018, [(4, 0x100000)], [⟨0, 32, .ro, false, 0, []⟩]⟩,
  ⟨"TRK_US_CFG", 0x1003020, [(4, 0x100000)], [⟨0, 4, .rw, false, 2, [(1, 8)]⟩, ⟨4, 4, .rw, false, 4, [(0, 8)]⟩, ⟨8, 10, .rw, false, 0x7D, [(0, 1000)]⟩]⟩,
  ⟨"TRK_LA_CLAMP_COUNT", 0x1003024, [(4, 0x100000)], [⟨0, 32, .rc, false, 0, []⟩]⟩,
  ⟨"TRK_KEY_SWITCH", 0x1003028, [(4, 0x100000)], [⟨0, 2, .ro, false, 1, []⟩, ⟨2, 2, .rw, false, 2, [(1, 2)]⟩, ⟨4, 1, .w1s, true, 0, []⟩]⟩,
  ⟨"TRK_KEY_SWITCH_SFC", 0x1003030, [(4, 0x100000)], [⟨0, 32, .rw, false, 0, []⟩]⟩,
  ⟨"TRK_KEY_SWITCH_SFC_HI", 0x1003034, [(4, 0x100000)], [⟨0, 19, .rw, false, 0, []⟩]⟩,
  ⟨"TRK_WS_CFG", 0x1003038, [(4, 0x100000)], [⟨0, 8, .rw, false, 0xA, [(4, 250)]⟩, ⟨16, 7, .rw, false, 0xA, [(1, 100)]⟩]⟩,
  ⟨"TRK_PLOAM_TX", 0x100303C, [(4, 0x100000)], [⟨0, 4, .ro, false, 0, []⟩, ⟨8, 1, .wo, false, 0, []⟩]⟩,
  ⟨"TRK_ACT_CNT", 0x1003100, [(4, 0x100000), (16, 4)], [⟨0, 32, .rc, false, 0, []⟩]⟩]

/-- Registers of block shf (spec/06). -/
def mapShf : List RegRow := [
  ⟨"SHF_JOIN_CFG", 0x1800100, [], [⟨0, 8, .rw, false, 0xA, [(1, 255)]⟩, ⟨8, 4, .rw, false, 8, [(1, 15)]⟩, ⟨12, 8, .rw, false, 0x14, [(1, 255)]⟩, ⟨20, 12, .rw, false, 0x3E8, [(1, 4095)]⟩]⟩,
  ⟨"SHF_CHAN_CFG", 0x1800110, [(4, 4)], [⟨0, 1, .rw, false, 0, []⟩]⟩,
  ⟨"SHF_GRP_CFG", 0x1801000, [(16, 0x100)], [⟨0, 1, .rw, false, 1, []⟩, ⟨1, 1, .rw, false, 0, []⟩, ⟨4, 12, .rw, false, 0xFA, [(10, 2000)]⟩, ⟨16, 16, .rw, false, 0, []⟩]⟩,
  ⟨"SHF_GRP_QRANGE", 0x1801004, [(16, 0x100)], [⟨0, 16, .rw, false, 0, []⟩, ⟨16, 16, .rw, false, 0, []⟩]⟩,
  ⟨"SHF_SHED_CFG", 0x1801008, [(16, 0x100)], [⟨0, 1, .rw, false, 0, []⟩, ⟨1, 3, .rw, false, 1, [(1, 4)]⟩, ⟨4, 3, .rw, false, 4, [(1, 4)]⟩, ⟨8, 7, .rw, false, 0x50, [(1, 100)]⟩, ⟨16, 7, .rw, false, 0x3C, [(1, 99)]⟩, ⟨24, 4, .rw, false, 0xA, [(1, 15)]⟩]⟩,
  ⟨"SHF_SHED_CAP", 0x180100C, [(16, 0x100)], [⟨0, 20, .rw, false, 0xA21C, [(1, 1000000)]⟩, ⟨20, 12, .rw, false, 0xA, [(1, 1000)]⟩]⟩,
  ⟨"SHF_SHED_CLAMP_COUNT", 0x1801010, [(16, 0x100)], [⟨0, 32, .rc, false, 0, []⟩]⟩,
  ⟨"SHF_GRP_RX_STATUS", 0x1801014, [(16, 0x100)], [⟨0, 24, .ro, false, 0, []⟩, ⟨24, 1, .ro, false, 0, []⟩]⟩,
  ⟨"SHF_GRP_TX_STATUS", 0x1801018, [(16, 0x100)], [⟨0, 24, .ro, false, 0, []⟩, ⟨24, 4, .ro, false, 0, []⟩]⟩,
  ⟨"SHF_GRP_HOLD", 0x180101C, [(16, 0x100)], [⟨0, 16, .rw, false, 0x1000, [(1, 65535)]⟩, ⟨16, 16, .ro, false, 0, []⟩]⟩,
  ⟨"SHF_MBR_CTRL", 0x1801020, [(16, 0x100), (4, 8)], [⟨0, 1, .rw, true, 0, []⟩, ⟨1, 1, .wo, false, 0, []⟩, ⟨4, 10, .rw, false, 0, []⟩]⟩,
  ⟨"SHF_MBR_STATUS", 0x1801024, [(16, 0x100), (4, 8)], [⟨0, 2, .ro, false, 0, []⟩, ⟨2, 1, .ro, false, 0, []⟩, ⟨3, 1, .ro, false, 0, []⟩, ⟨4, 3, .ro, false, 0, []⟩, ⟨8, 4, .ro, false, 0, []⟩, ⟨12, 16, .ro, false, 0, []⟩]⟩,
  ⟨"SHF_GRP_CNT", 0x1801040, [(16, 0x100), (16, 4)], [⟨0, 32, .rc, false, 0, []⟩]⟩]

/-- Registers of block prs (spec/07). -/
def mapPrs : List RegRow := [
  ⟨"THR_PRS_CFG", 0x2001000, [(2, 0x100)], [⟨0, 18, .rw, false, 0, []⟩, ⟨18, 1, .rw, false, 1, []⟩]⟩,
  ⟨"THR_PRS_COPY", 0x2001004, [(2, 0x100)], [⟨0, 10, .rw, false, 0, []⟩, ⟨16, 4, .rw, false, 0, []⟩]⟩,
  ⟨"THR_PRS_CAPT", 0x2001008, [(2, 0x100)], [⟨0, 6, .ro, false, 0, []⟩, ⟨6, 10, .ro, false, 0, []⟩, ⟨16, 4, .ro, false, 0, []⟩, ⟨20, 8, .ro, false, 0, []⟩, ⟨31, 1, .w1c, false, 0, []⟩]⟩,
  ⟨"THR_PRS_DEPTH_CNT", 0x200100C, [(2, 0x100)], [⟨0, 32, .rc, false, 0, []⟩]⟩,
  ⟨"THR_PRS_PARSED", 0x2001010, [(2, 0x100)], [⟨0, 32, .c64lo, false, 0, []⟩]⟩,
  ⟨"THR_PRS_PARSED_HI", 0x2001014, [(2, 0x100)], [⟨0, 32, .c64hi, false, 0, []⟩]⟩,
  ⟨"THR_CHAFF_CNT", 0x2001400, [(2, 0x100), (64, 4)], [⟨0, 32, .rc, false, 0, []⟩]⟩]

/-- Registers of block cls (spec/08). -/
def mapCls : List RegRow := [
  ⟨"THR_CLS_CFG", 0x2002000, [], [⟨0, 16, .rw, false, 0x12C, [(0, 0), (2, 65535)]⟩, ⟨16, 16, .rw, false, 0, []⟩]⟩,
  ⟨"THR_CTX_BASE", 0x2002004, [], [⟨0, 9, .rw, false, 0, []⟩, ⟨31, 1, .rw, false, 0, []⟩]⟩,
  ⟨"THR_CTX_UPDATE", 0x2002010, [], [⟨0, 20, .rw, false, 0, []⟩, ⟨20, 8, .rw, false, 0, []⟩, ⟨31, 1, .wo, false, 0, []⟩]⟩,
  ⟨"THR_CTX_INVAL", 0x2002014, [], [⟨0, 20, .rw, false, 0, []⟩, ⟨31, 1, .wo, false, 0, []⟩]⟩,
  ⟨"THR_CTX_STATUS", 0x2002018, [], [⟨0, 1, .ro, false, 0, []⟩, ⟨1, 2, .ro, false, 0, []⟩]⟩,
  ⟨"THR_EPOCH_CTRL", 0x2002020, [], [⟨0, 1, .wo, false, 0, []⟩]⟩,
  ⟨"THR_EPOCH_STATUS", 0x2002024, [], [⟨0, 4, .ro, false, 0, []⟩, ⟨4, 4, .ro, false, 0, []⟩, ⟨8, 1, .ro, false, 1, []⟩, ⟨16, 16, .ro, false, 0, []⟩]⟩,
  ⟨"THR_CTX_DATA", 0x2002040, [(16, 4)], [⟨0, 32, .rw, false, 0, []⟩]⟩,
  ⟨"THR_SLICE_CFG", 0x2002100, [(16, 4)], [⟨0, 2, .rw, false, 0, []⟩, ⟨2, 2, .rw, false, 0, [(0, 2)]⟩, ⟨4, 2, .rw, false, 0, []⟩, ⟨6, 2, .rw, false, 3, [(1, 3)]⟩]⟩,
  ⟨"THR_CLS_CNT", 0x2002200, [(22, 4)], [⟨0, 32, .rc, false, 0, []⟩]⟩]

/-- Registers of block grn (spec/09). -/
def mapGrn : List RegRow := [
  ⟨"GRN_POOL_DS", 0x2801000, [], [⟨0, 19, .rw, false, 0x20000, [(0, 262144)]⟩]⟩,
  ⟨"GRN_POOL_US", 0x2801004, [], [⟨0, 19, .rw, false, 0x18000, [(0, 262144)]⟩]⟩,
  ⟨"GRN_POOL_CFG", 0x2801008, [], [⟨0, 16, .rw, false, 0x2000, []⟩]⟩,
  ⟨"GRN_POOL_PAUSE", 0x280100C, [], [⟨0, 16, .rw, false, 0x400, []⟩, ⟨16, 16, .rw, false, 0x600, []⟩]⟩,
  ⟨"GRN_POOL_STATUS", 0x2801010, [], [⟨0, 19, .ro, false, 0x40000, []⟩]⟩,
  ⟨"GRN_Q_FLUSH", 0x2801020, [], [⟨0, 18, .rw, false, 0, []⟩, ⟨30, 1, .ro, false, 0, []⟩, ⟨31, 1, .wo, false, 0, []⟩]⟩,
  ⟨"GRN_DRAM_CFG", 0x2801100, [], [⟨0, 2, .rw, false, 2, [(0, 2)]⟩, ⟨2, 2, .rw, false, 0, []⟩, ⟨4, 8, .rw, false, 4, [(1, 255)]⟩, ⟨16, 1, .wo, false, 0, []⟩, ⟨17, 1, .ro, false, 0, []⟩]⟩,
  ⟨"GRN_DRAM_LOOP", 0x2801104, [], [⟨0, 3, .rw, false, 0, [(0, 4)]⟩, ⟨4, 3, .rw, false, 4, [(0, 4)]⟩, ⟨8, 5, .rw, false, 0xA, [(1, 25)]⟩, ⟨16, 8, .rw, false, 0x10, [(1, 255)]⟩]⟩,
  ⟨"GRN_DRAM_CLAMP_COUNT", 0x2801108, [], [⟨0, 32, .rc, false, 0, []⟩]⟩,
  ⟨"GRN_POOL_USED_DS", 0x2801014, [], [⟨0, 19, .ro, false, 0, []⟩]⟩,
  ⟨"GRN_POOL_USED_US", 0x2801018, [], [⟨0, 19, .ro, false, 0, []⟩]⟩,
  ⟨"GRN_DRAM_CH_CTRL", 0x2801110, [(4, 8)], [⟨0, 1, .wo, false, 0, []⟩, ⟨1, 1, .wo, false, 0, []⟩]⟩,
  ⟨"GRN_DRAM_CH_STATUS", 0x2801114, [(4, 8)], [⟨0, 2, .ro, false, 0, []⟩, ⟨2, 1, .ro, false, 0, []⟩, ⟨3, 3, .ro, false, 2, []⟩, ⟨8, 24, .ro, false, 0, []⟩]⟩,
  ⟨"GRN_CNT", 0x2801200, [(18, 4)], [⟨0, 32, .rc, false, 0, []⟩]⟩]

/-- Registers of block tms (spec/10). -/
def mapTms : List RegRow := [
  ⟨"TMS_SHP_CMD", 0x3001000, [], [⟨0, 3, .rw, false, 0, [(0, 5)]⟩, ⟨4, 16, .rw, false, 0, []⟩, ⟨20, 2, .rw, false, 3, []⟩, ⟨30, 1, .ro, false, 0, []⟩, ⟨31, 1, .wo, false, 0, []⟩]⟩,
  ⟨"TMS_SCH_CNT", 0x3001100, [(4, 4)], [⟨0, 32, .rc, false, 0, []⟩]⟩,
  ⟨"TMS_DEQ_DS", 0x3001200, [], [⟨0, 32, .c64lo, false, 0, []⟩]⟩,
  ⟨"TMS_DEQ_DS_HI", 0x3001204, [], [⟨0, 32, .c64hi, false, 0, []⟩]⟩,
  ⟨"TMS_DEQ_US", 0x3001208, [], [⟨0, 32, .c64lo, false, 0, []⟩]⟩,
  ⟨"TMS_DEQ_US_HI", 0x300120C, [], [⟨0, 32, .c64hi, false, 0, []⟩]⟩]

/-- Registers of block srd (spec/11). -/
def mapSrd : List RegRow := [
  ⟨"SRD_LANE_CTRL", 0x211000, [(64, 0x10000)], [⟨0, 1, .rw, true, 0, []⟩, ⟨1, 3, .rw, false, 3, [(0, 5)]⟩, ⟨4, 1, .rw, false, 0, []⟩, ⟨5, 1, .rw, false, 0, []⟩, ⟨6, 1, .rw, false, 1, []⟩, ⟨7, 1, .rw, false, 0, []⟩, ⟨8, 1, .rw, false, 1, []⟩, ⟨9, 1, .rw, false, 0, []⟩, ⟨10, 1, .rw, false, 0, []⟩, ⟨11, 1, .rw, false, 0, []⟩]⟩,
  ⟨"SRD_LANE_CTRL", 0x611000, [(8, 0x10000)], [⟨4, 1, .rw, false, 0, []⟩, ⟨5, 1, .rw, false, 0, []⟩, ⟨6, 1, .rw, false, 1, []⟩, ⟨7, 1, .rw, false, 0, []⟩, ⟨10, 1, .rw, false, 0, []⟩, ⟨11, 1, .rw, false, 0, []⟩]⟩,
  ⟨"SRD_LANE_STATUS", 0x211004, [(72, 0x10000)], [⟨0, 2, .ro, false, 0, []⟩, ⟨2, 1, .ro, false, 0, []⟩, ⟨3, 1, .ro, false, 0, []⟩, ⟨4, 1, .ro, false, 0, []⟩, ⟨5, 1, .ro, false, 0, []⟩, ⟨6, 3, .ro, false, 3, []⟩, ⟨9, 1, .ro, false, 0, []⟩, ⟨10, 1, .ro, false, 0, []⟩, ⟨11, 1, .ro, false, 0, []⟩, ⟨12, 1, .ro, false, 0, []⟩]⟩,
  ⟨"SRD_LANE_EQ", 0x211008, [(72, 0x10000)], [⟨0, 4, .rw, true, 0, []⟩, ⟨4, 4, .rw, true, 0xF, []⟩, ⟨8, 4, .ro, false, 0, []⟩, ⟨31, 1, .rw, true, 1, []⟩]⟩,
  ⟨"SRD_RD_CFG", 0x211010, [(64, 0x10000)], [⟨0, 2, .rw, false, 0, []⟩, ⟨2, 2, .rw, false, 3, []⟩, ⟨4, 4, .rw, false, 0xA, [(1, 15)]⟩, ⟨8, 7, .rw, false, 0x32, [(1, 99)]⟩, ⟨16, 7, .rw, false, 0x50, [(1, 100)]⟩, ⟨24, 8, .rw, false, 0x64, [(1, 255)]⟩]⟩,
  ⟨"SRD_LANE_CLAMP_COUNT", 0x211014, [(72, 0x10000)], [⟨0, 32, .rc, false, 0, []⟩]⟩,
  ⟨"SRD_RECAL", 0x211020, [(72, 0x10000)], [⟨0, 1, .wo, false, 0, []⟩, ⟨8, 16, .rw, false, 0, []⟩]⟩,
  ⟨"SRD_PRBS_CTRL", 0x211030, [(72, 0x10000)], [⟨0, 3, .rw, false, 0, [(0, 5)]⟩, ⟨4, 3, .rw, false, 0, [(0, 4)]⟩, ⟨8, 1, .rw, false, 0, []⟩, ⟨9, 1, .wo, false, 0, []⟩]⟩,
  ⟨"SRD_PRBS_STATUS", 0x211034, [(72, 0x10000)], [⟨0, 1, .ro, false, 0, []⟩, ⟨1, 1, .w1c, false, 0, []⟩]⟩,
  ⟨"SRD_PRBS_ERR", 0x211040, [(72, 0x10000)], [⟨0, 32, .c64lo, false, 0, []⟩]⟩,
  ⟨"SRD_PRBS_ERR_HI", 0x211044, [(72, 0x10000)], [⟨0, 32, .c64hi, false, 0, []⟩]⟩,
  ⟨"SRD_PRBS_BITS", 0x211048, [(72, 0x10000)], [⟨0, 32, .c64lo, false, 0, []⟩]⟩,
  ⟨"SRD_PRBS_BITS_HI", 0x21104C, [(72, 0x10000)], [⟨0, 32, .c64hi, false, 0, []⟩]⟩,
  ⟨"SRD_LANE_CNT", 0x211100, [(64, 0x10000), (4, 4)], [⟨0, 32, .rc, false, 0, []⟩]⟩,
  ⟨"SRD_MDIO_CFG", 0x201000, [(4, 0x20)], [⟨0, 2, .rw, false, 1, []⟩, ⟨2, 1, .rw, false, 0, []⟩, ⟨8, 8, .rw, false, 0xA, []⟩, ⟨16, 16, .rc, false, 0, []⟩]⟩,
  ⟨"SRD_MDIO_CMD", 0x201004, [(4, 0x20)], [⟨0, 5, .rw, false, 0, []⟩, ⟨5, 5, .rw, false, 0, []⟩, ⟨10, 2, .rw, false, 1, []⟩, ⟨12, 1, .rw, false, 0, []⟩, ⟨13, 1, .wo, false, 0, []⟩, ⟨14, 1, .ro, false, 0, []⟩, ⟨15, 1, .ro, false, 0, []⟩, ⟨16, 16, .rw, false, 0, []⟩]⟩]

/-- Registers of block sub (spec/11, spec/13). -/
def mapSub_0 : List RegRow := [
  ⟨"SUB_PORT_CTRL", 0x4000100, [(512, 0x1000)], [⟨0, 1, .rw, true, 0, []⟩, ⟨1, 1, .rw, false, 0, []⟩, ⟨2, 1, .rw, false, 0, []⟩, ⟨3, 1, .rw, false, 0, []⟩, ⟨4, 2, .rw, false, 0, [(0, 2)]⟩, ⟨8, 14, .rw, false, 0x5F2, [(64, 12288)]⟩]⟩,
  ⟨"SUB_PORT_STATUS", 0x4000104, [(512, 0x1000)], [⟨0, 2, .ro, false, 0, []⟩, ⟨2, 1, .ro, false, 0, []⟩, ⟨3, 1, .ro, false, 0, []⟩, ⟨4, 1, .ro, false, 0, []⟩, ⟨5, 1, .ro, false, 0, []⟩, ⟨8, 8, .ro, false, 0, []⟩, ⟨16, 8, .ro, false, 0, []⟩]⟩,
  ⟨"SUB_MAC_ADDR_LO", 0x4000108, [(512, 0x1000)], [⟨0, 32, .rw, false, 0, []⟩]⟩,
  ⟨"SUB_MAC_ADDR_HI", 0x400010C, [(512, 0x1000)], [⟨0, 16, .rw, false, 0, []⟩]⟩,
  ⟨"SUB_PFC_CFG", 0x4000110, [(512, 0x1000)], [⟨0, 16, .rw, false, 0xFFFF, []⟩, ⟨16, 16, .rw, false, 0x7FFF, [(1, 65535)]⟩]⟩,
  ⟨"SUB_EEE_CFG", 0x4000114, [(512, 0x1000)], [⟨0, 16, .rw, false, 0x64, [(1, 65535)]⟩, ⟨16, 16, .rw, false, 0xA5, [(1, 65535)]⟩]⟩,
  ⟨"SUB_TS_CFG", 0x4000120, [(512, 0x1000)], [⟨0, 4, .rw, false, 0, []⟩, ⟨4, 1, .rw, false, 0, []⟩]⟩,
  ⟨"SUB_TS_ADJ", 0x4000124, [(512, 0x1000)], [⟨0, 16, .rw, false, 0, []⟩, ⟨16, 16, .rw, false, 0, []⟩]⟩,
  ⟨"SUB_GATE_CTRL", 0x4000130, [(512, 0x1000)], [⟨0, 1, .rw, false, 0, []⟩, ⟨1, 1, .wo, false, 0, []⟩, ⟨2, 1, .rw, false, 1, []⟩]⟩,
  ⟨"SUB_GATE_BASE_NS", 0x4000134, [(512, 0x1000)], [⟨0, 30, .rw, false, 0, []⟩]⟩,
  ⟨"SUB_GATE_BASE_SEC_LO", 0x4000138, [(512, 0x1000)], [⟨0, 32, .rw, false, 0, []⟩]⟩,
  ⟨"SUB_GATE_BASE_SEC_HI", 0x400013C, [(512, 0x1000)], [⟨0, 16, .rw, false, 0, []⟩]⟩,
  ⟨"SUB_GATE_CYCLE", 0x4000140, [(512, 0x1000)], [⟨0, 30, .rw, false, 0xF4240, [(1, 1000000000)]⟩]⟩,
  ⟨"SUB_GATE_LEN", 0x4000144, [(512, 0x1000)], [⟨0, 9, .rw, false, 0, []⟩]⟩,
  ⟨"SUB_GATE_STATUS", 0x4000148, [(512, 0x1000)], [⟨0, 1, .ro, false, 0, []⟩, ⟨1, 1, .ro, false, 0, []⟩, ⟨8, 8, .ro, false, 0xFF, []⟩, ⟨16, 8, .ro, false, 0, []⟩]⟩,
  ⟨"SUB_GATE_CNT", 0x400014C, [(512, 0x1000)], [⟨0, 16, .rc, false, 0, []⟩, ⟨16, 16, .rc, false, 0, []⟩]⟩,
  ⟨"SUB_RX_FRAMES", 0x4000200, [(512, 0x1000)], [⟨0, 32, .c64lo, false, 0, []⟩]⟩,
  ⟨"SUB_RX_FRAMES_HI", 0x4000204, [(512, 0x1000)], [⟨0, 32, .c64hi, false, 0, []⟩]⟩,
  ⟨"SUB_RX_BYTES", 0x4000208, [(512, 0x1000)], [⟨0, 32, .c64lo, false, 0, []⟩]⟩,
  ⟨"SUB_RX_BYTES_HI", 0x400020C, [(512, 0x1000)], [⟨0, 32, .c64hi, false, 0, []⟩]⟩]

/-- Registers of block sub (spec/11, spec/13). -/
def mapSub_1 : List RegRow := [
  ⟨"SUB_TX_FRAMES", 0x4000210, [(512, 0x1000)], [⟨0, 32, .c64lo, false, 0, []⟩]⟩,
  ⟨"SUB_TX_FRAMES_HI", 0x4000214, [(512, 0x1000)], [⟨0, 32, .c64hi, false, 0, []⟩]⟩,
  ⟨"SUB_TX_BYTES", 0x4000218, [(512, 0x1000)], [⟨0, 32, .c64lo, false, 0, []⟩]⟩,
  ⟨"SUB_TX_BYTES_HI", 0x400021C, [(512, 0x1000)], [⟨0, 32, .c64hi, false, 0, []⟩]⟩,
  ⟨"SUB_PORT_CNT", 0x4000240, [(512, 0x1000), (16, 4)], [⟨0, 32, .rc, false, 0, []⟩]⟩,
  ⟨"SUB_PORT_CNT", 0x4200270, [(8, 0x1000), (3, 4)], [⟨0, 32, .rc, false, 0, []⟩]⟩]

/-- Registers of block sub (spec/11, spec/13). -/
def mapSub : List RegRow := mapSub_0 ++ mapSub_1

/-- Registers of block slt (spec/12). -/
def mapSlt : List RegRow := [
  ⟨"SLT_CFG", 0x4801000, [], [⟨0, 6, .rw, false, 0, []⟩, ⟨6, 1, .rw, false, 0, []⟩, ⟨8, 4, .rw, false, 8, [(1, 15)]⟩, ⟨16, 16, .rw, false, 0x88B5, []⟩]⟩,
  ⟨"SLT_CH_CFG", 0x4801010, [(4, 4)], [⟨0, 1, .rw, false, 0, []⟩, ⟨1, 1, .rw, false, 0, []⟩, ⟨2, 10, .rw, false, 0, []⟩, ⟨16, 16, .rw, false, 0, []⟩]⟩,
  ⟨"SLT_PAGE_CTRL", 0x4801020, [(2, 8)], [⟨0, 1, .rw, true, 0, []⟩]⟩,
  ⟨"SLT_PAGE_STATUS", 0x4801024, [(2, 8)], [⟨0, 2, .ro, false, 0, []⟩, ⟨2, 1, .ro, false, 0, []⟩, ⟨3, 1, .ro, false, 0, []⟩, ⟨4, 16, .ro, false, 0, []⟩, ⟨20, 12, .ro, false, 0, []⟩]⟩,
  ⟨"SLT_FRAME", 0x4801030, [], [⟨0, 16, .ro, false, 0, []⟩]⟩,
  ⟨"SLT_PSW_CMD", 0x4801040, [], [⟨0, 10, .rw, false, 0, []⟩, ⟨10, 3, .rw, false, 0, [(0, 5)]⟩, ⟨31, 1, .wo, false, 0, []⟩]⟩,
  ⟨"SLT_CH_CNT", 0x4801100, [(4, 0x20), (8, 4)], [⟨0, 32, .rc, false, 0, []⟩]⟩,
  ⟨"SLT_RX_NO_CIRCUIT", 0x4801180, [], [⟨0, 32, .rc, false, 0, []⟩]⟩]

/-- Registers of block tim (spec/13). -/
def mapTim_0 : List RegRow := [
  ⟨"TIM_CTRL", 0x5001000, [], [⟨0, 2, .rw, true, 0, []⟩, ⟨2, 1, .rw, true, 0, []⟩, ⟨3, 1, .rw, false, 0, []⟩, ⟨4, 1, .rw, false, 0, []⟩, ⟨5, 1, .rw, false, 0, []⟩, ⟨8, 16, .rw, false, 0x2710, [(1, 65535)]⟩]⟩,
  ⟨"TIM_STATUS", 0x5001004, [], [⟨0, 2, .ro, false, 0, []⟩, ⟨2, 1, .ro, false, 0, []⟩, ⟨3, 2, .ro, false, 0, []⟩, ⟨5, 1, .ro, false, 0, []⟩]⟩,
  ⟨"TIM_INC_FRAC", 0x5001008, [], [⟨0, 32, .ro, false, 0, []⟩]⟩,
  ⟨"TIM_NOW_NS", 0x5001010, [], [⟨0, 30, .ro, false, 0, []⟩]⟩,
  ⟨"TIM_NOW_SEC_LO", 0x5001014, [], [⟨0, 32, .ro, false, 0, []⟩]⟩,
  ⟨"TIM_NOW_SEC_HI", 0x5001018, [], [⟨0, 16, .ro, false, 0, []⟩]⟩,
  ⟨"TIM_NOW_FRAC", 0x500101C, [], [⟨0, 32, .ro, false, 0, []⟩]⟩,
  ⟨"TIM_SET_NS", 0x5001020, [], [⟨0, 32, .rw, false, 0, []⟩]⟩,
  ⟨"TIM_SET_SEC_LO", 0x5001024, [], [⟨0, 32, .rw, false, 0, []⟩]⟩,
  ⟨"TIM_SET_SEC_HI", 0x5001028, [], [⟨0, 16, .rw, false, 0, []⟩]⟩,
  ⟨"TIM_SET_CMD", 0x500102C, [], [⟨0, 2, .wo, false, 0, []⟩]⟩,
  ⟨"TIM_TOD_SFC", 0x5001030, [], [⟨0, 32, .rw, false, 0, []⟩]⟩,
  ⟨"TIM_TOD_SFC_HI", 0x5001034, [], [⟨0, 19, .rw, false, 0, []⟩]⟩,
  ⟨"TIM_TOD_SEC", 0x5001038, [], [⟨0, 32, .rw, false, 0, []⟩]⟩,
  ⟨"TIM_TOD_SEC_HI", 0x500103C, [], [⟨0, 16, .rw, false, 0, []⟩]⟩,
  ⟨"TIM_TOD_NS", 0x5001040, [], [⟨0, 30, .rw, false, 0, []⟩]⟩,
  ⟨"TIM_TOD_ARM", 0x5001044, [], [⟨0, 1, .w1s, true, 0, []⟩, ⟨1, 1, .rw, false, 0, []⟩]⟩,
  ⟨"TIM_RATIO", 0x5001048, [], [⟨0, 16, .rw, false, 0x8000, []⟩]⟩,
  ⟨"TIM_TEQD", 0x500104C, [], [⟨0, 32, .rw, false, 0, []⟩]⟩,
  ⟨"TIM_ASYM", 0x5001050, [], [⟨0, 32, .rw, false, 0, []⟩]⟩]

/-- Registers of block tim (spec/13). -/
def mapTim_1 : List RegRow := [
  ⟨"TIM_JUMP_LIMIT", 0x5001054, [], [⟨0, 30, .rw, false, 0x1F4, [(0, 1000000000)]⟩]⟩,
  ⟨"TIM_LAST_OFFSET", 0x5001058, [], [⟨0, 32, .ro, false, 0, []⟩]⟩,
  ⟨"TIM_SYNCE_LANES", 0x5001060, [(2, 4)], [⟨0, 32, .rw, false, 0, []⟩]⟩,
  ⟨"TIM_CNT", 0x5001100, [(8, 4)], [⟨0, 32, .rc, false, 0, []⟩]⟩,
  ⟨"TIM_TSQ", 0x5001200, [(16, 0x20)], [⟨0, 8, .ro, false, 0, []⟩, ⟨8, 1, .wo, false, 0, []⟩, ⟨9, 1, .w1c, false, 0, []⟩]⟩,
  ⟨"TIM_TSQ_ID", 0x5001204, [(16, 0x20)], [⟨0, 16, .ro, false, 0, []⟩, ⟨16, 10, .ro, false, 0, []⟩, ⟨26, 1, .ro, false, 0, []⟩]⟩,
  ⟨"TIM_TSQ_SEC", 0x5001208, [(16, 0x20)], [⟨0, 32, .ro, false, 0, []⟩]⟩,
  ⟨"TIM_TSQ_NS", 0x500120C, [(16, 0x20)], [⟨0, 30, .ro, false, 0, []⟩]⟩,
  ⟨"TIM_TSQ_FRAC", 0x5001210, [(16, 0x20)], [⟨0, 16, .ro, false, 0, []⟩, ⟨16, 16, .ro, false, 0, []⟩]⟩,
  ⟨"TIM_TSQ_OVF", 0x5001214, [(16, 0x20)], [⟨0, 32, .rc, false, 0, []⟩]⟩,
  ⟨"TIM_CAP", 0x5001400, [(5, 0x10)], [⟨0, 1, .rw, false, 0, []⟩, ⟨1, 1, .rw, false, 0, []⟩, ⟨2, 1, .wo, false, 0, []⟩, ⟨8, 4, .ro, false, 0, []⟩, ⟨12, 2, .ro, false, 0, []⟩]⟩,
  ⟨"TIM_CAP_NS", 0x5001404, [(5, 0x10)], [⟨0, 30, .ro, false, 0, []⟩]⟩,
  ⟨"TIM_CAP_SEC", 0x5001408, [(5, 0x10)], [⟨0, 32, .ro, false, 0, []⟩]⟩]

/-- Registers of block tim (spec/13). -/
def mapTim : List RegRow := mapTim_0 ++ mapTim_1

/-- Registers of block eng (spec/14). -/
def mapEng : List RegRow := [
  ⟨"ENG_CTRL", 0x6001000, [(64, 0x10000)], [⟨0, 1, .rw, true, 0, []⟩, ⟨1, 1, .rw, false, 0, []⟩]⟩,
  ⟨"ENG_STATUS", 0x6001004, [(64, 0x10000)], [⟨0, 2, .ro, false, 0, []⟩, ⟨2, 1, .ro, false, 0, []⟩, ⟨3, 1, .ro, false, 0, []⟩, ⟨4, 1, .ro, false, 0, []⟩, ⟨5, 1, .ro, false, 0, []⟩, ⟨6, 3, .ro, false, 0, []⟩]⟩,
  ⟨"ENG_ENTRY", 0x6001008, [(64, 0x10000)], [⟨0, 16, .rw, false, 0, []⟩, ⟨16, 16, .rw, false, 0, []⟩]⟩,
  ⟨"ENG_TRAP", 0x600100C, [(64, 0x10000)], [⟨0, 16, .rw, false, 0, []⟩]⟩,
  ⟨"ENG_RUN_LIMIT", 0x6001010, [(64, 0x10000)], [⟨0, 20, .rw, false, 0x3E8, []⟩]⟩,
  ⟨"ENG_FAULT", 0x6001014, [(64, 0x10000)], [⟨0, 3, .ro, false, 0, []⟩, ⟨16, 16, .ro, false, 0, []⟩]⟩,
  ⟨"ENG_FAULT_ADDR_HI", 0x6001018, [(64, 0x10000)], [⟨0, 8, .ro, false, 0, []⟩, ⟨31, 1, .w1c, false, 0, []⟩]⟩,
  ⟨"ENG_FAULT_ADDR", 0x600101C, [(64, 0x10000)], [⟨0, 32, .ro, false, 0, []⟩]⟩,
  ⟨"ENG_PERF_USER", 0x6001020, [(64, 0x10000)], [⟨0, 1, .rw, false, 0, []⟩]⟩,
  ⟨"ENG_CYCLES", 0x6001040, [(64, 0x10000)], [⟨0, 32, .c64lo, false, 0, []⟩]⟩,
  ⟨"ENG_CYCLES_HI", 0x6001044, [(64, 0x10000)], [⟨0, 32, .c64hi, false, 0, []⟩]⟩,
  ⟨"ENG_PERF_SEL", 0x6001080, [(64, 0x10000), (8, 4)], [⟨0, 5, .rw, false, 0, [(0, 17)]⟩, ⟨5, 1, .rw, false, 0, []⟩, ⟨6, 1, .rw, false, 0, []⟩, ⟨16, 12, .rw, false, 0, []⟩]⟩,
  ⟨"ENG_PERF_CNT", 0x60010C0, [(64, 0x10000), (8, 8)], [⟨0, 32, .c64lo, false, 0, []⟩]⟩,
  ⟨"ENG_PERF_CNT_HI", 0x60010C4, [(64, 0x10000), (8, 8)], [⟨0, 16, .c64hi, false, 0, []⟩]⟩,
  ⟨"ENG_CNT", 0x6001100, [(64, 0x10000), (4, 4)], [⟨0, 32, .rc, false, 0, []⟩]⟩,
  ⟨"ENG_CMD", 0x6002000, [(64, 0x10000)], [⟨0, 3, .wo, false, 0, []⟩, ⟨8, 1, .ro, false, 0, []⟩, ⟨9, 3, .ro, false, 0, []⟩, ⟨12, 1, .ro, false, 0, []⟩, ⟨13, 1, .rw, false, 0, []⟩]⟩,
  ⟨"ENG_CMD_ARG", 0x6002004, [(64, 0x10000), (4, 4)], [⟨0, 32, .rw, false, 0, []⟩]⟩]

/-- Registers of block til (spec/14). -/
def mapTil : List RegRow := [
  ⟨"TIL_CFG", 0x5801000, [], [⟨0, 16, .rw, false, 0x400, []⟩]⟩,
  ⟨"TIL_POOL_STATUS", 0x5801004, [], [⟨0, 17, .ro, false, 0x10000, []⟩]⟩,
  ⟨"TIL_TICK", 0x5801010, [(4, 4)], [⟨0, 17, .rw, false, 0xA, [(1, 100000)]⟩, ⟨31, 1, .ro, false, 0, []⟩]⟩,
  ⟨"TIL_DELAY_LEVEL", 0x5801020, [(4, 4)], [⟨0, 15, .ro, false, 0, []⟩]⟩,
  ⟨"TIL_TICK_COUNT", 0x5801030, [(4, 4)], [⟨0, 32, .ro, false, 0, []⟩]⟩,
  ⟨"TIL_CL_CFG", 0x5801100, [(8, 0x10)], [⟨0, 17, .rw, false, 0x2000, [(1, 65536)]⟩, ⟨17, 1, .rw, false, 0, []⟩, ⟨18, 1, .rw, false, 0, []⟩, ⟨19, 3, .rw, false, 0, []⟩, ⟨22, 3, .rw, false, 0, []⟩, ⟨25, 1, .rw, false, 0, []⟩]⟩,
  ⟨"TIL_CL_STATUS", 0x5801104, [(8, 0x10)], [⟨0, 17, .ro, false, 0, []⟩, ⟨17, 1, .ro, false, 0, []⟩, ⟨18, 1, .ro, false, 0, []⟩, ⟨24, 8, .ro, false, 0, []⟩]⟩,
  ⟨"TIL_CL_THROT", 0x5801108, [(8, 0x10)], [⟨0, 4, .rw, false, 0, [(0, 12)]⟩, ⟨4, 4, .rw, false, 0xC, [(0, 12)]⟩, ⟨8, 8, .rw, false, 0x64, [(70, 110)]⟩, ⟨16, 4, .ro, false, 0, []⟩, ⟨24, 8, .ro, false, 0, []⟩]⟩,
  ⟨"TIL_CL_CLAMP", 0x580110C, [(8, 0x10)], [⟨0, 32, .rc, false, 0, []⟩]⟩,
  ⟨"TIL_GLN_CFG", 0x5801200, [(8, 0x10)], [⟨0, 1, .rw, false, 0, []⟩, ⟨1, 1, .rw, false, 1, []⟩, ⟨2, 5, .rw, false, 1, [(1, 1), (6, 6), (8, 8), (10, 10), (12, 12), (14, 14), (17, 17)]⟩, ⟨8, 8, .rw, false, 0, []⟩, ⟨16, 16, .rw, false, 0x3E8, [(1, 65535)]⟩]⟩,
  ⟨"TIL_GLN_STATUS", 0x5801204, [(8, 0x10)], [⟨0, 12, .ro, false, 0, []⟩, ⟨12, 13, .ro, false, 0, []⟩]⟩,
  ⟨"TIL_GLN_LOST", 0x5801208, [(8, 0x10)], [⟨0, 32, .rc, false, 0, []⟩]⟩,
  ⟨"TIL_CNT", 0x5801300, [(8, 4)], [⟨0, 32, .rc, false, 0, []⟩]⟩]

/-- Registers of block ctl (spec/15, spec/21). -/
def mapCtl : List RegRow := [
  ⟨"CTL_WDOG", 0x7001010, [], [⟨0, 16, .rw, false, 0, []⟩, ⟨16, 16, .ro, false, 0, []⟩]⟩,
  ⟨"CTL_WDOG_KICK", 0x7001014, [], [⟨0, 32, .wo, false, 0, []⟩]⟩,
  ⟨"CTL_OMCI_RING", 0x7001020, [(4, 4)], [⟨0, 10, .rw, false, 0, []⟩]⟩,
  ⟨"HW_LOCK", 0x7002000, [(64, 4)], [⟨0, 1, .own, false, 0, []⟩, ⟨1, 1, .own, false, 0, []⟩, ⟨8, 8, .own, false, 0, []⟩]⟩,
  ⟨"HW_LOCK_BREAK", 0x7002100, [], [⟨0, 6, .wo, false, 0, []⟩]⟩,
  ⟨"HW_LOCK_CNT", 0x7002110, [(3, 4)], [⟨0, 32, .rc, false, 0, []⟩]⟩,
  ⟨"MBX_STAGE", 0x7003000, [(8, 4)], [⟨0, 32, .stage, false, 0, []⟩]⟩,
  ⟨"MBX_SEND", 0x7004000, [(256, 4)], [⟨0, 2, .own, false, 0, []⟩]⟩,
  ⟨"MBX_POST_ERR", 0x7004400, [], [⟨0, 32, .rc, false, 0, []⟩]⟩,
  ⟨"MBX_RX_STATUS", 0x7005000, [(256, 0x40)], [⟨0, 5, .ro, false, 0, []⟩, ⟨8, 1, .wo, false, 0, []⟩, ⟨9, 2, .ro, false, 0, []⟩, ⟨11, 5, .ro, false, 0, []⟩]⟩,
  ⟨"MBX_RX_DATA", 0x7005004, [(256, 0x40), (8, 4)], [⟨0, 32, .ro, false, 0, []⟩]⟩,
  ⟨"MBX_RX_STAMP", 0x7005024, [(256, 0x40)], [⟨0, 8, .ro, false, 0, []⟩, ⟨8, 3, .ro, false, 0, []⟩, ⟨11, 1, .ro, false, 0, []⟩, ⟨12, 8, .ro, false, 0, []⟩, ⟨20, 12, .ro, false, 0, []⟩]⟩,
  ⟨"MBX_DB_SET", 0x7009000, [], [⟨0, 10, .wo, false, 0, []⟩]⟩,
  ⟨"MBX_DB_PEND", 0x7009100, [(32, 4)], [⟨0, 32, .w1c, false, 0, []⟩]⟩,
  ⟨"DB_MERGED", 0x7009200, [], [⟨0, 32, .rc, false, 0, []⟩]⟩,
  ⟨"CTL_UART_CFG", 0x700A000, [], [⟨0, 1, .rw, false, 0, []⟩, ⟨4, 20, .rw, false, 0x21E9, [(64, 1048575)]⟩]⟩,
  ⟨"CTL_UART_DATA", 0x700A004, [], [⟨0, 8, .own, false, 0, []⟩, ⟨8, 1, .ro, false, 0, []⟩]⟩,
  ⟨"CTL_UART_STATUS", 0x700A008, [], [⟨0, 7, .ro, false, 0, []⟩, ⟨8, 7, .ro, false, 0, []⟩, ⟨16, 1, .w1c, false, 0, []⟩, ⟨17, 1, .w1c, false, 0, []⟩]⟩]

/-- Registers of block ring (spec/15). -/
def mapRing : List RegRow := [
  ⟨"RING_BASE_LO", 0x7400000, [(2, 0x10000), (1024, 0x40)], [⟨6, 26, .rw, false, 0, []⟩]⟩,
  ⟨"RING_BASE_HI", 0x7400004, [(2, 0x10000), (1024, 0x40)], [⟨0, 32, .rw, false, 0, []⟩]⟩,
  ⟨"RING_CTRL", 0x7400008, [(2, 0x10000), (1024, 0x40)], [⟨0, 1, .rw, true, 0, []⟩, ⟨1, 1, .rw, false, 0, []⟩, ⟨2, 3, .rw, false, 0, [(0, 6)]⟩, ⟨5, 3, .rw, false, 3, [(0, 6)]⟩, ⟨8, 12, .rw, false, 8, [(1, 4095)]⟩, ⟨20, 1, .rw, false, 0, []⟩, ⟨21, 1, .rw, false, 0, []⟩]⟩,
  ⟨"RING_STATUS", 0x740000C, [(2, 0x10000), (1024, 0x40)], [⟨0, 2, .ro, false, 0, []⟩, ⟨2, 1, .ro, false, 0, []⟩, ⟨3, 1, .ro, false, 0, []⟩, ⟨4, 1, .ro, false, 0, []⟩]⟩,
  ⟨"RING_TAIL", 0x7400010, [(2, 0x10000), (1024, 0x40)], [⟨0, 12, .rw, true, 0, []⟩]⟩,
  ⟨"RING_HEAD", 0x7400014, [(2, 0x10000), (1024, 0x40)], [⟨0, 12, .ro, false, 0, []⟩]⟩,
  ⟨"RING_INT", 0x7400018, [(2, 0x10000), (1024, 0x40)], [⟨0, 8, .rw, false, 1, [(1, 255)]⟩, ⟨8, 8, .rw, false, 0, []⟩, ⟨16, 11, .rw, false, 0, []⟩, ⟨27, 1, .rw, false, 0, []⟩, ⟨28, 4, .rw, false, 0, []⟩]⟩,
  ⟨"RING_INT_ACK", 0x740001C, [(2, 0x10000), (1024, 0x40)], [⟨0, 32, .wo, false, 0, []⟩]⟩,
  ⟨"RING_CNT", 0x7400020, [(2, 0x10000), (1024, 0x40), (4, 4)], [⟨0, 32, .rc, false, 0, []⟩]⟩]

/-- Registers of block hsk (spec/16, spec/19). -/
def mapHsk : List RegRow := [
  ⟨"HSK_STATUS", 0x7801000, [], [⟨0, 2, .ro, false, 0, []⟩, ⟨2, 1, .ro, false, 0, []⟩, ⟨3, 1, .ro, false, 0, []⟩, ⟨4, 4, .ro, false, 0, []⟩, ⟨8, 2, .ro, false, 0, []⟩, ⟨10, 2, .ro, false, 0, []⟩, ⟨12, 7, .ro, false, 0, []⟩, ⟨19, 7, .ro, false, 0, []⟩, ⟨26, 1, .ro, false, 1, []⟩, ⟨27, 1, .ro, false, 0, []⟩]⟩,
  ⟨"HSK_CMD", 0x7801010, [], [⟨0, 4, .wo, false, 0, []⟩, ⟨8, 1, .ro, false, 0, []⟩, ⟨9, 3, .ro, false, 0, []⟩]⟩,
  ⟨"HSK_ARG", 0x7801014, [(4, 4)], [⟨0, 32, .rw, false, 0, []⟩]⟩,
  ⟨"HSK_RNG", 0x7801030, [], [⟨0, 32, .own, false, 0, []⟩]⟩,
  ⟨"HSK_BOOT_INFO", 0x7801040, [], [⟨0, 1, .ro, false, 0, []⟩, ⟨1, 1, .ro, false, 0, []⟩, ⟨2, 4, .ro, false, 0, []⟩, ⟨6, 4, .ro, false, 0, []⟩, ⟨10, 3, .ro, false, 0, []⟩, ⟨13, 1, .ro, false, 0, []⟩, ⟨14, 2, .ro, false, 0, []⟩, ⟨16, 16, .ro, false, 0, []⟩]⟩,
  ⟨"HSK_HANDOFF_TIME", 0x7801044, [], [⟨0, 32, .ro, false, 0, []⟩]⟩,
  ⟨"HSK_BOOT_CTRL", 0x7801048, [], [⟨0, 1, .wo, false, 0, []⟩, ⟨2, 2, .rw, false, 3, [(1, 3)]⟩, ⟨4, 2, .ro, false, 0, []⟩]⟩,
  ⟨"HSK_CONF_GEN", 0x780104C, [], [⟨0, 32, .ro, false, 0, []⟩]⟩,
  ⟨"HSK_TRIAL_GEN", 0x7801050, [], [⟨0, 32, .ro, false, 0, []⟩]⟩]

/-- Registers of block cip (spec/16). -/
def mapCip : List RegRow := [
  ⟨"CIP_CFG", 0x8001000, [], [⟨0, 6, .rw, false, 0x24, [(20, 36)]⟩, ⟨8, 6, .rw, false, 0, []⟩, ⟨14, 1, .rw, false, 0, []⟩, ⟨31, 1, .wo, false, 0, []⟩]⟩,
  ⟨"CIP_LINE_LIMIT_STATUS", 0x8001004, [], [⟨0, 16, .w1c, false, 0, []⟩, ⟨16, 16, .w1c, false, 0, []⟩]⟩,
  ⟨"CVE_CTRL", 0x8002000, [], [⟨0, 2, .rw, false, 0, [(1, 3)]⟩, ⟨2, 2, .rw, false, 0, []⟩, ⟨4, 1, .rw, false, 0, []⟩, ⟨5, 5, .rw, false, 0, []⟩, ⟨10, 5, .rw, false, 0, []⟩, ⟨15, 6, .rw, false, 0x10, []⟩, ⟨31, 1, .wo, false, 0, []⟩]⟩,
  ⟨"CVE_LEN", 0x8002004, [], [⟨0, 25, .rw, false, 0, [(0, 16777216)]⟩]⟩,
  ⟨"CVE_SRC_LO", 0x8002008, [], [⟨0, 32, .rw, false, 0, []⟩]⟩,
  ⟨"CVE_SRC_HI", 0x800200C, [], [⟨0, 32, .rw, false, 0, []⟩]⟩,
  ⟨"CVE_STATUS", 0x8002010, [], [⟨0, 1, .ro, false, 0, []⟩, ⟨1, 3, .ro, false, 0, []⟩]⟩,
  ⟨"CVE_TAG", 0x8002040, [(12, 4)], [⟨0, 32, .rw, false, 0, []⟩]⟩,
  ⟨"CVE_BUF", 0x8002080, [(16, 4)], [⟨0, 32, .rw, false, 0, []⟩]⟩,
  ⟨"CIP_CNT", 0x8003000, [(2, 4)], [⟨0, 32, .rc, false, 0, []⟩]⟩,
  ⟨"CIP_MACSEC_CNT", 0x8004000, [(65, 0x20), (8, 4)], [⟨0, 32, .rc, false, 0, []⟩]⟩]

/-- Registers of block twn (spec/17). -/
def mapTwn : List RegRow := [
  ⟨"TWN_CTRL", 0x8801000, [], [⟨0, 1, .rw, true, 0, []⟩, ⟨1, 1, .rw, false, 0, []⟩, ⟨2, 1, .rw, false, 1, []⟩, ⟨3, 1, .rw, false, 0, []⟩, ⟨4, 1, .rw, false, 1, []⟩, ⟨5, 1, .rw, false, 1, []⟩, ⟨6, 1, .rw, false, 0, []⟩, ⟨7, 1, .wo, false, 0, []⟩, ⟨8, 1, .wo, false, 0, []⟩]⟩,
  ⟨"TWN_STATUS", 0x8801004, [], [⟨0, 2, .ro, false, 0, []⟩, ⟨2, 1, .ro, false, 0, []⟩, ⟨3, 1, .ro, false, 0, []⟩, ⟨4, 2, .ro, false, 0, []⟩, ⟨6, 3, .ro, false, 0, []⟩, ⟨9, 1, .ro, false, 0, []⟩, ⟨10, 1, .ro, false, 0, []⟩, ⟨11, 1, .ro, false, 0, []⟩, ⟨12, 3, .ro, false, 0, []⟩, ⟨15, 1, .ro, false, 0, []⟩, ⟨16, 1, .ro, false, 0, []⟩, ⟨17, 1, .ro, false, 0, []⟩, ⟨18, 1, .ro, false, 0, []⟩, ⟨19, 1, .ro, false, 0, []⟩, ⟨20, 1, .ro, false, 0, []⟩, ⟨21, 4, .ro, false, 0, []⟩, ⟨25, 1, .ro, false, 0, []⟩, ⟨26, 1, .ro, false, 0, []⟩]⟩,
  ⟨"TWN_TIMING", 0x8801008, [], [⟨0, 10, .rw, false, 0x64, [(10, 1000)]⟩, ⟨16, 16, .rw, false, 0x3E8, [(1, 65535)]⟩]⟩,
  ⟨"TWN_TIMING2", 0x880100C, [], [⟨0, 10, .rw, false, 0xC8, [(10, 1000)]⟩, ⟨16, 8, .rw, false, 2, [(1, 255)]⟩]⟩,
  ⟨"TWN_COVER", 0x8801010, [], [⟨0, 4, .rw, false, 0xF, []⟩, ⟨4, 4, .rw, false, 0, []⟩]⟩,
  ⟨"TWN_MIRROR_CFG", 0x8801014, [], [⟨0, 8, .rw, false, 0, []⟩, ⟨8, 5, .rw, false, 0xA, [(1, 25)]⟩, ⟨31, 1, .wo, false, 0, []⟩]⟩,
  ⟨"TWN_MIRROR_STATUS", 0x8801018, [], [⟨0, 13, .ro, false, 0, []⟩, ⟨13, 1, .ro, false, 0, []⟩]⟩,
  ⟨"TWN_LANE_STATUS", 0x8801020, [], [⟨0, 8, .ro, false, 0, []⟩, ⟨8, 8, .ro, false, 0, []⟩, ⟨16, 1, .ro, false, 0, []⟩, ⟨17, 5, .ro, false, 0, []⟩]⟩,
  ⟨"TWN_CNT", 0x8801100, [(16, 4)], [⟨0, 32, .rc, false, 0, []⟩]⟩]

/-- Registers of block pwr (spec/18). -/
def mapPwr : List RegRow := [
  ⟨"PWR_STATE_REQ", 0x101000, [], [⟨0, 2, .rw, false, 0, []⟩, ⟨31, 1, .wo, false, 0, []⟩]⟩,
  ⟨"PWR_STATE_STATUS", 0x101004, [], [⟨0, 2, .ro, false, 0, []⟩, ⟨2, 1, .ro, false, 0, []⟩, ⟨3, 2, .ro, false, 0, []⟩, ⟨8, 6, .ro, false, 0, []⟩]⟩,
  ⟨"PWR_WAKE_EN", 0x101030, [], [⟨0, 6, .rw, false, 0, []⟩]⟩,
  ⟨"PWR_WAKE_GPIO", 0x10103C, [], [⟨0, 16, .rw, false, 0, []⟩, ⟨16, 16, .rw, false, 0, []⟩]⟩,
  ⟨"PWR_REST_CFG", 0x101040, [], [⟨0, 2, .rw, false, 0, []⟩, ⟨2, 1, .rw, false, 0, []⟩, ⟨8, 8, .rw, false, 0x32, [(1, 255)]⟩]⟩,
  ⟨"PWR_LAST_REFUSAL", 0x101050, [], [⟨0, 6, .ro, false, 0, []⟩, ⟨8, 4, .ro, false, 0, []⟩, ⟨12, 2, .ro, false, 0, []⟩, ⟨31, 1, .w1c, false, 0, []⟩]⟩,
  ⟨"PWR_AVS_CFG", 0x101060, [], [⟨0, 6, .rw, false, 0, [(0, 40)]⟩, ⟨8, 6, .rw, false, 0x28, [(0, 40)]⟩, ⟨16, 1, .rw, false, 1, []⟩]⟩,
  ⟨"PWR_AVS_STATUS", 0x101064, [], [⟨0, 6, .ro, false, 0x28, []⟩, ⟨8, 6, .ro, false, 0x28, []⟩, ⟨16, 1, .ro, false, 0, []⟩]⟩,
  ⟨"PWR_THERM", 0x101070, [], [⟨0, 8, .rw, false, 0x69, [(70, 114)]⟩, ⟨8, 8, .ro, false, 0, []⟩, ⟨16, 8, .ro, false, 0, []⟩]⟩,
  ⟨"PWR_TRIM_MASK", 0x101008, [], [⟨3, 8, .rw, true, 0, []⟩, ⟨15, 15, .rw, true, 0, []⟩]⟩,
  ⟨"PWR_KEEP_MASK", 0x10100C, [], [⟨2, 30, .rw, false, 0, []⟩]⟩,
  ⟨"PWR_DOM_OFF", 0x101010, [], [⟨3, 8, .rw, true, 0, []⟩, ⟨15, 15, .rw, true, 0, []⟩, ⟨31, 1, .rw, true, 0, []⟩]⟩,
  ⟨"PWR_DOM_STATE", 0x101020, [(2, 4)], [⟨0, 32, .ro, false, 0, []⟩]⟩,
  ⟨"PWR_WAKE_STATUS", 0x101034, [], [⟨0, 6, .w1c, false, 0, []⟩]⟩,
  ⟨"PWR_WAKE_TIMER", 0x101038, [], [⟨0, 32, .rw, false, 0, [(1, 4294967295)]⟩]⟩,
  ⟨"PWR_ABORT_COUNT", 0x101054, [], [⟨0, 32, .rc, false, 0, []⟩]⟩,
  ⟨"PWR_ACCESS_WAKES", 0x101058, [], [⟨0, 32, .rc, false, 0, []⟩]⟩,
  ⟨"PWR_AVS_CLAMP_COUNT", 0x101068, [], [⟨0, 32, .rc, false, 0, []⟩]⟩,
  ⟨"PWR_SAFETY_CNT", 0x101074, [], [⟨0, 16, .rc, false, 0, []⟩, ⟨16, 16, .rc, false, 0, []⟩]⟩]

/-- Registers of block pm (spec/20). -/
def mapPm : List RegRow := [
  ⟨"PM_CFG", 0x9001000, [], [⟨0, 6, .rw, false, 0, []⟩, ⟨6, 1, .rw, false, 0, []⟩, ⟨8, 7, .rw, false, 0, [(0, 95)]⟩, ⟨16, 16, .rw, false, 0xB40, [(1, 65535)]⟩]⟩,
  ⟨"PM_REGION", 0x9001004, [], [⟨0, 9, .rw, false, 0, []⟩, ⟨31, 1, .rw, false, 0, []⟩]⟩,
  ⟨"PM_CLOSE15", 0x9001008, [], [⟨0, 16, .ro, false, 0, []⟩, ⟨16, 1, .ro, false, 0, []⟩, ⟨17, 1, .ro, false, 0, []⟩]⟩,
  ⟨"PM_CLOSE24", 0x900100C, [], [⟨0, 16, .ro, false, 0, []⟩, ⟨16, 1, .ro, false, 0, []⟩, ⟨17, 1, .ro, false, 0, []⟩]⟩,
  ⟨"PM_ACTIVE0", 0x9001010, [], [⟨0, 16, .ro, false, 0, []⟩, ⟨16, 16, .ro, false, 0, []⟩]⟩,
  ⟨"PM_ACTIVE1", 0x9001014, [], [⟨0, 16, .ro, false, 0, []⟩, ⟨16, 16, .ro, false, 0, []⟩]⟩,
  ⟨"PM_LOG", 0x9001020, [], [⟨0, 9, .ro, false, 0, []⟩, ⟨9, 1, .wo, false, 0, []⟩, ⟨10, 1, .w1c, false, 0, []⟩]⟩,
  ⟨"PM_LOG_ENTRY", 0x9001024, [(4, 4)], [⟨0, 32, .ro, false, 0, []⟩]⟩,
  ⟨"PM_CNT", 0x9001100, [(3, 4)], [⟨0, 32, .rc, false, 0, []⟩]⟩]

end Sys2Proof.Machine
end

