-- ==== Sys2Proof/Machine/RegNames.lean ====
section
/-!
DEFINITION. The registers of the terminal by name (written from the register descriptions of spec/02 to spec/21):
`REG.A` is the address of a register, `REG.FIELD` the place of a field; indices follow R20 (channel, group, port,
lane, engine, ring direction and number, register number). `EV_BLOCK.NAME` is the bit of a BLK_INT_STATUS event.
-/
namespace Sys2Proof.Machine


/-! Block glb (spec/02, spec/21). -/

/-- GLB_CHIP_ID: part and stepping, 0x0000_0100 -/
abbrev GLB_CHIP_ID.A : Nat := 0x100
abbrev GLB_CHIP_ID.STEPPING : FRef := ⟨GLB_CHIP_ID.A, 0, 16⟩
abbrev GLB_CHIP_ID.PART : FRef := ⟨GLB_CHIP_ID.A, 16, 16⟩
/-- GLB_STRAP: straps captured at PORN, 0x0000_0104 -/
abbrev GLB_STRAP.A : Nat := 0x104
abbrev GLB_STRAP.BOOT_SEL : FRef := ⟨GLB_STRAP.A, 0, 2⟩
abbrev GLB_STRAP.VIO_SEL : FRef := ⟨GLB_STRAP.A, 2, 1⟩
abbrev GLB_STRAP.TWIN_EN : FRef := ⟨GLB_STRAP.A, 3, 1⟩
abbrev GLB_STRAP.TWIN_ROLE : FRef := ⟨GLB_STRAP.A, 4, 1⟩
abbrev GLB_STRAP.TEST_MODE : FRef := ⟨GLB_STRAP.A, 5, 1⟩
/-- GLB_RESET_CAUSE: last reset, 0x0000_0108 -/
abbrev GLB_RESET_CAUSE.A : Nat := 0x108
abbrev GLB_RESET_CAUSE.PORN : FRef := ⟨GLB_RESET_CAUSE.A, 0, 1⟩
abbrev GLB_RESET_CAUSE.CHIP : FRef := ⟨GLB_RESET_CAUSE.A, 1, 1⟩
abbrev GLB_RESET_CAUSE.THERMAL : FRef := ⟨GLB_RESET_CAUSE.A, 2, 1⟩
abbrev GLB_RESET_CAUSE.WATCHDOG : FRef := ⟨GLB_RESET_CAUSE.A, 3, 1⟩
abbrev GLB_RESET_CAUSE.HUSK : FRef := ⟨GLB_RESET_CAUSE.A, 4, 1⟩
abbrev GLB_RESET_CAUSE.MASTER : FRef := ⟨GLB_RESET_CAUSE.A, 8, 8⟩
/-- GLB_SOFT_RESET: domain soft reset, 0x0000_0110 -/
abbrev GLB_SOFT_RESET.A : Nat := 0x110
abbrev GLB_SOFT_RESET.DOMAIN : FRef := ⟨GLB_SOFT_RESET.A, 2, 30⟩
/-- GLB_CHIP_RESET: chip reset, R65 -/
abbrev GLB_CHIP_RESET.A : Nat := 0x114
abbrev GLB_CHIP_RESET.KEY : FRef := ⟨GLB_CHIP_RESET.A, 0, 32⟩
/-- GLB_INT_SUMMARY: pending blocks, 0x0000_0120 -/
abbrev GLB_INT_SUMMARY.A : Nat := 0x120
abbrev GLB_INT_SUMMARY.GLB : FRef := ⟨GLB_INT_SUMMARY.A, 0, 1⟩
abbrev GLB_INT_SUMMARY.PWR : FRef := ⟨GLB_INT_SUMMARY.A, 1, 1⟩
abbrev GLB_INT_SUMMARY.SRD : FRef := ⟨GLB_INT_SUMMARY.A, 2, 1⟩
abbrev GLB_INT_SUMMARY.TRK : FRef := ⟨GLB_INT_SUMMARY.A, 3, 4⟩
abbrev GLB_INT_SUMMARY.SHF : FRef := ⟨GLB_INT_SUMMARY.A, 7, 1⟩
abbrev GLB_INT_SUMMARY.THR : FRef := ⟨GLB_INT_SUMMARY.A, 8, 1⟩
abbrev GLB_INT_SUMMARY.GRN : FRef := ⟨GLB_INT_SUMMARY.A, 9, 1⟩
abbrev GLB_INT_SUMMARY.TMS : FRef := ⟨GLB_INT_SUMMARY.A, 10, 1⟩
abbrev GLB_INT_SUMMARY.SUB : FRef := ⟨GLB_INT_SUMMARY.A, 11, 1⟩
abbrev GLB_INT_SUMMARY.SLT : FRef := ⟨GLB_INT_SUMMARY.A, 12, 1⟩
abbrev GLB_INT_SUMMARY.TIM : FRef := ⟨GLB_INT_SUMMARY.A, 13, 1⟩
abbrev GLB_INT_SUMMARY.TIL : FRef := ⟨GLB_INT_SUMMARY.A, 14, 1⟩
abbrev GLB_INT_SUMMARY.ENG : FRef := ⟨GLB_INT_SUMMARY.A, 15, 1⟩
abbrev GLB_INT_SUMMARY.CTL : FRef := ⟨GLB_INT_SUMMARY.A, 16, 1⟩
abbrev GLB_INT_SUMMARY.HSK : FRef := ⟨GLB_INT_SUMMARY.A, 17, 1⟩
abbrev GLB_INT_SUMMARY.CIP : FRef := ⟨GLB_INT_SUMMARY.A, 18, 1⟩
abbrev GLB_INT_SUMMARY.TWN : FRef := ⟨GLB_INT_SUMMARY.A, 19, 1⟩
abbrev GLB_INT_SUMMARY.PM : FRef := ⟨GLB_INT_SUMMARY.A, 20, 1⟩
/-- GLB_INT_EOI: end of interrupt, R58 -/
abbrev GLB_INT_EOI.A : Nat := 0x124
abbrev GLB_INT_EOI.B : FRef := ⟨GLB_INT_EOI.A, 0, 5⟩
/-- GLB_INT_SUB_PEND: ports with a pending interrupt -/
abbrev GLB_INT_SUB_PEND.A (i : Nat) : Nat := 0x140 + 4 * i
abbrev GLB_INT_SUB_PEND.PEND (i : Nat) : FRef := ⟨GLB_INT_SUB_PEND.A i, 0, 32⟩
/-- GLB_INT_ENG_PEND: engines with a pending interrupt -/
abbrev GLB_INT_ENG_PEND.A (i : Nat) : Nat := 0x184 + 4 * i
abbrev GLB_INT_ENG_PEND.PEND (i : Nat) : FRef := ⟨GLB_INT_ENG_PEND.A i, 0, 32⟩
/-- GLB_BUS_ERR_ADDR: captured access address [31:0] -/
abbrev GLB_BUS_ERR_ADDR.A : Nat := 0x190
abbrev GLB_BUS_ERR_ADDR.ADDR : FRef := ⟨GLB_BUS_ERR_ADDR.A, 0, 32⟩
/-- GLB_BUS_ERR_INFO: first access error, 0x0000_0194 -/
abbrev GLB_BUS_ERR_INFO.A : Nat := 0x194
abbrev GLB_BUS_ERR_INFO.MASTER : FRef := ⟨GLB_BUS_ERR_INFO.A, 0, 8⟩
abbrev GLB_BUS_ERR_INFO.WRITE : FRef := ⟨GLB_BUS_ERR_INFO.A, 8, 1⟩
abbrev GLB_BUS_ERR_INFO.REASON : FRef := ⟨GLB_BUS_ERR_INFO.A, 9, 3⟩
abbrev GLB_BUS_ERR_INFO.VALID : FRef := ⟨GLB_BUS_ERR_INFO.A, 31, 1⟩
/-- GLB_BUS_ERR_ADDR_HI: captured access address [36:32] -/
abbrev GLB_BUS_ERR_ADDR_HI.A : Nat := 0x198
abbrev GLB_BUS_ERR_ADDR_HI.ADDR_HI : FRef := ⟨GLB_BUS_ERR_ADDR_HI.A, 0, 5⟩
/-- GLB_BUS_ERR_COUNT: access errors -/
abbrev GLB_BUS_ERR_COUNT.A : Nat := 0x19C
abbrev GLB_BUS_ERR_COUNT.COUNT : FRef := ⟨GLB_BUS_ERR_COUNT.A, 0, 32⟩
/-- GLB_INT_ROUTE: delivery of summary bit b, 0x0000_0200 + b × 4 -/
abbrev GLB_INT_ROUTE.A (i : Nat) : Nat := 0x200 + 4 * i
abbrev GLB_INT_ROUTE.CORE_MASK (i : Nat) : FRef := ⟨GLB_INT_ROUTE.A i, 0, 4⟩
abbrev GLB_INT_ROUTE.MSIX_EN (i : Nat) : FRef := ⟨GLB_INT_ROUTE.A i, 8, 1⟩
abbrev GLB_INT_ROUTE.MSIX_VEC (i : Nat) : FRef := ⟨GLB_INT_ROUTE.A i, 16, 11⟩
abbrev GLB_INT_ROUTE.INTN_EN (i : Nat) : FRef := ⟨GLB_INT_ROUTE.A i, 31, 1⟩
/-- GLB_CLK_STATUS: clock inputs, 0x0000_0300 -/
abbrev GLB_CLK_STATUS.A : Nat := 0x300
abbrev GLB_CLK_STATUS.SYS_OK : FRef := ⟨GLB_CLK_STATUS.A, 0, 1⟩
abbrev GLB_CLK_STATUS.TRK_OK : FRef := ⟨GLB_CLK_STATUS.A, 1, 1⟩
abbrev GLB_CLK_STATUS.TWIN_OK : FRef := ⟨GLB_CLK_STATUS.A, 2, 1⟩
abbrev GLB_CLK_STATUS.PCIE_OK : FRef := ⟨GLB_CLK_STATUS.A, 3, 1⟩
abbrev GLB_CLK_STATUS.XTAL_OK : FRef := ⟨GLB_CLK_STATUS.A, 4, 1⟩
abbrev GLB_CLK_STATUS.XTAL_FALLBACK : FRef := ⟨GLB_CLK_STATUS.A, 5, 1⟩
/-- GLB_GPIO_OUT: drive, 0x0000_0310 -/
abbrev GLB_GPIO_OUT.A : Nat := 0x310
abbrev GLB_GPIO_OUT.OUT : FRef := ⟨GLB_GPIO_OUT.A, 0, 16⟩
abbrev GLB_GPIO_OUT.OE : FRef := ⟨GLB_GPIO_OUT.A, 16, 16⟩
/-- GLB_GPIO_IN: inputs, 0x0000_0314 -/
abbrev GLB_GPIO_IN.A : Nat := 0x314
abbrev GLB_GPIO_IN.IN : FRef := ⟨GLB_GPIO_IN.A, 0, 16⟩
abbrev GLB_GPIO_IN.INT_EN : FRef := ⟨GLB_GPIO_IN.A, 16, 16⟩

/-! Block trk (spec/03). -/

/-- TRK_PMA_CTRL: channel control, base + 0x1000 -/
abbrev TRK_PMA_CTRL.A (i : Nat) : Nat := 0x1001000 + 0x100000 * i
abbrev TRK_PMA_CTRL.ENABLE (i : Nat) : FRef := ⟨TRK_PMA_CTRL.A i, 0, 1⟩
abbrev TRK_PMA_CTRL.TX_ALLOW (i : Nat) : FRef := ⟨TRK_PMA_CTRL.A i, 1, 1⟩
abbrev TRK_PMA_CTRL.US_RATE (i : Nat) : FRef := ⟨TRK_PMA_CTRL.A i, 2, 2⟩
abbrev TRK_PMA_CTRL.LOOPBACK (i : Nat) : FRef := ⟨TRK_PMA_CTRL.A i, 4, 1⟩
abbrev TRK_PMA_CTRL.RX_INVERT (i : Nat) : FRef := ⟨TRK_PMA_CTRL.A i, 5, 1⟩
abbrev TRK_PMA_CTRL.TX_INVERT (i : Nat) : FRef := ⟨TRK_PMA_CTRL.A i, 6, 1⟩
/-- TRK_PMA_STATUS: channel status, base + 0x1004 -/
abbrev TRK_PMA_STATUS.A (i : Nat) : Nat := 0x1001004 + 0x100000 * i
abbrev TRK_PMA_STATUS.STATE (i : Nat) : FRef := ⟨TRK_PMA_STATUS.A i, 0, 2⟩
abbrev TRK_PMA_STATUS.RESTART_PENDING (i : Nat) : FRef := ⟨TRK_PMA_STATUS.A i, 2, 1⟩
abbrev TRK_PMA_STATUS.HELD (i : Nat) : FRef := ⟨TRK_PMA_STATUS.A i, 3, 1⟩
abbrev TRK_PMA_STATUS.CDR_LOCK (i : Nat) : FRef := ⟨TRK_PMA_STATUS.A i, 4, 1⟩
abbrev TRK_PMA_STATUS.LOS (i : Nat) : FRef := ⟨TRK_PMA_STATUS.A i, 5, 1⟩
abbrev TRK_PMA_STATUS.LOS_PIN (i : Nat) : FRef := ⟨TRK_PMA_STATUS.A i, 6, 1⟩
abbrev TRK_PMA_STATUS.MOD_ABS (i : Nat) : FRef := ⟨TRK_PMA_STATUS.A i, 7, 1⟩
abbrev TRK_PMA_STATUS.TXDIS_OUT (i : Nat) : FRef := ⟨TRK_PMA_STATUS.A i, 8, 1⟩
abbrev TRK_PMA_STATUS.BEN_PAD (i : Nat) : FRef := ⟨TRK_PMA_STATUS.A i, 9, 1⟩
abbrev TRK_PMA_STATUS.HE_DISABLE (i : Nat) : FRef := ⟨TRK_PMA_STATUS.A i, 10, 1⟩
abbrev TRK_PMA_STATUS.CLK_TRK_OK (i : Nat) : FRef := ⟨TRK_PMA_STATUS.A i, 11, 1⟩
/-- TRK_RX_EQ_STATUS: adaptation state, base + 0x1010 -/
abbrev TRK_RX_EQ_STATUS.A (i : Nat) : Nat := 0x1001010 + 0x100000 * i
abbrev TRK_RX_EQ_STATUS.CTLE (i : Nat) : FRef := ⟨TRK_RX_EQ_STATUS.A i, 0, 5⟩
abbrev TRK_RX_EQ_STATUS.THR (i : Nat) : FRef := ⟨TRK_RX_EQ_STATUS.A i, 8, 6⟩
abbrev TRK_RX_EQ_STATUS.DFE1 (i : Nat) : FRef := ⟨TRK_RX_EQ_STATUS.A i, 16, 8⟩
abbrev TRK_RX_EQ_STATUS.ADAPT_DONE (i : Nat) : FRef := ⟨TRK_RX_EQ_STATUS.A i, 24, 1⟩
/-- TRK_RX_BOUNDS: adaptation bounds, base + 0x1014 -/
abbrev TRK_RX_BOUNDS.A (i : Nat) : Nat := 0x1001014 + 0x100000 * i
abbrev TRK_RX_BOUNDS.CTLE_MIN (i : Nat) : FRef := ⟨TRK_RX_BOUNDS.A i, 0, 5⟩
abbrev TRK_RX_BOUNDS.CTLE_MAX (i : Nat) : FRef := ⟨TRK_RX_BOUNDS.A i, 8, 5⟩
abbrev TRK_RX_BOUNDS.THR_MIN (i : Nat) : FRef := ⟨TRK_RX_BOUNDS.A i, 16, 6⟩
abbrev TRK_RX_BOUNDS.THR_MAX (i : Nat) : FRef := ⟨TRK_RX_BOUNDS.A i, 24, 6⟩
abbrev TRK_RX_BOUNDS.ADAPT_EN (i : Nat) : FRef := ⟨TRK_RX_BOUNDS.A i, 31, 1⟩
/-- TRK_RX_CLAMP_COUNT: clamp count, base + 0x1018 -/
abbrev TRK_RX_CLAMP_COUNT.A (i : Nat) : Nat := 0x1001018 + 0x100000 * i
abbrev TRK_RX_CLAMP_COUNT.POLICY_CLAMP_COUNT (i : Nat) : FRef := ⟨TRK_RX_CLAMP_COUNT.A i, 0, 32⟩
/-- TRK_LOS_CFG: loss of signal, base + 0x1020 -/
abbrev TRK_LOS_CFG.A (i : Nat) : Nat := 0x1001020 + 0x100000 * i
abbrev TRK_LOS_CFG.USE_PIN (i : Nat) : FRef := ⟨TRK_LOS_CFG.A i, 0, 1⟩
abbrev TRK_LOS_CFG.USE_SD (i : Nat) : FRef := ⟨TRK_LOS_CFG.A i, 1, 1⟩
abbrev TRK_LOS_CFG.SD_THRESH (i : Nat) : FRef := ⟨TRK_LOS_CFG.A i, 2, 6⟩
abbrev TRK_LOS_CFG.LOS_ASSERT (i : Nat) : FRef := ⟨TRK_LOS_CFG.A i, 8, 8⟩
abbrev TRK_LOS_CFG.LOS_CLEAR (i : Nat) : FRef := ⟨TRK_LOS_CFG.A i, 16, 16⟩
/-- TRK_BEN_TIMING: laser lead and lag, base + 0x1030 -/
abbrev TRK_BEN_TIMING.A (i : Nat) : Nat := 0x1001030 + 0x100000 * i
abbrev TRK_BEN_TIMING.LEAD (i : Nat) : FRef := ⟨TRK_BEN_TIMING.A i, 0, 10⟩
abbrev TRK_BEN_TIMING.LAG (i : Nat) : FRef := ⟨TRK_BEN_TIMING.A i, 16, 10⟩
/-- TRK_GUARD_CFG: guard limits, base + 0x1034 -/
abbrev TRK_GUARD_CFG.A (i : Nat) : Nat := 0x1001034 + 0x100000 * i
abbrev TRK_GUARD_CFG.MAX_BEN (i : Nat) : FRef := ⟨TRK_GUARD_CFG.A i, 0, 8⟩
abbrev TRK_GUARD_CFG.STRIKE_LIMIT (i : Nat) : FRef := ⟨TRK_GUARD_CFG.A i, 8, 4⟩
/-- TRK_GUARD_STATUS: guard state, base + 0x1038 -/
abbrev TRK_GUARD_STATUS.A (i : Nat) : Nat := 0x1001038 + 0x100000 * i
abbrev TRK_GUARD_STATUS.ROGUE_LATCH (i : Nat) : FRef := ⟨TRK_GUARD_STATUS.A i, 0, 1⟩
abbrev TRK_GUARD_STATUS.LAST_REASON (i : Nat) : FRef := ⟨TRK_GUARD_STATUS.A i, 1, 3⟩
abbrev TRK_GUARD_STATUS.STRIKE_LOCK (i : Nat) : FRef := ⟨TRK_GUARD_STATUS.A i, 4, 1⟩
abbrev TRK_GUARD_STATUS.WINDOW_REJECT (i : Nat) : FRef := ⟨TRK_GUARD_STATUS.A i, 8, 8⟩
abbrev TRK_GUARD_STATUS.TRIP_COUNT (i : Nat) : FRef := ⟨TRK_GUARD_STATUS.A i, 16, 16⟩
/-- TRK_TWI_CFG: bus settings, base + 0x1040 -/
abbrev TRK_TWI_CFG.A (i : Nat) : Nat := 0x1001040 + 0x100000 * i
abbrev TRK_TWI_CFG.SPEED (i : Nat) : FRef := ⟨TRK_TWI_CFG.A i, 0, 1⟩
abbrev TRK_TWI_CFG.STRETCH_TIMEOUT (i : Nat) : FRef := ⟨TRK_TWI_CFG.A i, 8, 8⟩
abbrev TRK_TWI_CFG.RECOVER (i : Nat) : FRef := ⟨TRK_TWI_CFG.A i, 16, 1⟩
/-- TRK_TWI_CMD: transaction, base + 0x1044 -/
abbrev TRK_TWI_CMD.A (i : Nat) : Nat := 0x1001044 + 0x100000 * i
abbrev TRK_TWI_CMD.DEV_ADDR (i : Nat) : FRef := ⟨TRK_TWI_CMD.A i, 0, 7⟩
abbrev TRK_TWI_CMD.READ (i : Nat) : FRef := ⟨TRK_TWI_CMD.A i, 7, 1⟩
abbrev TRK_TWI_CMD.OFFSET (i : Nat) : FRef := ⟨TRK_TWI_CMD.A i, 8, 8⟩
abbrev TRK_TWI_CMD.LEN (i : Nat) : FRef := ⟨TRK_TWI_CMD.A i, 16, 6⟩
abbrev TRK_TWI_CMD.GO (i : Nat) : FRef := ⟨TRK_TWI_CMD.A i, 24, 1⟩
abbrev TRK_TWI_CMD.BUSY (i : Nat) : FRef := ⟨TRK_TWI_CMD.A i, 25, 1⟩
abbrev TRK_TWI_CMD.ERR (i : Nat) : FRef := ⟨TRK_TWI_CMD.A i, 26, 3⟩
/-- TRK_TWI_MON_CFG: monitor poll, base + 0x1048 -/
abbrev TRK_TWI_MON_CFG.A (i : Nat) : Nat := 0x1001048 + 0x100000 * i
abbrev TRK_TWI_MON_CFG.MON_DEV_ADDR (i : Nat) : FRef := ⟨TRK_TWI_MON_CFG.A i, 0, 7⟩
abbrev TRK_TWI_MON_CFG.MON_OFFSET (i : Nat) : FRef := ⟨TRK_TWI_MON_CFG.A i, 8, 8⟩
abbrev TRK_TWI_MON_CFG.MON_LEN (i : Nat) : FRef := ⟨TRK_TWI_MON_CFG.A i, 16, 4⟩
abbrev TRK_TWI_MON_CFG.PERIOD (i : Nat) : FRef := ⟨TRK_TWI_MON_CFG.A i, 20, 12⟩
/-- TRK_TWI_MON: module monitor bytes -/
abbrev TRK_TWI_MON.A (i j : Nat) : Nat := 0x1001050 + 0x100000 * i + 4 * j
abbrev TRK_TWI_MON.BYTES (i j : Nat) : FRef := ⟨TRK_TWI_MON.A i j, 0, 32⟩
/-- TRK_TWI_DATA: two-wire data bytes -/
abbrev TRK_TWI_DATA.A (i j : Nat) : Nat := 0x1001080 + 0x100000 * i + 4 * j
abbrev TRK_TWI_DATA.BYTES (i j : Nat) : FRef := ⟨TRK_TWI_DATA.A i j, 0, 32⟩
/-- TRK_PRBS_CTRL: pattern control, base + 0x1100 -/
abbrev TRK_PRBS_CTRL.A (i : Nat) : Nat := 0x1001100 + 0x100000 * i
abbrev TRK_PRBS_CTRL.TX_PAT (i : Nat) : FRef := ⟨TRK_PRBS_CTRL.A i, 0, 3⟩
abbrev TRK_PRBS_CTRL.RX_PAT (i : Nat) : FRef := ⟨TRK_PRBS_CTRL.A i, 4, 3⟩
abbrev TRK_PRBS_CTRL.RX_INV (i : Nat) : FRef := ⟨TRK_PRBS_CTRL.A i, 8, 1⟩
abbrev TRK_PRBS_CTRL.CLEAR (i : Nat) : FRef := ⟨TRK_PRBS_CTRL.A i, 9, 1⟩
/-- TRK_PRBS_STATUS: checker state, base + 0x1104 -/
abbrev TRK_PRBS_STATUS.A (i : Nat) : Nat := 0x1001104 + 0x100000 * i
abbrev TRK_PRBS_STATUS.LOCK (i : Nat) : FRef := ⟨TRK_PRBS_STATUS.A i, 0, 1⟩
abbrev TRK_PRBS_STATUS.LOCK_LOST (i : Nat) : FRef := ⟨TRK_PRBS_STATUS.A i, 1, 1⟩
/-- TRK_PRBS_ERR: pattern bit errors (lo) -/
abbrev TRK_PRBS_ERR.A (i : Nat) : Nat := 0x1001110 + 0x100000 * i
abbrev TRK_PRBS_ERR.LO (i : Nat) : FRef := ⟨TRK_PRBS_ERR.A i, 0, 32⟩
/-- TRK_PRBS_ERR_HI: pattern bit errors (hi) -/
abbrev TRK_PRBS_ERR_HI.A (i : Nat) : Nat := 0x1001114 + 0x100000 * i
abbrev TRK_PRBS_ERR_HI.HI (i : Nat) : FRef := ⟨TRK_PRBS_ERR_HI.A i, 0, 32⟩
/-- TRK_PRBS_BITS: pattern bits checked (lo) -/
abbrev TRK_PRBS_BITS.A (i : Nat) : Nat := 0x1001118 + 0x100000 * i
abbrev TRK_PRBS_BITS.LO (i : Nat) : FRef := ⟨TRK_PRBS_BITS.A i, 0, 32⟩
/-- TRK_PRBS_BITS_HI: pattern bits checked (hi) -/
abbrev TRK_PRBS_BITS_HI.A (i : Nat) : Nat := 0x100111C + 0x100000 * i
abbrev TRK_PRBS_BITS_HI.HI (i : Nat) : FRef := ⟨TRK_PRBS_BITS_HI.A i, 0, 32⟩
/-- TRK_TEST_BURST: test bursts, base + 0x1120 -/
abbrev TRK_TEST_BURST.A (i : Nat) : Nat := 0x1001120 + 0x100000 * i
abbrev TRK_TEST_BURST.PERIOD (i : Nat) : FRef := ⟨TRK_TEST_BURST.A i, 0, 10⟩
abbrev TRK_TEST_BURST.LENGTH (i : Nat) : FRef := ⟨TRK_TEST_BURST.A i, 16, 8⟩
abbrev TRK_TEST_BURST.ARM (i : Nat) : FRef := ⟨TRK_TEST_BURST.A i, 31, 1⟩

/-! Block dln (spec/04). -/

/-- TRK_DLN_CFG: delineation settings, base + 0x2000 -/
abbrev TRK_DLN_CFG.A (i : Nat) : Nat := 0x1002000 + 0x100000 * i
abbrev TRK_DLN_CFG.N_CONFIRM (i : Nat) : FRef := ⟨TRK_DLN_CFG.A i, 0, 3⟩
abbrev TRK_DLN_CFG.M_LOSS (i : Nat) : FRef := ⟨TRK_DLN_CFG.A i, 4, 4⟩
abbrev TRK_DLN_CFG.PSYNC_TOL (i : Nat) : FRef := ⟨TRK_DLN_CFG.A i, 8, 2⟩
abbrev TRK_DLN_CFG.ITER_MAX (i : Nat) : FRef := ⟨TRK_DLN_CFG.A i, 10, 6⟩
abbrev TRK_DLN_CFG.RESYNC (i : Nat) : FRef := ⟨TRK_DLN_CFG.A i, 16, 1⟩
/-- TRK_DLN_STATUS: alignment state, base + 0x2004 -/
abbrev TRK_DLN_STATUS.A (i : Nat) : Nat := 0x1002004 + 0x100000 * i
abbrev TRK_DLN_STATUS.SYNC_STATE (i : Nat) : FRef := ⟨TRK_DLN_STATUS.A i, 0, 2⟩
abbrev TRK_DLN_STATUS.LOF (i : Nat) : FRef := ⟨TRK_DLN_STATUS.A i, 2, 1⟩
abbrev TRK_DLN_STATUS.LODS (i : Nat) : FRef := ⟨TRK_DLN_STATUS.A i, 3, 1⟩
abbrev TRK_DLN_STATUS.CONFIRM_CNT (i : Nat) : FRef := ⟨TRK_DLN_STATUS.A i, 4, 3⟩
abbrev TRK_DLN_STATUS.LOSS_CNT (i : Nat) : FRef := ⟨TRK_DLN_STATUS.A i, 8, 4⟩
abbrev TRK_DLN_STATUS.CAND_COUNT (i : Nat) : FRef := ⟨TRK_DLN_STATUS.A i, 12, 4⟩
/-- TRK_SFC: superframe count (lo) -/
abbrev TRK_SFC.A (i : Nat) : Nat := 0x1002008 + 0x100000 * i
abbrev TRK_SFC.SFC_LO (i : Nat) : FRef := ⟨TRK_SFC.A i, 0, 32⟩
/-- TRK_SFC_HI: superframe count (hi) -/
abbrev TRK_SFC_HI.A (i : Nat) : Nat := 0x100200C + 0x100000 * i
abbrev TRK_SFC_HI.SFC_HI (i : Nat) : FRef := ⟨TRK_SFC_HI.A i, 0, 19⟩
/-- TRK_ONU_ID: PLOAM filter, base + 0x2010 -/
abbrev TRK_ONU_ID.A (i : Nat) : Nat := 0x1002010 + 0x100000 * i
abbrev TRK_ONU_ID.ONU_ID (i : Nat) : FRef := ⟨TRK_ONU_ID.A i, 0, 10⟩
abbrev TRK_ONU_ID.ONU_ID_VALID (i : Nat) : FRef := ⟨TRK_ONU_ID.A i, 16, 1⟩
/-- TRK_PLOAM_RX: receive queue, base + 0x2014 -/
abbrev TRK_PLOAM_RX.A (i : Nat) : Nat := 0x1002014 + 0x100000 * i
abbrev TRK_PLOAM_RX.LEVEL (i : Nat) : FRef := ⟨TRK_PLOAM_RX.A i, 0, 6⟩
abbrev TRK_PLOAM_RX.POP (i : Nat) : FRef := ⟨TRK_PLOAM_RX.A i, 8, 1⟩
/-- TRK_FEC_CW: Codewords decoded (lo) -/
abbrev TRK_FEC_CW.A (i : Nat) : Nat := 0x1002040 + 0x100000 * i
abbrev TRK_FEC_CW.LO (i : Nat) : FRef := ⟨TRK_FEC_CW.A i, 0, 32⟩
/-- TRK_FEC_CW_HI: Codewords decoded (hi) -/
abbrev TRK_FEC_CW_HI.A (i : Nat) : Nat := 0x1002044 + 0x100000 * i
abbrev TRK_FEC_CW_HI.HI (i : Nat) : FRef := ⟨TRK_FEC_CW_HI.A i, 0, 32⟩
/-- TRK_FEC_CW_CORR: Corrected codewords (lo) -/
abbrev TRK_FEC_CW_CORR.A (i : Nat) : Nat := 0x1002048 + 0x100000 * i
abbrev TRK_FEC_CW_CORR.LO (i : Nat) : FRef := ⟨TRK_FEC_CW_CORR.A i, 0, 32⟩
/-- TRK_FEC_CW_CORR_HI: Corrected codewords (hi) -/
abbrev TRK_FEC_CW_CORR_HI.A (i : Nat) : Nat := 0x100204C + 0x100000 * i
abbrev TRK_FEC_CW_CORR_HI.HI (i : Nat) : FRef := ⟨TRK_FEC_CW_CORR_HI.A i, 0, 32⟩
/-- TRK_FEC_CW_UNCORR: Uncorrectable codewords (lo) -/
abbrev TRK_FEC_CW_UNCORR.A (i : Nat) : Nat := 0x1002050 + 0x100000 * i
abbrev TRK_FEC_CW_UNCORR.LO (i : Nat) : FRef := ⟨TRK_FEC_CW_UNCORR.A i, 0, 32⟩
/-- TRK_FEC_CW_UNCORR_HI: Uncorrectable codewords (hi) -/
abbrev TRK_FEC_CW_UNCORR_HI.A (i : Nat) : Nat := 0x1002054 + 0x100000 * i
abbrev TRK_FEC_CW_UNCORR_HI.HI (i : Nat) : FRef := ⟨TRK_FEC_CW_UNCORR_HI.A i, 0, 32⟩
/-- TRK_FEC_BITS_CORR: Bits corrected (lo) -/
abbrev TRK_FEC_BITS_CORR.A (i : Nat) : Nat := 0x1002058 + 0x100000 * i
abbrev TRK_FEC_BITS_CORR.LO (i : Nat) : FRef := ⟨TRK_FEC_BITS_CORR.A i, 0, 32⟩
/-- TRK_FEC_BITS_CORR_HI: Bits corrected (hi) -/
abbrev TRK_FEC_BITS_CORR_HI.A (i : Nat) : Nat := 0x100205C + 0x100000 * i
abbrev TRK_FEC_BITS_CORR_HI.HI (i : Nat) : FRef := ⟨TRK_FEC_BITS_CORR_HI.A i, 0, 32⟩
/-- TRK_DLN_CNT: delineation counters, base + 0x2100 + n × 4 -/
abbrev TRK_DLN_CNT.A (i j : Nat) : Nat := 0x1002100 + 0x100000 * i + 4 * j
abbrev TRK_DLN_CNT.COUNT (i j : Nat) : FRef := ⟨TRK_DLN_CNT.A i j, 0, 32⟩

/-! Block act (spec/05). -/

/-- TRK_ACT_CTRL: activation control, base + 0x3000 -/
abbrev TRK_ACT_CTRL.A (i : Nat) : Nat := 0x1003000 + 0x100000 * i
abbrev TRK_ACT_CTRL.SN_EN (i : Nat) : FRef := ⟨TRK_ACT_CTRL.A i, 0, 1⟩
abbrev TRK_ACT_CTRL.TEST_HOLD (i : Nat) : FRef := ⟨TRK_ACT_CTRL.A i, 1, 1⟩
abbrev TRK_ACT_CTRL.WS_ALLOWED (i : Nat) : FRef := ⟨TRK_ACT_CTRL.A i, 2, 1⟩
abbrev TRK_ACT_CTRL.FRAG_EN (i : Nat) : FRef := ⟨TRK_ACT_CTRL.A i, 3, 1⟩
abbrev TRK_ACT_CTRL.CMD (i : Nat) : FRef := ⟨TRK_ACT_CTRL.A i, 8, 3⟩
abbrev TRK_ACT_CTRL.RAND_DELAY (i : Nat) : FRef := ⟨TRK_ACT_CTRL.A i, 16, 6⟩
/-- TRK_ACT_STATUS: activation state, base + 0x3004 -/
abbrev TRK_ACT_STATUS.A (i : Nat) : Nat := 0x1003004 + 0x100000 * i
abbrev TRK_ACT_STATUS.ACT_STATE (i : Nat) : FRef := ⟨TRK_ACT_STATUS.A i, 0, 4⟩
abbrev TRK_ACT_STATUS.PM_STATE (i : Nat) : FRef := ⟨TRK_ACT_STATUS.A i, 4, 2⟩
abbrev TRK_ACT_STATUS.EQD_VALID (i : Nat) : FRef := ⟨TRK_ACT_STATUS.A i, 6, 1⟩
abbrev TRK_ACT_STATUS.EQD_PENDING (i : Nat) : FRef := ⟨TRK_ACT_STATUS.A i, 7, 1⟩
abbrev TRK_ACT_STATUS.TO1_RUN (i : Nat) : FRef := ⟨TRK_ACT_STATUS.A i, 8, 1⟩
abbrev TRK_ACT_STATUS.TO2_RUN (i : Nat) : FRef := ⟨TRK_ACT_STATUS.A i, 9, 1⟩
/-- TRK_SERIAL: serial number bytes 4–7 -/
abbrev TRK_SERIAL.A (i : Nat) : Nat := 0x1003008 + 0x100000 * i
abbrev TRK_SERIAL.SERIAL_LO (i : Nat) : FRef := ⟨TRK_SERIAL.A i, 0, 32⟩
/-- TRK_SERIAL_HI: serial number bytes 0–3 -/
abbrev TRK_SERIAL_HI.A (i : Nat) : Nat := 0x100300C + 0x100000 * i
abbrev TRK_SERIAL_HI.SERIAL_HI (i : Nat) : FRef := ⟨TRK_SERIAL_HI.A i, 0, 32⟩
/-- TRK_ACT_TIMERS: timers, base + 0x3010 -/
abbrev TRK_ACT_TIMERS.A (i : Nat) : Nat := 0x1003010 + 0x100000 * i
abbrev TRK_ACT_TIMERS.TO1 (i : Nat) : FRef := ⟨TRK_ACT_TIMERS.A i, 0, 8⟩
abbrev TRK_ACT_TIMERS.TO2 (i : Nat) : FRef := ⟨TRK_ACT_TIMERS.A i, 16, 10⟩
/-- TRK_EQD: equalisation delay, base + 0x3014 -/
abbrev TRK_EQD.A (i : Nat) : Nat := 0x1003014 + 0x100000 * i
abbrev TRK_EQD.EQD (i : Nat) : FRef := ⟨TRK_EQD.A i, 0, 32⟩
/-- TRK_EQD_ACTIVE: equalisation delay in force -/
abbrev TRK_EQD_ACTIVE.A (i : Nat) : Nat := 0x1003018 + 0x100000 * i
abbrev TRK_EQD_ACTIVE.EQD (i : Nat) : FRef := ⟨TRK_EQD_ACTIVE.A i, 0, 32⟩
/-- TRK_US_CFG: burst assembly and look-ahead, base + 0x3020 -/
abbrev TRK_US_CFG.A (i : Nat) : Nat := 0x1003020 + 0x100000 * i
abbrev TRK_US_CFG.CUTOFF (i : Nat) : FRef := ⟨TRK_US_CFG.A i, 0, 4⟩
abbrev TRK_US_CFG.ALPHA (i : Nat) : FRef := ⟨TRK_US_CFG.A i, 4, 4⟩
abbrev TRK_US_CFG.HORIZON (i : Nat) : FRef := ⟨TRK_US_CFG.A i, 8, 10⟩
/-- TRK_LA_CLAMP_COUNT: look-ahead clamps, base + 0x3024 -/
abbrev TRK_LA_CLAMP_COUNT.A (i : Nat) : Nat := 0x1003024 + 0x100000 * i
abbrev TRK_LA_CLAMP_COUNT.POLICY_CLAMP_COUNT (i : Nat) : FRef := ⟨TRK_LA_CLAMP_COUNT.A i, 0, 32⟩
/-- TRK_KEY_SWITCH: upstream key, base + 0x3028 -/
abbrev TRK_KEY_SWITCH.A (i : Nat) : Nat := 0x1003028 + 0x100000 * i
abbrev TRK_KEY_SWITCH.CUR_IDX (i : Nat) : FRef := ⟨TRK_KEY_SWITCH.A i, 0, 2⟩
abbrev TRK_KEY_SWITCH.TARGET_IDX (i : Nat) : FRef := ⟨TRK_KEY_SWITCH.A i, 2, 2⟩
abbrev TRK_KEY_SWITCH.ARM (i : Nat) : FRef := ⟨TRK_KEY_SWITCH.A i, 4, 1⟩
/-- TRK_KEY_SWITCH_SFC: key switch superframe count (lo) -/
abbrev TRK_KEY_SWITCH_SFC.A (i : Nat) : Nat := 0x1003030 + 0x100000 * i
abbrev TRK_KEY_SWITCH_SFC.SFC_LO (i : Nat) : FRef := ⟨TRK_KEY_SWITCH_SFC.A i, 0, 32⟩
/-- TRK_KEY_SWITCH_SFC_HI: key switch superframe count (hi) -/
abbrev TRK_KEY_SWITCH_SFC_HI.A (i : Nat) : Nat := 0x1003034 + 0x100000 * i
abbrev TRK_KEY_SWITCH_SFC_HI.SFC_HI (i : Nat) : FRef := ⟨TRK_KEY_SWITCH_SFC_HI.A i, 0, 19⟩
/-- TRK_WS_CFG: watchful sleep, base + 0x3038 -/
abbrev TRK_WS_CFG.A (i : Nat) : Nat := 0x1003038 + 0x100000 * i
abbrev TRK_WS_CFG.WS_ON (i : Nat) : FRef := ⟨TRK_WS_CFG.A i, 0, 8⟩
abbrev TRK_WS_CFG.WS_PERIOD (i : Nat) : FRef := ⟨TRK_WS_CFG.A i, 16, 7⟩
/-- TRK_PLOAM_TX: upstream queue, base + 0x303C -/
abbrev TRK_PLOAM_TX.A (i : Nat) : Nat := 0x100303C + 0x100000 * i
abbrev TRK_PLOAM_TX.LEVEL (i : Nat) : FRef := ⟨TRK_PLOAM_TX.A i, 0, 4⟩
abbrev TRK_PLOAM_TX.PUSH (i : Nat) : FRef := ⟨TRK_PLOAM_TX.A i, 8, 1⟩
/-- TRK_ACT_CNT: activation counters, base + 0x3100 + n × 4 -/
abbrev TRK_ACT_CNT.A (i j : Nat) : Nat := 0x1003100 + 0x100000 * i + 4 * j
abbrev TRK_ACT_CNT.COUNT (i j : Nat) : FRef := ⟨TRK_ACT_CNT.A i j, 0, 32⟩

/-! Block shf (spec/06). -/

/-- SHF_JOIN_CFG: join and leave timing, 0x0180_0100 -/
abbrev SHF_JOIN_CFG.A : Nat := 0x1800100
abbrev SHF_JOIN_CFG.JOIN_RETRY : FRef := ⟨SHF_JOIN_CFG.A, 0, 8⟩
abbrev SHF_JOIN_CFG.JOIN_TRIES : FRef := ⟨SHF_JOIN_CFG.A, 8, 4⟩
abbrev SHF_JOIN_CFG.LEAVE_TIMEOUT : FRef := ⟨SHF_JOIN_CFG.A, 12, 8⟩
abbrev SHF_JOIN_CFG.REJOIN_HOLD : FRef := ⟨SHF_JOIN_CFG.A, 20, 12⟩
/-- SHF_CHAN_CFG: channel c, 0x0180_0110 + c × 4 -/
abbrev SHF_CHAN_CFG.A (i : Nat) : Nat := 0x1800110 + 4 * i
abbrev SHF_CHAN_CFG.SHED_OK (i : Nat) : FRef := ⟨SHF_CHAN_CFG.A i, 0, 1⟩
/-- SHF_GRP_CFG: group settings, group base + 0x00 -/
abbrev SHF_GRP_CFG.A (i : Nat) : Nat := 0x1801000 + 0x100 * i
abbrev SHF_GRP_CFG.MODE (i : Nat) : FRef := ⟨SHF_GRP_CFG.A i, 0, 1⟩
abbrev SHF_GRP_CFG.MARKER_ENC (i : Nat) : FRef := ⟨SHF_GRP_CFG.A i, 1, 1⟩
abbrev SHF_GRP_CFG.REORDER_TIMEOUT (i : Nat) : FRef := ⟨SHF_GRP_CFG.A i, 4, 12⟩
abbrev SHF_GRP_CFG.MARKER_GEM (i : Nat) : FRef := ⟨SHF_GRP_CFG.A i, 16, 16⟩
/-- SHF_GRP_QRANGE: hash queues, group base + 0x04 -/
abbrev SHF_GRP_QRANGE.A (i : Nat) : Nat := 0x1801004 + 0x100 * i
abbrev SHF_GRP_QRANGE.QBASE (i : Nat) : FRef := ⟨SHF_GRP_QRANGE.A i, 0, 16⟩
abbrev SHF_GRP_QRANGE.QLAST (i : Nat) : FRef := ⟨SHF_GRP_QRANGE.A i, 16, 16⟩
/-- SHF_SHED_CFG: shedding loop, group base + 0x08 -/
abbrev SHF_SHED_CFG.A (i : Nat) : Nat := 0x1801008 + 0x100 * i
abbrev SHF_SHED_CFG.SHED_EN (i : Nat) : FRef := ⟨SHF_SHED_CFG.A i, 0, 1⟩
abbrev SHF_SHED_CFG.FLOOR (i : Nat) : FRef := ⟨SHF_SHED_CFG.A i, 1, 3⟩
abbrev SHF_SHED_CFG.CEIL (i : Nat) : FRef := ⟨SHF_SHED_CFG.A i, 4, 3⟩
abbrev SHF_SHED_CFG.HI_PCT (i : Nat) : FRef := ⟨SHF_SHED_CFG.A i, 8, 7⟩
abbrev SHF_SHED_CFG.LO_PCT (i : Nat) : FRef := ⟨SHF_SHED_CFG.A i, 16, 7⟩
abbrev SHF_SHED_CFG.SHED_HOLD (i : Nat) : FRef := ⟨SHF_SHED_CFG.A i, 24, 4⟩
/-- SHF_SHED_CAP: capacity and interval, group base + 0x0C -/
abbrev SHF_SHED_CAP.A (i : Nat) : Nat := 0x180100C + 0x100 * i
abbrev SHF_SHED_CAP.C_UNIT (i : Nat) : FRef := ⟨SHF_SHED_CAP.A i, 0, 20⟩
abbrev SHF_SHED_CAP.EVAL (i : Nat) : FRef := ⟨SHF_SHED_CAP.A i, 20, 12⟩
/-- SHF_SHED_CLAMP_COUNT: clamps, group base + 0x10 -/
abbrev SHF_SHED_CLAMP_COUNT.A (i : Nat) : Nat := 0x1801010 + 0x100 * i
abbrev SHF_SHED_CLAMP_COUNT.POLICY_CLAMP_COUNT (i : Nat) : FRef := ⟨SHF_SHED_CLAMP_COUNT.A i, 0, 32⟩
/-- SHF_GRP_RX_STATUS: downstream sequence, group base + 0x14 -/
abbrev SHF_GRP_RX_STATUS.A (i : Nat) : Nat := 0x1801014 + 0x100 * i
abbrev SHF_GRP_RX_STATUS.NEXT_SN (i : Nat) : FRef := ⟨SHF_GRP_RX_STATUS.A i, 0, 24⟩
abbrev SHF_GRP_RX_STATUS.SN_SYNCED (i : Nat) : FRef := ⟨SHF_GRP_RX_STATUS.A i, 24, 1⟩
/-- SHF_GRP_TX_STATUS: upstream sequence, group base + 0x18 -/
abbrev SHF_GRP_TX_STATUS.A (i : Nat) : Nat := 0x1801018 + 0x100 * i
abbrev SHF_GRP_TX_STATUS.NEXT_TX_SN (i : Nat) : FRef := ⟨SHF_GRP_TX_STATUS.A i, 0, 24⟩
abbrev SHF_GRP_TX_STATUS.ACTIVE_MASK (i : Nat) : FRef := ⟨SHF_GRP_TX_STATUS.A i, 24, 4⟩
/-- SHF_GRP_HOLD: reorder space, group base + 0x1C -/
abbrev SHF_GRP_HOLD.A (i : Nat) : Nat := 0x180101C + 0x100 * i
abbrev SHF_GRP_HOLD.REORDER_CELLS (i : Nat) : FRef := ⟨SHF_GRP_HOLD.A i, 0, 16⟩
abbrev SHF_GRP_HOLD.HELD_CELLS (i : Nat) : FRef := ⟨SHF_GRP_HOLD.A i, 16, 16⟩
/-- SHF_MBR_CTRL: member c, group base + 0x20 + c × 8 -/
abbrev SHF_MBR_CTRL.A (i j : Nat) : Nat := 0x1801020 + 0x100 * i + 8 * j
abbrev SHF_MBR_CTRL.ENABLE (i j : Nat) : FRef := ⟨SHF_MBR_CTRL.A i j, 0, 1⟩
abbrev SHF_MBR_CTRL.RETRY (i j : Nat) : FRef := ⟨SHF_MBR_CTRL.A i j, 1, 1⟩
abbrev SHF_MBR_CTRL.ALLOC_IDX (i j : Nat) : FRef := ⟨SHF_MBR_CTRL.A i j, 4, 10⟩
/-- SHF_MBR_STATUS: member c, group base + 0x24 + c × 8 -/
abbrev SHF_MBR_STATUS.A (i j : Nat) : Nat := 0x1801024 + 0x100 * i + 8 * j
abbrev SHF_MBR_STATUS.STATE (i j : Nat) : FRef := ⟨SHF_MBR_STATUS.A i j, 0, 2⟩
abbrev SHF_MBR_STATUS.RESTART_PENDING (i j : Nat) : FRef := ⟨SHF_MBR_STATUS.A i j, 2, 1⟩
abbrev SHF_MBR_STATUS.HELD (i j : Nat) : FRef := ⟨SHF_MBR_STATUS.A i j, 3, 1⟩
abbrev SHF_MBR_STATUS.MEMBER_PHASE (i j : Nat) : FRef := ⟨SHF_MBR_STATUS.A i j, 4, 3⟩
abbrev SHF_MBR_STATUS.TRIES (i j : Nat) : FRef := ⟨SHF_MBR_STATUS.A i j, 8, 4⟩
abbrev SHF_MBR_STATUS.TOKEN (i j : Nat) : FRef := ⟨SHF_MBR_STATUS.A i j, 12, 16⟩
/-- SHF_GRP_CNT: group counters, group base + 0x40 + n × 4 -/
abbrev SHF_GRP_CNT.A (i j : Nat) : Nat := 0x1801040 + 0x100 * i + 4 * j
abbrev SHF_GRP_CNT.COUNT (i j : Nat) : FRef := ⟨SHF_GRP_CNT.A i j, 0, 32⟩

/-! Block prs (spec/07). -/

/-- THR_PRS_CFG: instance settings, base + 0x00 -/
abbrev THR_PRS_CFG.A (i : Nat) : Nat := 0x2001000 + 0x100 * i
abbrev THR_PRS_CFG.QUAR_Q (i : Nat) : FRef := ⟨THR_PRS_CFG.A i, 0, 18⟩
abbrev THR_PRS_CFG.IPV4_CSUM_EN (i : Nat) : FRef := ⟨THR_PRS_CFG.A i, 18, 1⟩
/-- THR_PRS_COPY: copy targets, base + 0x04 -/
abbrev THR_PRS_COPY.A (i : Nat) : Nat := 0x2001004 + 0x100 * i
abbrev THR_PRS_COPY.COPY_RING (i : Nat) : FRef := ⟨THR_PRS_COPY.A i, 0, 10⟩
abbrev THR_PRS_COPY.MIRROR_SES (i : Nat) : FRef := ⟨THR_PRS_COPY.A i, 16, 4⟩
/-- THR_PRS_CAPT: Chaff capture, base + 0x08 -/
abbrev THR_PRS_CAPT.A (i : Nat) : Nat := 0x2001008 + 0x100 * i
abbrev THR_PRS_CAPT.REASON (i : Nat) : FRef := ⟨THR_PRS_CAPT.A i, 0, 6⟩
abbrev THR_PRS_CAPT.SOURCE (i : Nat) : FRef := ⟨THR_PRS_CAPT.A i, 6, 10⟩
abbrev THR_PRS_CAPT.HDR (i : Nat) : FRef := ⟨THR_PRS_CAPT.A i, 16, 4⟩
abbrev THR_PRS_CAPT.OFFSET (i : Nat) : FRef := ⟨THR_PRS_CAPT.A i, 20, 8⟩
abbrev THR_PRS_CAPT.VALID (i : Nat) : FRef := ⟨THR_PRS_CAPT.A i, 31, 1⟩
/-- THR_PRS_DEPTH_CNT: depth stops, base + 0x0C -/
abbrev THR_PRS_DEPTH_CNT.A (i : Nat) : Nat := 0x200100C + 0x100 * i
abbrev THR_PRS_DEPTH_CNT.COUNT (i : Nat) : FRef := ⟨THR_PRS_DEPTH_CNT.A i, 0, 32⟩
/-- THR_PRS_PARSED: parsed packets (lo) -/
abbrev THR_PRS_PARSED.A (i : Nat) : Nat := 0x2001010 + 0x100 * i
abbrev THR_PRS_PARSED.LO (i : Nat) : FRef := ⟨THR_PRS_PARSED.A i, 0, 32⟩
/-- THR_PRS_PARSED_HI: parsed packets (hi) -/
abbrev THR_PRS_PARSED_HI.A (i : Nat) : Nat := 0x2001014 + 0x100 * i
abbrev THR_PRS_PARSED_HI.HI (i : Nat) : FRef := ⟨THR_PRS_PARSED_HI.A i, 0, 32⟩
/-- THR_CHAFF_CNT: per-reason counts -/
abbrev THR_CHAFF_CNT.A (i j : Nat) : Nat := 0x2001400 + 0x100 * i + 4 * j
abbrev THR_CHAFF_CNT.COUNT (i j : Nat) : FRef := ⟨THR_CHAFF_CNT.A i j, 0, 32⟩

/-! Block cls (spec/08). -/

/-- THR_CLS_CFG: bridging settings, 0x0200_2000 -/
abbrev THR_CLS_CFG.A : Nat := 0x2002000
abbrev THR_CLS_CFG.AGE_TIME : FRef := ⟨THR_CLS_CFG.A, 0, 16⟩
abbrev THR_CLS_CFG.LEARN_RATE : FRef := ⟨THR_CLS_CFG.A, 16, 16⟩
/-- THR_CTX_BASE: flow context region, 0x0200_2004 -/
abbrev THR_CTX_BASE.A : Nat := 0x2002004
abbrev THR_CTX_BASE.BLOCK : FRef := ⟨THR_CTX_BASE.A, 0, 9⟩
abbrev THR_CTX_BASE.CTX_EN : FRef := ⟨THR_CTX_BASE.A, 31, 1⟩
/-- THR_CTX_UPDATE: update or read, 0x0200_2010 -/
abbrev THR_CTX_UPDATE.A : Nat := 0x2002010
abbrev THR_CTX_UPDATE.FLOW_ID : FRef := ⟨THR_CTX_UPDATE.A, 0, 20⟩
abbrev THR_CTX_UPDATE.WMASK : FRef := ⟨THR_CTX_UPDATE.A, 20, 8⟩
abbrev THR_CTX_UPDATE.GO : FRef := ⟨THR_CTX_UPDATE.A, 31, 1⟩
/-- THR_CTX_INVAL: invalidate, 0x0200_2014 -/
abbrev THR_CTX_INVAL.A : Nat := 0x2002014
abbrev THR_CTX_INVAL.FLOW_ID : FRef := ⟨THR_CTX_INVAL.A, 0, 20⟩
abbrev THR_CTX_INVAL.GO : FRef := ⟨THR_CTX_INVAL.A, 31, 1⟩
/-- THR_CTX_STATUS: command state, 0x0200_2018 -/
abbrev THR_CTX_STATUS.A : Nat := 0x2002018
abbrev THR_CTX_STATUS.BUSY : FRef := ⟨THR_CTX_STATUS.A, 0, 1⟩
abbrev THR_CTX_STATUS.ERR : FRef := ⟨THR_CTX_STATUS.A, 1, 2⟩
/-- THR_EPOCH_CTRL: swap, 0x0200_2020 -/
abbrev THR_EPOCH_CTRL.A : Nat := 0x2002020
abbrev THR_EPOCH_CTRL.SWAP : FRef := ⟨THR_EPOCH_CTRL.A, 0, 1⟩
/-- THR_EPOCH_STATUS: epoch state, 0x0200_2024 -/
abbrev THR_EPOCH_STATUS.A : Nat := 0x2002024
abbrev THR_EPOCH_STATUS.CUR_EPOCH : FRef := ⟨THR_EPOCH_STATUS.A, 0, 4⟩
abbrev THR_EPOCH_STATUS.OLD_EPOCH : FRef := ⟨THR_EPOCH_STATUS.A, 4, 4⟩
abbrev THR_EPOCH_STATUS.SWAP_COMPLETE : FRef := ⟨THR_EPOCH_STATUS.A, 8, 1⟩
abbrev THR_EPOCH_STATUS.OLD_IN_FLIGHT : FRef := ⟨THR_EPOCH_STATUS.A, 16, 16⟩
/-- THR_CTX_DATA: context command data -/
abbrev THR_CTX_DATA.A (i : Nat) : Nat := 0x2002040 + 4 * i
abbrev THR_CTX_DATA.DATA (i : Nat) : FRef := ⟨THR_CTX_DATA.A i, 0, 32⟩
/-- THR_SLICE_CFG: slice s, 0x0200_2100 + s × 4 -/
abbrev THR_SLICE_CFG.A (i : Nat) : Nat := 0x2002100 + 4 * i
abbrev THR_SLICE_CFG.DIR (i : Nat) : FRef := ⟨THR_SLICE_CFG.A i, 0, 2⟩
abbrev THR_SLICE_CFG.WIDTH (i : Nat) : FRef := ⟨THR_SLICE_CFG.A i, 2, 2⟩
abbrev THR_SLICE_CFG.QUARTER (i : Nat) : FRef := ⟨THR_SLICE_CFG.A i, 4, 2⟩
abbrev THR_SLICE_CFG.BANK (i : Nat) : FRef := ⟨THR_SLICE_CFG.A i, 6, 2⟩
/-- THR_CLS_CNT: classifier counters, 0x0200_2200 + n × 4 -/
abbrev THR_CLS_CNT.A (i : Nat) : Nat := 0x2002200 + 4 * i
abbrev THR_CLS_CNT.COUNT (i : Nat) : FRef := ⟨THR_CLS_CNT.A i, 0, 32⟩

/-! Block grn (spec/09). -/

/-- GRN_POOL_DS: downstream shared cells, base + 0x1000 -/
abbrev GRN_POOL_DS.A : Nat := 0x2801000
abbrev GRN_POOL_DS.SHARED_MAX : FRef := ⟨GRN_POOL_DS.A, 0, 19⟩
/-- GRN_POOL_US: upstream shared cells -/
abbrev GRN_POOL_US.A : Nat := 0x2801004
abbrev GRN_POOL_US.SHARED_MAX : FRef := ⟨GRN_POOL_US.A, 0, 19⟩
/-- GRN_POOL_CFG: staging and pool pause, base + 0x1008 -/
abbrev GRN_POOL_CFG.A : Nat := 0x2801008
abbrev GRN_POOL_CFG.SPILL_STAGE : FRef := ⟨GRN_POOL_CFG.A, 0, 16⟩
/-- GRN_POOL_PAUSE: pool pause thresholds, base + 0x100C -/
abbrev GRN_POOL_PAUSE.A : Nat := 0x280100C
abbrev GRN_POOL_PAUSE.POOL_XOFF : FRef := ⟨GRN_POOL_PAUSE.A, 0, 16⟩
abbrev GRN_POOL_PAUSE.POOL_XON : FRef := ⟨GRN_POOL_PAUSE.A, 16, 16⟩
/-- GRN_POOL_STATUS: cell use, base + 0x1010 -/
abbrev GRN_POOL_STATUS.A : Nat := 0x2801010
abbrev GRN_POOL_STATUS.FREE_CELLS : FRef := ⟨GRN_POOL_STATUS.A, 0, 19⟩
/-- GRN_Q_FLUSH: queue flush, base + 0x1020 -/
abbrev GRN_Q_FLUSH.A : Nat := 0x2801020
abbrev GRN_Q_FLUSH.QUEUE : FRef := ⟨GRN_Q_FLUSH.A, 0, 18⟩
abbrev GRN_Q_FLUSH.BUSY : FRef := ⟨GRN_Q_FLUSH.A, 30, 1⟩
abbrev GRN_Q_FLUSH.GO : FRef := ⟨GRN_Q_FLUSH.A, 31, 1⟩
/-- GRN_DRAM_CFG: memory set-up, base + 0x1100 -/
abbrev GRN_DRAM_CFG.A : Nat := 0x2801100
abbrev GRN_DRAM_CFG.RATE : FRef := ⟨GRN_DRAM_CFG.A, 0, 2⟩
abbrev GRN_DRAM_CFG.CH_SIZE : FRef := ⟨GRN_DRAM_CFG.A, 2, 2⟩
abbrev GRN_DRAM_CFG.SHARED : FRef := ⟨GRN_DRAM_CFG.A, 4, 8⟩
abbrev GRN_DRAM_CFG.INIT : FRef := ⟨GRN_DRAM_CFG.A, 16, 1⟩
abbrev GRN_DRAM_CFG.DRAM_UP : FRef := ⟨GRN_DRAM_CFG.A, 17, 1⟩
/-- GRN_DRAM_LOOP: refresh bounds and migration, base + 0x1104 -/
abbrev GRN_DRAM_LOOP.A : Nat := 0x2801104
abbrev GRN_DRAM_LOOP.REF_MIN : FRef := ⟨GRN_DRAM_LOOP.A, 0, 3⟩
abbrev GRN_DRAM_LOOP.REF_MAX : FRef := ⟨GRN_DRAM_LOOP.A, 4, 3⟩
abbrev GRN_DRAM_LOOP.MIG_PCT : FRef := ⟨GRN_DRAM_LOOP.A, 8, 5⟩
abbrev GRN_DRAM_LOOP.FAIL_LIMIT : FRef := ⟨GRN_DRAM_LOOP.A, 16, 8⟩
/-- GRN_DRAM_CLAMP_COUNT: refresh clamps, base + 0x1108 -/
abbrev GRN_DRAM_CLAMP_COUNT.A : Nat := 0x2801108
abbrev GRN_DRAM_CLAMP_COUNT.POLICY_CLAMP_COUNT : FRef := ⟨GRN_DRAM_CLAMP_COUNT.A, 0, 32⟩
/-- GRN_POOL_USED_DS: downstream shared cells in use -/
abbrev GRN_POOL_USED_DS.A : Nat := 0x2801014
abbrev GRN_POOL_USED_DS.USED : FRef := ⟨GRN_POOL_USED_DS.A, 0, 19⟩
/-- GRN_POOL_USED_US: upstream shared cells in use -/
abbrev GRN_POOL_USED_US.A : Nat := 0x2801018
abbrev GRN_POOL_USED_US.USED : FRef := ⟨GRN_POOL_USED_US.A, 0, 19⟩
/-- GRN_DRAM_CH_CTRL: channel r commands, base + 0x1110 + r × 8 -/
abbrev GRN_DRAM_CH_CTRL.A (i : Nat) : Nat := 0x2801110 + 8 * i
abbrev GRN_DRAM_CH_CTRL.RETRAIN (i : Nat) : FRef := ⟨GRN_DRAM_CH_CTRL.A i, 0, 1⟩
abbrev GRN_DRAM_CH_CTRL.RETIRE (i : Nat) : FRef := ⟨GRN_DRAM_CH_CTRL.A i, 1, 1⟩
/-- GRN_DRAM_CH_STATUS: channel r state, base + 0x1114 + r × 8 -/
abbrev GRN_DRAM_CH_STATUS.A (i : Nat) : Nat := 0x2801114 + 8 * i
abbrev GRN_DRAM_CH_STATUS.CH_STATE (i : Nat) : FRef := ⟨GRN_DRAM_CH_STATUS.A i, 0, 2⟩
abbrev GRN_DRAM_CH_STATUS.FAILED (i : Nat) : FRef := ⟨GRN_DRAM_CH_STATUS.A i, 2, 1⟩
abbrev GRN_DRAM_CH_STATUS.REF_CODE (i : Nat) : FRef := ⟨GRN_DRAM_CH_STATUS.A i, 3, 3⟩
abbrev GRN_DRAM_CH_STATUS.BLOCKS_USED (i : Nat) : FRef := ⟨GRN_DRAM_CH_STATUS.A i, 8, 24⟩
/-- GRN_CNT: Granary counters, base + 0x1200 + n × 4 -/
abbrev GRN_CNT.A (i : Nat) : Nat := 0x2801200 + 4 * i
abbrev GRN_CNT.COUNT (i : Nat) : FRef := ⟨GRN_CNT.A i, 0, 32⟩

/-! Block tms (spec/10). -/

/-- TMS_SHP_CMD: shaper command, base + 0x1000 -/
abbrev TMS_SHP_CMD.A : Nat := 0x3001000
abbrev TMS_SHP_CMD.LEVEL : FRef := ⟨TMS_SHP_CMD.A, 0, 3⟩
abbrev TMS_SHP_CMD.INDEX : FRef := ⟨TMS_SHP_CMD.A, 4, 16⟩
abbrev TMS_SHP_CMD.BUCKET : FRef := ⟨TMS_SHP_CMD.A, 20, 2⟩
abbrev TMS_SHP_CMD.BUSY : FRef := ⟨TMS_SHP_CMD.A, 30, 1⟩
abbrev TMS_SHP_CMD.CLEAR_DEBT : FRef := ⟨TMS_SHP_CMD.A, 31, 1⟩
/-- TMS_SCH_CNT: scheduler counters, base + 0x1100 + n × 4 -/
abbrev TMS_SCH_CNT.A (i : Nat) : Nat := 0x3001100 + 4 * i
abbrev TMS_SCH_CNT.COUNT (i : Nat) : FRef := ⟨TMS_SCH_CNT.A i, 0, 32⟩
/-- TMS_DEQ_DS: packets selected downstream (lo) -/
abbrev TMS_DEQ_DS.A : Nat := 0x3001200
abbrev TMS_DEQ_DS.LO : FRef := ⟨TMS_DEQ_DS.A, 0, 32⟩
/-- TMS_DEQ_DS_HI: packets selected downstream (hi) -/
abbrev TMS_DEQ_DS_HI.A : Nat := 0x3001204
abbrev TMS_DEQ_DS_HI.HI : FRef := ⟨TMS_DEQ_DS_HI.A, 0, 32⟩
/-- TMS_DEQ_US: packets selected upstream (lo) -/
abbrev TMS_DEQ_US.A : Nat := 0x3001208
abbrev TMS_DEQ_US.LO : FRef := ⟨TMS_DEQ_US.A, 0, 32⟩
/-- TMS_DEQ_US_HI: packets selected upstream (hi) -/
abbrev TMS_DEQ_US_HI.A : Nat := 0x300120C
abbrev TMS_DEQ_US_HI.HI : FRef := ⟨TMS_DEQ_US_HI.A, 0, 32⟩

/-! Block srd (spec/11). -/

/-- SRD_LANE_CTRL: lane control, base + 0x1000 -/
abbrev SRD_LANE_CTRL.A (i : Nat) : Nat := 0x211000 + 0x10000 * i
abbrev SRD_LANE_CTRL.ENABLE (i : Nat) : FRef := ⟨SRD_LANE_CTRL.A i, 0, 1⟩
abbrev SRD_LANE_CTRL.MODE (i : Nat) : FRef := ⟨SRD_LANE_CTRL.A i, 1, 3⟩
abbrev SRD_LANE_CTRL.RX_INVERT (i : Nat) : FRef := ⟨SRD_LANE_CTRL.A i, 4, 1⟩
abbrev SRD_LANE_CTRL.TX_INVERT (i : Nat) : FRef := ⟨SRD_LANE_CTRL.A i, 5, 1⟩
abbrev SRD_LANE_CTRL.POL_AUTO (i : Nat) : FRef := ⟨SRD_LANE_CTRL.A i, 6, 1⟩
abbrev SRD_LANE_CTRL.TEST (i : Nat) : FRef := ⟨SRD_LANE_CTRL.A i, 7, 1⟩
abbrev SRD_LANE_CTRL.AN_EN (i : Nat) : FRef := ⟨SRD_LANE_CTRL.A i, 8, 1⟩
abbrev SRD_LANE_CTRL.RD_EN (i : Nat) : FRef := ⟨SRD_LANE_CTRL.A i, 9, 1⟩
abbrev SRD_LANE_CTRL.LPI_QUIET (i : Nat) : FRef := ⟨SRD_LANE_CTRL.A i, 10, 1⟩
abbrev SRD_LANE_CTRL.ED_EN (i : Nat) : FRef := ⟨SRD_LANE_CTRL.A i, 11, 1⟩
/-- SRD_LANE_STATUS: lane state, base + 0x1004 -/
abbrev SRD_LANE_STATUS.A (i : Nat) : Nat := 0x211004 + 0x10000 * i
abbrev SRD_LANE_STATUS.STATE (i : Nat) : FRef := ⟨SRD_LANE_STATUS.A i, 0, 2⟩
abbrev SRD_LANE_STATUS.RESTART_PENDING (i : Nat) : FRef := ⟨SRD_LANE_STATUS.A i, 2, 1⟩
abbrev SRD_LANE_STATUS.HELD (i : Nat) : FRef := ⟨SRD_LANE_STATUS.A i, 3, 1⟩
abbrev SRD_LANE_STATUS.LOCK (i : Nat) : FRef := ⟨SRD_LANE_STATUS.A i, 4, 1⟩
abbrev SRD_LANE_STATUS.POL_STATE (i : Nat) : FRef := ⟨SRD_LANE_STATUS.A i, 5, 1⟩
abbrev SRD_LANE_STATUS.CUR_MODE (i : Nat) : FRef := ⟨SRD_LANE_STATUS.A i, 6, 3⟩
abbrev SRD_LANE_STATUS.LPI_TX (i : Nat) : FRef := ⟨SRD_LANE_STATUS.A i, 9, 1⟩
abbrev SRD_LANE_STATUS.LPI_RX (i : Nat) : FRef := ⟨SRD_LANE_STATUS.A i, 10, 1⟩
abbrev SRD_LANE_STATUS.RECAL_BUSY (i : Nat) : FRef := ⟨SRD_LANE_STATUS.A i, 11, 1⟩
abbrev SRD_LANE_STATUS.ENERGY (i : Nat) : FRef := ⟨SRD_LANE_STATUS.A i, 12, 1⟩
/-- SRD_LANE_EQ: equaliser bounds, base + 0x1008 -/
abbrev SRD_LANE_EQ.A (i : Nat) : Nat := 0x211008 + 0x10000 * i
abbrev SRD_LANE_EQ.CTLE_MIN (i : Nat) : FRef := ⟨SRD_LANE_EQ.A i, 0, 4⟩
abbrev SRD_LANE_EQ.CTLE_MAX (i : Nat) : FRef := ⟨SRD_LANE_EQ.A i, 4, 4⟩
abbrev SRD_LANE_EQ.CTLE (i : Nat) : FRef := ⟨SRD_LANE_EQ.A i, 8, 4⟩
abbrev SRD_LANE_EQ.ADAPT_EN (i : Nat) : FRef := ⟨SRD_LANE_EQ.A i, 31, 1⟩
/-- SRD_RD_CFG: rate-down, base + 0x1010 -/
abbrev SRD_RD_CFG.A (i : Nat) : Nat := 0x211010 + 0x10000 * i
abbrev SRD_RD_CFG.RD_FLOOR (i : Nat) : FRef := ⟨SRD_RD_CFG.A i, 0, 2⟩
abbrev SRD_RD_CFG.RD_CEIL (i : Nat) : FRef := ⟨SRD_RD_CFG.A i, 2, 2⟩
abbrev SRD_RD_CFG.RD_HOLD (i : Nat) : FRef := ⟨SRD_RD_CFG.A i, 4, 4⟩
abbrev SRD_RD_CFG.RD_LO_PCT (i : Nat) : FRef := ⟨SRD_RD_CFG.A i, 8, 7⟩
abbrev SRD_RD_CFG.RD_HI_PCT (i : Nat) : FRef := ⟨SRD_RD_CFG.A i, 16, 7⟩
abbrev SRD_RD_CFG.RD_EVAL (i : Nat) : FRef := ⟨SRD_RD_CFG.A i, 24, 8⟩
/-- SRD_LANE_CLAMP_COUNT: clamps of R291 and R305 -/
abbrev SRD_LANE_CLAMP_COUNT.A (i : Nat) : Nat := 0x211014 + 0x10000 * i
abbrev SRD_LANE_CLAMP_COUNT.POLICY_CLAMP_COUNT (i : Nat) : FRef := ⟨SRD_LANE_CLAMP_COUNT.A i, 0, 32⟩
/-- SRD_RECAL: recalibration, base + 0x1020 -/
abbrev SRD_RECAL.A (i : Nat) : Nat := 0x211020 + 0x10000 * i
abbrev SRD_RECAL.RECAL_GO (i : Nat) : FRef := ⟨SRD_RECAL.A i, 0, 1⟩
abbrev SRD_RECAL.RECAL_PERIOD (i : Nat) : FRef := ⟨SRD_RECAL.A i, 8, 16⟩
/-- SRD_PRBS_CTRL: pattern control, base + 0x1100 -/
abbrev SRD_PRBS_CTRL.A (i : Nat) : Nat := 0x211030 + 0x10000 * i
abbrev SRD_PRBS_CTRL.TX_PAT (i : Nat) : FRef := ⟨SRD_PRBS_CTRL.A i, 0, 3⟩
abbrev SRD_PRBS_CTRL.RX_PAT (i : Nat) : FRef := ⟨SRD_PRBS_CTRL.A i, 4, 3⟩
abbrev SRD_PRBS_CTRL.RX_INV (i : Nat) : FRef := ⟨SRD_PRBS_CTRL.A i, 8, 1⟩
abbrev SRD_PRBS_CTRL.CLEAR (i : Nat) : FRef := ⟨SRD_PRBS_CTRL.A i, 9, 1⟩
/-- SRD_PRBS_STATUS: checker state, base + 0x1104 -/
abbrev SRD_PRBS_STATUS.A (i : Nat) : Nat := 0x211034 + 0x10000 * i
abbrev SRD_PRBS_STATUS.LOCK (i : Nat) : FRef := ⟨SRD_PRBS_STATUS.A i, 0, 1⟩
abbrev SRD_PRBS_STATUS.LOCK_LOST (i : Nat) : FRef := ⟨SRD_PRBS_STATUS.A i, 1, 1⟩
/-- SRD_PRBS_ERR: pattern bit errors (lo) -/
abbrev SRD_PRBS_ERR.A (i : Nat) : Nat := 0x211040 + 0x10000 * i
abbrev SRD_PRBS_ERR.LO (i : Nat) : FRef := ⟨SRD_PRBS_ERR.A i, 0, 32⟩
/-- SRD_PRBS_ERR_HI: pattern bit errors (hi) -/
abbrev SRD_PRBS_ERR_HI.A (i : Nat) : Nat := 0x211044 + 0x10000 * i
abbrev SRD_PRBS_ERR_HI.HI (i : Nat) : FRef := ⟨SRD_PRBS_ERR_HI.A i, 0, 32⟩
/-- SRD_PRBS_BITS: pattern bits checked (lo) -/
abbrev SRD_PRBS_BITS.A (i : Nat) : Nat := 0x211048 + 0x10000 * i
abbrev SRD_PRBS_BITS.LO (i : Nat) : FRef := ⟨SRD_PRBS_BITS.A i, 0, 32⟩
/-- SRD_PRBS_BITS_HI: pattern bits checked (hi) -/
abbrev SRD_PRBS_BITS_HI.A (i : Nat) : Nat := 0x21104C + 0x10000 * i
abbrev SRD_PRBS_BITS_HI.HI (i : Nat) : FRef := ⟨SRD_PRBS_BITS_HI.A i, 0, 32⟩
/-- SRD_LANE_CNT: lane counters -/
abbrev SRD_LANE_CNT.A (i j : Nat) : Nat := 0x211100 + 0x10000 * i + 4 * j
abbrev SRD_LANE_CNT.COUNT (i j : Nat) : FRef := ⟨SRD_LANE_CNT.A i j, 0, 32⟩
/-- SRD_MDIO_CFG: master settings, base + 0x00 -/
abbrev SRD_MDIO_CFG.A (i : Nat) : Nat := 0x201000 + 0x20 * i
abbrev SRD_MDIO_CFG.MDC (i : Nat) : FRef := ⟨SRD_MDIO_CFG.A i, 0, 2⟩
abbrev SRD_MDIO_CFG.PRE_SUP (i : Nat) : FRef := ⟨SRD_MDIO_CFG.A i, 2, 1⟩
abbrev SRD_MDIO_CFG.POLL_MS (i : Nat) : FRef := ⟨SRD_MDIO_CFG.A i, 8, 8⟩
abbrev SRD_MDIO_CFG.POLL_ERR (i : Nat) : FRef := ⟨SRD_MDIO_CFG.A i, 16, 16⟩
/-- SRD_MDIO_CMD: command, base + 0x04 -/
abbrev SRD_MDIO_CMD.A (i : Nat) : Nat := 0x201004 + 0x20 * i
abbrev SRD_MDIO_CMD.PRTAD (i : Nat) : FRef := ⟨SRD_MDIO_CMD.A i, 0, 5⟩
abbrev SRD_MDIO_CMD.DEVAD (i : Nat) : FRef := ⟨SRD_MDIO_CMD.A i, 5, 5⟩
abbrev SRD_MDIO_CMD.OP (i : Nat) : FRef := ⟨SRD_MDIO_CMD.A i, 10, 2⟩
abbrev SRD_MDIO_CMD.CL45 (i : Nat) : FRef := ⟨SRD_MDIO_CMD.A i, 12, 1⟩
abbrev SRD_MDIO_CMD.GO (i : Nat) : FRef := ⟨SRD_MDIO_CMD.A i, 13, 1⟩
abbrev SRD_MDIO_CMD.BUSY (i : Nat) : FRef := ⟨SRD_MDIO_CMD.A i, 14, 1⟩
abbrev SRD_MDIO_CMD.ERR (i : Nat) : FRef := ⟨SRD_MDIO_CMD.A i, 15, 1⟩
abbrev SRD_MDIO_CMD.DATA (i : Nat) : FRef := ⟨SRD_MDIO_CMD.A i, 16, 16⟩

/-! Block sub (spec/11, spec/13). -/

/-- SUB_PORT_CTRL: port control, base + 0x100 -/
abbrev SUB_PORT_CTRL.A (i : Nat) : Nat := 0x4000100 + 0x1000 * i
abbrev SUB_PORT_CTRL.ENABLE (i : Nat) : FRef := ⟨SUB_PORT_CTRL.A i, 0, 1⟩
abbrev SUB_PORT_CTRL.DOWN_ACTION (i : Nat) : FRef := ⟨SUB_PORT_CTRL.A i, 1, 1⟩
abbrev SUB_PORT_CTRL.MACSEC_EN (i : Nat) : FRef := ⟨SUB_PORT_CTRL.A i, 2, 1⟩
abbrev SUB_PORT_CTRL.LPI_EN (i : Nat) : FRef := ⟨SUB_PORT_CTRL.A i, 3, 1⟩
abbrev SUB_PORT_CTRL.SPK_SPEED (i : Nat) : FRef := ⟨SUB_PORT_CTRL.A i, 4, 2⟩
abbrev SUB_PORT_CTRL.MAX_LEN (i : Nat) : FRef := ⟨SUB_PORT_CTRL.A i, 8, 14⟩
/-- SUB_PORT_STATUS: port state, base + 0x104 -/
abbrev SUB_PORT_STATUS.A (i : Nat) : Nat := 0x4000104 + 0x1000 * i
abbrev SUB_PORT_STATUS.STATE (i : Nat) : FRef := ⟨SUB_PORT_STATUS.A i, 0, 2⟩
abbrev SUB_PORT_STATUS.RESTART_PENDING (i : Nat) : FRef := ⟨SUB_PORT_STATUS.A i, 2, 1⟩
abbrev SUB_PORT_STATUS.HELD (i : Nat) : FRef := ⟨SUB_PORT_STATUS.A i, 3, 1⟩
abbrev SUB_PORT_STATUS.LINK (i : Nat) : FRef := ⟨SUB_PORT_STATUS.A i, 4, 1⟩
abbrev SUB_PORT_STATUS.PHY_LINK (i : Nat) : FRef := ⟨SUB_PORT_STATUS.A i, 5, 1⟩
abbrev SUB_PORT_STATUS.PFC_RX_MASK (i : Nat) : FRef := ⟨SUB_PORT_STATUS.A i, 8, 8⟩
abbrev SUB_PORT_STATUS.PFC_TX_XOFF (i : Nat) : FRef := ⟨SUB_PORT_STATUS.A i, 16, 8⟩
/-- SUB_MAC_ADDR_LO: port address bytes 2–5 -/
abbrev SUB_MAC_ADDR_LO.A (i : Nat) : Nat := 0x4000108 + 0x1000 * i
abbrev SUB_MAC_ADDR_LO.ADDR (i : Nat) : FRef := ⟨SUB_MAC_ADDR_LO.A i, 0, 32⟩
/-- SUB_MAC_ADDR_HI: port address bytes 0–1 -/
abbrev SUB_MAC_ADDR_HI.A (i : Nat) : Nat := 0x400010C + 0x1000 * i
abbrev SUB_MAC_ADDR_HI.ADDR (i : Nat) : FRef := ⟨SUB_MAC_ADDR_HI.A i, 0, 16⟩
/-- SUB_PFC_CFG: pause timing, base + 0x110 -/
abbrev SUB_PFC_CFG.A (i : Nat) : Nat := 0x4000110 + 0x1000 * i
abbrev SUB_PFC_CFG.QUANTA (i : Nat) : FRef := ⟨SUB_PFC_CFG.A i, 0, 16⟩
abbrev SUB_PFC_CFG.REFRESH (i : Nat) : FRef := ⟨SUB_PFC_CFG.A i, 16, 16⟩
/-- SUB_EEE_CFG: low-power idle, base + 0x114 -/
abbrev SUB_EEE_CFG.A (i : Nat) : Nat := 0x4000114 + 0x1000 * i
abbrev SUB_EEE_CFG.LPI_IDLE (i : Nat) : FRef := ⟨SUB_EEE_CFG.A i, 0, 16⟩
abbrev SUB_EEE_CFG.TW_SYS (i : Nat) : FRef := ⟨SUB_EEE_CFG.A i, 16, 16⟩
/-- SUB_TS_CFG: timestamps, base + 0x120 -/
abbrev SUB_TS_CFG.A (i : Nat) : Nat := 0x4000120 + 0x1000 * i
abbrev SUB_TS_CFG.TS_Q (i : Nat) : FRef := ⟨SUB_TS_CFG.A i, 0, 4⟩
abbrev SUB_TS_CFG.TS_RX_EN (i : Nat) : FRef := ⟨SUB_TS_CFG.A i, 4, 1⟩
/-- SUB_TS_ADJ: timestamp corrections, signed ps -/
abbrev SUB_TS_ADJ.A (i : Nat) : Nat := 0x4000124 + 0x1000 * i
abbrev SUB_TS_ADJ.RX_ADJ (i : Nat) : FRef := ⟨SUB_TS_ADJ.A i, 0, 16⟩
abbrev SUB_TS_ADJ.TX_ADJ (i : Nat) : FRef := ⟨SUB_TS_ADJ.A i, 16, 16⟩
/-- SUB_GATE_CTRL: gate list control, base + 0x130 -/
abbrev SUB_GATE_CTRL.A (i : Nat) : Nat := 0x4000130 + 0x1000 * i
abbrev SUB_GATE_CTRL.GATE_EN (i : Nat) : FRef := ⟨SUB_GATE_CTRL.A i, 0, 1⟩
abbrev SUB_GATE_CTRL.CONFIG_CHANGE (i : Nat) : FRef := ⟨SUB_GATE_CTRL.A i, 1, 1⟩
abbrev SUB_GATE_CTRL.GUARD (i : Nat) : FRef := ⟨SUB_GATE_CTRL.A i, 2, 1⟩
/-- SUB_GATE_BASE_NS: gate list base, ns -/
abbrev SUB_GATE_BASE_NS.A (i : Nat) : Nat := 0x4000134 + 0x1000 * i
abbrev SUB_GATE_BASE_NS.NS (i : Nat) : FRef := ⟨SUB_GATE_BASE_NS.A i, 0, 30⟩
/-- SUB_GATE_BASE_SEC_LO: gate list base, seconds [31:0] -/
abbrev SUB_GATE_BASE_SEC_LO.A (i : Nat) : Nat := 0x4000138 + 0x1000 * i
abbrev SUB_GATE_BASE_SEC_LO.SEC (i : Nat) : FRef := ⟨SUB_GATE_BASE_SEC_LO.A i, 0, 32⟩
/-- SUB_GATE_BASE_SEC_HI: gate list base, seconds [47:32] -/
abbrev SUB_GATE_BASE_SEC_HI.A (i : Nat) : Nat := 0x400013C + 0x1000 * i
abbrev SUB_GATE_BASE_SEC_HI.SEC (i : Nat) : FRef := ⟨SUB_GATE_BASE_SEC_HI.A i, 0, 16⟩
/-- SUB_GATE_CYCLE: gate list cycle, ns -/
abbrev SUB_GATE_CYCLE.A (i : Nat) : Nat := 0x4000140 + 0x1000 * i
abbrev SUB_GATE_CYCLE.CYCLE (i : Nat) : FRef := ⟨SUB_GATE_CYCLE.A i, 0, 30⟩
/-- SUB_GATE_LEN: pending list entries -/
abbrev SUB_GATE_LEN.A (i : Nat) : Nat := 0x4000144 + 0x1000 * i
abbrev SUB_GATE_LEN.LEN (i : Nat) : FRef := ⟨SUB_GATE_LEN.A i, 0, 9⟩
/-- SUB_GATE_STATUS: gate list state, base + 0x148 -/
abbrev SUB_GATE_STATUS.A (i : Nat) : Nat := 0x4000148 + 0x1000 * i
abbrev SUB_GATE_STATUS.ACTIVE_LIST (i : Nat) : FRef := ⟨SUB_GATE_STATUS.A i, 0, 1⟩
abbrev SUB_GATE_STATUS.CHANGE_PENDING (i : Nat) : FRef := ⟨SUB_GATE_STATUS.A i, 1, 1⟩
abbrev SUB_GATE_STATUS.GATES (i : Nat) : FRef := ⟨SUB_GATE_STATUS.A i, 8, 8⟩
abbrev SUB_GATE_STATUS.ENTRY (i : Nat) : FRef := ⟨SUB_GATE_STATUS.A i, 16, 8⟩
/-- SUB_GATE_CNT: gate list counters -/
abbrev SUB_GATE_CNT.A (i : Nat) : Nat := 0x400014C + 0x1000 * i
abbrev SUB_GATE_CNT.GATE_LATE_COUNT (i : Nat) : FRef := ⟨SUB_GATE_CNT.A i, 0, 16⟩
abbrev SUB_GATE_CNT.GATE_SWITCH_COUNT (i : Nat) : FRef := ⟨SUB_GATE_CNT.A i, 16, 16⟩
/-- SUB_RX_FRAMES: SUB_RX_FRAMES (lo) -/
abbrev SUB_RX_FRAMES.A (i : Nat) : Nat := 0x4000200 + 0x1000 * i
abbrev SUB_RX_FRAMES.LO (i : Nat) : FRef := ⟨SUB_RX_FRAMES.A i, 0, 32⟩
/-- SUB_RX_FRAMES_HI: SUB_RX_FRAMES (hi) -/
abbrev SUB_RX_FRAMES_HI.A (i : Nat) : Nat := 0x4000204 + 0x1000 * i
abbrev SUB_RX_FRAMES_HI.HI (i : Nat) : FRef := ⟨SUB_RX_FRAMES_HI.A i, 0, 32⟩
/-- SUB_RX_BYTES: SUB_RX_BYTES (lo) -/
abbrev SUB_RX_BYTES.A (i : Nat) : Nat := 0x4000208 + 0x1000 * i
abbrev SUB_RX_BYTES.LO (i : Nat) : FRef := ⟨SUB_RX_BYTES.A i, 0, 32⟩
/-- SUB_RX_BYTES_HI: SUB_RX_BYTES (hi) -/
abbrev SUB_RX_BYTES_HI.A (i : Nat) : Nat := 0x400020C + 0x1000 * i
abbrev SUB_RX_BYTES_HI.HI (i : Nat) : FRef := ⟨SUB_RX_BYTES_HI.A i, 0, 32⟩
/-- SUB_TX_FRAMES: SUB_TX_FRAMES (lo) -/
abbrev SUB_TX_FRAMES.A (i : Nat) : Nat := 0x4000210 + 0x1000 * i
abbrev SUB_TX_FRAMES.LO (i : Nat) : FRef := ⟨SUB_TX_FRAMES.A i, 0, 32⟩
/-- SUB_TX_FRAMES_HI: SUB_TX_FRAMES (hi) -/
abbrev SUB_TX_FRAMES_HI.A (i : Nat) : Nat := 0x4000214 + 0x1000 * i
abbrev SUB_TX_FRAMES_HI.HI (i : Nat) : FRef := ⟨SUB_TX_FRAMES_HI.A i, 0, 32⟩
/-- SUB_TX_BYTES: SUB_TX_BYTES (lo) -/
abbrev SUB_TX_BYTES.A (i : Nat) : Nat := 0x4000218 + 0x1000 * i
abbrev SUB_TX_BYTES.LO (i : Nat) : FRef := ⟨SUB_TX_BYTES.A i, 0, 32⟩
/-- SUB_TX_BYTES_HI: SUB_TX_BYTES (hi) -/
abbrev SUB_TX_BYTES_HI.A (i : Nat) : Nat := 0x400021C + 0x1000 * i
abbrev SUB_TX_BYTES_HI.HI (i : Nat) : FRef := ⟨SUB_TX_BYTES_HI.A i, 0, 32⟩
/-- SUB_PORT_CNT: port counters -/
abbrev SUB_PORT_CNT.A (i j : Nat) : Nat := 0x4000240 + 0x1000 * i + 4 * j
abbrev SUB_PORT_CNT.COUNT (i j : Nat) : FRef := ⟨SUB_PORT_CNT.A i j, 0, 32⟩

/-! Block slt (spec/12). -/

/-- SLT_CFG: block settings, base + 0x1000 -/
abbrev SLT_CFG.A : Nat := 0x4801000
abbrev SLT_CFG.SWAP_EVT : FRef := ⟨SLT_CFG.A, 0, 6⟩
abbrev SLT_CFG.SWAP_EVT_EN : FRef := ⟨SLT_CFG.A, 6, 1⟩
abbrev SLT_CFG.CONT_LOSS : FRef := ⟨SLT_CFG.A, 8, 4⟩
abbrev SLT_CFG.ETYPE : FRef := ⟨SLT_CFG.A, 16, 16⟩
/-- SLT_CH_CFG: channel c, base + 0x1010 + c × 4 -/
abbrev SLT_CH_CFG.A (i : Nat) : Nat := 0x4801010 + 4 * i
abbrev SLT_CH_CFG.US_EN (i : Nat) : FRef := ⟨SLT_CH_CFG.A i, 0, 1⟩
abbrev SLT_CH_CFG.US_ENC (i : Nat) : FRef := ⟨SLT_CH_CFG.A i, 1, 1⟩
abbrev SLT_CH_CFG.ALLOC_IDX (i : Nat) : FRef := ⟨SLT_CH_CFG.A i, 2, 10⟩
abbrev SLT_CH_CFG.US_GEM (i : Nat) : FRef := ⟨SLT_CH_CFG.A i, 16, 16⟩
/-- SLT_PAGE_CTRL: page p, base + 0x1020 + p × 8 -/
abbrev SLT_PAGE_CTRL.A (i : Nat) : Nat := 0x4801020 + 8 * i
abbrev SLT_PAGE_CTRL.ENABLE (i : Nat) : FRef := ⟨SLT_PAGE_CTRL.A i, 0, 1⟩
/-- SLT_PAGE_STATUS: page p, base + 0x1024 + p × 8 -/
abbrev SLT_PAGE_STATUS.A (i : Nat) : Nat := 0x4801024 + 8 * i
abbrev SLT_PAGE_STATUS.STATE (i : Nat) : FRef := ⟨SLT_PAGE_STATUS.A i, 0, 2⟩
abbrev SLT_PAGE_STATUS.RESTART_PENDING (i : Nat) : FRef := ⟨SLT_PAGE_STATUS.A i, 2, 1⟩
abbrev SLT_PAGE_STATUS.HELD (i : Nat) : FRef := ⟨SLT_PAGE_STATUS.A i, 3, 1⟩
abbrev SLT_PAGE_STATUS.SWAP_FRAME (i : Nat) : FRef := ⟨SLT_PAGE_STATUS.A i, 4, 16⟩
abbrev SLT_PAGE_STATUS.BAD_ENTRIES (i : Nat) : FRef := ⟨SLT_PAGE_STATUS.A i, 20, 12⟩
/-- SLT_FRAME: local slot frame count -/
abbrev SLT_FRAME.A : Nat := 0x4801030
abbrev SLT_FRAME.F_LOC : FRef := ⟨SLT_FRAME.A, 0, 16⟩
/-- SLT_PSW_CMD: selector command, base + 0x1040 -/
abbrev SLT_PSW_CMD.A : Nat := 0x4801040
abbrev SLT_PSW_CMD.CIRCUIT : FRef := ⟨SLT_PSW_CMD.A, 0, 10⟩
abbrev SLT_PSW_CMD.CMD : FRef := ⟨SLT_PSW_CMD.A, 10, 3⟩
abbrev SLT_PSW_CMD.GO : FRef := ⟨SLT_PSW_CMD.A, 31, 1⟩
/-- SLT_CH_CNT: slot channel counters -/
abbrev SLT_CH_CNT.A (i j : Nat) : Nat := 0x4801100 + 0x20 * i + 4 * j
abbrev SLT_CH_CNT.COUNT (i j : Nat) : FRef := ⟨SLT_CH_CNT.A i j, 0, 32⟩
/-- SLT_RX_NO_CIRCUIT: slot packets without a circuit -/
abbrev SLT_RX_NO_CIRCUIT.A : Nat := 0x4801180
abbrev SLT_RX_NO_CIRCUIT.COUNT : FRef := ⟨SLT_RX_NO_CIRCUIT.A, 0, 32⟩

/-! Block tim (spec/13). -/

/-- TIM_CTRL: source and outputs, base + 0x1000 -/
abbrev TIM_CTRL.A : Nat := 0x5001000
abbrev TIM_CTRL.SRC_CH : FRef := ⟨TIM_CTRL.A, 0, 2⟩
abbrev TIM_CTRL.SRC_EN : FRef := ⟨TIM_CTRL.A, 2, 1⟩
abbrev TIM_CTRL.CLKOUT_EN : FRef := ⟨TIM_CTRL.A, 3, 1⟩
abbrev TIM_CTRL.CLKOUT_FREQ : FRef := ⟨TIM_CTRL.A, 4, 1⟩
abbrev TIM_CTRL.PPS_OUT_EN : FRef := ⟨TIM_CTRL.A, 5, 1⟩
abbrev TIM_CTRL.PPS_WIDTH : FRef := ⟨TIM_CTRL.A, 8, 16⟩
/-- TIM_STATUS: clock state, base + 0x1004 -/
abbrev TIM_STATUS.A : Nat := 0x5001004
abbrev TIM_STATUS.STATE : FRef := ⟨TIM_STATUS.A, 0, 2⟩
abbrev TIM_STATUS.SRC_SYNC : FRef := ⟨TIM_STATUS.A, 2, 1⟩
abbrev TIM_STATUS.DPLL_STATE : FRef := ⟨TIM_STATUS.A, 3, 2⟩
abbrev TIM_STATUS.FREQ_MEM_VALID : FRef := ⟨TIM_STATUS.A, 5, 1⟩
/-- TIM_INC_FRAC: tick increment fraction -/
abbrev TIM_INC_FRAC.A : Nat := 0x5001008
abbrev TIM_INC_FRAC.INC : FRef := ⟨TIM_INC_FRAC.A, 0, 32⟩
/-- TIM_NOW_NS: local time, ns -/
abbrev TIM_NOW_NS.A : Nat := 0x5001010
abbrev TIM_NOW_NS.NS : FRef := ⟨TIM_NOW_NS.A, 0, 30⟩
/-- TIM_NOW_SEC_LO: latched seconds [31:0] -/
abbrev TIM_NOW_SEC_LO.A : Nat := 0x5001014
abbrev TIM_NOW_SEC_LO.SEC : FRef := ⟨TIM_NOW_SEC_LO.A, 0, 32⟩
/-- TIM_NOW_SEC_HI: latched seconds [47:32] -/
abbrev TIM_NOW_SEC_HI.A : Nat := 0x5001018
abbrev TIM_NOW_SEC_HI.SEC : FRef := ⟨TIM_NOW_SEC_HI.A, 0, 16⟩
/-- TIM_NOW_FRAC: latched fraction -/
abbrev TIM_NOW_FRAC.A : Nat := 0x500101C
abbrev TIM_NOW_FRAC.FRAC : FRef := ⟨TIM_NOW_FRAC.A, 0, 32⟩
/-- TIM_SET_NS: step value, ns -/
abbrev TIM_SET_NS.A : Nat := 0x5001020
abbrev TIM_SET_NS.NS : FRef := ⟨TIM_SET_NS.A, 0, 32⟩
/-- TIM_SET_SEC_LO: step value, seconds [31:0] -/
abbrev TIM_SET_SEC_LO.A : Nat := 0x5001024
abbrev TIM_SET_SEC_LO.SEC : FRef := ⟨TIM_SET_SEC_LO.A, 0, 32⟩
/-- TIM_SET_SEC_HI: step value, seconds [47:32] -/
abbrev TIM_SET_SEC_HI.A : Nat := 0x5001028
abbrev TIM_SET_SEC_HI.SEC : FRef := ⟨TIM_SET_SEC_HI.A, 0, 16⟩
/-- TIM_SET_CMD: step, base + 0x102C -/
abbrev TIM_SET_CMD.A : Nat := 0x500102C
abbrev TIM_SET_CMD.OP : FRef := ⟨TIM_SET_CMD.A, 0, 2⟩
/-- TIM_TOD_SFC: time-of-day superframe count (lo) -/
abbrev TIM_TOD_SFC.A : Nat := 0x5001030
abbrev TIM_TOD_SFC.SFC_LO : FRef := ⟨TIM_TOD_SFC.A, 0, 32⟩
/-- TIM_TOD_SFC_HI: time-of-day superframe count (hi) -/
abbrev TIM_TOD_SFC_HI.A : Nat := 0x5001034
abbrev TIM_TOD_SFC_HI.SFC_HI : FRef := ⟨TIM_TOD_SFC_HI.A, 0, 19⟩
/-- TIM_TOD_SEC: time of day, seconds [31:0] -/
abbrev TIM_TOD_SEC.A : Nat := 0x5001038
abbrev TIM_TOD_SEC.SEC : FRef := ⟨TIM_TOD_SEC.A, 0, 32⟩
/-- TIM_TOD_SEC_HI: time of day, seconds [47:32] -/
abbrev TIM_TOD_SEC_HI.A : Nat := 0x500103C
abbrev TIM_TOD_SEC_HI.SEC : FRef := ⟨TIM_TOD_SEC_HI.A, 0, 16⟩
/-- TIM_TOD_NS: time of day, ns -/
abbrev TIM_TOD_NS.A : Nat := 0x5001040
abbrev TIM_TOD_NS.NS : FRef := ⟨TIM_TOD_NS.A, 0, 30⟩
/-- TIM_TOD_ARM: update control, base + 0x1044 -/
abbrev TIM_TOD_ARM.A : Nat := 0x5001044
abbrev TIM_TOD_ARM.ARM : FRef := ⟨TIM_TOD_ARM.A, 0, 1⟩
abbrev TIM_TOD_ARM.FORCE : FRef := ⟨TIM_TOD_ARM.A, 1, 1⟩
/-- TIM_RATIO: downstream share of the round trip -/
abbrev TIM_RATIO.A : Nat := 0x5001048
abbrev TIM_RATIO.RATIO : FRef := ⟨TIM_RATIO.A, 0, 16⟩
/-- TIM_TEQD: equalisation target -/
abbrev TIM_TEQD.A : Nat := 0x500104C
abbrev TIM_TEQD.TEQD : FRef := ⟨TIM_TEQD.A, 0, 32⟩
/-- TIM_ASYM: signed correction, ps -/
abbrev TIM_ASYM.A : Nat := 0x5001050
abbrev TIM_ASYM.ASYM : FRef := ⟨TIM_ASYM.A, 0, 32⟩
/-- TIM_JUMP_LIMIT: jump limit, ns -/
abbrev TIM_JUMP_LIMIT.A : Nat := 0x5001054
abbrev TIM_JUMP_LIMIT.LIMIT : FRef := ⟨TIM_JUMP_LIMIT.A, 0, 30⟩
/-- TIM_LAST_OFFSET: offset of the last update, signed ns -/
abbrev TIM_LAST_OFFSET.A : Nat := 0x5001058
abbrev TIM_LAST_OFFSET.OFFSET : FRef := ⟨TIM_LAST_OFFSET.A, 0, 32⟩
/-- TIM_SYNCE_LANES: lanes that carry SyncE -/
abbrev TIM_SYNCE_LANES.A (i : Nat) : Nat := 0x5001060 + 4 * i
abbrev TIM_SYNCE_LANES.LANES (i : Nat) : FRef := ⟨TIM_SYNCE_LANES.A i, 0, 32⟩
/-- TIM_CNT: time counters, base + 0x1100 + n × 4 -/
abbrev TIM_CNT.A (i : Nat) : Nat := 0x5001100 + 4 * i
abbrev TIM_CNT.COUNT (i : Nat) : FRef := ⟨TIM_CNT.A i, 0, 32⟩
/-- TIM_TSQ: timestamp queue state -/
abbrev TIM_TSQ.A (i : Nat) : Nat := 0x5001200 + 0x20 * i
abbrev TIM_TSQ.LEVEL (i : Nat) : FRef := ⟨TIM_TSQ.A i, 0, 8⟩
abbrev TIM_TSQ.POP (i : Nat) : FRef := ⟨TIM_TSQ.A i, 8, 1⟩
abbrev TIM_TSQ.OVF_STICKY (i : Nat) : FRef := ⟨TIM_TSQ.A i, 9, 1⟩
/-- TIM_TSQ_ID: timestamp queue head -/
abbrev TIM_TSQ_ID.A (i : Nat) : Nat := 0x5001204 + 0x20 * i
abbrev TIM_TSQ_ID.TS_ID (i : Nat) : FRef := ⟨TIM_TSQ_ID.A i, 0, 16⟩
abbrev TIM_TSQ_ID.PORT (i : Nat) : FRef := ⟨TIM_TSQ_ID.A i, 16, 10⟩
abbrev TIM_TSQ_ID.NOT_SENT (i : Nat) : FRef := ⟨TIM_TSQ_ID.A i, 26, 1⟩
/-- TIM_TSQ_SEC: timestamp queue head seconds -/
abbrev TIM_TSQ_SEC.A (i : Nat) : Nat := 0x5001208 + 0x20 * i
abbrev TIM_TSQ_SEC.SEC (i : Nat) : FRef := ⟨TIM_TSQ_SEC.A i, 0, 32⟩
/-- TIM_TSQ_NS: timestamp queue head ns -/
abbrev TIM_TSQ_NS.A (i : Nat) : Nat := 0x500120C + 0x20 * i
abbrev TIM_TSQ_NS.NS (i : Nat) : FRef := ⟨TIM_TSQ_NS.A i, 0, 30⟩
/-- TIM_TSQ_FRAC: timestamp queue head fraction, last lost ID -/
abbrev TIM_TSQ_FRAC.A (i : Nat) : Nat := 0x5001210 + 0x20 * i
abbrev TIM_TSQ_FRAC.FRAC (i : Nat) : FRef := ⟨TIM_TSQ_FRAC.A i, 0, 16⟩
abbrev TIM_TSQ_FRAC.LAST_LOST_ID (i : Nat) : FRef := ⟨TIM_TSQ_FRAC.A i, 16, 16⟩
/-- TIM_TSQ_OVF: lost entries -/
abbrev TIM_TSQ_OVF.A (i : Nat) : Nat := 0x5001214 + 0x20 * i
abbrev TIM_TSQ_OVF.TS_OVERFLOW_COUNT (i : Nat) : FRef := ⟨TIM_TSQ_OVF.A i, 0, 32⟩
/-- TIM_CAP: capture input -/
abbrev TIM_CAP.A (i : Nat) : Nat := 0x5001400 + 0x10 * i
abbrev TIM_CAP.CAP_EN (i : Nat) : FRef := ⟨TIM_CAP.A i, 0, 1⟩
abbrev TIM_CAP.EDGE (i : Nat) : FRef := ⟨TIM_CAP.A i, 1, 1⟩
abbrev TIM_CAP.POP (i : Nat) : FRef := ⟨TIM_CAP.A i, 2, 1⟩
abbrev TIM_CAP.LEVEL (i : Nat) : FRef := ⟨TIM_CAP.A i, 8, 4⟩
abbrev TIM_CAP.STATE (i : Nat) : FRef := ⟨TIM_CAP.A i, 12, 2⟩
/-- TIM_CAP_NS: capture head ns -/
abbrev TIM_CAP_NS.A (i : Nat) : Nat := 0x5001404 + 0x10 * i
abbrev TIM_CAP_NS.NS (i : Nat) : FRef := ⟨TIM_CAP_NS.A i, 0, 30⟩
/-- TIM_CAP_SEC: capture head seconds -/
abbrev TIM_CAP_SEC.A (i : Nat) : Nat := 0x5001408 + 0x10 * i
abbrev TIM_CAP_SEC.SEC (i : Nat) : FRef := ⟨TIM_CAP_SEC.A i, 0, 32⟩

/-! Block eng (spec/14). -/

/-- ENG_CTRL: engine control, base + 0x1000 -/
abbrev ENG_CTRL.A (i : Nat) : Nat := 0x6001000 + 0x10000 * i
abbrev ENG_CTRL.ENABLE (i : Nat) : FRef := ⟨ENG_CTRL.A i, 0, 1⟩
abbrev ENG_CTRL.FAULT_STOP (i : Nat) : FRef := ⟨ENG_CTRL.A i, 1, 1⟩
/-- ENG_STATUS: engine state, base + 0x1004 -/
abbrev ENG_STATUS.A (i : Nat) : Nat := 0x6001004 + 0x10000 * i
abbrev ENG_STATUS.STATE (i : Nat) : FRef := ⟨ENG_STATUS.A i, 0, 2⟩
abbrev ENG_STATUS.RESTART_PENDING (i : Nat) : FRef := ⟨ENG_STATUS.A i, 2, 1⟩
abbrev ENG_STATUS.HELD (i : Nat) : FRef := ⟨ENG_STATUS.A i, 3, 1⟩
abbrev ENG_STATUS.RUNNING (i : Nat) : FRef := ⟨ENG_STATUS.A i, 4, 1⟩
abbrev ENG_STATUS.PREEMPTED (i : Nat) : FRef := ⟨ENG_STATUS.A i, 5, 1⟩
abbrev ENG_STATUS.RUN_PRIO (i : Nat) : FRef := ⟨ENG_STATUS.A i, 6, 3⟩
/-- ENG_ENTRY: entry points -/
abbrev ENG_ENTRY.A (i : Nat) : Nat := 0x6001008 + 0x10000 * i
abbrev ENG_ENTRY.INIT_PC (i : Nat) : FRef := ⟨ENG_ENTRY.A i, 0, 16⟩
abbrev ENG_ENTRY.TASK_PC (i : Nat) : FRef := ⟨ENG_ENTRY.A i, 16, 16⟩
/-- ENG_TRAP: trap handler -/
abbrev ENG_TRAP.A (i : Nat) : Nat := 0x600100C + 0x10000 * i
abbrev ENG_TRAP.TRAP_PC (i : Nat) : FRef := ⟨ENG_TRAP.A i, 0, 16⟩
/-- ENG_RUN_LIMIT: run limit in 1,024 cycles -/
abbrev ENG_RUN_LIMIT.A (i : Nat) : Nat := 0x6001010 + 0x10000 * i
abbrev ENG_RUN_LIMIT.LIMIT (i : Nat) : FRef := ⟨ENG_RUN_LIMIT.A i, 0, 20⟩
/-- ENG_FAULT: fault capture -/
abbrev ENG_FAULT.A (i : Nat) : Nat := 0x6001014 + 0x10000 * i
abbrev ENG_FAULT.CODE (i : Nat) : FRef := ⟨ENG_FAULT.A i, 0, 3⟩
abbrev ENG_FAULT.PC (i : Nat) : FRef := ⟨ENG_FAULT.A i, 16, 16⟩
/-- ENG_FAULT_ADDR_HI: fault address [39:32] -/
abbrev ENG_FAULT_ADDR_HI.A (i : Nat) : Nat := 0x6001018 + 0x10000 * i
abbrev ENG_FAULT_ADDR_HI.ADDR (i : Nat) : FRef := ⟨ENG_FAULT_ADDR_HI.A i, 0, 8⟩
abbrev ENG_FAULT_ADDR_HI.FAULT_VALID (i : Nat) : FRef := ⟨ENG_FAULT_ADDR_HI.A i, 31, 1⟩
/-- ENG_FAULT_ADDR: fault address [31:0] -/
abbrev ENG_FAULT_ADDR.A (i : Nat) : Nat := 0x600101C + 0x10000 * i
abbrev ENG_FAULT_ADDR.ADDR (i : Nat) : FRef := ⟨ENG_FAULT_ADDR.A i, 0, 32⟩
/-- ENG_PERF_USER: user event (R382) -/
abbrev ENG_PERF_USER.A (i : Nat) : Nat := 0x6001020 + 0x10000 * i
abbrev ENG_PERF_USER.USER (i : Nat) : FRef := ⟨ENG_PERF_USER.A i, 0, 1⟩
/-- ENG_CYCLES: engine cycles (lo) -/
abbrev ENG_CYCLES.A (i : Nat) : Nat := 0x6001040 + 0x10000 * i
abbrev ENG_CYCLES.LO (i : Nat) : FRef := ⟨ENG_CYCLES.A i, 0, 32⟩
/-- ENG_CYCLES_HI: engine cycles (hi) -/
abbrev ENG_CYCLES_HI.A (i : Nat) : Nat := 0x6001044 + 0x10000 * i
abbrev ENG_CYCLES_HI.HI (i : Nat) : FRef := ⟨ENG_CYCLES_HI.A i, 0, 32⟩
/-- ENG_PERF_SEL: counter n, base + 0x1080 + n × 4 -/
abbrev ENG_PERF_SEL.A (i j : Nat) : Nat := 0x6001080 + 0x10000 * i + 4 * j
abbrev ENG_PERF_SEL.EVENT (i j : Nat) : FRef := ⟨ENG_PERF_SEL.A i j, 0, 5⟩
abbrev ENG_PERF_SEL.TYPE_EN (i j : Nat) : FRef := ⟨ENG_PERF_SEL.A i j, 5, 1⟩
abbrev ENG_PERF_SEL.OVF_INT (i j : Nat) : FRef := ⟨ENG_PERF_SEL.A i j, 6, 1⟩
abbrev ENG_PERF_SEL.TYPE (i j : Nat) : FRef := ⟨ENG_PERF_SEL.A i j, 16, 12⟩
/-- ENG_PERF_CNT: event counter (lo) -/
abbrev ENG_PERF_CNT.A (i j : Nat) : Nat := 0x60010C0 + 0x10000 * i + 8 * j
abbrev ENG_PERF_CNT.LO (i j : Nat) : FRef := ⟨ENG_PERF_CNT.A i j, 0, 32⟩
/-- ENG_PERF_CNT_HI: event counter (hi) -/
abbrev ENG_PERF_CNT_HI.A (i j : Nat) : Nat := 0x60010C4 + 0x10000 * i + 8 * j
abbrev ENG_PERF_CNT_HI.HI (i j : Nat) : FRef := ⟨ENG_PERF_CNT_HI.A i j, 0, 16⟩
/-- ENG_CNT: engine counters -/
abbrev ENG_CNT.A (i j : Nat) : Nat := 0x6001100 + 0x10000 * i + 4 * j
abbrev ENG_CNT.COUNT (i j : Nat) : FRef := ⟨ENG_CNT.A i j, 0, 32⟩
/-- ENG_CMD: command, alias offset 0x2000 -/
abbrev ENG_CMD.A (i : Nat) : Nat := 0x6002000 + 0x10000 * i
abbrev ENG_CMD.OP (i : Nat) : FRef := ⟨ENG_CMD.A i, 0, 3⟩
abbrev ENG_CMD.BUSY (i : Nat) : FRef := ⟨ENG_CMD.A i, 8, 1⟩
abbrev ENG_CMD.STATUS (i : Nat) : FRef := ⟨ENG_CMD.A i, 9, 3⟩
abbrev ENG_CMD.FRAME (i : Nat) : FRef := ⟨ENG_CMD.A i, 12, 1⟩
abbrev ENG_CMD.NO_PREEMPT (i : Nat) : FRef := ⟨ENG_CMD.A i, 13, 1⟩
/-- ENG_CMD_ARG: command arguments -/
abbrev ENG_CMD_ARG.A (i j : Nat) : Nat := 0x6002004 + 0x10000 * i + 4 * j
abbrev ENG_CMD_ARG.ARG (i j : Nat) : FRef := ⟨ENG_CMD_ARG.A i j, 0, 32⟩

/-! Block til (spec/14). -/

/-- TIL_CFG: descriptor reserve -/
abbrev TIL_CFG.A : Nat := 0x5801000
abbrev TIL_CFG.POOL_RESERVE : FRef := ⟨TIL_CFG.A, 0, 16⟩
/-- TIL_POOL_STATUS: free descriptors -/
abbrev TIL_POOL_STATUS.A : Nat := 0x5801004
abbrev TIL_POOL_STATUS.FREE : FRef := ⟨TIL_POOL_STATUS.A, 0, 17⟩
/-- TIL_TICK: delay list i, base + 0x1010 + i × 4 -/
abbrev TIL_TICK.A (i : Nat) : Nat := 0x5801010 + 4 * i
abbrev TIL_TICK.PERIOD (i : Nat) : FRef := ⟨TIL_TICK.A i, 0, 17⟩
abbrev TIL_TICK.FALLBACK (i : Nat) : FRef := ⟨TIL_TICK.A i, 31, 1⟩
/-- TIL_DELAY_LEVEL: delay list entries -/
abbrev TIL_DELAY_LEVEL.A (i : Nat) : Nat := 0x5801020 + 4 * i
abbrev TIL_DELAY_LEVEL.LEVEL (i : Nat) : FRef := ⟨TIL_DELAY_LEVEL.A i, 0, 15⟩
/-- TIL_TICK_COUNT: delay list ticks -/
abbrev TIL_TICK_COUNT.A (i : Nat) : Nat := 0x5801030 + 4 * i
abbrev TIL_TICK_COUNT.COUNT (i : Nat) : FRef := ⟨TIL_TICK_COUNT.A i, 0, 32⟩
/-- TIL_CL_CFG: cluster k, base + 0x1100 + k × 0x10 -/
abbrev TIL_CL_CFG.A (i : Nat) : Nat := 0x5801100 + 0x10 * i
abbrev TIL_CL_CFG.CL_QUOTA (i : Nat) : FRef := ⟨TIL_CL_CFG.A i, 0, 17⟩
abbrev TIL_CL_CFG.BP_MODE (i : Nat) : FRef := ⟨TIL_CL_CFG.A i, 17, 1⟩
abbrev TIL_CL_CFG.PREEMPT_EN (i : Nat) : FRef := ⟨TIL_CL_CFG.A i, 18, 1⟩
abbrev TIL_CL_CFG.PREEMPT_PRIO (i : Nat) : FRef := ⟨TIL_CL_CFG.A i, 19, 3⟩
abbrev TIL_CL_CFG.FALLBACK (i : Nat) : FRef := ⟨TIL_CL_CFG.A i, 22, 3⟩
abbrev TIL_CL_CFG.FALLBACK_EN (i : Nat) : FRef := ⟨TIL_CL_CFG.A i, 25, 1⟩
/-- TIL_CL_STATUS: cluster state -/
abbrev TIL_CL_STATUS.A (i : Nat) : Nat := 0x5801104 + 0x10 * i
abbrev TIL_CL_STATUS.READY (i : Nat) : FRef := ⟨TIL_CL_STATUS.A i, 0, 17⟩
abbrev TIL_CL_STATUS.BP (i : Nat) : FRef := ⟨TIL_CL_STATUS.A i, 17, 1⟩
abbrev TIL_CL_STATUS.DRAINING (i : Nat) : FRef := ⟨TIL_CL_STATUS.A i, 18, 1⟩
abbrev TIL_CL_STATUS.ON_MASK (i : Nat) : FRef := ⟨TIL_CL_STATUS.A i, 24, 8⟩
/-- TIL_CL_THROT: cluster k, + 0x8 -/
abbrev TIL_CL_THROT.A (i : Nat) : Nat := 0x5801108 + 0x10 * i
abbrev TIL_CL_THROT.THROT_MIN (i : Nat) : FRef := ⟨TIL_CL_THROT.A i, 0, 4⟩
abbrev TIL_CL_THROT.THROT_MAX (i : Nat) : FRef := ⟨TIL_CL_THROT.A i, 4, 4⟩
abbrev TIL_CL_THROT.THROT_TH (i : Nat) : FRef := ⟨TIL_CL_THROT.A i, 8, 8⟩
abbrev TIL_CL_THROT.GATED (i : Nat) : FRef := ⟨TIL_CL_THROT.A i, 16, 4⟩
abbrev TIL_CL_THROT.TEMP (i : Nat) : FRef := ⟨TIL_CL_THROT.A i, 24, 8⟩
/-- TIL_CL_CLAMP: cluster throttling clamps -/
abbrev TIL_CL_CLAMP.A (i : Nat) : Nat := 0x580110C + 0x10 * i
abbrev TIL_CL_CLAMP.POLICY_CLAMP_COUNT (i : Nat) : FRef := ⟨TIL_CL_CLAMP.A i, 0, 32⟩
/-- TIL_GLN_CFG: Gleaner of cluster k, base + 0x1200 + k × 0x10 -/
abbrev TIL_GLN_CFG.A (i : Nat) : Nat := 0x5801200 + 0x10 * i
abbrev TIL_GLN_CFG.EN (i : Nat) : FRef := ⟨TIL_GLN_CFG.A i, 0, 1⟩
abbrev TIL_GLN_CFG.WRAP (i : Nat) : FRef := ⟨TIL_GLN_CFG.A i, 1, 1⟩
abbrev TIL_GLN_CFG.EVENT (i : Nat) : FRef := ⟨TIL_GLN_CFG.A i, 2, 5⟩
abbrev TIL_GLN_CFG.ENG_MASK (i : Nat) : FRef := ⟨TIL_GLN_CFG.A i, 8, 8⟩
abbrev TIL_GLN_CFG.PERIOD (i : Nat) : FRef := ⟨TIL_GLN_CFG.A i, 16, 16⟩
/-- TIL_GLN_STATUS: Gleaner state -/
abbrev TIL_GLN_STATUS.A (i : Nat) : Nat := 0x5801204 + 0x10 * i
abbrev TIL_GLN_STATUS.WR_IDX (i : Nat) : FRef := ⟨TIL_GLN_STATUS.A i, 0, 12⟩
abbrev TIL_GLN_STATUS.HELD (i : Nat) : FRef := ⟨TIL_GLN_STATUS.A i, 12, 13⟩
/-- TIL_GLN_LOST: lost samples -/
abbrev TIL_GLN_LOST.A (i : Nat) : Nat := 0x5801208 + 0x10 * i
abbrev TIL_GLN_LOST.LOST (i : Nat) : FRef := ⟨TIL_GLN_LOST.A i, 0, 32⟩
/-- TIL_CNT: Tiller counters -/
abbrev TIL_CNT.A (i : Nat) : Nat := 0x5801300 + 4 * i
abbrev TIL_CNT.COUNT (i : Nat) : FRef := ⟨TIL_CNT.A i, 0, 32⟩

/-! Block ctl (spec/15, spec/21). -/

/-- CTL_WDOG: watchdog, base + 0x1010 -/
abbrev CTL_WDOG.A : Nat := 0x7001010
abbrev CTL_WDOG.TIMEOUT : FRef := ⟨CTL_WDOG.A, 0, 16⟩
abbrev CTL_WDOG.ELAPSED : FRef := ⟨CTL_WDOG.A, 16, 16⟩
/-- CTL_WDOG_KICK: watchdog kick -/
abbrev CTL_WDOG_KICK.A : Nat := 0x7001014
abbrev CTL_WDOG_KICK.KEY : FRef := ⟨CTL_WDOG_KICK.A, 0, 32⟩
/-- CTL_OMCI_RING: OMCI delivery ring of channel c -/
abbrev CTL_OMCI_RING.A (i : Nat) : Nat := 0x7001020 + 4 * i
abbrev CTL_OMCI_RING.RING (i : Nat) : FRef := ⟨CTL_OMCI_RING.A i, 0, 10⟩
/-- HW_LOCK: hardware lock -/
abbrev HW_LOCK.A (i : Nat) : Nat := 0x7002000 + 4 * i
abbrev HW_LOCK.ACQUIRED (i : Nat) : FRef := ⟨HW_LOCK.A i, 0, 1⟩
abbrev HW_LOCK.HELD (i : Nat) : FRef := ⟨HW_LOCK.A i, 1, 1⟩
abbrev HW_LOCK.OWNER (i : Nat) : FRef := ⟨HW_LOCK.A i, 8, 8⟩
/-- HW_LOCK_BREAK: break a lock -/
abbrev HW_LOCK_BREAK.A : Nat := 0x7002100
abbrev HW_LOCK_BREAK.LOCK : FRef := ⟨HW_LOCK_BREAK.A, 0, 6⟩
/-- HW_LOCK_CNT: lock counters -/
abbrev HW_LOCK_CNT.A (i : Nat) : Nat := 0x7002110 + 4 * i
abbrev HW_LOCK_CNT.COUNT (i : Nat) : FRef := ⟨HW_LOCK_CNT.A i, 0, 32⟩
/-- MBX_STAGE: staged message, one copy per master -/
abbrev MBX_STAGE.A (i : Nat) : Nat := 0x7003000 + 4 * i
abbrev MBX_STAGE.DATA (i : Nat) : FRef := ⟨MBX_STAGE.A i, 0, 32⟩
/-- MBX_SEND: post and status -/
abbrev MBX_SEND.A (i : Nat) : Nat := 0x7004000 + 4 * i
abbrev MBX_SEND.STATUS (i : Nat) : FRef := ⟨MBX_SEND.A i, 0, 2⟩
/-- MBX_POST_ERR: refused posts -/
abbrev MBX_POST_ERR.A : Nat := 0x7004400
abbrev MBX_POST_ERR.COUNT : FRef := ⟨MBX_POST_ERR.A, 0, 32⟩
/-- MBX_RX_STATUS: channel ch, base + 0x5000 + ch × 0x40 -/
abbrev MBX_RX_STATUS.A (i : Nat) : Nat := 0x7005000 + 0x40 * i
abbrev MBX_RX_STATUS.LEVEL (i : Nat) : FRef := ⟨MBX_RX_STATUS.A i, 0, 5⟩
abbrev MBX_RX_STATUS.POP (i : Nat) : FRef := ⟨MBX_RX_STATUS.A i, 8, 1⟩
abbrev MBX_RX_STATUS.EMPTY_STATUS (i : Nat) : FRef := ⟨MBX_RX_STATUS.A i, 9, 2⟩
abbrev MBX_RX_STATUS.DISCARD_COUNT (i : Nat) : FRef := ⟨MBX_RX_STATUS.A i, 11, 5⟩
/-- MBX_RX_DATA: head message -/
abbrev MBX_RX_DATA.A (i j : Nat) : Nat := 0x7005004 + 0x40 * i + 4 * j
abbrev MBX_RX_DATA.DATA (i j : Nat) : FRef := ⟨MBX_RX_DATA.A i j, 0, 32⟩
/-- MBX_RX_STAMP: head stamp, channel base + 0x24 -/
abbrev MBX_RX_STAMP.A (i : Nat) : Nat := 0x7005024 + 0x40 * i
abbrev MBX_RX_STAMP.MASTER (i : Nat) : FRef := ⟨MBX_RX_STAMP.A i, 0, 8⟩
abbrev MBX_RX_STAMP.MODE (i : Nat) : FRef := ⟨MBX_RX_STAMP.A i, 8, 3⟩
abbrev MBX_RX_STAMP.SENDER_RESET (i : Nat) : FRef := ⟨MBX_RX_STAMP.A i, 11, 1⟩
abbrev MBX_RX_STAMP.GEN (i : Nat) : FRef := ⟨MBX_RX_STAMP.A i, 12, 8⟩
abbrev MBX_RX_STAMP.SEQ (i : Nat) : FRef := ⟨MBX_RX_STAMP.A i, 20, 12⟩
/-- MBX_DB_SET: ring a doorbell -/
abbrev MBX_DB_SET.A : Nat := 0x7009000
abbrev MBX_DB_SET.DB : FRef := ⟨MBX_DB_SET.A, 0, 10⟩
/-- MBX_DB_PEND: pending doorbells -/
abbrev MBX_DB_PEND.A (i : Nat) : Nat := 0x7009100 + 4 * i
abbrev MBX_DB_PEND.PEND (i : Nat) : FRef := ⟨MBX_DB_PEND.A i, 0, 32⟩
/-- DB_MERGED: merged doorbells -/
abbrev DB_MERGED.A : Nat := 0x7009200
abbrev DB_MERGED.COUNT : FRef := ⟨DB_MERGED.A, 0, 32⟩
/-- CTL_UART_CFG: console rate, 0x0700_A000 -/
abbrev CTL_UART_CFG.A : Nat := 0x700A000
abbrev CTL_UART_CFG.ENABLE : FRef := ⟨CTL_UART_CFG.A, 0, 1⟩
abbrev CTL_UART_CFG.DIV : FRef := ⟨CTL_UART_CFG.A, 4, 20⟩
/-- CTL_UART_DATA: console data -/
abbrev CTL_UART_DATA.A : Nat := 0x700A004
abbrev CTL_UART_DATA.BYTE : FRef := ⟨CTL_UART_DATA.A, 0, 8⟩
abbrev CTL_UART_DATA.VALID : FRef := ⟨CTL_UART_DATA.A, 8, 1⟩
/-- CTL_UART_STATUS: console state, 0x0700_A008 -/
abbrev CTL_UART_STATUS.A : Nat := 0x700A008
abbrev CTL_UART_STATUS.TX_LEVEL : FRef := ⟨CTL_UART_STATUS.A, 0, 7⟩
abbrev CTL_UART_STATUS.RX_LEVEL : FRef := ⟨CTL_UART_STATUS.A, 8, 7⟩
abbrev CTL_UART_STATUS.RX_OVF : FRef := ⟨CTL_UART_STATUS.A, 16, 1⟩
abbrev CTL_UART_STATUS.FRAME_ERR : FRef := ⟨CTL_UART_STATUS.A, 17, 1⟩

/-! Block ring (spec/15). -/

/-- RING_BASE_LO: ring base [31:0], 64-byte aligned -/
abbrev RING_BASE_LO.A (i j : Nat) : Nat := 0x7400000 + 0x10000 * i + 0x40 * j
abbrev RING_BASE_LO.BASE (i j : Nat) : FRef := ⟨RING_BASE_LO.A i j, 6, 26⟩
/-- RING_BASE_HI: ring base [63:32] -/
abbrev RING_BASE_HI.A (i j : Nat) : Nat := 0x7400004 + 0x10000 * i + 0x40 * j
abbrev RING_BASE_HI.BASE (i j : Nat) : FRef := ⟨RING_BASE_HI.A i j, 0, 32⟩
/-- RING_CTRL: ring control, + 0x08 -/
abbrev RING_CTRL.A (i j : Nat) : Nat := 0x7400008 + 0x10000 * i + 0x40 * j
abbrev RING_CTRL.ENABLE (i j : Nat) : FRef := ⟨RING_CTRL.A i j, 0, 1⟩
abbrev RING_CTRL.LOC (i j : Nat) : FRef := ⟨RING_CTRL.A i j, 1, 1⟩
abbrev RING_CTRL.SIZE (i j : Nat) : FRef := ⟨RING_CTRL.A i j, 2, 3⟩
abbrev RING_CTRL.BUF_SIZE (i j : Nat) : FRef := ⟨RING_CTRL.A i j, 5, 3⟩
abbrev RING_CTRL.MIN_FREE (i j : Nat) : FRef := ⟨RING_CTRL.A i j, 8, 12⟩
abbrev RING_CTRL.MODE (i j : Nat) : FRef := ⟨RING_CTRL.A i j, 20, 1⟩
abbrev RING_CTRL.DIR (i j : Nat) : FRef := ⟨RING_CTRL.A i j, 21, 1⟩
/-- RING_STATUS: ring state, + 0x0C -/
abbrev RING_STATUS.A (i j : Nat) : Nat := 0x740000C + 0x10000 * i + 0x40 * j
abbrev RING_STATUS.STATE (i j : Nat) : FRef := ⟨RING_STATUS.A i j, 0, 2⟩
abbrev RING_STATUS.RESTART_PENDING (i j : Nat) : FRef := ⟨RING_STATUS.A i j, 2, 1⟩
abbrev RING_STATUS.HELD (i j : Nat) : FRef := ⟨RING_STATUS.A i j, 3, 1⟩
abbrev RING_STATUS.NOBUF (i j : Nat) : FRef := ⟨RING_STATUS.A i j, 4, 1⟩
/-- RING_TAIL: ring tail -/
abbrev RING_TAIL.A (i j : Nat) : Nat := 0x7400010 + 0x10000 * i + 0x40 * j
abbrev RING_TAIL.TAIL (i j : Nat) : FRef := ⟨RING_TAIL.A i j, 0, 12⟩
/-- RING_HEAD: ring head -/
abbrev RING_HEAD.A (i j : Nat) : Nat := 0x7400014 + 0x10000 * i + 0x40 * j
abbrev RING_HEAD.HEAD (i j : Nat) : FRef := ⟨RING_HEAD.A i j, 0, 12⟩
/-- RING_INT: interrupt, + 0x18 -/
abbrev RING_INT.A (i j : Nat) : Nat := 0x7400018 + 0x10000 * i + 0x40 * j
abbrev RING_INT.INT_PKTS (i j : Nat) : FRef := ⟨RING_INT.A i j, 0, 8⟩
abbrev RING_INT.INT_USEC (i j : Nat) : FRef := ⟨RING_INT.A i j, 8, 8⟩
abbrev RING_INT.VEC (i j : Nat) : FRef := ⟨RING_INT.A i j, 16, 11⟩
abbrev RING_INT.MSIX_EN (i j : Nat) : FRef := ⟨RING_INT.A i j, 27, 1⟩
abbrev RING_INT.CORE_MASK (i j : Nat) : FRef := ⟨RING_INT.A i j, 28, 4⟩
/-- RING_INT_ACK: interrupt acknowledge -/
abbrev RING_INT_ACK.A (i j : Nat) : Nat := 0x740001C + 0x10000 * i + 0x40 * j
abbrev RING_INT_ACK.ACK (i j : Nat) : FRef := ⟨RING_INT_ACK.A i j, 0, 32⟩
/-- RING_CNT: ring counters -/
abbrev RING_CNT.A (i j k : Nat) : Nat := 0x7400020 + 0x10000 * i + 0x40 * j + 4 * k
abbrev RING_CNT.COUNT (i j k : Nat) : FRef := ⟨RING_CNT.A i j k, 0, 32⟩

/-! Block hsk (spec/16, spec/19). -/

/-- HSK_STATUS: Husk state, 0x0780_1000 -/
abbrev HSK_STATUS.A : Nat := 0x7801000
abbrev HSK_STATUS.LIFECYCLE : FRef := ⟨HSK_STATUS.A, 0, 2⟩
abbrev HSK_STATUS.HANDOFF : FRef := ⟨HSK_STATUS.A, 2, 1⟩
abbrev HSK_STATUS.BOOT_SLOT : FRef := ⟨HSK_STATUS.A, 3, 1⟩
abbrev HSK_STATUS.BOOT_RESULT : FRef := ⟨HSK_STATUS.A, 4, 4⟩
abbrev HSK_STATUS.RSA_SLOT : FRef := ⟨HSK_STATUS.A, 8, 2⟩
abbrev HSK_STATUS.SLH_SLOT : FRef := ⟨HSK_STATUS.A, 10, 2⟩
abbrev HSK_STATUS.OTP_SVN : FRef := ⟨HSK_STATUS.A, 12, 7⟩
abbrev HSK_STATUS.IMAGE_SVN : FRef := ⟨HSK_STATUS.A, 19, 7⟩
abbrev HSK_STATUS.DEBUG_SECURE : FRef := ⟨HSK_STATUS.A, 26, 1⟩
abbrev HSK_STATUS.RNG_OK : FRef := ⟨HSK_STATUS.A, 27, 1⟩
/-- HSK_CMD: command, 0x0780_1010 -/
abbrev HSK_CMD.A : Nat := 0x7801010
abbrev HSK_CMD.OP : FRef := ⟨HSK_CMD.A, 0, 4⟩
abbrev HSK_CMD.BUSY : FRef := ⟨HSK_CMD.A, 8, 1⟩
abbrev HSK_CMD.STATUS : FRef := ⟨HSK_CMD.A, 9, 3⟩
/-- HSK_ARG: command argument -/
abbrev HSK_ARG.A (i : Nat) : Nat := 0x7801014 + 4 * i
abbrev HSK_ARG.ARG (i : Nat) : FRef := ⟨HSK_ARG.A i, 0, 32⟩
/-- HSK_RNG: random word -/
abbrev HSK_RNG.A : Nat := 0x7801030
abbrev HSK_RNG.WORD : FRef := ⟨HSK_RNG.A, 0, 32⟩
/-- HSK_BOOT_INFO: boot record, 0x0780_1040 -/
abbrev HSK_BOOT_INFO.A : Nat := 0x7801040
abbrev HSK_BOOT_INFO.A_TRIED : FRef := ⟨HSK_BOOT_INFO.A, 0, 1⟩
abbrev HSK_BOOT_INFO.B_TRIED : FRef := ⟨HSK_BOOT_INFO.A, 1, 1⟩
abbrev HSK_BOOT_INFO.RESULT_A : FRef := ⟨HSK_BOOT_INFO.A, 2, 4⟩
abbrev HSK_BOOT_INFO.RESULT_B : FRef := ⟨HSK_BOOT_INFO.A, 6, 4⟩
abbrev HSK_BOOT_INFO.APPLY_RESULT : FRef := ⟨HSK_BOOT_INFO.A, 10, 3⟩
abbrev HSK_BOOT_INFO.FELL_BACK : FRef := ⟨HSK_BOOT_INFO.A, 13, 1⟩
abbrev HSK_BOOT_INFO.PATH : FRef := ⟨HSK_BOOT_INFO.A, 14, 2⟩
abbrev HSK_BOOT_INFO.REC_INDEX : FRef := ⟨HSK_BOOT_INFO.A, 16, 16⟩
/-- HSK_HANDOFF_TIME: start-up time, 0x0780_1044 -/
abbrev HSK_HANDOFF_TIME.A : Nat := 0x7801044
abbrev HSK_HANDOFF_TIME.TIME_US : FRef := ⟨HSK_HANDOFF_TIME.A, 0, 32⟩
/-- HSK_BOOT_CTRL: slot trial control, 0x0780_1048 -/
abbrev HSK_BOOT_CTRL.A : Nat := 0x7801048
abbrev HSK_BOOT_CTRL.CONFIRM : FRef := ⟨HSK_BOOT_CTRL.A, 0, 1⟩
abbrev HSK_BOOT_CTRL.TRY_LIMIT : FRef := ⟨HSK_BOOT_CTRL.A, 2, 2⟩
abbrev HSK_BOOT_CTRL.ATTEMPTS : FRef := ⟨HSK_BOOT_CTRL.A, 4, 2⟩
/-- HSK_CONF_GEN: confirmed generation, 0x0780_104C -/
abbrev HSK_CONF_GEN.A : Nat := 0x780104C
abbrev HSK_CONF_GEN.CONF_GEN : FRef := ⟨HSK_CONF_GEN.A, 0, 32⟩
/-- HSK_TRIAL_GEN: generation on trial, 0x0780_1050 -/
abbrev HSK_TRIAL_GEN.A : Nat := 0x7801050
abbrev HSK_TRIAL_GEN.TRIAL_GEN : FRef := ⟨HSK_TRIAL_GEN.A, 0, 32⟩

/-! Block cip (spec/16). -/

/-- CIP_CFG: cipher settings, 0x0800_1000 -/
abbrev CIP_CFG.A : Nat := 0x8001000
abbrev CIP_CFG.LINE_SOFT_LOG2 : FRef := ⟨CIP_CFG.A, 0, 6⟩
abbrev CIP_CFG.CVE_ACT_SLOT : FRef := ⟨CIP_CFG.A, 8, 6⟩
abbrev CIP_CFG.CVE_ACT_EN : FRef := ⟨CIP_CFG.A, 14, 1⟩
abbrev CIP_CFG.ZEROISE : FRef := ⟨CIP_CFG.A, 31, 1⟩
/-- CIP_LINE_LIMIT_STATUS: line key limits -/
abbrev CIP_LINE_LIMIT_STATUS.A : Nat := 0x8001004
abbrev CIP_LINE_LIMIT_STATUS.SOFT : FRef := ⟨CIP_LINE_LIMIT_STATUS.A, 0, 16⟩
abbrev CIP_LINE_LIMIT_STATUS.HARD : FRef := ⟨CIP_LINE_LIMIT_STATUS.A, 16, 16⟩
/-- CVE_CTRL: operation, 0x0800_2000 -/
abbrev CVE_CTRL.A : Nat := 0x8002000
abbrev CVE_CTRL.OP : FRef := ⟨CVE_CTRL.A, 0, 2⟩
abbrev CVE_CTRL.ALG : FRef := ⟨CVE_CTRL.A, 2, 2⟩
abbrev CVE_CTRL.SRC_BUF : FRef := ⟨CVE_CTRL.A, 4, 1⟩
abbrev CVE_CTRL.SLOT : FRef := ⟨CVE_CTRL.A, 5, 5⟩
abbrev CVE_CTRL.DST_SLOT : FRef := ⟨CVE_CTRL.A, 10, 5⟩
abbrev CVE_CTRL.TAG_LEN : FRef := ⟨CVE_CTRL.A, 15, 6⟩
abbrev CVE_CTRL.GO : FRef := ⟨CVE_CTRL.A, 31, 1⟩
/-- CVE_LEN: check-value length -/
abbrev CVE_LEN.A : Nat := 0x8002004
abbrev CVE_LEN.BYTES : FRef := ⟨CVE_LEN.A, 0, 25⟩
/-- CVE_SRC_LO: source address [31:0] -/
abbrev CVE_SRC_LO.A : Nat := 0x8002008
abbrev CVE_SRC_LO.ADDR : FRef := ⟨CVE_SRC_LO.A, 0, 32⟩
/-- CVE_SRC_HI: source address [63:32] -/
abbrev CVE_SRC_HI.A : Nat := 0x800200C
abbrev CVE_SRC_HI.ADDR : FRef := ⟨CVE_SRC_HI.A, 0, 32⟩
/-- CVE_STATUS: check-value state -/
abbrev CVE_STATUS.A : Nat := 0x8002010
abbrev CVE_STATUS.BUSY : FRef := ⟨CVE_STATUS.A, 0, 1⟩
abbrev CVE_STATUS.RESULT : FRef := ⟨CVE_STATUS.A, 1, 3⟩
/-- CVE_TAG: check-value tag -/
abbrev CVE_TAG.A (i : Nat) : Nat := 0x8002040 + 4 * i
abbrev CVE_TAG.TAG (i : Nat) : FRef := ⟨CVE_TAG.A i, 0, 32⟩
/-- CVE_BUF: check-value buffer -/
abbrev CVE_BUF.A (i : Nat) : Nat := 0x8002080 + 4 * i
abbrev CVE_BUF.DATA (i : Nat) : FRef := ⟨CVE_BUF.A i, 0, 32⟩
/-- CIP_CNT: cipher counters -/
abbrev CIP_CNT.A (i : Nat) : Nat := 0x8003000 + 4 * i
abbrev CIP_CNT.COUNT (i : Nat) : FRef := ⟨CIP_CNT.A i, 0, 32⟩
/-- CIP_MACSEC_CNT: MACsec counters -/
abbrev CIP_MACSEC_CNT.A (i j : Nat) : Nat := 0x8004000 + 0x20 * i + 4 * j
abbrev CIP_MACSEC_CNT.COUNT (i j : Nat) : FRef := ⟨CIP_MACSEC_CNT.A i j, 0, 32⟩

/-! Block twn (spec/17). -/

/-- TWN_CTRL: control, base + 0x1000 -/
abbrev TWN_CTRL.A : Nat := 0x8801000
abbrev TWN_CTRL.ENABLE : FRef := ⟨TWN_CTRL.A, 0, 1⟩
abbrev TWN_CTRL.CLAIM_EN : FRef := ⟨TWN_CTRL.A, 1, 1⟩
abbrev TWN_CTRL.AUTO_TAKEOVER : FRef := ⟨TWN_CTRL.A, 2, 1⟩
abbrev TWN_CTRL.REDIR_EN : FRef := ⟨TWN_CTRL.A, 3, 1⟩
abbrev TWN_CTRL.REVERT_EN : FRef := ⟨TWN_CTRL.A, 4, 1⟩
abbrev TWN_CTRL.IDLE_EN : FRef := ⟨TWN_CTRL.A, 5, 1⟩
abbrev TWN_CTRL.MIRROR_EN : FRef := ⟨TWN_CTRL.A, 6, 1⟩
abbrev TWN_CTRL.HANDOVER : FRef := ⟨TWN_CTRL.A, 7, 1⟩
abbrev TWN_CTRL.CLEAR_REDIRECT : FRef := ⟨TWN_CTRL.A, 8, 1⟩
/-- TWN_STATUS: state, base + 0x1004 -/
abbrev TWN_STATUS.A : Nat := 0x8801004
abbrev TWN_STATUS.STATE : FRef := ⟨TWN_STATUS.A, 0, 2⟩
abbrev TWN_STATUS.RESTART_PENDING : FRef := ⟨TWN_STATUS.A, 2, 1⟩
abbrev TWN_STATUS.HELD : FRef := ⟨TWN_STATUS.A, 3, 1⟩
abbrev TWN_STATUS.LINK_STATE : FRef := ⟨TWN_STATUS.A, 4, 2⟩
abbrev TWN_STATUS.ROLE_STATE : FRef := ⟨TWN_STATUS.A, 6, 3⟩
abbrev TWN_STATUS.ROLE : FRef := ⟨TWN_STATUS.A, 9, 1⟩
abbrev TWN_STATUS.ACT_IN : FRef := ⟨TWN_STATUS.A, 10, 1⟩
abbrev TWN_STATUS.ACT_OUT : FRef := ⟨TWN_STATUS.A, 11, 1⟩
abbrev TWN_STATUS.PEER_STATE : FRef := ⟨TWN_STATUS.A, 12, 3⟩
abbrev TWN_STATUS.PEER_CLAIM_EN : FRef := ⟨TWN_STATUS.A, 15, 1⟩
abbrev TWN_STATUS.TRUNK_FAIL : FRef := ⟨TWN_STATUS.A, 16, 1⟩
abbrev TWN_STATUS.REDIRECT : FRef := ⟨TWN_STATUS.A, 17, 1⟩
abbrev TWN_STATUS.PEER_TRUNK_FAIL : FRef := ⟨TWN_STATUS.A, 18, 1⟩
abbrev TWN_STATUS.MIRROR_SYNC : FRef := ⟨TWN_STATUS.A, 19, 1⟩
abbrev TWN_STATUS.PEER_MIRROR_SYNC : FRef := ⟨TWN_STATUS.A, 20, 1⟩
abbrev TWN_STATUS.PEER_CH_O5 : FRef := ⟨TWN_STATUS.A, 21, 4⟩
abbrev TWN_STATUS.ROLE_CONFLICT : FRef := ⟨TWN_STATUS.A, 25, 1⟩
abbrev TWN_STATUS.WIRE_FAULT : FRef := ⟨TWN_STATUS.A, 26, 1⟩
/-- TWN_TIMING: hold times, base + 0x1008 -/
abbrev TWN_TIMING.A : Nat := 0x8801008
abbrev TWN_TIMING.CLAIM_HOLD : FRef := ⟨TWN_TIMING.A, 0, 10⟩
abbrev TWN_TIMING.REVERT_HOLD : FRef := ⟨TWN_TIMING.A, 16, 16⟩
/-- TWN_TIMING2: drain and idle, base + 0x100C -/
abbrev TWN_TIMING2.A : Nat := 0x880100C
abbrev TWN_TIMING2.DRAIN : FRef := ⟨TWN_TIMING2.A, 0, 10⟩
abbrev TWN_TIMING2.IDLE_ENTRY : FRef := ⟨TWN_TIMING2.A, 16, 8⟩
/-- TWN_COVER: channels, base + 0x1010 -/
abbrev TWN_COVER.A : Nat := 0x8801010
abbrev TWN_COVER.COVER_MASK : FRef := ⟨TWN_COVER.A, 0, 4⟩
abbrev TWN_COVER.SLOT_FWD_MASK : FRef := ⟨TWN_COVER.A, 4, 4⟩
/-- TWN_MIRROR_CFG: mirroring, base + 0x1014 -/
abbrev TWN_MIRROR_CFG.A : Nat := 0x8801014
abbrev TWN_MIRROR_CFG.MIRROR_BLOCKS : FRef := ⟨TWN_MIRROR_CFG.A, 0, 8⟩
abbrev TWN_MIRROR_CFG.SWEEP_PCT : FRef := ⟨TWN_MIRROR_CFG.A, 8, 5⟩
abbrev TWN_MIRROR_CFG.SWEEP : FRef := ⟨TWN_MIRROR_CFG.A, 31, 1⟩
/-- TWN_MIRROR_STATUS: mirror state -/
abbrev TWN_MIRROR_STATUS.A : Nat := 0x8801018
abbrev TWN_MIRROR_STATUS.QUEUED : FRef := ⟨TWN_MIRROR_STATUS.A, 0, 13⟩
abbrev TWN_MIRROR_STATUS.SWEEP_BUSY : FRef := ⟨TWN_MIRROR_STATUS.A, 13, 1⟩
/-- TWN_LANE_STATUS: twin lanes -/
abbrev TWN_LANE_STATUS.A : Nat := 0x8801020
abbrev TWN_LANE_STATUS.LOCK : FRef := ⟨TWN_LANE_STATUS.A, 0, 8⟩
abbrev TWN_LANE_STATUS.INVERT : FRef := ⟨TWN_LANE_STATUS.A, 8, 8⟩
abbrev TWN_LANE_STATUS.REVERSED : FRef := ⟨TWN_LANE_STATUS.A, 16, 1⟩
abbrev TWN_LANE_STATUS.SKEW : FRef := ⟨TWN_LANE_STATUS.A, 17, 5⟩
/-- TWN_CNT: twin counters -/
abbrev TWN_CNT.A (i : Nat) : Nat := 0x8801100 + 4 * i
abbrev TWN_CNT.COUNT (i : Nat) : FRef := ⟨TWN_CNT.A i, 0, 32⟩

/-! Block pwr (spec/18). -/

/-- PWR_STATE_REQ: state request, base + 0x1000 -/
abbrev PWR_STATE_REQ.A : Nat := 0x101000
abbrev PWR_STATE_REQ.TARGET : FRef := ⟨PWR_STATE_REQ.A, 0, 2⟩
abbrev PWR_STATE_REQ.GO : FRef := ⟨PWR_STATE_REQ.A, 31, 1⟩
/-- PWR_STATE_STATUS: state, base + 0x1004 -/
abbrev PWR_STATE_STATUS.A : Nat := 0x101004
abbrev PWR_STATE_STATUS.CUR_STATE : FRef := ⟨PWR_STATE_STATUS.A, 0, 2⟩
abbrev PWR_STATE_STATUS.BUSY : FRef := ⟨PWR_STATE_STATUS.A, 2, 1⟩
abbrev PWR_STATE_STATUS.RESULT : FRef := ⟨PWR_STATE_STATUS.A, 3, 2⟩
abbrev PWR_STATE_STATUS.CUR_DOM : FRef := ⟨PWR_STATE_STATUS.A, 8, 6⟩
/-- PWR_WAKE_EN: wake sources, base + 0x1030 -/
abbrev PWR_WAKE_EN.A : Nat := 0x101030
abbrev PWR_WAKE_EN.EN : FRef := ⟨PWR_WAKE_EN.A, 0, 6⟩
/-- PWR_WAKE_GPIO: GPIO wake, base + 0x103C -/
abbrev PWR_WAKE_GPIO.A : Nat := 0x10103C
abbrev PWR_WAKE_GPIO.GPIO_MASK : FRef := ⟨PWR_WAKE_GPIO.A, 0, 16⟩
abbrev PWR_WAKE_GPIO.GPIO_LEVEL : FRef := ⟨PWR_WAKE_GPIO.A, 16, 16⟩
/-- PWR_REST_CFG: entry settings, base + 0x1040 -/
abbrev PWR_REST_CFG.A : Nat := 0x101040
abbrev PWR_REST_CFG.REST_CH : FRef := ⟨PWR_REST_CFG.A, 0, 2⟩
abbrev PWR_REST_CFG.REST_CH_EN : FRef := ⟨PWR_REST_CFG.A, 2, 1⟩
abbrev PWR_REST_CFG.ENTRY_TIMEOUT : FRef := ⟨PWR_REST_CFG.A, 8, 8⟩
/-- PWR_LAST_REFUSAL: last refusal, base + 0x1050 -/
abbrev PWR_LAST_REFUSAL.A : Nat := 0x101050
abbrev PWR_LAST_REFUSAL.REFUSER : FRef := ⟨PWR_LAST_REFUSAL.A, 0, 6⟩
abbrev PWR_LAST_REFUSAL.REASON : FRef := ⟨PWR_LAST_REFUSAL.A, 8, 4⟩
abbrev PWR_LAST_REFUSAL.TARGET : FRef := ⟨PWR_LAST_REFUSAL.A, 12, 2⟩
abbrev PWR_LAST_REFUSAL.VALID : FRef := ⟨PWR_LAST_REFUSAL.A, 31, 1⟩
/-- PWR_AVS_CFG: voltage bounds, base + 0x1060 -/
abbrev PWR_AVS_CFG.A : Nat := 0x101060
abbrev PWR_AVS_CFG.VMIN : FRef := ⟨PWR_AVS_CFG.A, 0, 6⟩
abbrev PWR_AVS_CFG.VMAX : FRef := ⟨PWR_AVS_CFG.A, 8, 6⟩
abbrev PWR_AVS_CFG.AVS_EN : FRef := ⟨PWR_AVS_CFG.A, 16, 1⟩
/-- PWR_AVS_STATUS: voltage state, base + 0x1064 -/
abbrev PWR_AVS_STATUS.A : Nat := 0x101064
abbrev PWR_AVS_STATUS.VCORE : FRef := ⟨PWR_AVS_STATUS.A, 0, 6⟩
abbrev PWR_AVS_STATUS.VREQ : FRef := ⟨PWR_AVS_STATUS.A, 8, 6⟩
abbrev PWR_AVS_STATUS.SAFETY : FRef := ⟨PWR_AVS_STATUS.A, 16, 1⟩
/-- PWR_THERM: temperature, base + 0x1070 -/
abbrev PWR_THERM.A : Nat := 0x101070
abbrev PWR_THERM.ALERT_TH : FRef := ⟨PWR_THERM.A, 0, 8⟩
abbrev PWR_THERM.TEMP_MAX : FRef := ⟨PWR_THERM.A, 8, 8⟩
abbrev PWR_THERM.TEMP_PEAK : FRef := ⟨PWR_THERM.A, 16, 8⟩
/-- PWR_TRIM_MASK: Trim domains; bits 0–2, 11–14, 30 and 31 are RSV -/
abbrev PWR_TRIM_MASK.A : Nat := 0x101008
abbrev PWR_TRIM_MASK.ENG : FRef := ⟨PWR_TRIM_MASK.A, 3, 8⟩
abbrev PWR_TRIM_MASK.MID : FRef := ⟨PWR_TRIM_MASK.A, 15, 15⟩
/-- PWR_KEEP_MASK: domains kept; bits 0 and 1 are RSV -/
abbrev PWR_KEEP_MASK.A : Nat := 0x10100C
abbrev PWR_KEEP_MASK.KEEP : FRef := ⟨PWR_KEEP_MASK.A, 2, 30⟩
/-- PWR_DOM_OFF: domains requested off; bits 0–2, 11–14 and 30 are RSV -/
abbrev PWR_DOM_OFF.A : Nat := 0x101010
abbrev PWR_DOM_OFF.ENG : FRef := ⟨PWR_DOM_OFF.A, 3, 8⟩
abbrev PWR_DOM_OFF.MID : FRef := ⟨PWR_DOM_OFF.A, 15, 15⟩
abbrev PWR_DOM_OFF.TIM : FRef := ⟨PWR_DOM_OFF.A, 31, 1⟩
/-- PWR_DOM_STATE: domain conditions -/
abbrev PWR_DOM_STATE.A (i : Nat) : Nat := 0x101020 + 4 * i
abbrev PWR_DOM_STATE.COND (i : Nat) : FRef := ⟨PWR_DOM_STATE.A i, 0, 32⟩
/-- PWR_WAKE_STATUS: wake sources fired -/
abbrev PWR_WAKE_STATUS.A : Nat := 0x101034
abbrev PWR_WAKE_STATUS.ST : FRef := ⟨PWR_WAKE_STATUS.A, 0, 6⟩
/-- PWR_WAKE_TIMER: wake timer, ms -/
abbrev PWR_WAKE_TIMER.A : Nat := 0x101038
abbrev PWR_WAKE_TIMER.WAKE_MS : FRef := ⟨PWR_WAKE_TIMER.A, 0, 32⟩
/-- PWR_ABORT_COUNT: aborted entries -/
abbrev PWR_ABORT_COUNT.A : Nat := 0x101054
abbrev PWR_ABORT_COUNT.COUNT : FRef := ⟨PWR_ABORT_COUNT.A, 0, 32⟩
/-- PWR_ACCESS_WAKES: wakes by access -/
abbrev PWR_ACCESS_WAKES.A : Nat := 0x101058
abbrev PWR_ACCESS_WAKES.COUNT : FRef := ⟨PWR_ACCESS_WAKES.A, 0, 32⟩
/-- PWR_AVS_CLAMP_COUNT: voltage loop clamps -/
abbrev PWR_AVS_CLAMP_COUNT.A : Nat := 0x101068
abbrev PWR_AVS_CLAMP_COUNT.POLICY_CLAMP_COUNT : FRef := ⟨PWR_AVS_CLAMP_COUNT.A, 0, 32⟩
/-- PWR_SAFETY_CNT: safety counters -/
abbrev PWR_SAFETY_CNT.A : Nat := 0x101074
abbrev PWR_SAFETY_CNT.VMIN_OVERRIDES : FRef := ⟨PWR_SAFETY_CNT.A, 0, 16⟩
abbrev PWR_SAFETY_CNT.THERMAL_TRIPS : FRef := ⟨PWR_SAFETY_CNT.A, 16, 16⟩

/-! Block pm (spec/20). -/

/-- PM_CFG: bin settings, base + 0x1000 -/
abbrev PM_CFG.A : Nat := 0x9001000
abbrev PM_CFG.BIN_SLOT : FRef := ⟨PM_CFG.A, 0, 6⟩
abbrev PM_CFG.BIN_EN : FRef := ⟨PM_CFG.A, 6, 1⟩
abbrev PM_CFG.DAY_OFFSET : FRef := ⟨PM_CFG.A, 8, 7⟩
abbrev PM_CFG.SES_TH : FRef := ⟨PM_CFG.A, 16, 16⟩
/-- PM_REGION: history region, base + 0x1004 -/
abbrev PM_REGION.A : Nat := 0x9001004
abbrev PM_REGION.PM_BLOCK : FRef := ⟨PM_REGION.A, 0, 9⟩
abbrev PM_REGION.REGION_EN : FRef := ⟨PM_REGION.A, 31, 1⟩
/-- PM_CLOSE15: last fifteen-minute close, base + 0x1008 -/
abbrev PM_CLOSE15.A : Nat := 0x9001008
abbrev PM_CLOSE15.SEQ : FRef := ⟨PM_CLOSE15.A, 0, 16⟩
abbrev PM_CLOSE15.BUSY : FRef := ⟨PM_CLOSE15.A, 16, 1⟩
abbrev PM_CLOSE15.VALID : FRef := ⟨PM_CLOSE15.A, 17, 1⟩
/-- PM_CLOSE24: last daily close -/
abbrev PM_CLOSE24.A : Nat := 0x900100C
abbrev PM_CLOSE24.SEQ : FRef := ⟨PM_CLOSE24.A, 0, 16⟩
abbrev PM_CLOSE24.BUSY : FRef := ⟨PM_CLOSE24.A, 16, 1⟩
abbrev PM_CLOSE24.VALID : FRef := ⟨PM_CLOSE24.A, 17, 1⟩
/-- PM_ACTIVE0: raised unmasked alarms -/
abbrev PM_ACTIVE0.A : Nat := 0x9001010
abbrev PM_ACTIVE0.CRITICAL : FRef := ⟨PM_ACTIVE0.A, 0, 16⟩
abbrev PM_ACTIVE0.MAJOR : FRef := ⟨PM_ACTIVE0.A, 16, 16⟩
/-- PM_ACTIVE1: raised unmasked alarms -/
abbrev PM_ACTIVE1.A : Nat := 0x9001014
abbrev PM_ACTIVE1.MINOR : FRef := ⟨PM_ACTIVE1.A, 0, 16⟩
abbrev PM_ACTIVE1.WARNING : FRef := ⟨PM_ACTIVE1.A, 16, 16⟩
/-- PM_LOG: alarm log, base + 0x1020 -/
abbrev PM_LOG.A : Nat := 0x9001020
abbrev PM_LOG.LEVEL : FRef := ⟨PM_LOG.A, 0, 9⟩
abbrev PM_LOG.POP : FRef := ⟨PM_LOG.A, 9, 1⟩
abbrev PM_LOG.OVF_STICKY : FRef := ⟨PM_LOG.A, 10, 1⟩
/-- PM_LOG_ENTRY: head log entry -/
abbrev PM_LOG_ENTRY.A (i : Nat) : Nat := 0x9001024 + 4 * i
abbrev PM_LOG_ENTRY.WORD (i : Nat) : FRef := ⟨PM_LOG_ENTRY.A i, 0, 32⟩
/-- PM_CNT: PM counters -/
abbrev PM_CNT.A (i : Nat) : Nat := 0x9001100 + 4 * i
abbrev PM_CNT.COUNT (i : Nat) : FRef := ⟨PM_CNT.A i, 0, 32⟩

/-! Event bits of BLK_INT_STATUS (R48). -/

abbrev EV_GLB.BUS_ERR : Nat := 8
abbrev EV_GLB.GPIO_EV : Nat := 9
abbrev EV_GLB.CLK_EV : Nat := 10
abbrev EV_PWR.STATE_DONE : Nat := 8
abbrev EV_PWR.REFUSED_EV : Nat := 9
abbrev EV_PWR.WAKE_EV : Nat := 10
abbrev EV_PWR.TEMP_ALERT_EV : Nat := 11
abbrev EV_PWR.SAFETY_EV : Nat := 12
abbrev EV_SRD.MDIO_DONE : Nat := 8
abbrev EV_SRD.MDIO_ERR : Nat := 9
abbrev EV_LANE.LOCK_CHANGE : Nat := 8
abbrev EV_LANE.POL_FLIP : Nat := 9
abbrev EV_LANE.RATE_CHANGE : Nat := 10
abbrev EV_LANE.RECAL_DONE : Nat := 11
abbrev EV_LANE.PRBS_LOCK_LOST : Nat := 12
abbrev EV_LANE.TAG_ERR_EV : Nat := 13
abbrev EV_LANE.ENERGY_EV : Nat := 14
abbrev EV_TRK.LOS_CHANGE : Nat := 8
abbrev EV_TRK.MOD_CHANGE : Nat := 9
abbrev EV_TRK.CDR_UNLOCK : Nat := 10
abbrev EV_TRK.ROGUE_TRIP : Nat := 11
abbrev EV_TRK.TWI_DONE : Nat := 12
abbrev EV_TRK.TWI_ERR : Nat := 13
abbrev EV_TRK.PRBS_LOCK_LOST : Nat := 14
abbrev EV_TRK.CLK_TRK_FAIL : Nat := 15
abbrev EV_TRK.SYNC_CHANGE : Nat := 16
abbrev EV_TRK.LOF_CHANGE : Nat := 17
abbrev EV_TRK.LODS_CHANGE : Nat := 18
abbrev EV_TRK.SFC_JUMP : Nat := 19
abbrev EV_TRK.FEC_UNCORR : Nat := 20
abbrev EV_TRK.PLOAM_RX : Nat := 21
abbrev EV_TRK.PLOAM_DROP : Nat := 22
abbrev EV_TRK.KEY_LIMIT : Nat := 23
abbrev EV_TRK.ACT_CHANGE : Nat := 24
abbrev EV_TRK.TO1_EXPIRED : Nat := 25
abbrev EV_TRK.TO2_EXPIRED : Nat := 26
abbrev EV_TRK.EQD_APPLIED : Nat := 27
abbrev EV_TRK.KEY_SWITCHED : Nat := 28
abbrev EV_TRK.KEY_SWITCH_LATE : Nat := 29
abbrev EV_TRK.PLOAM_TX_EMPTY : Nat := 30
abbrev EV_TRK.PM_CHANGE : Nat := 31
abbrev EV_SHF.JOIN_DONE : Nat := 8
abbrev EV_SHF.JOIN_FAIL : Nat := 9
abbrev EV_SHF.LEAVE_DONE : Nat := 10
abbrev EV_SHF.MEMBER_SUSPEND : Nat := 11
abbrev EV_SHF.GROUP_DOWN : Nat := 12
abbrev EV_SHF.SEQ_LOSS : Nat := 13
abbrev EV_SHF.WINDOW_JUMP_EV : Nat := 14
abbrev EV_SHF.SHED_CHANGE : Nat := 15
abbrev EV_SHF.MARKER_UNEXP : Nat := 16
abbrev EV_THR.CHAFF_A : Nat := 8
abbrev EV_THR.CHAFF_B : Nat := 9
abbrev EV_THR.EPOCH_DONE : Nat := 16
abbrev EV_THR.LEARN_FULL : Nat := 17
abbrev EV_THR.CTX_DONE : Nat := 18
abbrev EV_THR.CTX_ERR : Nat := 19
abbrev EV_THR.RR_SKIP_EV : Nat := 20
abbrev EV_THR.STATIC_MOVE_EV : Nat := 21
abbrev EV_GRN.POOL_LOW : Nat := 8
abbrev EV_GRN.STAGE_FULL : Nat := 9
abbrev EV_GRN.BULK_FULL : Nat := 10
abbrev EV_GRN.DRAM_UNCORR_EV : Nat := 11
abbrev EV_GRN.RETRAIN_DONE : Nat := 12
abbrev EV_GRN.RETIRE_DONE : Nat := 13
abbrev EV_GRN.DRAM_FAIL : Nat := 14
abbrev EV_GRN.FLUSH_DONE : Nat := 15
abbrev EV_TMS.CMD_DONE : Nat := 8
abbrev EV_TMS.CMD_ERR : Nat := 9
abbrev EV_SUB.LINK_CHANGE : Nat := 8
abbrev EV_SUB.MACSEC_UNTRUSTED_EV : Nat := 9
abbrev EV_SUB.PFC_RX_EV : Nat := 10
abbrev EV_SUB.GATE_LATE : Nat := 11
abbrev EV_SUB.GATE_SWITCHED : Nat := 12
abbrev EV_SLT.PAGE_SWAPPED : Nat := 8
abbrev EV_SLT.SWAP_NOT_ARMED_EV : Nat := 9
abbrev EV_SLT.PATH_SWITCH : Nat := 10
abbrev EV_SLT.CIRCUIT_DEFECT : Nat := 11
abbrev EV_SLT.CONTAINER_ERR : Nat := 12
abbrev EV_TIM.STATE_CHANGE : Nat := 8
abbrev EV_TIM.TOD_APPLIED : Nat := 9
abbrev EV_TIM.JUMP_EV : Nat := 10
abbrev EV_TIM.TOD_LATE_EV : Nat := 11
abbrev EV_TIM.TIME_STEP : Nat := 12
abbrev EV_TIM.TS_OVERFLOW : Nat := 13
abbrev EV_TIM.CAPTURE : Nat := 14
abbrev EV_TIM.SLOT_FIRED : Nat := 15
abbrev EV_TIM.DPLL_CHANGE : Nat := 16
abbrev EV_TIL.BP_ON : Nat := 8
abbrev EV_TIL.DRAIN_DONE : Nat := 9
abbrev EV_TIL.DELAY_FULL_EV : Nat := 10
abbrev EV_TIL.NO_ENGINE_EV : Nat := 11
abbrev EV_TIL.TICK_FALLBACK_EV : Nat := 12
abbrev EV_TIL.GLEAN_FULL : Nat := 13
abbrev EV_TIL.THROT_CHANGE : Nat := 14
abbrev EV_ENG.ENG_FAULT_EV : Nat := 8
abbrev EV_ENG.PERF_OVF : Nat := 9
abbrev EV_CTL.WDOG_WARN : Nat := 8
abbrev EV_CTL.MBX_RX : Nat := 9
abbrev EV_CTL.MBX_EMPTY : Nat := 10
abbrev EV_CTL.DB : Nat := 11
abbrev EV_CTL.LOCK_BAD_EV : Nat := 12
abbrev EV_CTL.RING_NOBUF_EV : Nat := 13
abbrev EV_CTL.TX_ERR_EV : Nat := 14
abbrev EV_HSK.CMD_DONE : Nat := 8
abbrev EV_HSK.RNG_FAIL : Nat := 9
abbrev EV_HSK.OTP_ERR : Nat := 10
abbrev EV_CIP.LINE_SOFT : Nat := 8
abbrev EV_CIP.LINE_HARD : Nat := 9
abbrev EV_CIP.SA_PN_SOFT : Nat := 10
abbrev EV_CIP.SA_PN_EXHAUSTED : Nat := 11
abbrev EV_CIP.CVE_DONE : Nat := 12
abbrev EV_CIP.CVE_KEY_SOFT : Nat := 13
abbrev EV_CIP.CVE_KEY_ACTIVATED : Nat := 14
abbrev EV_CIP.ZEROISED : Nat := 15
abbrev EV_TWN.ROLE_CHANGE : Nat := 8
abbrev EV_TWN.LINK_CHANGE : Nat := 9
abbrev EV_TWN.CONTEND_LOST_EV : Nat := 10
abbrev EV_TWN.SPLIT_EV : Nat := 11
abbrev EV_TWN.ROLE_CONFLICT_EV : Nat := 12
abbrev EV_TWN.WIRE_FAULT_EV : Nat := 13
abbrev EV_TWN.REDIRECT_CHANGE : Nat := 14
abbrev EV_TWN.PEER_TRUNK_EV : Nat := 15
abbrev EV_TWN.MIRROR_OVF_EV : Nat := 16
abbrev EV_TWN.MIRROR_SYNC_EV : Nat := 17
abbrev EV_TWN.HANDOVER_DONE : Nat := 18
abbrev EV_TWN.HANDOVER_REFUSED_EV : Nat := 19
abbrev EV_TWN.LANE_ORDER_ERR : Nat := 20
abbrev EV_PM.ALARM_EV : Nat := 8
abbrev EV_PM.TCA_EV : Nat := 9
abbrev EV_PM.BIN15_DONE : Nat := 10
abbrev EV_PM.BIN24_DONE : Nat := 11
abbrev EV_PM.LOG_OVF_EV : Nat := 12
abbrev EV_PM.HIST_ERR : Nat := 13
abbrev EV.CDC_ERR : Nat := 0
abbrev EV.TBL_ERR : Nat := 1
abbrev EV.LIFECYCLE_DONE : Nat := 2
abbrev EV.MEM_UNCORR : Nat := 3
abbrev EV.MEM_CORR : Nat := 4

end Sys2Proof.Machine
end

