-- ==== Sys2Proof/Machine/Sparse.lean ====
section
/-!
DEFINITION. Sparse stores: a list of key and value pairs in one canonical form (keys strictly rising, no pair
whose value is what an unlisted key reads as), so that equal stores are equal data.
-/
namespace Sys2Proof.Machine

/-- A store with few written places: registers, table words, memory bytes, per-queue and per-port state. -/
abbrev Sparse (α : Type) := List (Nat × α)

/-- What key `k` reads as; `d` is what an unlisted `k` reads as. -/
def Sparse.get {α : Type} (d : α) : Sparse α → Nat → α
  | [], _ => d
  | p :: t, k => if p.1 = k then p.2 else Sparse.get d t k

/-- Puts a pair before the first one with a higher key. -/
def Sparse.ins {α : Type} (k : Nat) (v : α) : Sparse α → Sparse α
  | [] => [(k, v)]
  | p :: t => if k < p.1 then (k, v) :: p :: t else p :: Sparse.ins k v t

/-- Writes `v` at `k`, keeping the canonical form; `d` is what an unlisted `k` reads as. -/
def Sparse.set {α : Type} [DecidableEq α] (d : α) (m : Sparse α) (k : Nat) (v : α) : Sparse α :=
  let rest := m.filter (fun p => p.1 != k)
  if v = d then rest else Sparse.ins k v rest

/-- Removes every pair whose key satisfies `q` (a reset of a range: those keys read as unlisted again). -/
def Sparse.drop {α : Type} (q : Nat → Bool) (m : Sparse α) : Sparse α :=
  m.filter (fun p => !q p.1)

/-- Every key of the store is above `b`. -/
def Sparse.above {α : Type} (b : Nat) : Sparse α → Bool
  | [] => true
  | p :: t => decide (b < p.1) && Sparse.above b t

/-- The canonical form: keys strictly rising, and no value equal to what its key reads as when unlisted. -/
def Sparse.wf {α : Type} [DecidableEq α] (dflt : Nat → α) : Sparse α → Bool
  | [] => true
  | p :: t => Sparse.above p.1 t && decide (p.2 ≠ dflt p.1) && Sparse.wf dflt t

end Sys2Proof.Machine
end

