-- ==== Sys2Proof/Machine/Parts.lean ====
section
/-!
DEFINITION. The state the spec gives the blocks beside their registers and tables: queues, buffers, machines in
progress, pin levels. Every structure's default is its state after reset (log entry 6).
-/
namespace Sys2Proof.Machine

/-! ## Gates (spec/02, R52, R53) -/

/-- A gate command in progress: operation and its result code; of a WRITE, the words of the segment before it and the
data not yet copied, by word of the entry. -/
structure GateRun where
  op : Nat := 0
  err : Nat := 0
  old : List (Nat × Word) := []
  words : List (Nat × Word) := []
  deriving DecidableEq, Repr

/-! ## Trunk optics (spec/03) -/

/-- Optics of one trunk channel. -/
structure Optics where
  /-- filtered level of TRK_LOS (R73) -/
  losPin : Bool := false
  /-- peak-to-peak differential amplitude at the receive pins, mV -/
  ampMv : Nat := 0
  /-- cycle at which the LOS_ASSERT or LOS_CLEAR count in progress began -/
  losCnt : Option Nat := none
  /-- equaliser taps with no software bounds (R72); DFE1 is the register's -/
  dfe : List Int := [0, 0, 0, 0]
  /-- level the terminal drives on TRK_BEN, and the pad's level -/
  benDrive : Bool := false
  benPad : Bool := false
  /-- end word positions of the guard windows open now (R80) -/
  windows : Nat := 0
  /-- cycles of the trips counted toward STRIKE_LIMIT (R83) -/
  strikes : List Nat := []
  /-- a software command runs on the two-wire bus (R87) -/
  twiCmd : Bool := false
  /-- a monitor poll runs; one that fell due during a command waits; a command waits for the poll to end (R89) -/
  polling : Bool := false
  pollDue : Bool := false
  cmdWaits : Bool := false
  /-- a recovery waits for the bus (R88) -/
  twiRec : Bool := false
  /-- remainder of the pattern bits counted, in 1/10,000 bit -/
  prbsRem : Nat := 0
  deriving DecidableEq, Repr

/-! ## Delineation (spec/04) -/

/-- A recorded PSync match: its bit position within 125 µs and the superframe count its SFC structure gives, if that can be
used (R97, R100, R103; log entry 165). -/
structure PsyncCand where
  pos : Nat
  sfc : Option Nat
  deriving DecidableEq, Repr

/-- The open fragmented GEM frame of a channel (R117). -/
structure Frag where
  port : Nat
  bytes : Bytes
  bonded : Bool
  group : Nat
  dest : Nat
  deriving DecidableEq, Repr

/-- Delineation of one trunk channel. -/
structure Dln where
  /-- recorded candidates, earliest first (R97) -/
  cands : List PsyncCand := []
  /-- position of the PRESYNC candidate -/
  cand : Option Nat := none
  /-- HUNT was entered from a PRESYNC miss -/
  fromMiss : Bool := false
  /-- a frame is being processed (SYNC and its PSBd not the losing one) -/
  inFrame : Bool := false
  /-- codewords of the frame decoded so far, of 360 (R94) -/
  cw : Nat := 0
  /-- state of the descrambler, seeded with the frame's superframe count; payload and parity octets of the codeword in the
  decoder (R94, R100) -/
  scr : Nat := 0
  word : Bytes := []
  parity : Bytes := []
  /-- the channel has left ON with a codeword in progress, which is still completed; it is one of a processed frame (R69) -/
  tail : Bool := false
  tailCounts : Bool := false
  /-- arrival of the frame's first PSBd bit, in bit periods at 49.7664 Gb/s of the terminal's clock (R138) -/
  frameAt : Nat := 0
  /-- its HLend has been judged, and was good or uncorrectable (R106) -/
  hl : Option Bool := none
  /-- allocation structures and PLOAM messages of the frame still to come, and its PLOAM count (R94) -/
  maps : Nat := 0
  ploams : Nat := 0
  ploamCount : Nat := 0
  /-- octets of the FS frame behind its HLend, map and PLOAM partition that GEM frames have not taken yet (R94, R115) -/
  fsLeft : Nat := 0
  /-- delineation has ended for the rest of its FS payload (R115) -/
  payloadOff : Bool := false
  /-- no GEM frame of this FS payload has been delineated yet -/
  firstGem : Bool := true
  frag : Option Frag := none
  /-- the open fragment may still be continued in the present FS payload -/
  fragDue : Bool := false
  /-- end of the preceding allocation structure's grant, in words, when it was accepted (R107, R141) -/
  prevEnd : Option Nat := none
  /-- where that grant went: 0 into burst assembly, n + 1 discarded and counted in activation counter n (R108) -/
  prevFate : Nat := 0
  /-- grants accepted for this upstream frame -/
  accepted : Nat := 0
  deriving DecidableEq, Repr

/-! ## Activation and bursts (spec/05) -/

/-- One item of a burst in the order sent (R141). -/
inductive BurstItem
  | preamble (octets : Bytes)
  | delimiter (octets : Bytes)
  | header (onuId : Nat)
  | serialNumber (hi lo : Word)
  | ploam (msg : Bytes)
  | dbru (words : Nat)
  | gem (port keyIdx : Nat) (lf : Bool) (payload : Bytes)
  | idle (bytes : Nat)
  | trailer
  | pattern (pat len : Nat)
  deriving DecidableEq, Repr

/-- An accepted grant (R107, R142). Positions are absolute, in bit periods at 49.7664 Gb/s. -/
structure Grant where
  allocIdx : Nat := 0
  node : Nat := 0
  /-- start word and size in upstream words -/
  start : Nat := 0
  size : Nat := 0
  /-- first preamble bit (or first bit), start (R138) and end -/
  absStart : Nat := 0
  absT : Nat := 0
  absEnd : Nat := 0
  /-- equalisation delay its position was computed with (R139) -/
  eqd : Nat := 0
  /-- superframe count of the downstream frame that carried it, key index in force for its burst (R150) -/
  sfc : Nat := 0
  keyIdx : Nat := 0
  ploamu : Bool := false
  dbru : Bool := false
  /-- bytes of each queue that may enter, recorded at arrival and at the cutoff, less those that have left it since
  (R142, R143) -/
  limit : List (Nat × Nat) := []
  /-- arrived after its own cutoff (R144) -/
  late : Bool := false
  /-- while it is staged: octets of GEM space, those left, octets of frames placed, whether one of them was dequeued for
  this grant, and what they are -/
  space : Nat := 0
  room : Nat := 0
  placed : Nat := 0
  framed : Bool := false
  items : List BurstItem := []
  /-- it is the slot allocation's and carries its container only (R318) -/
  slot : Bool := false
  /-- measured at the cutoff: bytes held, the number of members that share them, 20 bytes for each waiting marker, and the
  look-ahead addition in 1/65,536 byte (R148, R175) -/
  occ : Nat := 0
  share : Nat := 1
  marks : Nat := 0
  add : Nat := 0
  deriving DecidableEq, Repr

/-- What a burst is for. -/
inductive BurstKind | data | serial | ranging | test
  deriving DecidableEq, Repr

/-- A burst: its grants in map order, whether staging has begun, what has been staged. -/
structure Burst where
  kind : BurstKind := .data
  profile : Nat := 0
  absFirst : Nat := 0
  grants : List Grant := []
  staged : Bool := false
  launched : Bool := false
  /-- FEC_EN of its profile as the burst began, at its cutoff (R156; log entry 189) -/
  fec : Bool := false
  /-- its guard window is open, TRK_BEN having stayed high since the burst before it (R78, R80) -/
  opened : Bool := false
  /-- LEAD and LAG as they were at its launch (R77) -/
  lead : Nat := 0
  lag : Nat := 0
  /-- what it carries before its grants' frames -/
  items : List BurstItem := []
  /-- index of the grant being filled -/
  cur : Nat := 0
  deriving DecidableEq, Repr

/-- A frame partly sent with LF = 0: the allocation index and queue it belongs to, where the grant that broke it off
starts, and the frame (R145; log entry 17). -/
structure SentFrag where
  alloc : Nat
  q : Nat
  after : Nat := 0
  pkt : Pkt
  deriving DecidableEq, Repr

/-- Activation and burst assembly of one trunk channel. -/
structure Act where
  /-- upstream PLOAM queue, oldest first (R134) -/
  ploamTx : List Bytes := []
  /-- bursts from acceptance to their end, earliest first -/
  bursts : List Burst := []
  /-- frames partly sent with LF = 0 (R145) -/
  frags : List SentFrag := []
  /-- ARM was written after SWITCH_SFC had passed: the switch waits for the next frame, or for its grants (R152) -/
  keyLate : Bool := false
  keyNow : Bool := false
  /-- the receiver is on in WATCH (R153) -/
  rxOn : Bool := true
  /-- the receiver has been off in WATCH and SYNC has not been regained since (R153) -/
  resync : Bool := false
  deriving DecidableEq, Repr

/-! ## Sheaf (spec/06) -/

/-- A marker waiting to be placed (R161, R163). -/
structure Marker where
  group : Nat
  /-- channel whose grants carry it -/
  target : Nat
  /-- subject channel, type, reason, token -/
  subject : Nat
  type : Nat
  reason : Nat
  token : Nat
  deriving DecidableEq, Repr

/-- A member's machine beside its registers. -/
structure Member where
  /-- a JOIN_REQ has been decided and not yet placed, or placed and unanswered -/
  outstanding : Bool := false
  placed : Bool := false
  /-- in LEAVE_WAIT, the LEAVE has been sent -/
  leaveSent : Bool := false
  deriving DecidableEq, Repr

/-- A frame held for reordering: sequence number, arrival channel, marker flag, payload after the shim. -/
structure HeldFrame where
  sn : Nat
  chan : Nat
  marker : Bool
  bytes : Bytes
  deriving DecidableEq, Repr

/-- A bonding group's machine beside its registers. -/
structure Group where
  /-- held frames in arrival order (R176) -/
  held : List HeldFrame := []
  markers : List Marker := []
  /-- consecutive evaluations below the shed threshold (R180) -/
  shedCnt : Nat := 0
  /-- channels Sheaf holds off (R181), and those of them the head end has woken since (R184) -/
  shedOff : List Nat := []
  woken : List Nat := []
  /-- octets of frames delivered downstream and placed upstream since the last evaluation (R180) -/
  dsOctets : Nat := 0
  usOctets : Nat := 0
  deriving DecidableEq, Repr

/-! ## Tasks (spec/14) -/

/-- A task: its 16 descriptor words and parse record, the packet it holds and the direction whose cells hold that,
the engine it names (any engine of its cluster when `any`), its priority. -/
structure Task where
  desc : List Word := []
  parse : List Word := []
  pkt : Option Pkt := none
  ds : Bool := false
  engine : Nat := 0
  any : Bool := false
  prio : Nat := 0
  deriving DecidableEq, Repr

/-- An entry of a delay list: list and entry (its handle), tick count at which it falls due (R371, R373). -/
structure Delayed where
  list : Nat
  entry : Nat
  due : Nat
  task : Task
  deriving DecidableEq, Repr

/-- An engine beside its registers: the running task and its frame, the preempted task and its frame; INIT_PC runs. -/
structure Eng where
  run : Option Task := none
  frame : Nat := 0
  pre : Option (Task × Nat) := none
  init : Bool := false
  /-- cycles without a task, up to 64, and sixteenths of a cycle delivered beyond ENG_CYCLES (R369, R381) -/
  idle : Nat := 0
  cyc : Nat := 0
  deriving DecidableEq, Repr

structure TilSt where
  /-- tasks in the ready lists, in order of entry (R368, R369) -/
  ready : List Task := []
  /-- delay entries, in posting order -/
  delay : List Delayed := []
  engs : Sparse Eng := []
  /-- next sequence number of each cluster's Gleaner (R383) -/
  gleanSeq : Sparse Nat := []
  /-- local time in ns of the last tick delivered to each delay list (R339, R373) -/
  tickAt : Sparse Nat := []
  /-- PERIOD of each list as its last tick took it, 10 before any; lists that a forward step has passed over (R339, R373) -/
  tickPer : Sparse Nat := []
  stepped : List Nat := []
  /-- selected events of each engine since its last Gleaner record (R383) -/
  gleanCnt : Sparse Nat := []
  deriving DecidableEq, Repr

/-- Every task the Tiller or an engine holds. -/
def TilSt.tasks (t : TilSt) : List Task :=
  t.ready ++ t.delay.map Delayed.task
    ++ (t.engs.map (fun e => e.2.run.toList ++ (e.2.pre.map Prod.fst).toList)).flatten

/-! ## Granary and scheduling (spec/09, spec/10) -/

/-- Where a queued packet lies (R251, R252). -/
inductive Loc
  | chip
  | staging
  /-- the external blocks it lies in: channel and block number, first to last -/
  | ext (blocks : List (Nat × Nat))
  deriving DecidableEq, Repr

structure Stored where
  pkt : Pkt
  loc : Loc := .chip
  /-- its data lay on a failed channel (R259) -/
  lost : Bool := false
  /-- it was queued when its port entered STOPPING (R296) -/
  doomed : Bool := false
  deriving DecidableEq, Repr

/-- One queue. Its lengths and cell counts are sums over `pkts`. -/
structure Queue where
  pkts : List Stored := []
  spill : Bool := false
  /-- WRED average in 1/32,768 of 64 bytes (log entry 9) -/
  avg : Nat := 0
  /-- current external block: channel, number, octets used -/
  blk : Option (Nat × Nat × Nat) := none
  deriving DecidableEq, Repr

/-- A credit bucket: credit in 1/256 byte, the remainder of time not yet worth 1/256 byte, cycle of the last refill. -/
structure Bucket where
  credit : Int := 0
  rem : Nat := 0
  last : Nat := 0
  deriving DecidableEq, Repr

/-- A meter: both buckets and the per-colour packet counts (R243, R245). -/
structure Meter where
  c : Bucket := {}
  e : Bucket := {}
  green : Nat := 0
  yellow : Nat := 0
  red : Nat := 0
  deriving DecidableEq, Repr

/-- The deficit rounds of a node: its children with packets, each priority's from head to tail, and the heads that
have been given their quantum (R272). Children are table indices. -/
structure Round where
  kids : List Nat := []
  fed : List Nat := []
  deriving DecidableEq, Repr

/-- An LPDDR5X channel beside its registers. -/
structure Dram where
  /-- shared pages copied to their spare slots and remapped (R258) -/
  copied : Nat := 0
  /-- its shared pages from this one on were remapped and poisoned at its failure (R259) -/
  lossFrom : Option Nat := none
  /-- it failed after another had been retired: its pages and the spare slots it held are lost (R259) -/
  lost : Bool := false
  /-- cycles of uncorrectable errors counted toward FAIL_LIMIT -/
  errs : List Nat := []
  deriving DecidableEq, Repr

/-- A queue flush in progress (R250). -/
structure Flush where
  queue : Nat := 0
  /-- on-chip and staging cells not yet released -/
  cells : Nat := 0
  /-- external blocks not yet released -/
  blocks : List (Nat × Nat) := []
  released : Bool := false
  deriving DecidableEq, Repr

/-! ## Time (spec/13) -/

/-- A local time: 48-bit seconds, nanoseconds, 32-bit fraction (R333). -/
structure LTime where
  sec : Nat := 0
  ns : Nat := 0
  frac : Nat := 0
  deriving DecidableEq, Repr

/-- One timestamp queue entry (R344). -/
structure TsEntry where
  id : Nat
  port : Nat
  sec : Nat
  ns : Nat
  frac : Nat
  notSent : Bool
  deriving DecidableEq, Repr

/-- One captured edge (R349). -/
structure CapEntry where
  ns : Nat
  sec : Nat
  state : Nat
  deriving DecidableEq, Repr

/-! ## What leaves the terminal -/

/-- What a lane transmits: frames and idle; silence broken by the refresh that the coding of `mode` requires, while its
PMA is quiesced in LPI (R304); a test pattern (R310); of the twin link's lanes also TRAIN blocks on end (R448) and
electrical idle (R450). -/
inductive LaneTx | frames | quiet (mode : Nat) | pattern (n : Nat) | train | elecIdle
  deriving DecidableEq, Repr

/-- A block of the twin link (R447): a BEAT block of a lane with bytes 2-7, the header block of a frame, 8 bytes of its
data. -/
inductive TwinBlock | fill | beat (lane : Nat) (bytes : Bytes) | train | frame (hdr : Bytes) | data (bytes : Bytes)
  deriving DecidableEq, Repr

/-- Sync header of a block. -/
def TwinBlock.sync : TwinBlock → Nat
  | .data _ => 1
  | _ => 2

/-- The eight bytes of a block, the block type in byte 0 of a control block. -/
def TwinBlock.octets : TwinBlock → Bytes
  | .fill => 0x1E#8 :: List.replicate 7 0#8
  | .beat lane bs => 0x4B#8 :: BitVec.ofNat 8 (lane * 32) :: bs
  | .train => List.replicate 8 0x55#8
  | .frame hdr => 0x78#8 :: hdr
  | .data bs => bs

/-- Data blocks of a frame, the last zero-padded. -/
def dataBlocks (bs : Bytes) : List TwinBlock :=
  (List.range ((bs.length + 7) / 8)).map (fun i =>
    let b := (bs.drop (8 * i)).take 8
    .data (b ++ List.replicate (8 - b.length) 0#8))

def LaneTx.isQuiet : LaneTx → Bool
  | .quiet _ => true
  | .elecIdle => true
  | _ => false

/-- What CLKOUT carries (R347). -/
inductive ClkOut | low | mhz10 | mhz25
  deriving DecidableEq, Repr

/-- An observable event at the terminal's boundary. -/
inductive Out
  /-- the MSI-X message of a vector, with the address and data its table entry holds (R57, R389, R396, R400, R406) -/
  | msix (vec addr data : Nat)
  /-- a burst is launched on channel c, its first bit at an instant in bit periods at 49.7664 Gb/s (R76, R138) -/
  | launch (c : Nat) (kind : BurstKind) (first : Nat)
  /-- a burst that began at `first` has left channel c with these items (R77, R141) -/
  | burst (c : Nat) (kind : BurstKind) (first : Nat) (items : List BurstItem)
  /-- zeros between two bursts that share one assertion of TRK_BEN, for so many bit periods at 49.7664 Gb/s (R78) -/
  | zeros (c bits : Nat)
  /-- a burst in progress is cut off (R82, R122) -/
  | burstCut (c : Nat)
  /-- a buffer of ring (direction, number) in host memory is written and descriptor `idx` written back with words 2-7
  (R391-R393, R395) -/
  | ringWrite (d r idx : Nat) (words : List Word) (bytes : Bytes)
  /-- a console octet (R539) -/
  | uart (b : Byte)
  /-- PPS_OUT rises for so many units of 10 µs (R348); an EVT_OUT pin is pulsed for so many units of 100 ns (R350) -/
  | pps (width : Nat)
  | evtPulse (pin width : Nat)
  /-- frame octets leave a port's MAC, behind the preamble's seven octets after /S/ (R286, R300) -/
  | frame (port : Nat) (pre bytes : Bytes)
  /-- a frame that a port was sending is cut off (R36) -/
  | frameCut (port : Nat)
  /-- what a lane transmits beside frames changes (R304, R310) -/
  | laneTx (l : Nat) (v : LaneTx)
  /-- nine SCL pulses and a STOP on a module bus (R88) -/
  | twiRecovery (c : Nat)
  /-- an MDIO frame begins on a master's bus: operation (0 write, 1 read, 2 address, 3 read with increment), PRTAD,
  DEVAD, register or data, clause 45, and whether the 32-bit preamble goes first (R292) -/
  | mdio (m op prtad devad data : Nat) (cl45 pre : Bool)
  /-- blocks enter the twin link, each on its logical lane (R447): a frame or a BEAT row -/
  | twin (blocks : List (Nat × TwinBlock))
  /-- TRAIN blocks on all lanes of the twin link for so many ns (R450) -/
  | twinTrain (ns : Nat)
  /-- CLKOUT changes (R347) -/
  | clkOut (v : ClkOut)
  /-- a lane starts on the DPLL clock, or on CLK_SYS (R346) -/
  | laneClock (l : Nat) (dpll : Bool)
  /-- SPI_RESET_N is driven, or released (R528) -/
  | spiReset (v : Option Bool)
  /-- a two-wire transfer begins: channel, read flag, device, offset, written octets, length (R87) -/
  | twi (c : Nat) (read : Bool) (dev off len : Nat) (data : Bytes)
  deriving DecidableEq, Repr

/-! ## The blocks -/

structure TrkSt where
  optics : Sparse Optics := []
  dln : Sparse Dln := []
  act : Sparse Act := []
  deriving DecidableEq, Repr

/-- A bonded GEM payload on its way from delineation to Sheaf: the entry's group and the octets with the shim. -/
structure Bonded where
  group : Nat
  bytes : Bytes
  deriving DecidableEq, Repr

structure ShfSt where
  /-- bonded frames from each channel, oldest first -/
  inbox : Sparse (List Bonded) := []
  /-- the channel FIFO the rotation looks at first (R179) -/
  turn : Nat := 0
  members : Sparse Member := []
  groups : Sparse Group := []
  deriving DecidableEq, Repr

structure GrnSt where
  /-- every DRAM channel is in self-refresh (R475) -/
  selfRefresh : Bool := false
  queues : Sparse Queue := []
  dram : Sparse Dram := []
  /-- channels in training since INIT (R254) -/
  training : Bool := false
  flush : Option Flush := none
  /-- priorities each port's own counts hold in XOFF, by port (R261) -/
  xoff : Sparse Nat := []
  /-- rotation over ACTIVE channels for new external blocks (R256) -/
  rot : Nat := 0
  /-- forced XOFF of every enabled priority (R262) -/
  forced : Bool := false
  deriving DecidableEq, Repr

structure TmsSt where
  meters : Sparse Meter := []
  /-- credit buckets by table key of the node; the peak bucket of a dual-rate node is at key + 1 -/
  buckets : Sparse Bucket := []
  /-- rounds by table key of the node whose children they hold (R272) -/
  rounds : Sparse Round := []
  /-- by table key of a node, the child last served in the committed phase, plus one (R271) -/
  last : Sparse Nat := []
  /-- signed deficits by table key of the node (R272) -/
  deficit : Sparse Int := []
  /-- octets enqueued under each upstream allocation node since the last estimate step (R148) -/
  arrived : Sparse Nat := []
  /-- port node last served, plus one (R270) -/
  portRr : Nat := 0
  /-- ns for which TM's clock has stood still -/
  slept : Nat := 0
  deriving DecidableEq, Repr

structure TimSt where
  now : LTime := {}
  /-- second of the last boundary at which PPS_OUT was due (R348) -/
  pps : Nat := 0
  /-- frequency memory: INC_FRAC that corrects the CLK_SYS rate, once a measurement has completed since PORN (R340) -/
  freqMem : Option Nat := none
  /-- the DPLL has been locked since PORN; the source has been found more than 50 ppm off (R346) -/
  dpllLocked : Bool := false
  offRate : Bool := false
  /-- CLKOUT, and the time in ns until which a change of frequency holds it low (R347) -/
  clkOut : ClkOut := .low
  clkHold : Nat := 0
  tsq : Sparse (List TsEntry) := []
  caps : Sparse (List CapEntry) := []
  /-- latched time per master (R334) -/
  latched : Sparse LTime := []
  /-- slots committed with a TIME already past (R351); levels of EVT_OUT0-3, one bit each -/
  late : List Nat := []
  evtOut : Nat := 0
  /-- of each pin, when a slot last acted on it and which one (R351) -/
  evtBy : Sparse (Nat × Nat) := []
  deriving DecidableEq, Repr

/-- A dealt spread number: whether its task has ended, and the packets returned for it that wait for its turn, with
their queues (R232). -/
structure SpreadNum where
  seq : Nat
  done : Bool := false
  pkts : List (Nat × Pkt) := []
  deriving DecidableEq, Repr

/-- A round-robin spread group: next number, entry served next, numbers outstanding, oldest first. -/
structure SpreadRun where
  next : Nat := 0
  turn : Nat := 0
  out : List SpreadNum := []
  deriving DecidableEq, Repr

/-- A packet that waits within a pipeline with its parse record: parked on flow `flow` (R222), parked behind such a packet
that entered before it (R33), or held because the Tiller or its spread group cannot take it (R218, R232). -/
structure Waiting where
  pipe : Nat
  flow : Nat := 0
  pkt : Pkt
  parse : ParseRec
  /-- the action's entry as it was fetched, and the way and QUEUE of the destination lookup (R204) -/
  entry : Nat := 0
  bridge : Option (Nat × Nat) := none
  /-- the context read has yet to return; the words of the context that applies -/
  needs : Bool := false
  ctx : Option (List Nat) := none
  /-- of a held packet: its task, its spread group when that still has to deal a number -/
  task : Task := {}
  deal : Option Nat := none
  deriving DecidableEq, Repr

/-- A cached flow context record, eight 64-bit words (R220, R222). -/
structure CtxRec where
  flow : Nat
  words : List Nat
  deriving DecidableEq, Repr

/-- A flow context command in progress: an update or read, its flow and mask (R223). -/
structure CtxCmd where
  inval : Bool := false
  flow : Nat := 0
  mask : Nat := 0
  err : Nat := 0
  deriving DecidableEq, Repr

structure ThrSt where
  /-- input FIFOs (R26) by pipeline × 1,024 + source, oldest first -/
  fifos : Sparse (List Pkt) := []
  /-- frames lost to a full trunk, twin or mirror FIFO, by pipeline × 1,024 + source; no register shows them (R26) -/
  drops : Sparse Nat := []
  /-- source served last in each pipeline, plus one (R25) -/
  rr : Sparse Nat := []
  parked : List Waiting := []
  held : List Waiting := []
  /-- TCAM entries whose parity fails (R208) -/
  upset : List Nat := []
  /-- cached flow contexts, most recently used first -/
  cache : List CtxRec := []
  ctxCmd : Option CtxCmd := none
  spreads : Sparse SpreadRun := []
  /-- learning writes made in the millisecond numbered `learnMs` (R228) -/
  learned : Nat := 0
  learnMs : Nat := 0
  deriving DecidableEq, Repr
/-- The gate lists of a port beside their registers (R354-R356). Times are local time in nanoseconds. -/
structure Gate where
  /-- a list is active -/
  running : Bool := false
  /-- start of the active list's present cycle (before second 0 where a step back has left it there), its length, end of
  its present entry -/
  start : Int := 0
  cycle : Nat := 0
  entryEnd : Nat := 0
  /-- BASE and CYCLE as CONFIG_CHANGE took them, and LEN -/
  base : Nat := 0
  newCycle : Nat := 0
  newLen : Nat := 0
  len : Nat := 0
  /-- start of the pending list; none while the clock is FREE -/
  pend : Option Nat := none
  deriving DecidableEq, Repr

/-- A subscriber port beside its registers. -/
structure Port where
  gate : Gate := {}
  /-- the port has had no frame to send for LPI_IDLE (R303) -/
  idle : Bool := false
  /-- a PFC frame with QUANTA waits for the next frame boundary, and priorities whose return to XON it is to tell
  (R288, R301) -/
  pfcDue : Bool := false
  pfcOwed : Nat := 0
  /-- slot packets waiting for the boundary after it, with their circuits (R324) -/
  slotq : List (Nat × Bytes) := []
  /-- cycle from which the MAC takes the next data frame (R288) -/
  nextStart : Nat := 0
  /-- LPI has ended and TW_SYS runs (R303) -/
  waking : Bool := false
  /-- queues whose packets of the entry to STOPPING are to be discarded (R296) -/
  flush : List Nat := []
  /-- received pause timers: end in cycles, by priority (R302) -/
  pause : Sparse Nat := []
  deriving DecidableEq, Repr

/-- A subscriber lane beside its registers. -/
structure Lane where
  /-- calibration of the present start has ended (R289) -/
  anDone : Bool := false
  /-- new mode of a rate-down step, and whether the PHY has been written (R306) -/
  step : Option Nat := none
  stepWritten : Bool := false
  /-- consecutive evaluations that called for a step down (R305) -/
  lows : Nat := 0
  /-- a recalibration waits for a step or a recalibration to end (R309) -/
  recalWaits : Bool := false
  /-- time in ns from which the lane's transmitter takes the next frame (R288), and what it sends beside frames -/
  freeAt : Nat := 0
  tx : LaneTx := .frames
  /-- deficit idle count, and the port that the next turn starts from (R288) -/
  dic : Nat := 0
  rr : Nat := 0
  /-- byte counters of the port at the last evaluation, less what a clear has taken from them since, modulo 2^64:
  received, transmitted (R305) -/
  rdRx : Nat := 0
  rdTx : Nat := 0
  /-- equaliser taps with no software bounds -/
  dfe : List Int := [0, 0, 0, 0]
  /-- offset of the receive slicers (R309) -/
  offset : Int := 0
  /-- remainder of the pattern bits counted -/
  prbsRem : Nat := 0
  deriving DecidableEq, Repr

/-- What an MDIO master is doing (R292, R293, R306). -/
inductive MdioRun | idle | cmd | poll (port : Nat) (entry : Word) | write (lane : Nat)
  deriving DecidableEq, Repr

/-- An MDIO master beside its registers. -/
structure Mdio where
  run : MdioRun := .idle
  /-- a command waits for a poll frame to end, a poll round for a command to end -/
  cmdWaits : Bool := false
  roundWaits : Bool := false
  /-- ports still to poll in this round, with their MDIO_POLL entries as the round began (R313) -/
  left : List (Nat × Word) := []
  /-- ports whose entries are in force: VALID as the last round began -/
  polled : List Nat := []
  /-- rate-down and PHY select writes waiting for the bus: lanes and twin entries -/
  writes : List Nat := []
  deriving DecidableEq, Repr

structure SubSt where
  ports : Sparse Port := []
  lanes : Sparse Lane := []
  mdio : Sparse Mdio := []
  deriving DecidableEq, Repr

/-- A demapped slot frame of one channel: FRAME_NO, and the octets by circuit and place (R326). -/
structure SlotFrame where
  no : Nat
  octets : List (Nat × Nat × Byte)
  deriving DecidableEq, Repr

/-- A slot channel: 0-3 local, 4-7 the twin's (R317, R326, R457). -/
structure SlotCh where
  /-- the last 32 frames demapped, by FRAME_NO mod 32 -/
  store : Sparse (Option SlotFrame) := []
  /-- FRAME_NO and local slot frame (not modulo) of containers accepted of late -/
  seen : List (Nat × Nat) := []
  /-- a container near F_loc was accepted in the present slot frame; frames missed in a row -/
  got : Bool := false
  missing : Nat := 0
  /-- upstream frame served last (its superframe count, plus one); a grant has come in this slot frame -/
  usFrame : Nat := 0
  granted : Bool := false
  /-- the SLOT_US container received last, not yet sent, and its cycle (R457) -/
  twinUs : Option (Nat × Bytes) := none
  deriving DecidableEq, Repr

/-- Labels and defects of one path of a circuit (R327, R328): the last five labels, latest first. -/
structure SlotPath where
  labels : List Nat := []
  uneq : Bool := false
  plm : Bool := false
  deriving DecidableEq, Repr

/-- A circuit beside its entries (R325, R326, R329). -/
structure Circ where
  work : SlotPath := {}
  prot : SlotPath := {}
  /-- path whose failing alone has lasted HOLDOFF -/
  heldOff : Option Nat := none
  /-- playout reference frame, its arrival in ns of local time, frames played since -/
  start : Option (Nat × Nat) := none
  played : Nat := 0
  /-- frames gathered for the next slot packet, whether one was replaced, its SEQ -/
  gather : List Bytes := []
  defect : Bool := false
  seqTx : Nat := 0
  /-- jitter buffer, oldest first; frames are being taken from it; SEQ expected -/
  jitter : List Bytes := []
  running : Bool := false
  expect : Option Nat := none
  /-- the frame taken for the present slot frame -/
  taken : Option (Nat × Bytes) := none
  /-- UNEQ and PLM of the working and of the protection path as last signalled -/
  told : Bool × Bool × Bool × Bool := (false, false, false, false)
  deriving DecidableEq, Repr

/-- A page beside its registers (R320, R321): N, K and PORT of the circuits as captured, entries rejected by the scan
(as downstream and upstream indices), whether it is armed, and its swap frame, not modulo. -/
structure SlotPage where
  caps : Sparse (Nat × Nat × Nat) := []
  badDs : List Nat := []
  badUs : List Nat := []
  armed : Bool := false
  swapAt : Nat := 0
  deriving DecidableEq, Repr

structure SltSt where
  /-- containers from each trunk channel waiting to be demapped, oldest first (R23) -/
  inbox : Sparse (List Bytes) := []
  chans : Sparse SlotCh := []
  circs : Sparse Circ := []
  /-- CIRCUIT entries that a commit of this slot frame has replaced: they stay in force until it ends (R322) -/
  old : Sparse (Option Nat) := []
  pages : Sparse SlotPage := []
  deriving DecidableEq, Repr
/-- A ring's interrupt: write-backs not yet signalled, and the level to the cores (R396). -/
structure RingRun where
  acc : Nat := 0
  level : Bool := false
  deriving DecidableEq, Repr

/-- A mailbox message with its stamp (R401); of one from the twin, the master that posted it there (R456). -/
structure Msg where
  words : List Word
  master : Nat
  mode : Nat
  gen : Nat
  seq : Nat
  orig : Nat := 0
  deriving DecidableEq, Repr

/-- A mailbox channel (R398-R405): messages, posts counted, master ID of the last sender, an empty interrupt held for
a sender in reset. -/
structure Mbx where
  msgs : List Msg := []
  seq : Nat := 0
  sender : Nat := 255
  due : Bool := false
  deriving DecidableEq, Repr

/-- The configuration of the endpoint's one physical function (R389): payload and read request are the largest sizes it
supports, in octets. Nothing of the terminal changes it. -/
structure PciFn where
  deviceId : Nat := 0x4512
  classCode : Nat := 0x028000
  maxPayload : Nat := 512
  maxReadRequest : Nat := 4096
  addr64 : Bool := true
  vectors : Nat := 2048
  bar64 : Bool := true
  barPrefetch : Bool := false
  deriving DecidableEq, Repr

structure CtlSt where
  /-- time in ns of the last watchdog kick, and for how much of the time since JTAG debug has held every core halted, as
  the watchdog's events have told it (R388) -/
  kick : Nat := 0
  haltNs : Nat := 0
  /-- the PCI function as the host enumerates it (R389) -/
  fn : PciFn := {}
  /-- octets in the DMA write FIFO behind port node 512 (R392) -/
  dma : Nat := 0
  /-- rings by direction × 1,024 + number -/
  rings : Sparse RingRun := []
  /-- the PCIe link is up (R390, R391) -/
  link : Bool := false
  /-- MSI-X table by vector × 4 + word: address, upper address, data, and mask in word 3 [0], 1 after reset; vectors
  that are pending (R389) -/
  msix : Sparse Word := []
  msixPend : List Nat := []
  mbx : Sparse Mbx := []
  /-- MBX_STAGE per master: master ID × 8 + word (R399) -/
  stage : Sparse Word := []
  /-- rotating pointers of the hardware locks (R408) -/
  lockPtr : Sparse Nat := []
  /-- console FIFOs and the writes stalled at a full transmit FIFO, oldest first (R539) -/
  uartTx : Bytes := []
  uartRx : Bytes := []
  uartWait : Bytes := []
  deriving DecidableEq, Repr
/-- OTP fuses (spec/16): they survive every reset. A part as the model takes it is blank (log entry 41). -/
structure Fuses where
  lifecycle : Nat := 0
  serial : Bytes := List.replicate 8 0
  /-- digests by slot; an unlisted slot is empty -/
  rsaDigest : Sparse Bytes := []
  slhDigest : Sparse Bytes := []
  /-- bits 0-3 RSA slots, 4-7 SLH-DSA slots -/
  revoked : Nat := 0
  svn : Nat := 0
  /-- the unique device secret, and the wrapped RSA identity key; an unlisted octet is 0 -/
  uds : Sparse Byte := []
  rsaWrap : Sparse Byte := []
  deriving DecidableEq, Repr

/-- What Husk is doing: held (PORN), choosing and checking an image, applying one, HALT, or handed off. -/
inductive BootPhase | held | boot | apply | halt | run
  deriving DecidableEq, Repr

structure HskSt where
  fuses : Fuses := {}
  phase : BootPhase := .boot
  /-- cycle of the start of this boot -/
  start : Nat := 0
  /-- slots still to try, once the headers have been read; the first choice and the newer slot (R494) -/
  left : Option (List Nat) := none
  first : Option Nat := none
  newer : Option Nat := none
  /-- slot of the image in hand, the image, whether keys verified it -/
  slot : Nat := 0
  image : Bytes := []
  signed : Bool := false
  /-- record to run next; of a WAIT, cycle it began and whether its last poll held -/
  next : Nat := 0
  wait : Option Bool := none
  /-- staging window as the host wrote it, IMAGE_LEN of the load under way; the last image was accepted, its BOOT_RESULT
  (R497) -/
  staging : Sparse Byte := []
  load : Option Nat := none
  loaded : Bool := false
  lastLoad : Nat := 0
  /-- octets of the recovery image received (R498) -/
  xmodem : Bytes := []
  /-- measurement registers (R423) -/
  meas : Sparse Bytes := []
  /-- status of the running command (R418), and SVN bits it still has to program (R414) -/
  cmd : Option Nat := none
  svnLeft : Nat := 0
  /-- the control cores have been released, at this address (R415, R499) -/
  cores : Option Nat := none
  /-- size of the flash in octets and whether it runs in octal DDR, as SFDP told (R487) -/
  flash : Option (Nat × Bool) := none
  deriving DecidableEq, Repr
/-- A check-value operation in progress, with what it will leave (R434). -/
structure CveRun where
  op : Nat := 0
  slot : Nat := 0
  dst : Nat := 0
  tagLen : Nat := 0
  result : Nat := 0
  mac : Bytes := []
  secureOnly : Bool := false
  deriving DecidableEq, Repr

structure CipSt where
  cve : Option CveRun := none
  /-- shadow entries of CVE_KEY slots, as 512-bit values (R435) -/
  shadows : Sparse Nat := []
  /-- transmit associations whose last PN has been used, by table index (R429) -/
  spent : List Nat := []
  /-- SAs that have signalled their soft point since they were loaded (R429) -/
  soft : List Nat := []
  /-- frames of each secure entity whose integrity check has failed and is not yet reported (R308) -/
  icvDue : Sparse Nat := []
  /-- zeroisation runs (R436) -/
  zeroising : Bool := false
  deriving DecidableEq, Repr
/-- A MIRROR record (R458). -/
structure MirRec where
  kind : Nat := 0
  block : Nat := 0
  seg : Nat := 0
  table : Nat := 0
  inst : Nat := 0
  index : Nat := 0
  data : List Word := []
  deriving DecidableEq, Repr

/-- A data frame of the twin link (R451). -/
inductive TwinData
  | port (p : Pkt)
  | dsPort (port : Nat) (p : Pkt)
  | usQueue (queue : Nat) (p : Pkt)
  deriving DecidableEq, Repr

/-- A mailbox frame of the twin link: a channel's head message, or a result with its status (R456). -/
inductive TwinMbx
  | message (ch : Nat) (m : Msg)
  | result (ch status : Nat)
  deriving DecidableEq, Repr

structure TwnSt where
  /-- data frames in the transmit FIFO, in order of entry; type sent last, plus one -/
  data : List TwinData := []
  turn : Nat := 0
  /-- containers to send: downstream, channel, octets -/
  slots : List (Bool × Nat × Bytes) := []
  mbx : List TwinMbx := []
  /-- channels whose head message has been forwarded and not answered; those told FULL -/
  sent : List Nat := []
  full : List Nat := []
  /-- generations the heartbeat last reported, by domain -/
  peerGen : Sparse Nat := []
  /-- consecutive misses; BEAT_SEQ; GEN_DOM; command the next heartbeat carries -/
  misses : Nat := 0
  seq : Nat := 0
  genDom : Nat := 0
  cmd : Nat := 0
  /-- the present claim is a handover claim -/
  handover : Bool := false
  /-- its contention window has ended with TWN_ACT_IN high -/
  windowOver : Bool := false
  /-- a YIELDING twin forwards to its peer; DRAIN is over -/
  forward : Bool := false
  drained : Bool := false
  /-- mapped upstream queue served last under REDIRECT, plus one -/
  redirRr : Nat := 0
  /-- lanes are in electrical idle; logical lane of the next block of a frame (R447) -/
  idle : Bool := false
  lane : Nat := 0
  /-- since SWEEP_START nothing has been lost or refused -/
  clean : Bool := false
  /-- MIRROR records to send, oldest first, and whether one has been lost since room last returned (R460) -/
  mirror : List MirRec := []
  mirrorLost : Bool := false
  /-- a sweep: the table, entry and segment it sends next (tables of `sweepTables`, flow contexts after the last), and
  whether SWEEP_START has been sent; octets sent in all and for the sweep since it began -/
  sweep : Option (Nat × Nat × Nat) := none
  sweepBegun : Bool := false
  octets : Nat := 0
  sweepOctets : Nat := 0
  deriving DecidableEq, Repr

/-- The power controller beside its registers (spec/18). -/
structure PwrSt where
  /-- domains woken by an access (R481) -/
  woken : List Nat := []
  /-- domains whose functions the controller holds off (R475) -/
  held : List Nat := []
  /-- domains still to stop, the one being stopped first; those stopped by this request, latest first; those still to
  restart, in order (R475, R477, R480) -/
  todo : List Nat := []
  stopped : List Nat := []
  restart : List Nat := []
  /-- state the change under way leads to; refusal that aborts it: refuser and reason (R477) -/
  target : Nat := 0
  refusal : Option (Nat × Nat) := none
  /-- TRK domains whose channel a request has sent to watchful sleep and that have not been restarted since (R477, R480) -/
  watched : List Nat := []
  /-- domains whose bit of PWR_TRIM_MASK has changed while another change ran (R473) -/
  trimDue : List Nat := []
  /-- the channel of REST_CH has been in WATCH since the request (R479) -/
  restWatch : Bool := false
  /-- the core voltage stands above VMAX since VREQ did (R483) -/
  vOver : Bool := false
  /-- consecutive samples at 115 °C or above, by sensor (R484) -/
  hot : Sparse Nat := []
  /-- TEMP_ALERT_N is asserted; a thermal trip is in force (R484) -/
  alert : Bool := false
  trip : Bool := false
  deriving DecidableEq, Repr

/-- A performance object beside its bins (R510-R513, R517): the present second's uncorrectable codewords and frames
played as 0xFF, what has held at some point of it, the bins' SUSPECT, and the open bandwidth window. -/
structure PmObj where
  uncorr : Nat := 0
  ff : Nat := 0
  lof : Bool := false
  unavail : Bool := false
  err : Bool := false
  down : Bool := false
  suspect15 : Bool := false
  suspect24 : Bool := false
  rxBytes : Nat := 0
  txBytes : Nat := 0
  rxFrames : Nat := 0
  txFrames : Nat := 0
  deriving DecidableEq, Repr

/-- Records of a close to be written: SEQ, and each record's offset in the region with its words, word 0 first (R515). -/
structure PmClose where
  seq : Nat
  records : List (Nat × List Word)
  deriving DecidableEq, Repr

structure PmSt where
  /-- events the command in hand has counted for the bins: object, kind, number (empty between commands) -/
  notes : List (Nat × Nat × Nat) := []
  objs : Sparse PmObj := []
  /-- interval and day of the current bins, once a second has been closed (R512) -/
  cur15 : Option Nat := none
  cur24 : Option Nat := none
  close15 : Option PmClose := none
  close24 : Option PmClose := none
  /-- crossings raised in the current bins: object, 0 or 1 for the bin, word (R513) -/
  tca : List (Nat × Nat × Nat) := []
  /-- the log, oldest first: four words an entry (R509) -/
  log : List (List Word) := []
  /-- samples in a row that contradict an alarm's state (R506) -/
  soak : Sparse Nat := []
  deriving DecidableEq, Repr
/-- States of the test access port (R520; IEEE 1149.1). -/
inductive Tap
  | reset | idle | selDr | capDr | shiftDr | exit1Dr | pauseDr | exit2Dr | updDr
  | selIr | capIr | shiftIr | exit1Ir | pauseIr | exit2Ir | updIr
  deriving DecidableEq, Repr

/-- SPI_RESET_N: high impedance before Husk starts, low until a time in ns, then high (R528). -/
inductive SpiReset | hiz | low (until_ : Nat) | high
  deriving DecidableEq, Repr

/-- Supplies and pins the machine of resets watches (spec/21, spec/22). -/
structure PinSt where
  /-- PORN and PERST_N are high -/
  porn : Bool := true
  perst : Bool := true
  /-- VIN counts as good; VKEEP is present -/
  vin : Bool := true
  vkeep : Bool := true
  /-- SPI_RESET_N; Husk has just begun to drive it low (R528) -/
  spi : SpiReset := .low 10000
  /-- TRST_N is low through its pull-down, so that the test access port stays in reset (R520, spec/21) -/
  tap : Tap := .reset
  deriving DecidableEq, Repr

/-- What the AON domain holds beside the GLB and PWR registers. -/
structure AonSt where
  /-- head-end disable per channel, one bit each (R84) -/
  heDisable : Nat := 0
  /-- time kept while TIM is off, in RET or in reset (R336) -/
  time : LTime := {}
  /-- register writes on their way to the AON logic, oldest first (R34) -/
  writes : List (Nat × Word) := []
  /-- generations of the domains (R401) -/
  gens : Sparse Nat := []
  /-- what the AON logic holds of its registers, by address -/
  arrived : Sparse Word := []
  deriving DecidableEq, Repr

end Sys2Proof.Machine
end

