-- ==== Sys2Proof/Machine/State.lean ====
section
/-!
DEFINITION. The state of the terminal: every register (as words at their addresses), every table behind a gate,
the external memory window, and what the spec gives the blocks beside them. Plain data.
-/
namespace Sys2Proof.Machine

/-- Why a run stops. No meaning of this model raises it: every command of the table has an effect the spec gives
(NOTES.md, "Stops"). It is there because the interface asks for the type; safe. -/
inductive Fault
  /-- never raised; safe -/
  | none
  deriving DecidableEq, Repr

/-- Why a command has no meaning. -/
inductive Refusal
  /-- raised by an arm of exec whose command has no meaning yet; safe (the run stops) -/
  | notModelled (mnemonic : String)
  deriving DecidableEq, Repr

/-- A write to external memory: octets at an offset of the window, or into the buffer whose 64-bit address the
descriptor at offset `desc` holds (R391). -/
inductive MemW
  | put (off : Nat) (bytes : Bytes)
  | via (desc : Nat) (bytes : Bytes)
  deriving DecidableEq, Repr

/-- The terminal apart from its external memory and the command queue. Registers that are only views of other state
(levels, summary bits, pin levels) are computed when they are read; every other register has its one home in `regs`. -/
structure Hw where
  /-- register words by address; an unlisted address reads as its reset value -/
  regs : Sparse Word := []
  /-- table words by key (gate, table, entry, word); an unlisted key reads as its reset value -/
  tabs : Sparse Word := []
  /-- configuration captured at STARTING, by register address (R61) -/
  cap : Sparse Word := []
  /-- hi-half latches by master class (R50) -/
  latch : Sparse Word := []
  /-- running gate commands by gate number (R52, R53) -/
  gates : Sparse GateRun := []
  trk : TrkSt := {}
  shf : ShfSt := {}
  grn : GrnSt := {}
  tms : TmsSt := {}
  thr : ThrSt := {}
  sub : SubSt := {}
  slt : SltSt := {}
  tim : TimSt := {}
  til : TilSt := {}
  ctl : CtlSt := {}
  hsk : HskSt := {}
  cip : CipSt := {}
  twn : TwnSt := {}
  pwr : PwrSt := {}
  pm : PmSt := {}
  pins : PinSt := {}
  aon : AonSt := {}
  /-- packets, messages and descriptors that resets of each domain have discarded, as its neighbours count them; the spec
  names no register for it (R64; log entry 131) -/
  resetLost : Sparse Nat := []
  /-- frames and bursts discarded in a crossing FIFO, by base of the receiving block; the spec names no register for
  them (R36) -/
  crossLost : Sparse Nat := []
  /-- 64-byte lines of the external memory rewritten since their channel failed (R259) -/
  clean : List Nat := []
  /-- what the command in hand writes to external memory, latest first; `State.finish` carries it out, so it is
  empty between commands (the model's own) -/
  wlog : List MemW := []
  /-- datapath cycles since reset (1 ns each), the model's own clock -/
  clk : Nat := 0
  /-- free values drawn so far (the model's own; log entry 3) -/
  freeCtr : Nat := 0
  /-- the word the last read returned (the model's own) -/
  rdata : Word := 0
  /-- the octets the last data access of an engine returned (the model's own) -/
  edata : Bytes := []
  /-- what has left the terminal, latest first (the model's own) -/
  outs : List Out := []
  deriving DecidableEq, Repr

/-- What a byte of external memory that nothing has written reads as. The spec gives memory no content at reset; the
model takes zero (log entry 21). -/
abbrev memDefault : Byte := 0#8

/-- The canonical form of the external memory: addresses strictly rising, no byte equal to `memDefault`. -/
def Memory.wf (m : List Host.Cell) : Bool := Sparse.wf (fun _ => memDefault) m

/-- The whole state: the terminal's logic, its external memory, and the commands waiting. -/
structure State where
  hw : Hw := {}
  /-- bytes of the external memory window by offset (R45) -/
  mem : List Host.Cell := []
  /-- commands waiting, first in first out -/
  pending : List Instr := []
  deriving DecidableEq, Repr

/-- The terminal right after reset: registers and tables at their reset values, nothing held anywhere. -/
def State.reset : State := {}

end Sys2Proof.Machine
end

