-- ==== Sys2Proof/Machine/TabMap.lean ====
section
/-!
DEFINITION. The tables behind the gates (R52): `TABLE.FIELD` is the place of an entry field, `tables` lists every table
of a gate with its size, width, writability and fields. Gates are numbered 0-3 for TRK channels, then SHF, THR, GRN,
TMS, SRD, SLT, TIM, CTL, CIP, TWN, PM, 16 + p for port p, 590 for TIL and
600 + e for engine e, CMEM of a cluster behind its first engine (the numbering is the model's own).
-/
namespace Sys2Proof.Machine

/-- Key of word `w` of entry `idx` of table `id` behind gate `g`. -/
abbrev tabKey (g id idx w : Nat) : Nat := ((g * 32 + id) * 1048576 + idx) * 64 + w

/-- First word of entry `x` of ALLOC_OWN (table 1 of gate trk). -/
abbrev ALLOC_OWN.E (c x : Nat) : Nat := tabKey c 1 x 0
abbrev ALLOC_OWN.VALID (c x : Nat) : TRef := ⟨ALLOC_OWN.E c x, 0, 1⟩
abbrev ALLOC_OWN.ALLOC_ID (c x : Nat) : TRef := ⟨ALLOC_OWN.E c x, 1, 14⟩
abbrev ALLOC_OWN.ACTIVATION (c x : Nat) : TRef := ⟨ALLOC_OWN.E c x, 15, 1⟩
abbrev ALLOC_OWN.NODE (c x : Nat) : TRef := ⟨ALLOC_OWN.E c x, 16, 12⟩
/-- First word of entry `x` of GEM_PORT (table 2 of gate trk). -/
abbrev GEM_PORT.E (c x : Nat) : Nat := tabKey c 2 x 0
abbrev GEM_PORT.VALID (c x : Nat) : TRef := ⟨GEM_PORT.E c x, 0, 1⟩
abbrev GEM_PORT.PORT_ID (c x : Nat) : TRef := ⟨GEM_PORT.E c x, 1, 16⟩
abbrev GEM_PORT.ENC_REQ (c x : Nat) : TRef := ⟨GEM_PORT.E c x, 17, 1⟩
abbrev GEM_PORT.MCAST (c x : Nat) : TRef := ⟨GEM_PORT.E c x, 18, 1⟩
abbrev GEM_PORT.BONDED (c x : Nat) : TRef := ⟨GEM_PORT.E c x, 19, 1⟩
abbrev GEM_PORT.GROUP (c x : Nat) : TRef := ⟨GEM_PORT.E c x, 20, 4⟩
abbrev GEM_PORT.DEST (c x : Nat) : TRef := ⟨GEM_PORT.E c x, 24, 2⟩
/-- First word of entry `x` of PLOAM_RXQ (table 3 of gate trk). -/
abbrev PLOAM_RXQ.E (c x : Nat) : Nat := tabKey c 3 x 0
abbrev PLOAM_RXQ.MSG (c x : Nat) : TRef := ⟨PLOAM_RXQ.E c x, 0, 384⟩
/-- First word of entry `x` of BURST_PROFILE (table 4 of gate trk). -/
abbrev BURST_PROFILE.E (c x : Nat) : Nat := tabKey c 4 x 0
abbrev BURST_PROFILE.VALID (c x : Nat) : TRef := ⟨BURST_PROFILE.E c x, 0, 1⟩
abbrev BURST_PROFILE.FEC_EN (c x : Nat) : TRef := ⟨BURST_PROFILE.E c x, 1, 1⟩
abbrev BURST_PROFILE.PRE_REPEAT (c x : Nat) : TRef := ⟨BURST_PROFILE.E c x, 8, 8⟩
abbrev BURST_PROFILE.PRE_LEN (c x : Nat) : TRef := ⟨BURST_PROFILE.E c x, 16, 4⟩
abbrev BURST_PROFILE.DELIM_LEN (c x : Nat) : TRef := ⟨BURST_PROFILE.E c x, 20, 4⟩
abbrev BURST_PROFILE.PREAMBLE (c x : Nat) : TRef := ⟨BURST_PROFILE.E c x, 32, 64⟩
abbrev BURST_PROFILE.DELIMITER (c x : Nat) : TRef := ⟨BURST_PROFILE.E c x, 96, 64⟩
/-- First word of entry `x` of LA_ALLOC (table 5 of gate trk). -/
abbrev LA_ALLOC.E (c x : Nat) : Nat := tabKey c 5 x 0
abbrev LA_ALLOC.LA_EN (c x : Nat) : TRef := ⟨LA_ALLOC.E c x, 0, 1⟩
abbrev LA_ALLOC.LA_FLOOR (c x : Nat) : TRef := ⟨LA_ALLOC.E c x, 8, 24⟩
abbrev LA_ALLOC.LA_CEIL (c x : Nat) : TRef := ⟨LA_ALLOC.E c x, 40, 24⟩
abbrev LA_ALLOC.RATE_EST (c x : Nat) : TRef := ⟨LA_ALLOC.E c x, 64, 32⟩
/-- First word of entry `x` of US_GEM (table 6 of gate trk). -/
abbrev US_GEM.E (c x : Nat) : Nat := tabKey c 6 x 0
abbrev US_GEM.VALID (c x : Nat) : TRef := ⟨US_GEM.E c x, 0, 1⟩
abbrev US_GEM.PORT_ID (c x : Nat) : TRef := ⟨US_GEM.E c x, 1, 16⟩
abbrev US_GEM.ENC (c x : Nat) : TRef := ⟨US_GEM.E c x, 17, 1⟩
/-- First word of entry `x` of PLOAM_TXQ (table 7 of gate trk). -/
abbrev PLOAM_TXQ.E (c x : Nat) : Nat := tabKey c 7 x 0
abbrev PLOAM_TXQ.MSG (c x : Nat) : TRef := ⟨PLOAM_TXQ.E c x, 0, 384⟩
/-- First word of entry `x` of MEMBER_MAP (table 1 of gate shf). -/
abbrev MEMBER_MAP.E (x : Nat) : Nat := tabKey 4 1 x 0
abbrev MEMBER_MAP.CHANNEL (x : Nat) : TRef := ⟨MEMBER_MAP.E x, 0, 2⟩
/-- First word of entry `x` of MEMBER_MAP_EFF (table 2 of gate shf). -/
abbrev MEMBER_MAP_EFF.E (x : Nat) : Nat := tabKey 4 2 x 0
abbrev MEMBER_MAP_EFF.CHANNEL (x : Nat) : TRef := ⟨MEMBER_MAP_EFF.E x, 0, 2⟩
/-- First word of entry `x` of PRS_NODE (table 1 of gate thr). -/
abbrev PRS_NODE.E (i x : Nat) : Nat := tabKey 5 (1 + 4 * i) x 0
abbrev PRS_NODE.VALID (i x : Nat) : TRef := ⟨PRS_NODE.E i x, 0, 1⟩
abbrev PRS_NODE.LEN_MODE (i x : Nat) : TRef := ⟨PRS_NODE.E i x, 1, 1⟩
abbrev PRS_NODE.NXT_MODE (i x : Nat) : TRef := ⟨PRS_NODE.E i x, 2, 2⟩
abbrev PRS_NODE.LAYER (i x : Nat) : TRef := ⟨PRS_NODE.E i x, 4, 2⟩
abbrev PRS_NODE.TUNNEL (i x : Nat) : TRef := ⟨PRS_NODE.E i x, 6, 1⟩
abbrev PRS_NODE.FIXED_LEN (i x : Nat) : TRef := ⟨PRS_NODE.E i x, 8, 8⟩
abbrev PRS_NODE.NXT_NODE (i x : Nat) : TRef := ⟨PRS_NODE.E i x, 16, 6⟩
abbrev PRS_NODE.LEN_OFF (i x : Nat) : TRef := ⟨PRS_NODE.E i x, 32, 6⟩
abbrev PRS_NODE.LEN_SHIFT (i x : Nat) : TRef := ⟨PRS_NODE.E i x, 40, 4⟩
abbrev PRS_NODE.LEN_MULT (i x : Nat) : TRef := ⟨PRS_NODE.E i x, 44, 2⟩
abbrev PRS_NODE.LEN_MASK (i x : Nat) : TRef := ⟨PRS_NODE.E i x, 48, 16⟩
abbrev PRS_NODE.LEN_ADD (i x : Nat) : TRef := ⟨PRS_NODE.E i x, 64, 8⟩
abbrev PRS_NODE.MIN_LEN (i x : Nat) : TRef := ⟨PRS_NODE.E i x, 72, 8⟩
abbrev PRS_NODE.MAX_LEN (i x : Nat) : TRef := ⟨PRS_NODE.E i x, 80, 8⟩
abbrev PRS_NODE.NXT_OFF (i x : Nat) : TRef := ⟨PRS_NODE.E i x, 96, 6⟩
abbrev PRS_NODE.NXT_WIDTH (i x : Nat) : TRef := ⟨PRS_NODE.E i x, 104, 1⟩
abbrev PRS_NODE.EXT_EN (i x : Nat) : TRef := ⟨PRS_NODE.E i x, 105, 1⟩
abbrev PRS_NODE.EXT_SLOT (i x : Nat) : TRef := ⟨PRS_NODE.E i x, 106, 2⟩
abbrev PRS_NODE.EXT_OFF (i x : Nat) : TRef := ⟨PRS_NODE.E i x, 112, 6⟩
/-- First word of entry `x` of PRS_LINK (table 2 of gate thr). -/
abbrev PRS_LINK.E (i x : Nat) : Nat := tabKey 5 (2 + 4 * i) x 0
abbrev PRS_LINK.VALID (i x : Nat) : TRef := ⟨PRS_LINK.E i x, 0, 1⟩
abbrev PRS_LINK.PARENT (i x : Nat) : TRef := ⟨PRS_LINK.E i x, 1, 6⟩
abbrev PRS_LINK.CHILD (i x : Nat) : TRef := ⟨PRS_LINK.E i x, 8, 6⟩
abbrev PRS_LINK.VALUE (i x : Nat) : TRef := ⟨PRS_LINK.E i x, 32, 16⟩
abbrev PRS_LINK.MASK (i x : Nat) : TRef := ⟨PRS_LINK.E i x, 48, 16⟩
/-- First word of entry `x` of PRS_START (table 3 of gate thr). -/
abbrev PRS_START.E (i x : Nat) : Nat := tabKey 5 (3 + 4 * i) x 0
abbrev PRS_START.START_NODE (i x : Nat) : TRef := ⟨PRS_START.E i x, 0, 6⟩
/-- First word of entry `x` of CHAFF_ACT (table 4 of gate thr). -/
abbrev CHAFF_ACT.E (i x : Nat) : Nat := tabKey 5 (4 + 4 * i) x 0
abbrev CHAFF_ACT.ACTION (i x : Nat) : TRef := ⟨CHAFF_ACT.E i x, 0, 2⟩
abbrev CHAFF_ACT.INT_EN (i x : Nat) : TRef := ⟨CHAFF_ACT.E i x, 2, 1⟩
/-- First word of entry `x` of TCAM (table 9 of gate thr). -/
abbrev TCAM.E (x : Nat) : Nat := tabKey 5 9 x 0
abbrev TCAM.CTRL (x : Nat) : TRef := ⟨TCAM.E x, 0, 32⟩
abbrev TCAM.BODY (x : Nat) : TRef := ⟨TCAM.E x, 32, 1504⟩
/-- First word of entry `x` of ACTION (table 10 of gate thr). -/
abbrev ACTION.E (x : Nat) : Nat := tabKey 5 10 x 0
abbrev ACTION.FWD (x : Nat) : TRef := ⟨ACTION.E x, 0, 3⟩
abbrev ACTION.COPY_EN (x : Nat) : TRef := ⟨ACTION.E x, 3, 1⟩
abbrev ACTION.MIRROR_EN (x : Nat) : TRef := ⟨ACTION.E x, 4, 1⟩
abbrev ACTION.METER_EN (x : Nat) : TRef := ⟨ACTION.E x, 5, 1⟩
abbrev ACTION.TC_SET (x : Nat) : TRef := ⟨ACTION.E x, 6, 1⟩
abbrev ACTION.TC (x : Nat) : TRef := ⟨ACTION.E x, 7, 3⟩
abbrev ACTION.FLOW_MODE (x : Nat) : TRef := ⟨ACTION.E x, 10, 2⟩
abbrev ACTION.MIRROR_SES (x : Nat) : TRef := ⟨ACTION.E x, 12, 4⟩
abbrev ACTION.COPY_RING (x : Nat) : TRef := ⟨ACTION.E x, 16, 10⟩
abbrev ACTION.SPREAD (x : Nat) : TRef := ⟨ACTION.E x, 26, 6⟩
abbrev ACTION.QUEUE (x : Nat) : TRef := ⟨ACTION.E x, 32, 18⟩
abbrev ACTION.METER (x : Nat) : TRef := ⟨ACTION.E x, 64, 17⟩
abbrev ACTION.MOD_PROF (x : Nat) : TRef := ⟨ACTION.E x, 88, 8⟩
abbrev ACTION.MOD_DATA (x : Nat) : TRef := ⟨ACTION.E x, 96, 32⟩
abbrev ACTION.FLOW_ID (x : Nat) : TRef := ⟨ACTION.E x, 128, 20⟩
abbrev ACTION.FLOW_MASK (x : Nat) : TRef := ⟨ACTION.E x, 160, 20⟩
abbrev ACTION.TASK_TYPE (x : Nat) : TRef := ⟨ACTION.E x, 192, 12⟩
abbrev ACTION.TASK_PRIO (x : Nat) : TRef := ⟨ACTION.E x, 204, 3⟩
abbrev ACTION.TASK_ENGINE (x : Nat) : TRef := ⟨ACTION.E x, 208, 6⟩
abbrev ACTION.TASK_ANY (x : Nat) : TRef := ⟨ACTION.E x, 214, 1⟩
abbrev ACTION.TASK_ARG (x : Nat) : TRef := ⟨ACTION.E x, 224, 32⟩
/-- First word of entry `x` of KEY_PROFILE (table 11 of gate thr). -/
abbrev KEY_PROFILE.E (i x : Nat) : Nat := tabKey 5 (11 + 1 * i) x 0
abbrev KEY_PROFILE.DESC (i x : Nat) : TRef := ⟨KEY_PROFILE.E i x, 0, 320⟩
/-- First word of entry `x` of CLS_SRC (table 13 of gate thr). -/
abbrev CLS_SRC.E (x : Nat) : Nat := tabKey 5 13 x 0
abbrev CLS_SRC.PROFILE (x : Nat) : TRef := ⟨CLS_SRC.E x, 0, 4⟩
abbrev CLS_SRC.FID_MODE (x : Nat) : TRef := ⟨CLS_SRC.E x, 4, 2⟩
abbrev CLS_SRC.LEARN (x : Nat) : TRef := ⟨CLS_SRC.E x, 6, 2⟩
abbrev CLS_SRC.FID (x : Nat) : TRef := ⟨CLS_SRC.E x, 8, 12⟩
abbrev CLS_SRC.DEFAULT_ACT (x : Nat) : TRef := ⟨CLS_SRC.E x, 32, 16⟩
abbrev CLS_SRC.SRC_TAG (x : Nat) : TRef := ⟨CLS_SRC.E x, 48, 16⟩
abbrev CLS_SRC.LEARN_Q (x : Nat) : TRef := ⟨CLS_SRC.E x, 64, 18⟩
abbrev CLS_SRC.LEARN_RING (x : Nat) : TRef := ⟨CLS_SRC.E x, 82, 10⟩
abbrev CLS_SRC.HASH_SEL (x : Nat) : TRef := ⟨CLS_SRC.E x, 96, 7⟩
abbrev CLS_SRC.HASH_INNER (x : Nat) : TRef := ⟨CLS_SRC.E x, 103, 1⟩
/-- First word of entry `x` of BRIDGE (table 14 of gate thr). -/
abbrev BRIDGE.E (x : Nat) : Nat := tabKey 5 14 x 0
abbrev BRIDGE.VALID (x : Nat) : TRef := ⟨BRIDGE.E x, 0, 1⟩
abbrev BRIDGE.STATIC (x : Nat) : TRef := ⟨BRIDGE.E x, 1, 1⟩
abbrev BRIDGE.HIT (x : Nat) : TRef := ⟨BRIDGE.E x, 2, 1⟩
abbrev BRIDGE.FID (x : Nat) : TRef := ⟨BRIDGE.E x, 4, 12⟩
abbrev BRIDGE.SRC (x : Nat) : TRef := ⟨BRIDGE.E x, 16, 10⟩
abbrev BRIDGE.MAC_LO (x : Nat) : TRef := ⟨BRIDGE.E x, 32, 32⟩
abbrev BRIDGE.MAC_HI (x : Nat) : TRef := ⟨BRIDGE.E x, 64, 16⟩
abbrev BRIDGE.QUEUE (x : Nat) : TRef := ⟨BRIDGE.E x, 96, 18⟩
/-- First word of entry `x` of SPREAD (table 15 of gate thr). -/
abbrev SPREAD.E (x : Nat) : Nat := tabKey 5 15 x 0
abbrev SPREAD.VALID (x : Nat) : TRef := ⟨SPREAD.E x, 0, 1⟩
abbrev SPREAD.MODE (x : Nat) : TRef := ⟨SPREAD.E x, 1, 1⟩
abbrev SPREAD.HASH_FN (x : Nat) : TRef := ⟨SPREAD.E x, 2, 1⟩
abbrev SPREAD.TARGET (x : Nat) : TRef := ⟨SPREAD.E x, 3, 1⟩
abbrev SPREAD.HASH_SEL (x : Nat) : TRef := ⟨SPREAD.E x, 4, 7⟩
abbrev SPREAD.HASH_INNER (x : Nat) : TRef := ⟨SPREAD.E x, 11, 1⟩
abbrev SPREAD.RR_TIMEOUT (x : Nat) : TRef := ⟨SPREAD.E x, 32, 14⟩
abbrev SPREAD.RR_WINDOW (x : Nat) : TRef := ⟨SPREAD.E x, 48, 11⟩
abbrev SPREAD.TOEPLITZ_KEY (x : Nat) : TRef := ⟨SPREAD.E x, 128, 320⟩
/-- First word of entry `x` of SPREAD_IND (table 16 of gate thr). -/
abbrev SPREAD_IND.E (x : Nat) : Nat := tabKey 5 16 x 0
abbrev SPREAD_IND.VALID (x : Nat) : TRef := ⟨SPREAD_IND.E x, 0, 1⟩
abbrev SPREAD_IND.QUEUE (x : Nat) : TRef := ⟨SPREAD_IND.E x, 1, 18⟩
abbrev SPREAD_IND.ENGINE (x : Nat) : TRef := ⟨SPREAD_IND.E x, 19, 6⟩
abbrev SPREAD_IND.ANY (x : Nat) : TRef := ⟨SPREAD_IND.E x, 25, 1⟩
/-- First word of entry `x` of MODIFY (table 17 of gate thr). -/
abbrev MODIFY.E (x : Nat) : Nat := tabKey 5 17 x 0
abbrev MODIFY.POP (x : Nat) : TRef := ⟨MODIFY.E x, 0, 2⟩
abbrev MODIFY.PUSH (x : Nat) : TRef := ⟨MODIFY.E x, 2, 2⟩
abbrev MODIFY.SET_VID (x : Nat) : TRef := ⟨MODIFY.E x, 4, 1⟩
abbrev MODIFY.SET_PCP (x : Nat) : TRef := ⟨MODIFY.E x, 5, 1⟩
abbrev MODIFY.SET_DSCP (x : Nat) : TRef := ⟨MODIFY.E x, 6, 1⟩
abbrev MODIFY.DEC_TTL (x : Nat) : TRef := ⟨MODIFY.E x, 7, 1⟩
abbrev MODIFY.TPID (x : Nat) : TRef := ⟨MODIFY.E x, 16, 16⟩
abbrev MODIFY.DSCP (x : Nat) : TRef := ⟨MODIFY.E x, 32, 6⟩
/-- First word of entry `x` of MIRROR (table 18 of gate thr). -/
abbrev MIRROR.E (x : Nat) : Nat := tabKey 5 18 x 0
abbrev MIRROR.DEST_Q (x : Nat) : TRef := ⟨MIRROR.E x, 0, 18⟩
abbrev MIRROR.LOOP (x : Nat) : TRef := ⟨MIRROR.E x, 18, 1⟩
abbrev MIRROR.TRUNC (x : Nat) : TRef := ⟨MIRROR.E x, 24, 8⟩
/-- First word of entry `x` of QUEUE_CFG (table 1 of gate grn). -/
abbrev QUEUE_CFG.E (x : Nat) : Nat := tabKey 6 1 x 0
abbrev QUEUE_CFG.VALID (x : Nat) : TRef := ⟨QUEUE_CFG.E x, 0, 1⟩
abbrev QUEUE_CFG.SPILL_EN (x : Nat) : TRef := ⟨QUEUE_CFG.E x, 1, 1⟩
abbrev QUEUE_CFG.DROP_PROF (x : Nat) : TRef := ⟨QUEUE_CFG.E x, 8, 8⟩
abbrev QUEUE_CFG.MIN_CELLS (x : Nat) : TRef := ⟨QUEUE_CFG.E x, 16, 16⟩
abbrev QUEUE_CFG.SPILL_TH (x : Nat) : TRef := ⟨QUEUE_CFG.E x, 32, 19⟩
abbrev QUEUE_CFG.REFILL_TH (x : Nat) : TRef := ⟨QUEUE_CFG.E x, 64, 19⟩
abbrev QUEUE_CFG.MAX_4K (x : Nat) : TRef := ⟨QUEUE_CFG.E x, 96, 24⟩
/-- First word of entry `x` of QUEUE_STATE (table 2 of gate grn). -/
abbrev QUEUE_STATE.E (x : Nat) : Nat := tabKey 6 2 x 0
abbrev QUEUE_STATE.ONCHIP_CELLS (x : Nat) : TRef := ⟨QUEUE_STATE.E x, 0, 19⟩
abbrev QUEUE_STATE.SPILL_MODE (x : Nat) : TRef := ⟨QUEUE_STATE.E x, 19, 1⟩
abbrev QUEUE_STATE.BYTES (x : Nat) : TRef := ⟨QUEUE_STATE.E x, 32, 32⟩
abbrev QUEUE_STATE.AVG (x : Nat) : TRef := ⟨QUEUE_STATE.E x, 64, 32⟩
abbrev QUEUE_STATE.PKTS (x : Nat) : TRef := ⟨QUEUE_STATE.E x, 96, 32⟩
/-- First word of entry `x` of DROP_PROF (table 3 of gate grn). -/
abbrev DROP_PROF.E (x : Nat) : Nat := tabKey 6 3 x 0
abbrev DROP_PROF.MODE0 (x : Nat) : TRef := ⟨DROP_PROF.E x, 0, 1⟩
abbrev DROP_PROF.MAXP0 (x : Nat) : TRef := ⟨DROP_PROF.E x, 8, 8⟩
abbrev DROP_PROF.MIN_TH0 (x : Nat) : TRef := ⟨DROP_PROF.E x, 32, 32⟩
abbrev DROP_PROF.MAX_TH0 (x : Nat) : TRef := ⟨DROP_PROF.E x, 64, 32⟩
abbrev DROP_PROF.MODE1 (x : Nat) : TRef := ⟨DROP_PROF.E x, 96, 1⟩
abbrev DROP_PROF.MAXP1 (x : Nat) : TRef := ⟨DROP_PROF.E x, 104, 8⟩
abbrev DROP_PROF.MIN_TH1 (x : Nat) : TRef := ⟨DROP_PROF.E x, 128, 32⟩
abbrev DROP_PROF.MAX_TH1 (x : Nat) : TRef := ⟨DROP_PROF.E x, 160, 32⟩
abbrev DROP_PROF.MODE2 (x : Nat) : TRef := ⟨DROP_PROF.E x, 192, 1⟩
abbrev DROP_PROF.MAXP2 (x : Nat) : TRef := ⟨DROP_PROF.E x, 200, 8⟩
abbrev DROP_PROF.MIN_TH2 (x : Nat) : TRef := ⟨DROP_PROF.E x, 224, 32⟩
abbrev DROP_PROF.MAX_TH2 (x : Nat) : TRef := ⟨DROP_PROF.E x, 256, 32⟩
abbrev DROP_PROF.W (x : Nat) : TRef := ⟨DROP_PROF.E x, 288, 4⟩
/-- First word of entry `x` of SRC_CLASS (table 4 of gate grn). -/
abbrev SRC_CLASS.E (x : Nat) : Nat := tabKey 6 4 x 0
abbrev SRC_CLASS.USE_PCP (x : Nat) : TRef := ⟨SRC_CLASS.E x, 0, 1⟩
abbrev SRC_CLASS.DEF_TC (x : Nat) : TRef := ⟨SRC_CLASS.E x, 1, 3⟩
abbrev SRC_CLASS.PCP_MAP (x : Nat) : TRef := ⟨SRC_CLASS.E x, 8, 24⟩
/-- First word of entry `x` of PFC_PORT (table 5 of gate grn). -/
abbrev PFC_PORT.E (x : Nat) : Nat := tabKey 6 5 x 0
abbrev PFC_PORT.XOFF_TH (x : Nat) : TRef := ⟨PFC_PORT.E x, 0, 16⟩
abbrev PFC_PORT.XON_TH (x : Nat) : TRef := ⟨PFC_PORT.E x, 16, 16⟩
abbrev PFC_PORT.PRI_EN (x : Nat) : TRef := ⟨PFC_PORT.E x, 32, 8⟩
/-- First word of entry `x` of PFC_STATE (table 6 of gate grn). -/
abbrev PFC_STATE.E (x : Nat) : Nat := tabKey 6 6 x 0
abbrev PFC_STATE.CELLS (x : Nat) : TRef := ⟨PFC_STATE.E x, 0, 19⟩
abbrev PFC_STATE.XOFF (x : Nat) : TRef := ⟨PFC_STATE.E x, 31, 1⟩
/-- First word of entry `x` of METER_CFG (table 1 of gate tms). -/
abbrev METER_CFG.E (x : Nat) : Nat := tabKey 7 1 x 0
abbrev METER_CFG.TYPE (x : Nat) : TRef := ⟨METER_CFG.E x, 0, 2⟩
abbrev METER_CFG.AWARE (x : Nat) : TRef := ⟨METER_CFG.E x, 2, 1⟩
abbrev METER_CFG.RED_DROP (x : Nat) : TRef := ⟨METER_CFG.E x, 3, 1⟩
abbrev METER_CFG.COLOR_SRC (x : Nat) : TRef := ⟨METER_CFG.E x, 4, 1⟩
abbrev METER_CFG.OVERHEAD (x : Nat) : TRef := ⟨METER_CFG.E x, 8, 8⟩
abbrev METER_CFG.CIR (x : Nat) : TRef := ⟨METER_CFG.E x, 32, 25⟩
abbrev METER_CFG.EIR (x : Nat) : TRef := ⟨METER_CFG.E x, 64, 25⟩
abbrev METER_CFG.CBS (x : Nat) : TRef := ⟨METER_CFG.E x, 96, 24⟩
abbrev METER_CFG.EBS (x : Nat) : TRef := ⟨METER_CFG.E x, 128, 24⟩
/-- First word of entry `x` of METER_STAT (table 2 of gate tms). -/
abbrev METER_STAT.E (x : Nat) : Nat := tabKey 7 2 x 0
abbrev METER_STAT.TOK_C (x : Nat) : TRef := ⟨METER_STAT.E x, 0, 32⟩
abbrev METER_STAT.TOK_E (x : Nat) : TRef := ⟨METER_STAT.E x, 32, 32⟩
abbrev METER_STAT.GREEN_PKTS (x : Nat) : TRef := ⟨METER_STAT.E x, 64, 64⟩
abbrev METER_STAT.YELLOW_PKTS (x : Nat) : TRef := ⟨METER_STAT.E x, 128, 64⟩
abbrev METER_STAT.RED_PKTS (x : Nat) : TRef := ⟨METER_STAT.E x, 192, 64⟩
/-- First word of entry `x` of DS_QNODE (table 3 of gate tms). -/
abbrev DS_QNODE.E (x : Nat) : Nat := tabKey 7 3 x 0
abbrev DS_QNODE.VALID (x : Nat) : TRef := ⟨DS_QNODE.E x, 0, 1⟩
abbrev DS_QNODE.PRIO (x : Nat) : TRef := ⟨DS_QNODE.E x, 1, 3⟩
abbrev DS_QNODE.WEIGHT (x : Nat) : TRef := ⟨DS_QNODE.E x, 4, 12⟩
abbrev DS_QNODE.PARENT (x : Nat) : TRef := ⟨DS_QNODE.E x, 32, 16⟩
abbrev DS_QNODE.DEFICIT (x : Nat) : TRef := ⟨DS_QNODE.E x, 64, 32⟩
/-- First word of entry `x` of DS_SVC (table 4 of gate tms). -/
abbrev DS_SVC.E (x : Nat) : Nat := tabKey 7 4 x 0
abbrev DS_SVC.VALID (x : Nat) : TRef := ⟨DS_SVC.E x, 0, 1⟩
abbrev DS_SVC.PRIO (x : Nat) : TRef := ⟨DS_SVC.E x, 1, 3⟩
abbrev DS_SVC.WEIGHT (x : Nat) : TRef := ⟨DS_SVC.E x, 4, 12⟩
abbrev DS_SVC.OVERHEAD (x : Nat) : TRef := ⟨DS_SVC.E x, 16, 8⟩
abbrev DS_SVC.PARENT (x : Nat) : TRef := ⟨DS_SVC.E x, 32, 16⟩
abbrev DS_SVC.CIR (x : Nat) : TRef := ⟨DS_SVC.E x, 64, 25⟩
abbrev DS_SVC.PIR (x : Nat) : TRef := ⟨DS_SVC.E x, 96, 25⟩
abbrev DS_SVC.CBS (x : Nat) : TRef := ⟨DS_SVC.E x, 128, 25⟩
abbrev DS_SVC.PBS (x : Nat) : TRef := ⟨DS_SVC.E x, 160, 25⟩
abbrev DS_SVC.DEBT_LIMIT (x : Nat) : TRef := ⟨DS_SVC.E x, 192, 24⟩
abbrev DS_SVC.DEFICIT (x : Nat) : TRef := ⟨DS_SVC.E x, 224, 32⟩
abbrev DS_SVC.C_CREDIT (x : Nat) : TRef := ⟨DS_SVC.E x, 256, 26⟩
abbrev DS_SVC.P_CREDIT (x : Nat) : TRef := ⟨DS_SVC.E x, 288, 26⟩
/-- First word of entry `x` of DS_SUB (table 5 of gate tms). -/
abbrev DS_SUB.E (x : Nat) : Nat := tabKey 7 5 x 0
abbrev DS_SUB.VALID (x : Nat) : TRef := ⟨DS_SUB.E x, 0, 1⟩
abbrev DS_SUB.PRIO (x : Nat) : TRef := ⟨DS_SUB.E x, 1, 3⟩
abbrev DS_SUB.WEIGHT (x : Nat) : TRef := ⟨DS_SUB.E x, 4, 12⟩
abbrev DS_SUB.OVERHEAD (x : Nat) : TRef := ⟨DS_SUB.E x, 16, 8⟩
abbrev DS_SUB.PARENT (x : Nat) : TRef := ⟨DS_SUB.E x, 32, 16⟩
abbrev DS_SUB.CIR (x : Nat) : TRef := ⟨DS_SUB.E x, 64, 25⟩
abbrev DS_SUB.PIR (x : Nat) : TRef := ⟨DS_SUB.E x, 96, 25⟩
abbrev DS_SUB.CBS (x : Nat) : TRef := ⟨DS_SUB.E x, 128, 25⟩
abbrev DS_SUB.PBS (x : Nat) : TRef := ⟨DS_SUB.E x, 160, 25⟩
abbrev DS_SUB.DEBT_LIMIT (x : Nat) : TRef := ⟨DS_SUB.E x, 192, 24⟩
abbrev DS_SUB.DEFICIT (x : Nat) : TRef := ⟨DS_SUB.E x, 224, 32⟩
abbrev DS_SUB.C_CREDIT (x : Nat) : TRef := ⟨DS_SUB.E x, 256, 26⟩
abbrev DS_SUB.P_CREDIT (x : Nat) : TRef := ⟨DS_SUB.E x, 288, 26⟩
/-- First word of entry `x` of DS_PORT (table 6 of gate tms). -/
abbrev DS_PORT.E (x : Nat) : Nat := tabKey 7 6 x 0
abbrev DS_PORT.VALID (x : Nat) : TRef := ⟨DS_PORT.E x, 0, 1⟩
abbrev DS_PORT.OVERHEAD (x : Nat) : TRef := ⟨DS_PORT.E x, 16, 8⟩
abbrev DS_PORT.RATE (x : Nat) : TRef := ⟨DS_PORT.E x, 32, 25⟩
abbrev DS_PORT.BURST (x : Nat) : TRef := ⟨DS_PORT.E x, 64, 25⟩
abbrev DS_PORT.DEBT_LIMIT (x : Nat) : TRef := ⟨DS_PORT.E x, 96, 24⟩
abbrev DS_PORT.CREDIT (x : Nat) : TRef := ⟨DS_PORT.E x, 128, 26⟩
/-- First word of entry `x` of US_QNODE (table 7 of gate tms). -/
abbrev US_QNODE.E (x : Nat) : Nat := tabKey 7 7 x 0
abbrev US_QNODE.VALID (x : Nat) : TRef := ⟨US_QNODE.E x, 0, 1⟩
abbrev US_QNODE.PRIO (x : Nat) : TRef := ⟨US_QNODE.E x, 1, 3⟩
abbrev US_QNODE.WEIGHT (x : Nat) : TRef := ⟨US_QNODE.E x, 4, 12⟩
abbrev US_QNODE.EXPRESS (x : Nat) : TRef := ⟨US_QNODE.E x, 16, 1⟩
abbrev US_QNODE.PARENT (x : Nat) : TRef := ⟨US_QNODE.E x, 32, 16⟩
abbrev US_QNODE.DEFICIT (x : Nat) : TRef := ⟨US_QNODE.E x, 64, 32⟩
/-- First word of entry `x` of US_SVC (table 8 of gate tms). -/
abbrev US_SVC.E (x : Nat) : Nat := tabKey 7 8 x 0
abbrev US_SVC.VALID (x : Nat) : TRef := ⟨US_SVC.E x, 0, 1⟩
abbrev US_SVC.PRIO (x : Nat) : TRef := ⟨US_SVC.E x, 1, 3⟩
abbrev US_SVC.WEIGHT (x : Nat) : TRef := ⟨US_SVC.E x, 4, 12⟩
abbrev US_SVC.OVERHEAD (x : Nat) : TRef := ⟨US_SVC.E x, 16, 8⟩
abbrev US_SVC.PARENT (x : Nat) : TRef := ⟨US_SVC.E x, 32, 16⟩
abbrev US_SVC.CIR (x : Nat) : TRef := ⟨US_SVC.E x, 64, 25⟩
abbrev US_SVC.PIR (x : Nat) : TRef := ⟨US_SVC.E x, 96, 25⟩
abbrev US_SVC.CBS (x : Nat) : TRef := ⟨US_SVC.E x, 128, 25⟩
abbrev US_SVC.PBS (x : Nat) : TRef := ⟨US_SVC.E x, 160, 25⟩
abbrev US_SVC.DEBT_LIMIT (x : Nat) : TRef := ⟨US_SVC.E x, 192, 24⟩
abbrev US_SVC.DEFICIT (x : Nat) : TRef := ⟨US_SVC.E x, 224, 32⟩
abbrev US_SVC.C_CREDIT (x : Nat) : TRef := ⟨US_SVC.E x, 256, 26⟩
abbrev US_SVC.P_CREDIT (x : Nat) : TRef := ⟨US_SVC.E x, 288, 26⟩
/-- First word of entry `x` of US_SUB (table 9 of gate tms). -/
abbrev US_SUB.E (x : Nat) : Nat := tabKey 7 9 x 0
abbrev US_SUB.VALID (x : Nat) : TRef := ⟨US_SUB.E x, 0, 1⟩
abbrev US_SUB.PRIO (x : Nat) : TRef := ⟨US_SUB.E x, 1, 3⟩
abbrev US_SUB.WEIGHT (x : Nat) : TRef := ⟨US_SUB.E x, 4, 12⟩
abbrev US_SUB.OVERHEAD (x : Nat) : TRef := ⟨US_SUB.E x, 16, 8⟩
abbrev US_SUB.PARENT (x : Nat) : TRef := ⟨US_SUB.E x, 32, 16⟩
abbrev US_SUB.CIR (x : Nat) : TRef := ⟨US_SUB.E x, 64, 25⟩
abbrev US_SUB.PIR (x : Nat) : TRef := ⟨US_SUB.E x, 96, 25⟩
abbrev US_SUB.CBS (x : Nat) : TRef := ⟨US_SUB.E x, 128, 25⟩
abbrev US_SUB.PBS (x : Nat) : TRef := ⟨US_SUB.E x, 160, 25⟩
abbrev US_SUB.DEBT_LIMIT (x : Nat) : TRef := ⟨US_SUB.E x, 192, 24⟩
abbrev US_SUB.DEFICIT (x : Nat) : TRef := ⟨US_SUB.E x, 224, 32⟩
abbrev US_SUB.C_CREDIT (x : Nat) : TRef := ⟨US_SUB.E x, 256, 26⟩
abbrev US_SUB.P_CREDIT (x : Nat) : TRef := ⟨US_SUB.E x, 288, 26⟩
/-- First word of entry `x` of US_ALLOC (table 10 of gate tms). -/
abbrev US_ALLOC.E (x : Nat) : Nat := tabKey 7 10 x 0
abbrev US_ALLOC.VALID (x : Nat) : TRef := ⟨US_ALLOC.E x, 0, 1⟩
abbrev US_ALLOC.OVERHEAD (x : Nat) : TRef := ⟨US_ALLOC.E x, 16, 8⟩
abbrev US_ALLOC.RATE (x : Nat) : TRef := ⟨US_ALLOC.E x, 32, 25⟩
abbrev US_ALLOC.BURST (x : Nat) : TRef := ⟨US_ALLOC.E x, 64, 25⟩
abbrev US_ALLOC.DEBT_LIMIT (x : Nat) : TRef := ⟨US_ALLOC.E x, 96, 24⟩
abbrev US_ALLOC.CREDIT (x : Nat) : TRef := ⟨US_ALLOC.E x, 128, 26⟩
/-- First word of entry `x` of MDIO_POLL (table 1 of gate srd). -/
abbrev MDIO_POLL.E (x : Nat) : Nat := tabKey 8 1 x 0
abbrev MDIO_POLL.VALID (x : Nat) : TRef := ⟨MDIO_POLL.E x, 0, 1⟩
abbrev MDIO_POLL.PRTAD (x : Nat) : TRef := ⟨MDIO_POLL.E x, 1, 5⟩
abbrev MDIO_POLL.DEVAD (x : Nat) : TRef := ⟨MDIO_POLL.E x, 6, 5⟩
abbrev MDIO_POLL.CL45 (x : Nat) : TRef := ⟨MDIO_POLL.E x, 11, 1⟩
abbrev MDIO_POLL.BIT (x : Nat) : TRef := ⟨MDIO_POLL.E x, 12, 4⟩
abbrev MDIO_POLL.REG (x : Nat) : TRef := ⟨MDIO_POLL.E x, 16, 16⟩
/-- First word of entry `x` of RD_PHY (table 2 of gate srd). -/
abbrev RD_PHY.E (x : Nat) : Nat := tabKey 8 2 x 0
abbrev RD_PHY.VALID (x : Nat) : TRef := ⟨RD_PHY.E x, 0, 1⟩
abbrev RD_PHY.PRTAD (x : Nat) : TRef := ⟨RD_PHY.E x, 1, 5⟩
abbrev RD_PHY.DEVAD (x : Nat) : TRef := ⟨RD_PHY.E x, 6, 5⟩
abbrev RD_PHY.CL45 (x : Nat) : TRef := ⟨RD_PHY.E x, 11, 1⟩
abbrev RD_PHY.REG (x : Nat) : TRef := ⟨RD_PHY.E x, 32, 16⟩
abbrev RD_PHY.VALUE (x : Nat) : TRef := ⟨RD_PHY.E x, 48, 16⟩
/-- First word of entry `x` of CMEM_DS (table 1 of gate slt). -/
abbrev CMEM_DS.E (x : Nat) : Nat := tabKey 9 1 x 0
abbrev CMEM_DS.VALID (x : Nat) : TRef := ⟨CMEM_DS.E x, 0, 1⟩
abbrev CMEM_DS.CIRCUIT (x : Nat) : TRef := ⟨CMEM_DS.E x, 1, 10⟩
abbrev CMEM_DS.OCTET (x : Nat) : TRef := ⟨CMEM_DS.E x, 11, 12⟩
/-- First word of entry `x` of CMEM_US (table 2 of gate slt). -/
abbrev CMEM_US.E (x : Nat) : Nat := tabKey 9 2 x 0
abbrev CMEM_US.VALID (x : Nat) : TRef := ⟨CMEM_US.E x, 0, 1⟩
abbrev CMEM_US.CIRCUIT (x : Nat) : TRef := ⟨CMEM_US.E x, 1, 10⟩
abbrev CMEM_US.OCTET (x : Nat) : TRef := ⟨CMEM_US.E x, 11, 12⟩
/-- First word of entry `x` of CIRCUIT (table 3 of gate slt). -/
abbrev CIRCUIT.E (x : Nat) : Nat := tabKey 9 3 x 0
abbrev CIRCUIT.VALID (x : Nat) : TRef := ⟨CIRCUIT.E x, 0, 1⟩
abbrev CIRCUIT.DS_EN (x : Nat) : TRef := ⟨CIRCUIT.E x, 1, 1⟩
abbrev CIRCUIT.US_EN (x : Nat) : TRef := ⟨CIRCUIT.E x, 2, 1⟩
abbrev CIRCUIT.PROT (x : Nat) : TRef := ⟨CIRCUIT.E x, 3, 2⟩
abbrev CIRCUIT.WORK_CH (x : Nat) : TRef := ⟨CIRCUIT.E x, 5, 2⟩
abbrev CIRCUIT.PROT_CH (x : Nat) : TRef := ⟨CIRCUIT.E x, 7, 2⟩
abbrev CIRCUIT.REVERT (x : Nat) : TRef := ⟨CIRCUIT.E x, 9, 1⟩
abbrev CIRCUIT.TAGGED (x : Nat) : TRef := ⟨CIRCUIT.E x, 10, 1⟩
abbrev CIRCUIT.K (x : Nat) : TRef := ⟨CIRCUIT.E x, 12, 4⟩
abbrev CIRCUIT.PLAYOUT (x : Nat) : TRef := ⟨CIRCUIT.E x, 16, 5⟩
abbrev CIRCUIT.JB_FRAMES (x : Nat) : TRef := ⟨CIRCUIT.E x, 21, 7⟩
abbrev CIRCUIT.N (x : Nat) : TRef := ⟨CIRCUIT.E x, 32, 13⟩
abbrev CIRCUIT.PORT (x : Nat) : TRef := ⟨CIRCUIT.E x, 48, 10⟩
abbrev CIRCUIT.TX_LABEL (x : Nat) : TRef := ⟨CIRCUIT.E x, 64, 8⟩
abbrev CIRCUIT.EXP_LABEL (x : Nat) : TRef := ⟨CIRCUIT.E x, 72, 8⟩
abbrev CIRCUIT.HOLDOFF (x : Nat) : TRef := ⟨CIRCUIT.E x, 80, 7⟩
abbrev CIRCUIT.WTR (x : Nat) : TRef := ⟨CIRCUIT.E x, 87, 9⟩
abbrev CIRCUIT.TCI (x : Nat) : TRef := ⟨CIRCUIT.E x, 96, 16⟩
abbrev CIRCUIT.DA_LO (x : Nat) : TRef := ⟨CIRCUIT.E x, 128, 32⟩
abbrev CIRCUIT.DA_HI (x : Nat) : TRef := ⟨CIRCUIT.E x, 160, 16⟩
/-- First word of entry `x` of CIRCUIT_STATE (table 4 of gate slt). -/
abbrev CIRCUIT_STATE.E (x : Nat) : Nat := tabKey 9 4 x 0
abbrev CIRCUIT_STATE.ACTIVE_PATH (x : Nat) : TRef := ⟨CIRCUIT_STATE.E x, 0, 1⟩
abbrev CIRCUIT_STATE.SF_W (x : Nat) : TRef := ⟨CIRCUIT_STATE.E x, 1, 1⟩
abbrev CIRCUIT_STATE.SF_P (x : Nat) : TRef := ⟨CIRCUIT_STATE.E x, 2, 1⟩
abbrev CIRCUIT_STATE.UNEQ (x : Nat) : TRef := ⟨CIRCUIT_STATE.E x, 3, 1⟩
abbrev CIRCUIT_STATE.PLM (x : Nat) : TRef := ⟨CIRCUIT_STATE.E x, 4, 1⟩
abbrev CIRCUIT_STATE.WTR_RUN (x : Nat) : TRef := ⟨CIRCUIT_STATE.E x, 5, 1⟩
abbrev CIRCUIT_STATE.CMD_IN_FORCE (x : Nat) : TRef := ⟨CIRCUIT_STATE.E x, 6, 3⟩
abbrev CIRCUIT_STATE.RX_LABEL (x : Nat) : TRef := ⟨CIRCUIT_STATE.E x, 16, 8⟩
abbrev CIRCUIT_STATE.DS_MISSING (x : Nat) : TRef := ⟨CIRCUIT_STATE.E x, 32, 32⟩
abbrev CIRCUIT_STATE.US_UNDERRUN (x : Nat) : TRef := ⟨CIRCUIT_STATE.E x, 64, 32⟩
abbrev CIRCUIT_STATE.US_OVERFLOW (x : Nat) : TRef := ⟨CIRCUIT_STATE.E x, 96, 32⟩
abbrev CIRCUIT_STATE.RX_BAD (x : Nat) : TRef := ⟨CIRCUIT_STATE.E x, 128, 32⟩
abbrev CIRCUIT_STATE.SEQ_GAP (x : Nat) : TRef := ⟨CIRCUIT_STATE.E x, 160, 32⟩
abbrev CIRCUIT_STATE.SWITCH_COUNT (x : Nat) : TRef := ⟨CIRCUIT_STATE.E x, 192, 32⟩
abbrev CIRCUIT_STATE.DS_PORT_DROP (x : Nat) : TRef := ⟨CIRCUIT_STATE.E x, 224, 32⟩
/-- First word of entry `x` of SLOT (table 1 of gate tim). -/
abbrev SLOT.E (x : Nat) : Nat := tabKey 10 1 x 0
abbrev SLOT.VALID (x : Nat) : TRef := ⟨SLOT.E x, 0, 1⟩
abbrev SLOT.INT_EN (x : Nat) : TRef := ⟨SLOT.E x, 1, 1⟩
abbrev SLOT.PIN_ACT (x : Nat) : TRef := ⟨SLOT.E x, 2, 2⟩
abbrev SLOT.PIN (x : Nat) : TRef := ⟨SLOT.E x, 4, 2⟩
abbrev SLOT.PULSE (x : Nat) : TRef := ⟨SLOT.E x, 8, 8⟩
abbrev SLOT.NS (x : Nat) : TRef := ⟨SLOT.E x, 32, 30⟩
abbrev SLOT.SEC_LO (x : Nat) : TRef := ⟨SLOT.E x, 64, 32⟩
abbrev SLOT.SEC_HI (x : Nat) : TRef := ⟨SLOT.E x, 96, 16⟩
abbrev SLOT.PERIOD (x : Nat) : TRef := ⟨SLOT.E x, 128, 30⟩
abbrev SLOT.FIRE_COUNT (x : Nat) : TRef := ⟨SLOT.E x, 160, 32⟩
/-- First word of entry `x` of GCL (table 1 of gate sub). -/
abbrev GCL.E (p x : Nat) : Nat := tabKey (16 + p) 1 x 0
abbrev GCL.GATES (p x : Nat) : TRef := ⟨GCL.E p x, 0, 8⟩
abbrev GCL.INTERVAL (p x : Nat) : TRef := ⟨GCL.E p x, 32, 30⟩
/-- First word of entry `x` of MBX_CFG (table 1 of gate ctl). -/
abbrev MBX_CFG.E (x : Nat) : Nat := tabKey 11 1 x 0
abbrev MBX_CFG.VALID (x : Nat) : TRef := ⟨MBX_CFG.E x, 0, 1⟩
abbrev MBX_CFG.WAKE (x : Nat) : TRef := ⟨MBX_CFG.E x, 1, 1⟩
abbrev MBX_CFG.RX_DOM (x : Nat) : TRef := ⟨MBX_CFG.E x, 2, 5⟩
abbrev MBX_CFG.TX_MASTER (x : Nat) : TRef := ⟨MBX_CFG.E x, 8, 8⟩
abbrev MBX_CFG.RX_CORES (x : Nat) : TRef := ⟨MBX_CFG.E x, 16, 4⟩
abbrev MBX_CFG.RX_MSIX_EN (x : Nat) : TRef := ⟨MBX_CFG.E x, 20, 1⟩
abbrev MBX_CFG.RX_VEC (x : Nat) : TRef := ⟨MBX_CFG.E x, 21, 11⟩
abbrev MBX_CFG.TX_CORES (x : Nat) : TRef := ⟨MBX_CFG.E x, 32, 4⟩
abbrev MBX_CFG.TX_MSIX_EN (x : Nat) : TRef := ⟨MBX_CFG.E x, 36, 1⟩
abbrev MBX_CFG.TX_VEC (x : Nat) : TRef := ⟨MBX_CFG.E x, 37, 11⟩
/-- First word of entry `x` of DB_CFG (table 2 of gate ctl). -/
abbrev DB_CFG.E (x : Nat) : Nat := tabKey 11 2 x 0
abbrev DB_CFG.TGT_DOM (x : Nat) : TRef := ⟨DB_CFG.E x, 0, 5⟩
abbrev DB_CFG.WAKE (x : Nat) : TRef := ⟨DB_CFG.E x, 5, 1⟩
abbrev DB_CFG.CORE_MASK (x : Nat) : TRef := ⟨DB_CFG.E x, 6, 4⟩
abbrev DB_CFG.MSIX_EN (x : Nat) : TRef := ⟨DB_CFG.E x, 10, 1⟩
abbrev DB_CFG.VEC (x : Nat) : TRef := ⟨DB_CFG.E x, 11, 11⟩
/-- First word of entry `x` of SUB_RING (table 3 of gate ctl). -/
abbrev SUB_RING.E (x : Nat) : Nat := tabKey 11 3 x 0
abbrev SUB_RING.VALID (x : Nat) : TRef := ⟨SUB_RING.E x, 0, 1⟩
abbrev SUB_RING.RING (x : Nat) : TRef := ⟨SUB_RING.E x, 1, 10⟩
/-- First word of entry `x` of LINE_KEY (table 1 of gate cip). -/
abbrev LINE_KEY.E (x : Nat) : Nat := tabKey 12 1 x 0
abbrev LINE_KEY.KEY (x : Nat) : TRef := ⟨LINE_KEY.E x, 0, 128⟩
abbrev LINE_KEY.VALID (x : Nat) : TRef := ⟨LINE_KEY.E x, 128, 1⟩
abbrev LINE_KEY.SOFT_HIT (x : Nat) : TRef := ⟨LINE_KEY.E x, 129, 1⟩
abbrev LINE_KEY.HARD_HIT (x : Nat) : TRef := ⟨LINE_KEY.E x, 130, 1⟩
abbrev LINE_KEY.USAGE (x : Nat) : TRef := ⟨LINE_KEY.E x, 192, 64⟩
/-- First word of entry `x` of SECY (table 2 of gate cip). -/
abbrev SECY.E (x : Nat) : Nat := tabKey 12 2 x 0
abbrev SECY.CIPHER (x : Nat) : TRef := ⟨SECY.E x, 0, 2⟩
abbrev SECY.VALIDATE (x : Nat) : TRef := ⟨SECY.E x, 2, 2⟩
abbrev SECY.PROTECT (x : Nat) : TRef := ⟨SECY.E x, 4, 1⟩
abbrev SECY.INCLUDE_SCI (x : Nat) : TRef := ⟨SECY.E x, 5, 1⟩
abbrev SECY.REPLAY_PROTECT (x : Nat) : TRef := ⟨SECY.E x, 6, 1⟩
abbrev SECY.ENC_AN (x : Nat) : TRef := ⟨SECY.E x, 8, 2⟩
abbrev SECY.ACT_EN (x : Nat) : TRef := ⟨SECY.E x, 10, 1⟩
abbrev SECY.ACT_SLOT (x : Nat) : TRef := ⟨SECY.E x, 12, 6⟩
abbrev SECY.CUR_AN (x : Nat) : TRef := ⟨SECY.E x, 20, 2⟩
abbrev SECY.REPLAY_WINDOW (x : Nat) : TRef := ⟨SECY.E x, 32, 32⟩
abbrev SECY.TX_SCI (x : Nat) : TRef := ⟨SECY.E x, 64, 64⟩
abbrev SECY.RX_SC_VALID (x : Nat) : TRef := ⟨SECY.E x, 256, 2⟩
abbrev SECY.RX_SCI0 (x : Nat) : TRef := ⟨SECY.E x, 128, 64⟩
abbrev SECY.RX_SCI1 (x : Nat) : TRef := ⟨SECY.E x, 192, 64⟩
/-- First word of entry `x` of MACSEC_SA (table 3 of gate cip). -/
abbrev MACSEC_SA.E (x : Nat) : Nat := tabKey 12 3 x 0
abbrev MACSEC_SA.KEY (x : Nat) : TRef := ⟨MACSEC_SA.E x, 0, 256⟩
abbrev MACSEC_SA.SALT (x : Nat) : TRef := ⟨MACSEC_SA.E x, 256, 96⟩
abbrev MACSEC_SA.SSCI (x : Nat) : TRef := ⟨MACSEC_SA.E x, 352, 32⟩
abbrev MACSEC_SA.VALID (x : Nat) : TRef := ⟨MACSEC_SA.E x, 384, 1⟩
abbrev MACSEC_SA.PN (x : Nat) : TRef := ⟨MACSEC_SA.E x, 416, 64⟩
/-- First word of entry `x` of CVE_KEY (table 4 of gate cip). -/
abbrev CVE_KEY.E (x : Nat) : Nat := tabKey 12 4 x 0
abbrev CVE_KEY.KEY (x : Nat) : TRef := ⟨CVE_KEY.E x, 0, 384⟩
abbrev CVE_KEY.VALID (x : Nat) : TRef := ⟨CVE_KEY.E x, 384, 1⟩
abbrev CVE_KEY.SECURE_ONLY (x : Nat) : TRef := ⟨CVE_KEY.E x, 385, 1⟩
abbrev CVE_KEY.TIMED (x : Nat) : TRef := ⟨CVE_KEY.E x, 386, 1⟩
abbrev CVE_KEY.SHADOW_PENDING (x : Nat) : TRef := ⟨CVE_KEY.E x, 387, 1⟩
abbrev CVE_KEY.KEY_LEN (x : Nat) : TRef := ⟨CVE_KEY.E x, 388, 6⟩
abbrev CVE_KEY.MAX_USES (x : Nat) : TRef := ⟨CVE_KEY.E x, 416, 32⟩
abbrev CVE_KEY.SOFT_USES (x : Nat) : TRef := ⟨CVE_KEY.E x, 448, 32⟩
abbrev CVE_KEY.USES (x : Nat) : TRef := ⟨CVE_KEY.E x, 480, 32⟩
/-- First word of entry `x` of QMAP (table 1 of gate twn). -/
abbrev QMAP.E (x : Nat) : Nat := tabKey 13 1 x 0
abbrev QMAP.VALID (x : Nat) : TRef := ⟨QMAP.E x, 0, 1⟩
abbrev QMAP.QUEUE (x : Nat) : TRef := ⟨QMAP.E x, 1, 18⟩
/-- First word of entry `x` of DS_Q (table 2 of gate twn). -/
abbrev DS_Q.E (x : Nat) : Nat := tabKey 13 2 x 0
abbrev DS_Q.VALID (x : Nat) : TRef := ⟨DS_Q.E x, 0, 1⟩
abbrev DS_Q.QUEUE (x : Nat) : TRef := ⟨DS_Q.E x, 1, 18⟩
/-- First word of entry `x` of PHY_SEL (table 3 of gate twn). -/
abbrev PHY_SEL.E (x : Nat) : Nat := tabKey 13 3 x 0
abbrev PHY_SEL.VALID (x : Nat) : TRef := ⟨PHY_SEL.E x, 0, 1⟩
abbrev PHY_SEL.PRTAD (x : Nat) : TRef := ⟨PHY_SEL.E x, 1, 5⟩
abbrev PHY_SEL.DEVAD (x : Nat) : TRef := ⟨PHY_SEL.E x, 6, 5⟩
abbrev PHY_SEL.CL45 (x : Nat) : TRef := ⟨PHY_SEL.E x, 11, 1⟩
abbrev PHY_SEL.REG (x : Nat) : TRef := ⟨PHY_SEL.E x, 32, 16⟩
abbrev PHY_SEL.VALUE (x : Nat) : TRef := ⟨PHY_SEL.E x, 48, 16⟩
/-- First word of entry `x` of ALARM_TYPE (table 1 of gate pm). -/
abbrev ALARM_TYPE.E (x : Nat) : Nat := tabKey 14 1 x 0
abbrev ALARM_TYPE.SEV (x : Nat) : TRef := ⟨ALARM_TYPE.E x, 0, 2⟩
abbrev ALARM_TYPE.TYPE_MASK (x : Nat) : TRef := ⟨ALARM_TYPE.E x, 2, 1⟩
abbrev ALARM_TYPE.RAISE_SOAK (x : Nat) : TRef := ⟨ALARM_TYPE.E x, 4, 12⟩
abbrev ALARM_TYPE.CLEAR_SOAK (x : Nat) : TRef := ⟨ALARM_TYPE.E x, 16, 12⟩
/-- First word of entry `x` of ALARM_STATE (table 2 of gate pm). -/
abbrev ALARM_STATE.E (x : Nat) : Nat := tabKey 14 2 x 0
abbrev ALARM_STATE.DEFECT (x : Nat) : TRef := ⟨ALARM_STATE.E x, 0, 1⟩
abbrev ALARM_STATE.ACTIVE (x : Nat) : TRef := ⟨ALARM_STATE.E x, 1, 1⟩
abbrev ALARM_STATE.MASK (x : Nat) : TRef := ⟨ALARM_STATE.E x, 2, 1⟩
abbrev ALARM_STATE.RAISE_SEC (x : Nat) : TRef := ⟨ALARM_STATE.E x, 32, 32⟩
/-- First word of entry `x` of PM_OBJ (table 3 of gate pm). -/
abbrev PM_OBJ.E (x : Nat) : Nat := tabKey 14 3 x 0
abbrev PM_OBJ.EN (x : Nat) : TRef := ⟨PM_OBJ.E x, 0, 1⟩
abbrev PM_OBJ.TCA_PROF (x : Nat) : TRef := ⟨PM_OBJ.E x, 1, 4⟩
abbrev PM_OBJ.TCA_EN (x : Nat) : TRef := ⟨PM_OBJ.E x, 5, 1⟩
abbrev PM_OBJ.WIN_MS (x : Nat) : TRef := ⟨PM_OBJ.E x, 6, 14⟩
abbrev PM_OBJ.WIN_EN (x : Nat) : TRef := ⟨PM_OBJ.E x, 20, 1⟩
/-- First word of entry `x` of TCA_PROF (table 4 of gate pm). -/
abbrev TCA_PROF.E (x : Nat) : Nat := tabKey 14 4 x 0
abbrev TCA_PROF.TH0 (x : Nat) : TRef := ⟨TCA_PROF.E x, 64, 448⟩
abbrev TCA_PROF.TH1 (x : Nat) : TRef := ⟨TCA_PROF.E x, 576, 448⟩
/-- First word of entry `x` of CUR (table 5 of gate pm). -/
abbrev CUR.E (x : Nat) : Nat := tabKey 14 5 x 0
abbrev CUR.REC (x : Nat) : TRef := ⟨CUR.E x, 0, 512⟩
/-- First word of entry `x` of BW (table 6 of gate pm). -/
abbrev BW.E (x : Nat) : Nat := tabKey 14 6 x 0
abbrev BW.END_SEC (x : Nat) : TRef := ⟨BW.E x, 0, 32⟩
abbrev BW.RX_BYTES (x : Nat) : TRef := ⟨BW.E x, 64, 64⟩
abbrev BW.TX_BYTES (x : Nat) : TRef := ⟨BW.E x, 128, 64⟩
abbrev BW.RX_FRAMES (x : Nat) : TRef := ⟨BW.E x, 192, 32⟩
abbrev BW.TX_FRAMES (x : Nat) : TRef := ⟨BW.E x, 224, 32⟩
abbrev BW.END_NS (x : Nat) : TRef := ⟨BW.E x, 32, 30⟩
abbrev BW.STEPPED (x : Nat) : TRef := ⟨BW.E x, 63, 1⟩
/-- First word of entry `x` of GLEANER (table 1 of gate til). -/
abbrev GLEANER.E (x : Nat) : Nat := tabKey 590 1 x 0
abbrev GLEANER.REC (x : Nat) : TRef := ⟨GLEANER.E x, 0, 256⟩
/-- First word of entry `x` of IMEM (table 1 of gate eng). -/
abbrev IMEM.E (e x : Nat) : Nat := tabKey (600 + e) 1 x 0
abbrev IMEM.DATA (e x : Nat) : TRef := ⟨IMEM.E e x, 0, 512⟩
/-- First word of entry `x` of DMEM (table 2 of gate eng). -/
abbrev DMEM.E (e x : Nat) : Nat := tabKey (600 + e) 2 x 0
abbrev DMEM.DATA (e x : Nat) : TRef := ⟨DMEM.E e x, 0, 512⟩
/-- First word of entry `x` of CMEM (table 3 of gate eng). -/
abbrev CMEM.E (e x : Nat) : Nat := tabKey (600 + e) 3 x 0
abbrev CMEM.DATA (e x : Nat) : TRef := ⟨CMEM.E e x, 0, 512⟩

/-- Tables of the trk gate. -/
def tabTrk : List TabRow := [
  ⟨"ALLOC_OWN", 1, 1024, 1, .any, [⟨0, 1, .rw, false, 0, []⟩, ⟨1, 14, .rw, false, 0, []⟩, ⟨15, 1, .rw, false, 0, []⟩, ⟨16, 12, .rw, false, 0, []⟩]⟩,
  ⟨"GEM_PORT", 2, 16384, 1, .any, [⟨0, 1, .rw, false, 0, []⟩, ⟨1, 16, .rw, false, 0, []⟩, ⟨17, 1, .rw, false, 0, []⟩, ⟨18, 1, .rw, false, 0, []⟩, ⟨19, 1, .rw, false, 0, []⟩, ⟨20, 4, .rw, false, 0, []⟩, ⟨24, 2, .rw, false, 0, [(0, 2)]⟩]⟩,
  ⟨"PLOAM_RXQ", 3, 32, 12, .never, [⟨0, 384, .ro, false, 0, []⟩]⟩,
  ⟨"BURST_PROFILE", 4, 4, 8, .any, [⟨0, 1, .rw, false, 0, []⟩, ⟨1, 1, .rw, false, 0, []⟩, ⟨8, 8, .rw, false, 0, [(1, 255)]⟩, ⟨16, 4, .rw, false, 0, [(1, 8)]⟩, ⟨20, 4, .rw, false, 0, [(4, 4), (8, 8)]⟩, ⟨32, 64, .rw, false, 0, []⟩, ⟨96, 64, .rw, false, 0, []⟩]⟩,
  ⟨"LA_ALLOC", 5, 1024, 3, .any, [⟨0, 1, .rw, false, 0, []⟩, ⟨8, 24, .rw, false, 0, []⟩, ⟨40, 24, .rw, false, 0, []⟩, ⟨64, 32, .ro, false, 0, []⟩]⟩,
  ⟨"US_GEM", 6, 65536, 1, .any, [⟨0, 1, .rw, false, 0, []⟩, ⟨1, 16, .rw, false, 0, []⟩, ⟨17, 1, .rw, false, 0, []⟩]⟩,
  ⟨"PLOAM_TXQ", 7, 1, 12, .any, [⟨0, 384, .rw, false, 0, []⟩]⟩]

/-- Tables of the shf gate. -/
def tabShf : List TabRow := [
  ⟨"MEMBER_MAP", 1, 1024, 1, .any, [⟨0, 2, .rw, false, 0, []⟩]⟩,
  ⟨"MEMBER_MAP_EFF", 2, 1024, 1, .never, [⟨0, 2, .ro, false, 0, []⟩]⟩]

/-- The 20 segment descriptors of a key profile: BASE with its reserved codes, and OFF (R205). -/
def segFields : List FieldRow :=
  ((List.range 20).map (fun i => [⟨16 * i, 4, .rw, false, 0, [(0, 8)]⟩, ⟨16 * i + 4, 8, .rw, false, 0, []⟩])).flatten

/-- The window lengths WIN_MS takes (R517). -/
def winMs : List (Nat × Nat) :=
  [(1, 1), (2, 2), (4, 4), (5, 5), (8, 8), (10, 10), (20, 20), (25, 25), (40, 40), (50, 50), (100, 100), (125, 125), (200, 200), (250, 250), (500, 500), (1000, 1000), (2000, 2000), (3000, 3000), (4000, 4000), (5000, 5000), (6000, 6000), (7000, 7000), (8000, 8000), (9000, 9000), (10000, 10000)]

/-- Tables of the thr gate. -/
def tabThr : List TabRow := [
  ⟨"PRS_NODE", 1, 16, 4, .any, [⟨0, 1, .rw, false, 0, []⟩, ⟨1, 1, .rw, false, 0, []⟩, ⟨2, 2, .rw, false, 0, [(0, 2)]⟩, ⟨4, 2, .rw, false, 0, []⟩, ⟨6, 1, .rw, false, 0, []⟩, ⟨8, 8, .rw, false, 0, []⟩, ⟨16, 6, .rw, false, 0, [(0, 47)]⟩, ⟨32, 6, .rw, false, 0, [(0, 62)]⟩, ⟨40, 4, .rw, false, 0, []⟩, ⟨44, 2, .rw, false, 0, []⟩, ⟨48, 16, .rw, false, 0, []⟩, ⟨64, 8, .rw, false, 0, []⟩, ⟨72, 8, .rw, false, 0, [(1, 255)]⟩, ⟨80, 8, .rw, false, 0, [(1, 255)]⟩, ⟨96, 6, .rw, false, 0, []⟩, ⟨104, 1, .rw, false, 0, []⟩, ⟨105, 1, .rw, false, 0, []⟩, ⟨106, 2, .rw, false, 0, [(0, 2)]⟩, ⟨112, 6, .rw, false, 0, []⟩]⟩,
  ⟨"PRS_NODE", 5, 16, 4, .any, [⟨0, 1, .rw, false, 0, []⟩, ⟨1, 1, .rw, false, 0, []⟩, ⟨2, 2, .rw, false, 0, [(0, 2)]⟩, ⟨4, 2, .rw, false, 0, []⟩, ⟨6, 1, .rw, false, 0, []⟩, ⟨8, 8, .rw, false, 0, []⟩, ⟨16, 6, .rw, false, 0, [(0, 47)]⟩, ⟨32, 6, .rw, false, 0, [(0, 62)]⟩, ⟨40, 4, .rw, false, 0, []⟩, ⟨44, 2, .rw, false, 0, []⟩, ⟨48, 16, .rw, false, 0, []⟩, ⟨64, 8, .rw, false, 0, []⟩, ⟨72, 8, .rw, false, 0, [(1, 255)]⟩, ⟨80, 8, .rw, false, 0, [(1, 255)]⟩, ⟨96, 6, .rw, false, 0, []⟩, ⟨104, 1, .rw, false, 0, []⟩, ⟨105, 1, .rw, false, 0, []⟩, ⟨106, 2, .rw, false, 0, [(0, 2)]⟩, ⟨112, 6, .rw, false, 0, []⟩]⟩,
  ⟨"PRS_LINK", 2, 64, 2, .any, [⟨0, 1, .rw, false, 0, []⟩, ⟨1, 6, .rw, false, 0, [(0, 47)]⟩, ⟨8, 6, .rw, false, 0, [(0, 47), (63, 63)]⟩, ⟨32, 16, .rw, false, 0, []⟩, ⟨48, 16, .rw, false, 0, []⟩]⟩,
  ⟨"PRS_LINK", 6, 64, 2, .any, [⟨0, 1, .rw, false, 0, []⟩, ⟨1, 6, .rw, false, 0, [(0, 47)]⟩, ⟨8, 6, .rw, false, 0, [(0, 47), (63, 63)]⟩, ⟨32, 16, .rw, false, 0, []⟩, ⟨48, 16, .rw, false, 0, []⟩]⟩,
  ⟨"PRS_START", 3, 524, 1, .any, [⟨0, 6, .rw, false, 0, [(0, 47)]⟩]⟩,
  ⟨"PRS_START", 7, 524, 1, .any, [⟨0, 6, .rw, false, 0, [(0, 47)]⟩]⟩,
  ⟨"CHAFF_ACT", 4, 64, 1, .any, [⟨0, 2, .rw, false, 0, []⟩, ⟨2, 1, .rw, false, 0, []⟩]⟩,
  ⟨"CHAFF_ACT", 8, 64, 1, .any, [⟨0, 2, .rw, false, 0, []⟩, ⟨2, 1, .rw, false, 0, []⟩]⟩,
  ⟨"TCAM", 9, 262144, 48, .any, [⟨0, 1, .rw, false, 0, []⟩, ⟨16, 16, .rw, false, 0, []⟩, ⟨32, 1504, .rw, false, 0, []⟩]⟩,
  ⟨"ACTION", 10, 65536, 8, .any, [⟨0, 3, .rw, false, 0, [(0, 5)]⟩, ⟨3, 1, .rw, false, 0, []⟩, ⟨4, 1, .rw, false, 0, []⟩, ⟨5, 1, .rw, false, 0, []⟩, ⟨6, 1, .rw, false, 0, []⟩, ⟨7, 3, .rw, false, 0, []⟩, ⟨10, 2, .rw, false, 0, [(0, 2)]⟩, ⟨12, 4, .rw, false, 0, []⟩, ⟨16, 10, .rw, false, 0, []⟩, ⟨26, 6, .rw, false, 0, []⟩, ⟨32, 18, .rw, false, 0, []⟩, ⟨64, 17, .rw, false, 0, []⟩, ⟨88, 8, .rw, false, 0, []⟩, ⟨96, 32, .rw, false, 0, []⟩, ⟨128, 20, .rw, false, 0, []⟩, ⟨160, 20, .rw, false, 0, []⟩, ⟨192, 12, .rw, false, 0, []⟩, ⟨204, 3, .rw, false, 0, []⟩, ⟨208, 6, .rw, false, 0, []⟩, ⟨214, 1, .rw, false, 0, []⟩, ⟨224, 32, .rw, false, 0, []⟩]⟩,
  ⟨"KEY_PROFILE", 11, 32, 10, .any, segFields⟩,
  ⟨"KEY_PROFILE", 12, 32, 10, .any, segFields⟩,
  ⟨"CLS_SRC", 13, 1048, 4, .any, [⟨0, 4, .rw, false, 0, []⟩, ⟨4, 2, .rw, false, 0, [(0, 1)]⟩, ⟨6, 2, .rw, false, 0, [(0, 2)]⟩, ⟨8, 12, .rw, false, 0, []⟩, ⟨32, 16, .rw, false, 0, []⟩, ⟨48, 16, .rw, false, 0, []⟩, ⟨64, 18, .rw, false, 0, []⟩, ⟨82, 10, .rw, false, 0, []⟩, ⟨96, 7, .rw, false, 0, []⟩, ⟨103, 1, .rw, false, 0, []⟩]⟩,
  ⟨"BRIDGE", 14, 262144, 4, .any, [⟨0, 1, .rw, false, 0, []⟩, ⟨1, 1, .rw, false, 0, []⟩, ⟨2, 1, .rw, false, 0, []⟩, ⟨4, 12, .rw, false, 0, []⟩, ⟨16, 10, .rw, false, 0, []⟩, ⟨32, 32, .rw, false, 0, []⟩, ⟨64, 16, .rw, false, 0, []⟩, ⟨96, 18, .rw, false, 0, []⟩]⟩,
  ⟨"SPREAD", 15, 64, 16, .any, [⟨0, 1, .rw, false, 0, []⟩, ⟨1, 1, .rw, false, 0, []⟩, ⟨2, 1, .rw, false, 0, []⟩, ⟨3, 1, .rw, false, 0, []⟩, ⟨4, 7, .rw, false, 0, []⟩, ⟨11, 1, .rw, false, 0, []⟩, ⟨32, 14, .rw, false, 0, [(1, 10000)]⟩, ⟨48, 11, .rw, false, 0, [(1, 1024)]⟩, ⟨128, 320, .rw, false, 0, []⟩]⟩,
  ⟨"SPREAD_IND", 16, 16384, 1, .any, [⟨0, 1, .rw, false, 0, []⟩, ⟨1, 18, .rw, false, 0, []⟩, ⟨19, 6, .rw, false, 0, []⟩, ⟨25, 1, .rw, false, 0, []⟩]⟩,
  ⟨"MODIFY", 17, 256, 4, .any, [⟨0, 2, .rw, false, 0, [(0, 2)]⟩, ⟨2, 2, .rw, false, 0, [(0, 2)]⟩, ⟨4, 1, .rw, false, 0, []⟩, ⟨5, 1, .rw, false, 0, []⟩, ⟨6, 1, .rw, false, 0, []⟩, ⟨7, 1, .rw, false, 0, []⟩, ⟨16, 16, .rw, false, 0, []⟩, ⟨32, 6, .rw, false, 0, []⟩]⟩,
  ⟨"MIRROR", 18, 16, 1, .any, [⟨0, 18, .rw, false, 0, []⟩, ⟨18, 1, .rw, false, 0, []⟩, ⟨24, 8, .rw, false, 0, []⟩]⟩]

/-- Tables of the grn gate. -/
def tabGrn : List TabRow := [
  ⟨"QUEUE_CFG", 1, 262144, 4, .any, [⟨0, 1, .rw, false, 0, []⟩, ⟨1, 1, .rw, false, 0, []⟩, ⟨8, 8, .rw, false, 0, []⟩, ⟨16, 16, .rw, false, 0, []⟩, ⟨32, 19, .rw, false, 0, []⟩, ⟨64, 19, .rw, false, 0, []⟩, ⟨96, 24, .rw, false, 0, []⟩]⟩,
  ⟨"QUEUE_STATE", 2, 262144, 4, .never, [⟨0, 19, .ro, false, 0, []⟩, ⟨19, 1, .ro, false, 0, []⟩, ⟨32, 32, .ro, false, 0, []⟩, ⟨64, 32, .ro, false, 0, []⟩, ⟨96, 32, .ro, false, 0, []⟩]⟩,
  ⟨"DROP_PROF", 3, 256, 10, .any, [⟨0, 1, .rw, false, 0, []⟩, ⟨8, 8, .rw, false, 0, []⟩, ⟨32, 32, .rw, false, 0, []⟩, ⟨64, 32, .rw, false, 0, []⟩, ⟨96, 1, .rw, false, 0, []⟩, ⟨104, 8, .rw, false, 0, []⟩, ⟨128, 32, .rw, false, 0, []⟩, ⟨160, 32, .rw, false, 0, []⟩, ⟨192, 1, .rw, false, 0, []⟩, ⟨200, 8, .rw, false, 0, []⟩, ⟨224, 32, .rw, false, 0, []⟩, ⟨256, 32, .rw, false, 0, []⟩, ⟨288, 4, .rw, false, 0, []⟩]⟩,
  ⟨"SRC_CLASS", 4, 1048, 1, .any, [⟨0, 1, .rw, false, 0, []⟩, ⟨1, 3, .rw, false, 0, []⟩, ⟨8, 24, .rw, false, 0, []⟩]⟩,
  ⟨"PFC_PORT", 5, 512, 2, .any, [⟨0, 16, .rw, false, 0, []⟩, ⟨16, 16, .rw, false, 0, []⟩, ⟨32, 8, .rw, false, 0, []⟩]⟩,
  ⟨"PFC_STATE", 6, 4096, 1, .never, [⟨0, 19, .ro, false, 0, []⟩, ⟨31, 1, .ro, false, 0, []⟩]⟩]

/-- Tables of the tms gate. -/
def tabTms : List TabRow := [
  ⟨"METER_CFG", 1, 131072, 5, .any, [⟨0, 2, .rw, false, 0, []⟩, ⟨2, 1, .rw, false, 0, []⟩, ⟨3, 1, .rw, false, 0, []⟩, ⟨4, 1, .rw, false, 0, []⟩, ⟨8, 8, .rw, false, 0, [(0, 127), (192, 255)]⟩, ⟨32, 25, .rw, false, 0, []⟩, ⟨64, 25, .rw, false, 0, []⟩, ⟨96, 24, .rw, false, 0, []⟩, ⟨128, 24, .rw, false, 0, []⟩]⟩,
  ⟨"METER_STAT", 2, 131072, 8, .any, [⟨0, 32, .ro, false, 0, []⟩, ⟨32, 32, .ro, false, 0, []⟩, ⟨64, 64, .ro, false, 0, []⟩, ⟨128, 64, .ro, false, 0, []⟩, ⟨192, 64, .ro, false, 0, []⟩]⟩,
  ⟨"DS_QNODE", 3, 196608, 3, .any, [⟨0, 1, .rw, false, 0, []⟩, ⟨1, 3, .rw, false, 0, []⟩, ⟨4, 12, .rw, false, 0, []⟩, ⟨32, 16, .rw, false, 0, []⟩, ⟨64, 32, .ro, false, 0, []⟩]⟩,
  ⟨"DS_SVC", 4, 65536, 10, .any, [⟨0, 1, .rw, false, 0, []⟩, ⟨1, 3, .rw, false, 0, []⟩, ⟨4, 12, .rw, false, 0, []⟩, ⟨16, 8, .rw, false, 0, [(0, 127), (192, 255)]⟩, ⟨32, 16, .rw, false, 0, []⟩, ⟨64, 25, .rw, false, 0, [(0, 0), (8, 25000000)]⟩, ⟨96, 25, .rw, false, 0, [(0, 0), (8, 25000000)]⟩, ⟨128, 25, .rw, false, 0, [(0, 16777216)]⟩, ⟨160, 25, .rw, false, 0, [(0, 16777216)]⟩, ⟨192, 24, .rw, false, 0, []⟩, ⟨224, 32, .ro, false, 0, []⟩, ⟨256, 26, .ro, false, 0, []⟩, ⟨288, 26, .ro, false, 0, []⟩]⟩,
  ⟨"DS_SUB", 5, 16384, 10, .any, [⟨0, 1, .rw, false, 0, []⟩, ⟨1, 3, .rw, false, 0, []⟩, ⟨4, 12, .rw, false, 0, []⟩, ⟨16, 8, .rw, false, 0, [(0, 127), (192, 255)]⟩, ⟨32, 16, .rw, false, 0, []⟩, ⟨64, 25, .rw, false, 0, [(0, 0), (8, 25000000)]⟩, ⟨96, 25, .rw, false, 0, [(0, 0), (8, 25000000)]⟩, ⟨128, 25, .rw, false, 0, [(0, 16777216)]⟩, ⟨160, 25, .rw, false, 0, [(0, 16777216)]⟩, ⟨192, 24, .rw, false, 0, []⟩, ⟨224, 32, .ro, false, 0, []⟩, ⟨256, 26, .ro, false, 0, []⟩, ⟨288, 26, .ro, false, 0, []⟩]⟩,
  ⟨"DS_PORT", 6, 520, 8, .any, [⟨0, 1, .rw, false, 0, []⟩, ⟨16, 8, .rw, false, 0, [(0, 127), (192, 255)]⟩, ⟨32, 25, .rw, false, 0, [(0, 0), (8, 25000000)]⟩, ⟨64, 25, .rw, false, 0, [(0, 16777216)]⟩, ⟨96, 24, .rw, false, 0, []⟩, ⟨128, 26, .ro, false, 0, []⟩]⟩,
  ⟨"US_QNODE", 7, 65536, 3, .any, [⟨0, 1, .rw, false, 0, []⟩, ⟨1, 3, .rw, false, 0, []⟩, ⟨4, 12, .rw, false, 0, []⟩, ⟨16, 1, .rw, false, 0, []⟩, ⟨32, 16, .rw, false, 0, []⟩, ⟨64, 32, .ro, false, 0, []⟩]⟩,
  ⟨"US_SVC", 8, 32768, 10, .any, [⟨0, 1, .rw, false, 0, []⟩, ⟨1, 3, .rw, false, 0, []⟩, ⟨4, 12, .rw, false, 0, []⟩, ⟨16, 8, .rw, false, 0, [(0, 127), (192, 255)]⟩, ⟨32, 16, .rw, false, 0, []⟩, ⟨64, 25, .rw, false, 0, [(0, 0), (8, 25000000)]⟩, ⟨96, 25, .rw, false, 0, [(0, 0), (8, 25000000)]⟩, ⟨128, 25, .rw, false, 0, [(0, 16777216)]⟩, ⟨160, 25, .rw, false, 0, [(0, 16777216)]⟩, ⟨192, 24, .rw, false, 0, []⟩, ⟨224, 32, .ro, false, 0, []⟩, ⟨256, 26, .ro, false, 0, []⟩, ⟨288, 26, .ro, false, 0, []⟩]⟩,
  ⟨"US_SUB", 9, 16384, 10, .any, [⟨0, 1, .rw, false, 0, []⟩, ⟨1, 3, .rw, false, 0, []⟩, ⟨4, 12, .rw, false, 0, []⟩, ⟨16, 8, .rw, false, 0, [(0, 127), (192, 255)]⟩, ⟨32, 16, .rw, false, 0, []⟩, ⟨64, 25, .rw, false, 0, [(0, 0), (8, 25000000)]⟩, ⟨96, 25, .rw, false, 0, [(0, 0), (8, 25000000)]⟩, ⟨128, 25, .rw, false, 0, [(0, 16777216)]⟩, ⟨160, 25, .rw, false, 0, [(0, 16777216)]⟩, ⟨192, 24, .rw, false, 0, []⟩, ⟨224, 32, .ro, false, 0, []⟩, ⟨256, 26, .ro, false, 0, []⟩, ⟨288, 26, .ro, false, 0, []⟩]⟩,
  ⟨"US_ALLOC", 10, 4096, 8, .any, [⟨0, 1, .rw, false, 0, []⟩, ⟨16, 8, .rw, false, 0, [(0, 127), (192, 255)]⟩, ⟨32, 25, .rw, false, 0, [(0, 0), (8, 25000000)]⟩, ⟨64, 25, .rw, false, 0, [(0, 16777216)]⟩, ⟨96, 24, .rw, false, 0, []⟩, ⟨128, 26, .ro, false, 0, []⟩]⟩]

/-- Tables of the srd gate. -/
def tabSrd : List TabRow := [
  ⟨"MDIO_POLL", 1, 512, 1, .any, [⟨0, 1, .rw, false, 0, []⟩, ⟨1, 5, .rw, false, 0, []⟩, ⟨6, 5, .rw, false, 0, []⟩, ⟨11, 1, .rw, false, 0, []⟩, ⟨12, 4, .rw, false, 0, []⟩, ⟨16, 16, .rw, false, 0, []⟩]⟩,
  ⟨"RD_PHY", 2, 256, 2, .any, [⟨0, 1, .rw, false, 0, []⟩, ⟨1, 5, .rw, false, 0, []⟩, ⟨6, 5, .rw, false, 0, []⟩, ⟨11, 1, .rw, false, 0, []⟩, ⟨32, 16, .rw, false, 0, []⟩, ⟨48, 16, .rw, false, 0, []⟩]⟩]

/-- Tables of the slt gate. -/
def tabSlt : List TabRow := [
  ⟨"CMEM_DS", 1, 32768, 1, .page, [⟨0, 1, .rw, false, 0, []⟩, ⟨1, 10, .rw, false, 0, []⟩, ⟨11, 12, .rw, false, 0, []⟩]⟩,
  ⟨"CMEM_US", 2, 32768, 1, .page, [⟨0, 1, .rw, false, 0, []⟩, ⟨1, 10, .rw, false, 0, []⟩, ⟨11, 12, .rw, false, 0, []⟩]⟩,
  ⟨"CIRCUIT", 3, 1024, 6, .any, [⟨0, 1, .rw, false, 0, []⟩, ⟨1, 1, .rw, false, 0, []⟩, ⟨2, 1, .rw, false, 0, []⟩, ⟨3, 2, .rw, false, 0, [(0, 2)]⟩, ⟨5, 2, .rw, false, 0, []⟩, ⟨7, 2, .rw, false, 0, []⟩, ⟨9, 1, .rw, false, 0, []⟩, ⟨10, 1, .rw, false, 0, []⟩, ⟨12, 4, .rw, false, 0, [(1, 8)]⟩, ⟨16, 5, .rw, false, 0, [(2, 16)]⟩, ⟨21, 7, .rw, false, 0, [(2, 64)]⟩, ⟨32, 13, .rw, false, 0, [(1, 4096)]⟩, ⟨48, 10, .rw, false, 0, []⟩, ⟨64, 8, .rw, false, 0, []⟩, ⟨72, 8, .rw, false, 0, []⟩, ⟨80, 7, .rw, false, 0, [(0, 100)]⟩, ⟨87, 9, .rw, false, 0, []⟩, ⟨96, 16, .rw, false, 0, []⟩, ⟨128, 32, .rw, false, 0, []⟩, ⟨160, 16, .rw, false, 0, []⟩]⟩,
  ⟨"CIRCUIT_STATE", 4, 1024, 8, .never, [⟨0, 1, .ro, false, 0, []⟩, ⟨1, 1, .ro, false, 0, []⟩, ⟨2, 1, .ro, false, 0, []⟩, ⟨3, 1, .ro, false, 0, []⟩, ⟨4, 1, .ro, false, 0, []⟩, ⟨5, 1, .ro, false, 0, []⟩, ⟨6, 3, .ro, false, 0, []⟩, ⟨16, 8, .ro, false, 0, []⟩, ⟨32, 32, .ro, false, 0, []⟩, ⟨64, 32, .ro, false, 0, []⟩, ⟨96, 32, .ro, false, 0, []⟩, ⟨128, 32, .ro, false, 0, []⟩, ⟨160, 32, .ro, false, 0, []⟩, ⟨192, 32, .ro, false, 0, []⟩, ⟨224, 32, .ro, false, 0, []⟩]⟩]

/-- Tables of the tim gate. -/
def tabTim : List TabRow := [
  ⟨"SLOT", 1, 64, 6, .any, [⟨0, 1, .rw, false, 0, []⟩, ⟨1, 1, .rw, false, 0, []⟩, ⟨2, 2, .rw, false, 0, []⟩, ⟨4, 2, .rw, false, 0, []⟩, ⟨8, 8, .rw, false, 0, []⟩, ⟨32, 30, .rw, false, 0, []⟩, ⟨64, 32, .rw, false, 0, []⟩, ⟨96, 16, .rw, false, 0, []⟩, ⟨128, 30, .rw, false, 0, [(0, 0), (1000, 1000000000)]⟩, ⟨160, 32, .ro, false, 0, []⟩]⟩]

/-- Tables of the sub gate. -/
def tabSub : List TabRow := [
  ⟨"GCL", 1, 512, 2, .gcl, [⟨0, 8, .rw, false, 0, []⟩, ⟨32, 30, .rw, false, 0, [(1, 1000000000)]⟩]⟩]

/-- Tables of the ctl gate. -/
def tabCtl : List TabRow := [
  ⟨"MBX_CFG", 1, 256, 2, .any, [⟨0, 1, .rw, false, 0, []⟩, ⟨1, 1, .rw, false, 0, []⟩, ⟨2, 5, .rw, false, 0, []⟩, ⟨8, 8, .rw, false, 0, []⟩, ⟨16, 4, .rw, false, 0, []⟩, ⟨20, 1, .rw, false, 0, []⟩, ⟨21, 11, .rw, false, 0, []⟩, ⟨32, 4, .rw, false, 0, []⟩, ⟨36, 1, .rw, false, 0, []⟩, ⟨37, 11, .rw, false, 0, []⟩]⟩,
  ⟨"DB_CFG", 2, 1024, 1, .any, [⟨0, 5, .rw, false, 0, []⟩, ⟨5, 1, .rw, false, 0, []⟩, ⟨6, 4, .rw, false, 0, []⟩, ⟨10, 1, .rw, false, 0, []⟩, ⟨11, 11, .rw, false, 0, []⟩]⟩,
  ⟨"SUB_RING", 3, 16384, 1, .any, [⟨0, 1, .rw, false, 0, []⟩, ⟨1, 10, .rw, false, 0, []⟩]⟩]

/-- Tables of the cip gate. -/
def tabCip : List TabRow := [
  ⟨"LINE_KEY", 1, 16, 8, .commitOnly, [⟨0, 128, .key, false, 0, []⟩, ⟨128, 1, .rw, false, 0, []⟩, ⟨129, 1, .ro, false, 0, []⟩, ⟨130, 1, .ro, false, 0, []⟩, ⟨192, 64, .ro, false, 0, []⟩]⟩,
  ⟨"SECY", 2, 65, 12, .any, [⟨0, 2, .rw, false, 0, []⟩, ⟨2, 2, .rw, false, 2, [(0, 2)]⟩, ⟨4, 1, .rw, false, 1, []⟩, ⟨5, 1, .rw, false, 0, []⟩, ⟨6, 1, .rw, false, 1, []⟩, ⟨8, 2, .rw, false, 0, []⟩, ⟨10, 1, .rw, false, 0, []⟩, ⟨12, 6, .rw, false, 0, []⟩, ⟨20, 2, .ro, false, 0, []⟩, ⟨32, 32, .rw, false, 0, []⟩, ⟨64, 64, .rw, false, 0, []⟩, ⟨256, 2, .rw, false, 0, []⟩, ⟨128, 64, .rw, false, 0, []⟩, ⟨192, 64, .rw, false, 0, []⟩]⟩,
  ⟨"MACSEC_SA", 3, 1040, 16, .commitOnly, [⟨0, 256, .key, false, 0, []⟩, ⟨256, 96, .key, false, 0, []⟩, ⟨352, 32, .rw, false, 0, []⟩, ⟨384, 1, .rw, false, 0, []⟩, ⟨416, 64, .rw, false, 0, []⟩]⟩,
  ⟨"CVE_KEY", 4, 32, 16, .any, [⟨0, 384, .key, false, 0, []⟩, ⟨384, 1, .rw, false, 0, []⟩, ⟨385, 1, .rw, false, 0, []⟩, ⟨386, 1, .rw, false, 0, []⟩, ⟨387, 1, .ro, false, 0, []⟩, ⟨388, 6, .rw, false, 0, [(16, 48)]⟩, ⟨416, 32, .rw, false, 0, []⟩, ⟨448, 32, .rw, false, 0, []⟩, ⟨480, 32, .ro, false, 0, []⟩]⟩]

/-- Tables of the twn gate. -/
def tabTwn : List TabRow := [
  ⟨"QMAP", 1, 65536, 1, .any, [⟨0, 1, .rw, false, 0, []⟩, ⟨1, 18, .rw, false, 0, []⟩]⟩,
  ⟨"DS_Q", 2, 512, 1, .any, [⟨0, 1, .rw, false, 0, []⟩, ⟨1, 18, .rw, false, 0, []⟩]⟩,
  ⟨"PHY_SEL", 3, 64, 2, .any, [⟨0, 1, .rw, false, 0, []⟩, ⟨1, 5, .rw, false, 0, []⟩, ⟨6, 5, .rw, false, 0, []⟩, ⟨11, 1, .rw, false, 0, []⟩, ⟨32, 16, .rw, false, 0, []⟩, ⟨48, 16, .rw, false, 0, []⟩]⟩]

/-- Tables of the pm gate. -/
def tabPm : List TabRow := [
  ⟨"ALARM_TYPE", 1, 32, 1, .any, [⟨0, 2, .rw, false, 0, []⟩, ⟨2, 1, .rw, false, 0, []⟩, ⟨4, 12, .rw, false, 0, []⟩, ⟨16, 12, .rw, false, 0, []⟩]⟩,
  ⟨"ALARM_STATE", 2, 32768, 2, .any, [⟨0, 1, .ro, false, 0, []⟩, ⟨1, 1, .ro, false, 0, []⟩, ⟨2, 1, .rw, false, 0, []⟩, ⟨32, 32, .ro, false, 0, []⟩]⟩,
  ⟨"PM_OBJ", 3, 1540, 1, .any, [⟨0, 1, .rw, false, 0, []⟩, ⟨1, 4, .rw, false, 0, []⟩, ⟨5, 1, .rw, false, 0, []⟩, ⟨6, 14, .rw, false, 0x3E8, winMs⟩, ⟨20, 1, .rw, false, 0, []⟩]⟩,
  ⟨"TCA_PROF", 4, 16, 32, .any, [⟨64, 448, .rw, false, 0, []⟩, ⟨576, 448, .rw, false, 0, []⟩]⟩,
  ⟨"CUR", 5, 3080, 16, .never, [⟨0, 512, .ro, false, 0, []⟩]⟩,
  ⟨"BW", 6, 1540, 8, .never, [⟨0, 32, .ro, false, 0, []⟩, ⟨64, 64, .ro, false, 0, []⟩, ⟨128, 64, .ro, false, 0, []⟩, ⟨192, 32, .ro, false, 0, []⟩, ⟨224, 32, .ro, false, 0, []⟩, ⟨32, 30, .ro, false, 0, []⟩, ⟨63, 1, .ro, false, 0, []⟩]⟩]

/-- Tables of the til gate. -/
def tabTil : List TabRow := [
  ⟨"GLEANER", 1, 32768, 8, .never, [⟨0, 256, .ro, false, 0, []⟩]⟩]

/-- Tables of the eng gate. -/
def tabEng : List TabRow := [
  ⟨"IMEM", 1, 1024, 16, .engOff, [⟨0, 512, .rw, false, 0, []⟩]⟩,
  ⟨"DMEM", 2, 2048, 16, .engOff, [⟨0, 512, .rw, false, 0, []⟩]⟩,
  ⟨"CMEM", 3, 16384, 16, .any, [⟨0, 512, .rw, false, 0, []⟩]⟩]

/-- The tables behind gate `g`. -/
def tables (g : Nat) : List TabRow :=
  if g < 4 then tabTrk
  else if 600 ≤ g then tabEng
  else if g = 590 then tabTil
  else if 16 ≤ g then tabSub
  else match g with
  | 4 => tabShf
  | 5 => tabThr
  | 6 => tabGrn
  | 7 => tabTms
  | 8 => tabSrd
  | 9 => tabSlt
  | 10 => tabTim
  | 11 => tabCtl
  | 12 => tabCip
  | 13 => tabTwn
  | 14 => tabPm
  | _ => []

end Sys2Proof.Machine
end

