-- ==== Sys2Proof/Machine/Ops.lean ====
section
/-!
DEFINITION. The named operations on the state: registers and their fields, tables, counters, the external memory
window, free values, what leaves the terminal, and the lifecycle every startable function follows (R60).
-/
namespace Sys2Proof.Machine

/-- A state changed by `f` when `c` holds. -/
def Hw.onlyIf (s : Hw) (c : Prop) [Decidable c] (f : Hw → Hw) : Hw := if c then f s else s

/-- `f` applied for each element of a list, in order. -/
def Hw.forAll {α : Type} (s : Hw) (l : List α) (f : Hw → α → Hw) : Hw := l.foldl f s

/-! ## The external memory (R45) -/

/-- The byte at offset `a` of the window. -/
def Memory.read (m : List Host.Cell) (a : Nat) : Byte := Sparse.get memDefault m a

/-- A run of octets stored from offset `a` on, lowest first. -/
def Memory.store (m : List Host.Cell) (a : Nat) : Bytes → List Host.Cell
  | [] => m
  | b :: t => Memory.store (Sparse.set memDefault m a b) (a + 1) t

/-- The 64-bit little-endian value at offset `a`. -/
def Memory.addr64 (m : List Host.Cell) (a : Nat) : Nat := leNat ((List.range 8).map (fun i => Memory.read m (a + i)))

/-- One write carried out; a buffer whose address lies outside the window is not written. -/
def Memory.put (m : List Host.Cell) (a : Nat) (bs : Bytes) : List Host.Cell := Memory.store m a bs

/-- Where a logged write goes, and what it writes. -/
def MemW.resolve (m : List Host.Cell) : MemW → Nat × Bytes
  | .put a bs => (a, bs)
  | .via d bs =>
    let a := Memory.addr64 m d
    if 0x1000000000 ≤ a ∧ a + bs.length ≤ 0x1800000000 then (a - 0x1000000000, bs) else (0, [])

/-- Channel `ch` beside its registers. -/
def GrnSt.ch (g : GrnSt) (r : Nat) : Dram := g.dram.get {} r

/-- Line `l` of the window (64 octets) is lost for good: its page, or the spare slot its page went to, was on a channel
that failed after another had been retired (R255, R259). -/
def GrnSt.lineLost (g : GrnSt) (l : Nat) : Bool :=
  let ch := l / 64 % 4
  let k := l / 64 / 4
  let moved := decide (k < (g.ch ch).copied) || (g.ch ch).lossFrom.isSome
  if moved then (g.ch ((ch + 1 + k % 3) % 4)).lost else (g.ch ch).lost

/-- Line `l` reads as an uncorrectable error; `clean` are the lines rewritten since. -/
def GrnSt.linePoisoned (g : GrnSt) (clean : List Nat) (l : Nat) : Bool :=
  g.lineLost l || (match (g.ch (l / 64 % 4)).lossFrom with
    | some k => decide (k ≤ l / 64 / 4) && !clean.contains l
    | none => false)

/-- The lines that `n` octets from offset `a` touch. -/
def linesOf (a n : Nat) : List Nat := if n = 0 then [] else (List.range ((a + n - 1) / 64 - a / 64 + 1)).map (fun i => a / 64 + i)

/-- One logged write with what it does to poisoned lines: each is filled with zeros first and is clean (R259). -/
def Memory.one (g : GrnSt) (x : List Host.Cell × List Nat) (w : MemW) : List Host.Cell × List Nat :=
  let r := w.resolve x.1
  let bad := if g.dram.isEmpty then [] else (linesOf r.1 r.2.length).filter (fun l => g.linePoisoned x.2 l)
  let m := bad.foldl (fun m l => Memory.put m (l * 64) (List.replicate 64 0)) x.1
  (Memory.put m r.1 r.2, bad ++ x.2)

/-- The writes of a log carried out, the earliest (last in the list) first. -/
def Memory.apply (g : GrnSt) (m : List Host.Cell) (clean : List Nat) : List MemW → List Host.Cell × List Nat
  | [] => (m, clean)
  | w :: t => Memory.one g (Memory.apply g m clean t) w

/-- A write of the command in hand to external memory. -/
def Hw.memWrite (s : Hw) (a : Nat) (bs : Bytes) : Hw := { s with wlog := .put a bs :: s.wlog }

/-- A write of the command in hand into the buffer that the descriptor at offset `d` names. -/
def Hw.memVia (s : Hw) (d : Nat) (bs : Bytes) : Hw := { s with wlog := .via d bs :: s.wlog }

/-- The byte at offset `a`. -/
def Hw.memByte (_ : Hw) (m : List Host.Cell) (a : Nat) : Byte := Memory.read m a

/-- `n` octets from offset `a`. -/
def Hw.memBytes (s : Hw) (m : List Host.Cell) (a n : Nat) : Bytes := (List.range n).map (fun i => s.memByte m (a + i))

/-- Some line of the `n` octets from offset `a` is poisoned. -/
def Hw.poisoned (s : Hw) (a n : Nat) : Bool :=
  !s.grn.dram.isEmpty && (linesOf a n).any (fun l => s.grn.linePoisoned s.clean l)

/-! ## The register map (R44, R48) -/

/-- An offset falls on an instance of a repeated register. -/
def inDims : List (Nat × Nat) → Nat → Bool
  | [], off => off == 0
  | d :: t, off => decide (off / d.2 < d.1) && inDims t (off % d.2)

/-- Address `a` is an instance of the row. -/
def RegRow.covers (r : RegRow) (a : Nat) : Bool := decide (r.base ≤ a) && inDims r.dims (a - r.base)

/-- The rows of the window that holds `a` (R44), the common headers apart. -/
def regRows (a : Nat) : List RegRow :=
  if a < 0x100000 then mapGlb
  else if a < 0x200000 then mapPwr
  else if a < 0x1000000 then mapSrd
  else if a < 0x1400000 then (match a % 0x100000 / 0x1000 with | 1 => mapTrk | 2 => mapDln | _ => mapAct)
  else if a < 0x2000000 then mapShf
  else if a < 0x2800000 then (if a < 0x2002000 then mapPrs else mapCls)
  else if a < 0x3000000 then mapGrn
  else if a < 0x4000000 then mapTms
  else if a < 0x4800000 then mapSub
  else if a < 0x5000000 then mapSlt
  else if a < 0x5800000 then mapTim
  else if a < 0x6000000 then mapTil
  else if a < 0x7000000 then mapEng
  else if a < 0x7400000 then mapCtl
  else if a < 0x7800000 then mapRing
  else if a < 0x8000000 then mapHsk
  else if a < 0x8800000 then mapCip
  else if a < 0x9000000 then mapTwn
  else mapPm

/-- The row that assigns address `a`; none where no chapter assigns it (R44: reserved). -/
def rowAt (a : Nat) : Option RegRow :=
  match (regRows a).find? (fun r => r.covers a) with
  | some r => some r
  | none => mapHdr.find? (fun r => r.covers a)

/-- The word a row's register holds after PORN (R19). -/
def RegRow.resetWord (r : RegRow) : Word :=
  r.fields.foldl (fun w f => setField w f.lo f.width f.reset) 0#32

/-- What address `a` holds after reset. THR_PRS_CFG of instance A differs from instance B in QUAR_Q (spec/07). -/
def resetWord (a : Nat) : Word :=
  if a = 0x2001000 then BitVec.ofNat 32 (65536 + 262144)
  else match rowAt a with
    | some r => r.resetWord
    | none => 0#32

/-! ## Registers -/

/-- The word held at register address `a`. -/
def Hw.word (s : Hw) (a : Nat) : Word := s.regs.get (resetWord a) a

/-- Puts a word at register address `a`. -/
def Hw.setWord (s : Hw) (a : Nat) (w : Word) : Hw :=
  { s with regs := s.regs.set (resetWord a) a w }

/-- The value of a register field. -/
def Hw.rd (s : Hw) (f : FRef) : Nat := getField (s.word f.addr) f.lo f.width

/-- A register field set to a value (modulo its width). -/
def Hw.wr (s : Hw) (f : FRef) (v : Nat) : Hw :=
  s.setWord f.addr (setField (s.word f.addr) f.lo f.width v)

/-- The signed value of a register field. -/
def Hw.rdS (s : Hw) (f : FRef) : Int := signed f.width (s.rd f)

/-- The bin counter that follows the counter at an address (R510): object and word of its record. -/
def pmKey (a : Nat) : Option (Nat × Nat) :=
  if 0x1000000 ≤ a ∧ a < 0x1400000 then
    let c := (a - 0x1000000) / 0x100000
    if a = TRK_FEC_CW.A c then some (c, 2)
    else if a = TRK_FEC_CW_CORR.A c then some (c, 4)
    else if a = TRK_FEC_BITS_CORR.A c then some (c, 6)
    else if a = TRK_FEC_CW_UNCORR.A c then some (c, 12)
    else none
  else if 0x4000000 ≤ a ∧ a < 0x4200000 then
    let p := (a - 0x4000000) / 0x1000
    let is := fun (l : List Nat) => l.any (fun n => SUB_PORT_CNT.A p n == a)
    if a = SUB_RX_FRAMES.A p then some (1028 + p, 2)
    else if a = SUB_RX_BYTES.A p then some (1028 + p, 4)
    else if a = SUB_TX_FRAMES.A p then some (1028 + p, 6)
    else if a = SUB_TX_BYTES.A p then some (1028 + p, 8)
    else if is [0, 1, 2, 3, 4] then some (1028 + p, 10)
    else if is [10, 11, 12, 13, 14] then some (1028 + p, 11)
    else if is [8] then some (1028 + p, 12)
    else if is [6] then some (1028 + p, 13)
    else none
  else none

/-- `n` events of a kind happen to performance object `o` (R510, R517): kinds 2-13 are words of its record, 20 LOF, 21
unavailable (LODS, SF), 22 a frame played as 0xFF, 23 link down, 24 no longer in service, 40 and 41 GEM frames received
and sent. -/
def Hw.note (s : Hw) (o kind : Nat) (n : Nat := 1) : Hw := { s with pm := { s.pm with notes := s.pm.notes ++ [(o, kind, n)] } }

/-- The bins follow the counter at address `a`. -/
def Hw.noteAt (s : Hw) (a n : Nat) : Hw := match pmKey a with
  | some k => s.note k.1 k.2 n
  | none => s

/-- Adds to a counter that saturates at the top of its field (RC counters, spec/03 to spec/20). -/
def Hw.count (s : Hw) (f : FRef) (n : Nat := 1) : Hw :=
  (s.wr f (satAdd (s.rd f) n (2 ^ f.width - 1))).noteAt f.addr n

/-- Adds to the 64-bit counter whose lo half is at `a`, wrapping at 2^(32 + hiWidth) (R51). -/
def Hw.count64 (s : Hw) (a : Nat) (n : Nat := 1) (hiWidth : Nat := 32) : Hw :=
  let v := (s.word (a + 4)).toNat * 2 ^ 32 + (s.word a).toNat + n
  ((s.setWord a (BitVec.ofNat 32 v)).setWord (a + 4) (BitVec.ofNat 32 (v / 2 ^ 32 % 2 ^ hiWidth))).noteAt a n

/-- The value of the 64-bit counter whose lo half is at `a`. -/
def Hw.val64 (s : Hw) (a : Nat) : Nat := (s.word (a + 4)).toNat * 2 ^ 32 + (s.word a).toNat

/-- Every register whose address satisfies `q` returns to its reset value (R64). -/
def Hw.resetRegs (s : Hw) (q : Nat → Bool) : Hw := { s with regs := s.regs.drop q }

/-! ## Tables (R52) -/

/-- What a table word reads as before anything is written: 0, but for the entries whose fields have a reset value
(SECY, spec/16; PM_OBJ and ALARM_TYPE, spec/20). -/
def tabReset (k : Nat) : Word :=
  if k % 64 ≠ 0 then 0#32
  else match k / 64 / 1048576 with
    | 386 => BitVec.ofNat 32 (2 * 4 + 16 + 64)
    | 451 => BitVec.ofNat 32 (1000 * 64)
    | 449 => alarmTypeReset (k / 64 % 1048576)
    | _ => 0#32
where
  /-- SEV, RAISE_SOAK and CLEAR_SOAK of an alarm type after reset (spec/20, alarm types and defaults). -/
  alarmTypeReset (t : Nat) : Word :=
    let row : Nat × Nat × Nat := alarmDefault t
    BitVec.ofNat 32 (row.1 + row.2.1 * 16 + row.2.2 * 65536)
  /-- severity, raise soak and clear soak (in 10 ms) of the alarm types -/
  alarmDefault (t : Nat) : Nat × Nat × Nat :=
    ([(0, 0, 0), (0, 25, 100), (0, 25, 100), (1, 1500, 100), (1, 0, 10), (0, 0, 0), (0, 0, 0), (0, 0, 0), (1, 25, 100),
      (1, 25, 100), (2, 25, 100), (2, 25, 100), (2, 25, 100), (1, 0, 0), (1, 25, 100), (0, 0, 0), (0, 0, 100),
      (2, 100, 100), (2, 100, 100), (1, 0, 0), (0, 0, 0), (1, 0, 0), (1, 0, 0), (3, 0, 100), (3, 0, 0)] : List _).getD t (0, 0, 0)

/-- The word held at a table key. -/
def Hw.tabWord (s : Hw) (k : Nat) : Word := s.tabs.get (tabReset k) k

/-- Puts a word at a table key. -/
def Hw.setTabWord (s : Hw) (k : Nat) (w : Word) : Hw :=
  { s with tabs := s.tabs.set (tabReset k) k w }

/-- The value of `n` consecutive table words, the first least significant. -/
def Hw.tabWords (s : Hw) (k : Nat) : Nat → Nat
  | 0 => 0
  | n + 1 => (s.tabWord k).toNat + 2 ^ 32 * Hw.tabWords s (k + 1) n

/-- Stores a value over `n` consecutive table words, least significant first. -/
def Hw.setTabWords (s : Hw) (k : Nat) : Nat → Nat → Hw
  | 0, _ => s
  | n + 1, v => Hw.setTabWords (s.setTabWord k (BitVec.ofNat 32 v)) (k + 1) n (v / 2 ^ 32)

/-- The value of an entry field. -/
def Hw.t (s : Hw) (r : TRef) : Nat :=
  bitsOf (s.tabWords (r.base + r.lo / 32) ((r.lo % 32 + r.width + 31) / 32)) (r.lo % 32) r.width

/-- The signed value of an entry field. -/
def Hw.tS (s : Hw) (r : TRef) : Int := signed r.width (s.t r)

/-- An entry field set to a value, the entry's other bits kept. -/
def Hw.ts (s : Hw) (r : TRef) (v : Nat) : Hw :=
  let n := (r.lo % 32 + r.width + 31) / 32
  let k := r.base + r.lo / 32
  s.setTabWords k n (putBits (s.tabWords k n) (r.lo % 32) r.width v)

/-- The first of `n` entries from index `i` on that satisfies `p`. -/
def firstFrom (p : Nat → Bool) : Nat → Nat → Option Nat
  | 0, _ => none
  | n + 1, i => if p i then some i else firstFrom p n (i + 1)

/-- The entries of a table that differ from their reset value, in ascending index (table `id` of gate `g`). -/
def Hw.listed (s : Hw) (g id : Nat) : List Nat :=
  (s.tabs.filterMap (fun p => if p.1 / 64 / 1048576 = g * 32 + id then some (p.1 / 64 % 1048576) else none)).eraseDups

/-! ## Free values, outputs -/

/-- The next free value of a use `tag`; `drawn` advances to the one after it (log entry 3). -/
def Hw.draw (s : Hw) (tag : Nat) : Nat := Config.free tag s.freeCtr

/-- The state in which the next free value has been drawn. -/
def Hw.drawn (s : Hw) : Hw := { s with freeCtr := s.freeCtr + 1 }

/-- Something leaves the terminal. -/
def Hw.emit (s : Hw) (o : Out) : Hw := { s with outs := o :: s.outs }

/-- The result of a read. -/
def Hw.answer (s : Hw) (w : Word) : Hw := { s with rdata := w }

/-! ## Typed state per instance -/

def Hw.opt (s : Hw) (c : Nat) : Optics := s.trk.optics.get {} c
def Hw.modOpt (s : Hw) (c : Nat) (f : Optics → Optics) : Hw :=
  { s with trk := { s.trk with optics := s.trk.optics.set {} c (f (s.opt c)) } }
def Hw.dln (s : Hw) (c : Nat) : Dln := s.trk.dln.get {} c
def Hw.modDln (s : Hw) (c : Nat) (f : Dln → Dln) : Hw :=
  { s with trk := { s.trk with dln := s.trk.dln.set {} c (f (s.dln c)) } }
def Hw.act (s : Hw) (c : Nat) : Act := s.trk.act.get {} c
def Hw.modAct (s : Hw) (c : Nat) (f : Act → Act) : Hw :=
  { s with trk := { s.trk with act := s.trk.act.set {} c (f (s.act c)) } }
def Hw.mbr (s : Hw) (g c : Nat) : Member := s.shf.members.get {} (4 * g + c)
def Hw.modMbr (s : Hw) (g c : Nat) (f : Member → Member) : Hw :=
  { s with shf := { s.shf with members := s.shf.members.set {} (4 * g + c) (f (s.mbr g c)) } }
def Hw.grp (s : Hw) (g : Nat) : Group := s.shf.groups.get {} g
def Hw.modGrp (s : Hw) (g : Nat) (f : Group → Group) : Hw :=
  { s with shf := { s.shf with groups := s.shf.groups.set {} g (f (s.grp g)) } }
def Hw.queue (s : Hw) (q : Nat) : Queue := s.grn.queues.get {} q
def Hw.modQueue (s : Hw) (q : Nat) (f : Queue → Queue) : Hw :=
  { s with grn := { s.grn with queues := s.grn.queues.set {} q (f (s.queue q)) } }
def Hw.dramCh (s : Hw) (r : Nat) : Dram := s.grn.dram.get {} r
def Hw.modDram (s : Hw) (r : Nat) (f : Dram → Dram) : Hw :=
  { s with grn := { s.grn with dram := s.grn.dram.set {} r (f (s.dramCh r)) } }
def Hw.meter (s : Hw) (m : Nat) : Meter := s.tms.meters.get {} m
def Hw.modMeter (s : Hw) (m : Nat) (f : Meter → Meter) : Hw :=
  { s with tms := { s.tms with meters := s.tms.meters.set {} m (f (s.meter m)) } }
def Hw.bucket (s : Hw) (k : Nat) : Bucket := s.tms.buckets.get {} k
def Hw.setBucket (s : Hw) (k : Nat) (b : Bucket) : Hw :=
  { s with tms := { s.tms with buckets := s.tms.buckets.set {} k b } }
def Hw.round (s : Hw) (k : Nat) : Round := s.tms.rounds.get {} k
def Hw.setRound (s : Hw) (k : Nat) (r : Round) : Hw :=
  { s with tms := { s.tms with rounds := s.tms.rounds.set {} k r } }
def Hw.deficit (s : Hw) (k : Nat) : Int := s.tms.deficit.get 0 k
def Hw.setDeficit (s : Hw) (k : Nat) (v : Int) : Hw :=
  { s with tms := { s.tms with deficit := s.tms.deficit.set 0 k v } }
def Hw.port (s : Hw) (p : Nat) : Port := s.sub.ports.get {} p
def Hw.modPort (s : Hw) (p : Nat) (f : Port → Port) : Hw :=
  { s with sub := { s.sub with ports := s.sub.ports.set {} p (f (s.port p)) } }
def Hw.lane (s : Hw) (l : Nat) : Lane := s.sub.lanes.get {} l
def Hw.modLane (s : Hw) (l : Nat) (f : Lane → Lane) : Hw :=
  { s with sub := { s.sub with lanes := s.sub.lanes.set {} l (f (s.lane l)) } }
def Hw.mdio (s : Hw) (m : Nat) : Mdio := s.sub.mdio.get {} m
def Hw.modMdio (s : Hw) (m : Nat) (f : Mdio → Mdio) : Hw :=
  { s with sub := { s.sub with mdio := s.sub.mdio.set {} m (f (s.mdio m)) } }

end Sys2Proof.Machine
end

