-- ==== Sys2Proof/Machine/Flags.lean ====
section
/-!
DEFINITION. Status bits, pending interrupts, the roll-up into GLB_INT_SUMMARY and its delivery (R48, R49, R57, R58).
-/
namespace Sys2Proof.Machine

/-- Base address of a block or block instance (R44). -/
def Blk.base : Blk → Nat
  | .glb => 0
  | .pwr => 0x100000
  | .srd => 0x200000
  | .lane l => 0x210000 + l.val * 0x10000
  | .trk c => 0x1000000 + c.val * 0x100000
  | .shf => 0x1800000
  | .thr => 0x2000000
  | .grn => 0x2800000
  | .tms => 0x3000000
  | .sub p => 0x4000000 + p.val * 0x1000
  | .slt => 0x4800000
  | .tim => 0x5000000
  | .til => 0x5800000
  | .eng e => 0x6000000 + e.val * 0x10000
  | .ctl => 0x7000000
  | .hsk => 0x7800000
  | .cip => 0x8000000
  | .twn => 0x8800000
  | .pm => 0x9000000

/-- The GLB_INT_SUMMARY bit that rolls up the block whose header is at `b` (spec/02). -/
def summaryBit (b : Nat) : Nat :=
  if b < 0x100000 then 0
  else if b < 0x200000 then 1
  else if b < 0x1000000 then 2
  else if b < 0x1800000 then 3 + (b - 0x1000000) / 0x100000
  else if b < 0x2000000 then 7
  else if b < 0x2800000 then 8
  else if b < 0x3000000 then 9
  else if b < 0x4000000 then 10
  else if b < 0x4800000 then 11
  else if b < 0x5000000 then 12
  else if b < 0x5800000 then 13
  else if b < 0x6000000 then 14
  else if b < 0x7000000 then 15
  else if b < 0x7800000 then 16
  else if b < 0x8000000 then 17
  else if b < 0x8800000 then 18
  else if b < 0x9000000 then 19
  else 20

/-- The block whose header is at `b` has a pending status bit: status 1 and enable 1 (R49). -/
def Hw.blkPending (s : Hw) (b : Nat) : Bool := (s.word b &&& s.word (b + 4)) != 0#32

/-- Address `a` is the BLK_INT_STATUS of some block. -/
def isStatusAddr (a : Nat) : Bool :=
  if a < 0x200000 then a % 0x100000 == 0
  else if a < 0x1000000 then a % 0x10000 == 0
  else if a < 0x1800000 then a % 0x100000 == 0
  else if a < 0x4000000 then a % 0x800000 == 0
  else if a < 0x4800000 then a % 0x1000 == 0
  else if a < 0x6000000 then a % 0x800000 == 0
  else if a < 0x7000000 then a % 0x10000 == 0
  else a % 0x800000 == 0

/-- Summary bit `n`: some block it rolls up has a pending bit. BLK_INT_STATUS registers reset to 0, so every block
with a status bit set is listed in the store. -/
def Hw.summary (s : Hw) (n : Nat) : Bool :=
  s.regs.any (fun p => isStatusAddr p.1 && summaryBit p.1 == n && s.blkPending p.1)

/-- The word GLB_INT_SUMMARY reads. -/
def Hw.summaryWord (s : Hw) : Word :=
  (List.range 21).foldl (fun w n => setField w n 1 (b2n (s.summary n))) 0#32

/-- Word `i` of the pending bits of 32 instances whose headers start at `base` with stride `st`. -/
def Hw.pendWord (s : Hw) (base st n i : Nat) : Word :=
  (List.range 32).foldl (fun w j =>
    setField w j 1 (b2n (decide (32 * i + j < n) && s.blkPending (base + (32 * i + j) * st)))) 0#32

/-- Word `w` of entry `v` of the MSI-X table. PCI Express masks every vector at reset, and gives address and data no reset
value: they read 0 (PRESUMED, log entry 147). -/
def Hw.msixWord (s : Hw) (v w : Nat) : Word := s.ctl.msix.get (if w = 3 then 1#32 else 0#32) (4 * v + w)

/-- The message of vector `v` is sent; a masked vector becomes pending (R389). -/
def Hw.msix (s : Hw) (v : Nat) : Hw :=
  if (s.msixWord v 3).toNat % 2 = 1 then
    { s with ctl := { s.ctl with msixPend := v :: s.ctl.msixPend.filter (· != v) } }
  else s.emit (.msix v ((s.msixWord v 1).toNat * 2 ^ 32 + (s.msixWord v 0).toNat) (s.msixWord v 2).toNat)

/-- A word of the MSI-X table is written; a pending vector that is unmasked sends its message. -/
def Hw.msixWrite (s : Hw) (v w : Nat) (x : Word) : Hw :=
  let kept : Word := if w = 3 then x &&& 1#32 else if w = 0 then x &&& ~~~3#32 else x
  let s := { s with ctl := { s.ctl with msix := s.ctl.msix.set (if w = 3 then 1#32 else 0#32) (4 * v + w) kept } }
  if (s.msixWord v 3).toNat % 2 = 0 ∧ s.ctl.msixPend.contains v = true then
    ({ s with ctl := { s.ctl with msixPend := s.ctl.msixPend.filter (· != v) } }).msix v
  else s

/-- Word `i` of the MSI-X pending-bit array. -/
def Hw.pbaWord (s : Hw) (i : Nat) : Word :=
  (List.range 32).foldl (fun w j => setField w j 1 (b2n (s.ctl.msixPend.contains (32 * i + j)))) 0#32

/-- An MSI-X message for summary bit `n`, where its route sends one (R57). -/
def Hw.routeMsix (s : Hw) (n : Nat) : Hw :=
  s.onlyIf (s.rd (GLB_INT_ROUTE.MSIX_EN n) = 1) (fun s => s.msix (s.rd (GLB_INT_ROUTE.MSIX_VEC n)))

/-- A change `f` of the status or enable word of the block at `b`; the summary bit's rise from 0 to 1 is delivered. -/
def Hw.statusChange (s : Hw) (b : Nat) (f : Hw → Hw) : Hw :=
  let before := s.summary (summaryBit b)
  let s' := f s
  if s'.summary (summaryBit b) && !before then s'.routeMsix (summaryBit b) else s'

/-- A hardware event sets bit `bit` of the BLK_INT_STATUS at `b` (R48, R49). -/
def Hw.raise (s : Hw) (b bit : Nat) : Hw :=
  s.statusChange b (fun s => s.wr ⟨b, bit, 1⟩ 1)

/-- Control core `i` sees a level interrupt (R57). -/
def Hw.coreIrq (s : Hw) (i : Nat) : Bool :=
  (List.range 21).any (fun n => s.summary n && bitN (s.rd (GLB_INT_ROUTE.CORE_MASK n)) i == 1)

/-- INT_N is asserted: a summary bit with INTN_EN = 1 is 1 (R57). -/
def Hw.intN (s : Hw) : Bool :=
  (List.range 21).any (fun n => s.summary n && s.rd (GLB_INT_ROUTE.INTN_EN n) == 1)

/-! ## Power domains (R44, R64, R470) -/

/-- Condition of domain `d`: 0 ON, 1 RET, 2 OFF, 3 changing. -/
def Hw.cond (s : Hw) (d : Nat) : Nat := s.rd ⟨PWR_DOM_STATE.A (d / 16), 2 * (d % 16), 2⟩

/-- Puts domain `d` in a condition. -/
def Hw.setCond (s : Hw) (d c : Nat) : Hw := s.wr ⟨PWR_DOM_STATE.A (d / 16), 2 * (d % 16), 2⟩ c

/-- A domain soft reset of domain `d` runs (R64). -/
def Hw.inReset (s : Hw) (d : Nat) : Bool := decide (2 ≤ d) && s.rd ⟨GLB_SOFT_RESET.A, d, 1⟩ == 1

/-- Domain `d` has its clock: it is on and in no reset. -/
def Hw.domRuns (s : Hw) (d : Nat) : Bool := s.cond d == 0 && !s.inReset d

/-- TIM runs: its domain is on, not in reset, and the terminal is out of reset (R336). -/
def Hw.timRuns (s : Hw) : Bool := s.domRuns 31 && s.hsk.phase != .held

/-! ## The lifecycle of every startable function (R60, R61) -/

/-- Address of the control register that holds a function's ENABLE in bit 0. -/
def Fn.ctl : Fn → Nat
  | .trk c => TRK_PMA_CTRL.A c.val
  | .member g c => SHF_MBR_CTRL.A g.val c.val
  | .lane l => SRD_LANE_CTRL.A l.val
  | .port p => SUB_PORT_CTRL.A p.val
  | .page p => SLT_PAGE_CTRL.A p.val
  | .engine e => ENG_CTRL.A e.val
  | .ring d r => RING_CTRL.A d.val r.val
  | .twinLink => TWN_CTRL.A

/-- Address of the status register that holds a function's lifecycle fields. -/
def Fn.sts : Fn → Nat
  | .trk c => TRK_PMA_STATUS.A c.val
  | .member g c => SHF_MBR_STATUS.A g.val c.val
  | .lane l => SRD_LANE_STATUS.A l.val
  | .port p => SUB_PORT_STATUS.A p.val
  | .page p => SLT_PAGE_STATUS.A p.val
  | .engine e => ENG_STATUS.A e.val
  | .ring d r => RING_STATUS.A d.val r.val
  | .twinLink => TWN_STATUS.A

/-- Header address of the block whose LIFECYCLE_DONE the function sets. -/
def Fn.blk : Fn → Nat
  | .trk c => 0x1000000 + c.val * 0x100000
  | .member _ _ => 0x1800000
  | .lane l => 0x210000 + l.val * 0x10000
  | .port p => 0x4000000 + p.val * 0x1000
  | .page _ => 0x4800000
  | .engine e => 0x6000000 + e.val * 0x10000
  | .ring _ _ => 0x7000000
  | .twinLink => 0x8800000

abbrev Fn.ENABLE (f : Fn) : FRef := ⟨f.ctl, 0, 1⟩
abbrev Fn.STATE (f : Fn) : FRef := ⟨f.sts, 0, 2⟩
abbrev Fn.RP (f : Fn) : FRef := ⟨f.sts, 2, 1⟩
abbrev Fn.HELD (f : Fn) : FRef := ⟨f.sts, 3, 1⟩

/-- OFF 0, STARTING 1, ON 2, STOPPING 3. -/
abbrev Hw.st (s : Hw) (f : Fn) : Nat := s.rd f.STATE

/-- The effective enable: ENABLE and not HELD (R60). -/
def Hw.effEnable (s : Hw) (f : Fn) : Bool := s.rd f.ENABLE == 1 && s.rd f.HELD == 0

/-- Where a function's captured copy of a register lies: under the register's address, or, for a register that several
functions capture for themselves, in copy `k` beside it. -/
def capKey (a k : Nat) : Nat := a + (k + 1) * 2 ^ 32

/-- Registers whose values are captured on entry to STARTING (R61; the fields each chapter calls captured), each with the
key of its copy: a member captures SHF_JOIN_CFG for itself, a lane its word of TIM_SYNCE_LANES (R346). -/
def Fn.captured (f : Fn) : List (Nat × Nat) :=
  let own := fun (l : List Nat) => l.map (fun a => (a, a))
  match f with
  | .trk c => own [TRK_PMA_CTRL.A c.val, TRK_GUARD_CFG.A c.val, TRK_RX_BOUNDS.A c.val]
  | .member g c => own [SHF_MBR_CTRL.A g.val c.val] ++ [(SHF_JOIN_CFG.A, capKey SHF_JOIN_CFG.A (4 * g.val + c.val))]
  | .lane l => own [SRD_LANE_CTRL.A l.val, SRD_RD_CFG.A l.val, SRD_LANE_EQ.A l.val] ++ [(TIM_SYNCE_LANES.A (l.val / 32), capKey (TIM_SYNCE_LANES.A (l.val / 32)) l.val)]
  | .port p => own [SUB_PORT_CTRL.A p.val]
  | .page _ => []
  | .engine e => own ([ENG_ENTRY.A e.val, ENG_TRAP.A e.val] ++ (List.range 8).map (fun n => ENG_PERF_SEL.A e.val n))
  | .ring d r => own [RING_BASE_LO.A d.val r.val, RING_BASE_HI.A d.val r.val, RING_CTRL.A d.val r.val, RING_INT.A d.val r.val]
  | .twinLink => own (TWN_CTRL.A :: (List.range 8).flatMap (fun i => [SRD_LANE_CTRL.A (64 + i), SRD_LANE_EQ.A (64 + i)]))

/-- Copies a function's configuration as its entry to STARTING captures it (R61). -/
def Hw.capture (s : Hw) (f : Fn) : Hw :=
  f.captured.foldl (fun s e => { s with cap := s.cap.set (resetWord e.1) e.2 (s.word e.1) }) s

/-- A captured field; before any capture, its reset value. -/
def Hw.capRd (s : Hw) (f : FRef) : Nat := getField (s.cap.get (resetWord f.addr) f.addr) f.lo f.width

/-- A captured field of copy `k` of a register several functions capture. -/
def Hw.capOwn (s : Hw) (k : Nat) (f : FRef) : Nat := getField (s.cap.get (resetWord f.addr) (capKey f.addr k)) f.lo f.width

/-- The effective enable has become 1: OFF to STARTING with capture, or RESTART_PENDING while STOPPING (R60). -/
def Hw.lcUp (s : Hw) (f : Fn) : Hw :=
  if s.st f = 0 then (s.wr f.STATE 1).capture f
  else if s.st f = 3 then s.wr f.RP 1
  else s

/-- The bins of a channel or port that leaves ON are suspect (R511). -/
def Hw.noteDown (s : Hw) : Fn → Hw
  | .trk c => s.note c.val 24
  | .port p => s.note (1028 + p.val) 24
  | _ => s

/-- The effective enable has become 0: STARTING or ON to STOPPING, or RESTART_PENDING cleared (R60). -/
def Hw.lcDown (s : Hw) (f : Fn) : Hw :=
  if s.st f = 1 ∨ s.st f = 2 then (s.noteDown f).wr f.STATE 3
  else if s.st f = 3 then s.wr f.RP 0
  else s

/-- The start condition is met: STARTING to ON, LIFECYCLE_DONE set (R60). -/
def Hw.lcOn (s : Hw) (f : Fn) : Hw :=
  if s.st f = 1 then (s.wr f.STATE 2).raise f.blk EV.LIFECYCLE_DONE else s

/-- Stop and flushes are complete: STOPPING to OFF with LIFECYCLE_DONE, or to STARTING under RESTART_PENDING (R60). -/
def Hw.lcOff (s : Hw) (f : Fn) : Hw :=
  if s.st f = 3 then
    if s.rd f.RP = 1 then ((s.wr f.STATE 1).wr f.RP 0).capture f
    else (s.wr f.STATE 0).raise f.blk EV.LIFECYCLE_DONE
  else s

end Sys2Proof.Machine
end

