-- ==== Sys2Proof/Machine/PmCore.lean ====
section
/-!
DEFINITION. The alarm log, the current performance bins and their thresholds (R509-R513, R517), and what ends every
command: the events it counted enter the bins, and its writes reach external memory.
-/
namespace Sys2Proof.Machine

def Hw.pmRaise (s : Hw) (bit : Nat) : Hw := s.raise 0x9000000 bit

/-- Local time: TIM's, or AON's while TIM does not run (R336). -/
def Hw.localTime (s : Hw) : LTime := if s.timRuns then s.tim.now else s.aon.time

/-! ## The log (R509) -/

/-- The log changes; LEVEL follows. -/
def Hw.setLog (s : Hw) (l : List (List Word)) : Hw := ({ s with pm := { s.pm with log := l } }).wr PM_LOG.LEVEL l.length

/-- An entry at the local time now; one that finds the log full is lost. -/
def Hw.logWrite (s : Hw) (w0 w3 : Nat) : Hw :=
  let t := s.localTime
  if s.pm.log.length < 256 then
    s.setLog (s.pm.log ++ [[BitVec.ofNat 32 w0, BitVec.ofNat 32 t.sec, BitVec.ofNat 32 t.ns, BitVec.ofNat 32 w3]])
  else ((s.count (PM_CNT.COUNT 0)).wr PM_LOG.OVF_STICKY 1).pmRaise EV_PM.LOG_OVF_EV

/-- A threshold crossing of word `w` of object `o`, daily when `k` is 1: raised or cleared (R513). -/
def Hw.logTca (s : Hw) (o k w : Nat) (up : Bool) : Hw :=
  s.logWrite (b2n up * 2 ^ 15 + 3 * 2 ^ 16 + 2 ^ 18) (o + w * 2 ^ 12 + k * 2 ^ 16)

/-! ## Current bins (R510-R513) -/

/-- The bins of object `o` (R510). -/
def Hw.pmObj (s : Hw) (o : Nat) : PmObj := s.pm.objs.get {} o
def Hw.modObj (s : Hw) (o : Nat) (f : PmObj → PmObj) : Hw :=
  { s with pm := { s.pm with objs := s.pm.objs.set {} o (f (s.pmObj o)) } }

/-- Counter `w` of an object's record: 64 bits wide for the low words of the trunk and port pairs. -/
def Hw.pmCounter (_ : Hw) (o k w : Nat) : TRef :=
  let wide := decide ((o < 4 ∧ w ≤ 10) ∨ (1028 ≤ o ∧ w ≤ 8))
  ⟨CUR.E (o * 2 + k), 32 * w, if wide then 64 else 32⟩

/-- A counter that has reached its threshold for the first time in its bin. -/
def Hw.pmThreshold (s : Hw) (o k w : Nat) : Hw :=
  let th := (s.tabWord (TCA_PROF.E (s.t (PM_OBJ.TCA_PROF o)) + 16 * k + w)).toNat
  if s.t (PM_OBJ.TCA_EN o) = 1 ∧ th ≠ 0 ∧ th ≤ s.t (s.pmCounter o k w) ∧ s.pm.tca.contains (o, k, w) = false then
    let s := { s with pm := { s.pm with tca := s.pm.tca ++ [(o, k, w)] } }
    ((s.logTca o k w true).count (PM_CNT.COUNT 2)).pmRaise EV_PM.TCA_EV
  else s

/-- Counter `w` of both current bins of object `o` advances. -/
def Hw.pmAdd (s : Hw) (o w : Nat) (n : Nat := 1) : Hw :=
  s.forAll [0, 1] (fun s k =>
    let r := s.pmCounter o k w
    (s.ts r (satAdd (s.t r) n (2 ^ r.width - 1))).pmThreshold o k w)

/-- Counters of an object's record, by word. -/
def pmWords (o : Nat) : List Nat :=
  if o < 4 then [2, 4, 6, 8, 10, 12, 13, 14, 15] else if o < 1028 then [2, 3, 4, 5, 6, 7, 8, 9]
  else [2, 4, 6, 8, 10, 11, 12, 13, 14, 15]

/-- Every counter of an object against its threshold, which may have changed (R513). -/
def Hw.tcaJudge (s : Hw) (o : Nat) : Hw :=
  s.forAll [0, 1] (fun s k => s.forAll (pmWords o) (fun s w => s.pmThreshold o k w))

/-- What an event of a kind does beside its counter: the second's conditions, and the bandwidth window. -/
def PmObj.note (x : PmObj) (o kind n : Nat) : PmObj :=
  let trunk := decide (o < 4)
  match kind with
  | 12 => if trunk then { x with uncorr := x.uncorr + n } else x
  | 20 => { x with lof := true }
  | 21 => { x with unavail := true }
  | 22 => { x with ff := x.ff + n }
  | 23 => { x with down := true }
  | 24 => { x with suspect15 := true, suspect24 := true }
  | 40 => { x with rxFrames := x.rxFrames + n }
  | 41 => { x with txFrames := x.txFrames + n }
  | 2 => if 1028 ≤ o then { x with rxFrames := x.rxFrames + n } else x
  | 4 => if 1028 ≤ o then { x with rxBytes := x.rxBytes + n } else x
  | 6 => if 1028 ≤ o then { x with txFrames := x.txFrames + n } else x
  | 8 => if trunk then { x with rxBytes := x.rxBytes + n } else if 1028 ≤ o then { x with txBytes := x.txBytes + n } else x
  | 10 => if trunk then { x with txBytes := x.txBytes + n } else if 1028 ≤ o then { x with err := true } else x
  | _ => x

/-- One event noted by the command in hand; PM holds its bins while CTL does not run (R518). -/
def Hw.pmNote (s : Hw) (e : Nat × Nat × Nat) : Hw :=
  let o := e.1
  let en := s.t (PM_OBJ.EN o) == 1
  if s.domRuns 2 && (en || s.t (PM_OBJ.WIN_EN o) == 1) then
    let s := s.modObj o (fun x => x.note o e.2.1 e.2.2)
    s.onlyIf (en = true ∧ e.2.1 < 14) (fun s => s.pmAdd o e.2.1 e.2.2)
  else s

/-- The events of the command in hand enter the bins. -/
def Hw.settleBins (h : Hw) : Hw :=
  if h.pm.notes = [] then h
  else ({ h with pm := { h.pm with notes := [] } }).forAll h.pm.notes Hw.pmNote

/-! ## The end of a command -/

/-- The state after a command that leaves the logic at `h`: what it counted is in the bins and its writes to external
memory are carried out. -/
def State.finish (s : State) (h : Hw) : State :=
  let r := Memory.apply h.grn s.mem h.clean h.wlog
  { s with hw := { h.settleBins with wlog := [], clean := r.2 }, mem := r.1 }

/-- A command whose effect lies in the terminal's logic and what that writes to memory: the next state. -/
def State.on (s : State) (f : Hw → Hw) : Host.Outcome State Fault Refusal := .next (s.finish (f s.hw))

/-- A command that also reads the external memory. -/
def State.onMem (s : State) (f : List Host.Cell → Hw → Hw) : Host.Outcome State Fault Refusal :=
  .next (s.finish (f s.mem s.hw))

end Sys2Proof.Machine
end

