-- ==== Sys2Proof/Machine/Operands.lean ====
section
/-!
DEFINITION. Register accesses: who may reach what (R44-R47, R412, R413, R557), access errors and their capture
(R46, R59), the wake of a sleeping domain (R47, R481), and the effect of a plain write on the fields of a register
(R16, R18). Every command that is a register access passes through `Hw.onAccess`.
-/
namespace Sys2Proof.Machine

/-! ## Masters -/

/-- Master ID (R59). -/
def Master.id : Master → Nat
  | .core i => i.val
  | .engine e => 0x10 + e.val
  | .host => 0x60
  | .jtag => 0x61
  | .twin => 0x70
  | .husk => 0x7F

/-- The hi-half latch a master uses: one per control core, one for all engines, one each for the others (R50). -/
def Master.latch : Master → Nat
  | .core i => i.val
  | .engine _ => 4
  | .host => 5
  | .jtag => 6
  | .twin => 7
  | .husk => 8

/-- Secure entity 64 is in force with VALIDATE = strict: it protects, and its transmit association is valid
(R412; log entry 10). -/
def Hw.twinSecure (s : Hw) : Bool :=
  s.t (SECY.PROTECT 64) == 1 && s.t (SECY.VALIDATE 64) == 2 &&
    s.t (MACSEC_SA.VALID (64 * 16 + s.t (SECY.CUR_AN 64))) == 1

/-- The class of a master (R412). -/
def Hw.secure (s : Hw) : Master → Bool
  | .core _ => true
  | .engine _ => false
  | .host => false
  | .jtag => decide (s.rd HSK_STATUS.LIFECYCLE < 2)
  | .twin => s.twinSecure
  | .husk => true

/-! ## Power domains (R44, R470) -/

/-- The domains that hold the register at `a` (R44, R557); the shared part of THR is held by two. -/
def domsOf (a : Nat) : List Nat :=
  if a < 0x200000 then [0]
  else if a < 0x210000 then [12]
  else if a < 0x1000000 then
    let n := (a - 0x210000) / 0x10000
    if n < 64 then [19 + n / 8] else if n < 72 then [28] else [29]
  else if a < 0x1400000 then [15 + (a - 0x1000000) / 0x100000]
  else if a < 0x2000000 then [11]
  else if a < 0x2800000 then
    if (0x2001000 ≤ a ∧ a < 0x2001100) ∨ (0x2001400 ≤ a ∧ a < 0x2001500) then [11]
    else if (0x2001100 ≤ a ∧ a < 0x2001200) ∨ (0x2001500 ≤ a ∧ a < 0x2001600) then [12]
    else [11, 12]
  else if a < 0x3000000 then [14]
  else if a < 0x4000000 then [13]
  else if a < 0x4800000 then
    let p := (a - 0x4000000) / 0x1000
    if p < 512 then [19 + p / 64] else [12]
  else if a < 0x5000000 then [27]
  else if a < 0x5800000 then [31]
  else if a < 0x6000000 then [12]
  else if a < 0x7000000 then [3 + (a - 0x6000000) / 0x10000 / 8]
  else if a < 0x7800000 then [2]
  else if a < 0x8000000 then [1]
  else if a < 0x8800000 then [30]
  else if a < 0x9000000 then [28]
  else if a < 0xA000000 then [2]
  else [14]

/-- Every domain that holds `a` is off (R46, R557). -/
def Hw.domOff (s : Hw) (a : Nat) : Bool := (domsOf a).all (fun d => s.cond d == 2)

/-! ## The local clock, its source and CLKOUT (R335, R336, R340, R346, R347) -/

/-- The alignment machine is in SYNC. -/
def Hw.inSync (s : Hw) (c : Nat) : Bool := s.rd (TRK_DLN_STATUS.SYNC_STATE c) == 2

/-- The source channel is enabled and in SYNC (R335, R340). -/
def Hw.srcSync (s : Hw) : Bool := s.rd TIM_CTRL.SRC_EN == 1 && s.inSync (s.rd TIM_CTRL.SRC_CH)

/-- SRC_SYNC, INC_FRAC and the DPLL follow the source (R340, R346; log entry 18). The DPLL locks to a source in SYNC that
has not been found more than 50 ppm off since it came into SYNC. -/
def Hw.timSource (s : Hw) : Hw :=
  if s.cond 31 ≠ 0 then s
  else
    let ok := s.srcSync
    let s := s.wr TIM_STATUS.SRC_SYNC (b2n ok)
    let s := s.wr TIM_INC_FRAC.INC
      (if ok = true ∧ s.rd TIM_STATUS.STATE ≠ 2 then 0 else s.tim.freqMem.getD 0)
    let off := ok && s.tim.offRate
    let was := s.rd TIM_STATUS.DPLL_STATE
    let now := if ok && !off then 1 else if s.tim.dpllLocked then 2 else 0
    let s := { s with tim := { s.tim with dpllLocked := s.tim.dpllLocked || (ok && !off), offRate := off } }
    if was = now then s else (s.wr TIM_STATUS.DPLL_STATE now).raise 0x5000000 EV_TIM.DPLL_CHANGE

/-- What TIM_CTRL asks of CLKOUT: low while TIM does not run or CLKOUT_EN is 0. -/
def Hw.clkWants (s : Hw) : ClkOut :=
  if s.timRuns = false ∨ s.rd TIM_CTRL.CLKOUT_EN = 0 then .low
  else if s.rd TIM_CTRL.CLKOUT_FREQ = 0 then .mhz10 else .mhz25

def Hw.setClkOut (s : Hw) (v : ClkOut) : Hw :=
  if s.tim.clkOut = v then s else ({ s with tim := { s.tim with clkOut := v } }).emit (.clkOut v)

/-- CLKOUT follows; a change of frequency holds it low for 1 µs first (R347). -/
def Hw.clkSync (s : Hw) : Hw :=
  let v := s.clkWants
  if s.tim.clkOut ≠ .low ∧ v ≠ .low ∧ s.tim.clkOut ≠ v then
    ({ s with tim := { s.tim with clkHold := s.clk + 1000 } }).setClkOut .low
  else if v ≠ .low ∧ s.clk < s.tim.clkHold then s
  else s.setClkOut v

/-- The local clock starts from the time AON kept, in state FREE, and what depends on its source follows (R335, R336,
R340). -/
def Hw.timStart (s : Hw) : Hw :=
  let was := s.rd TIM_STATUS.STATE
  let s := { s with tim := { s.tim with now := s.aon.time, pps := s.aon.time.sec } }
  let s := s.wr TIM_STATUS.STATE 0
  ((if was = 0 then s else s.raise 0x5000000 EV_TIM.STATE_CHANGE).timSource).clkSync

/-- The time passes to AON when TIM stops running, and CLKOUT falls (R336, R347). -/
def Hw.timToAon (s : Hw) : Hw :=
  if s.timRuns then ({ s with aon := { s.aon with time := s.tim.now } }).setClkOut .low else s

/-- The delay lists take their ticks from the cycle count, TIM being off or in reset (R373). -/
def Hw.ticksFallBack (s : Hw) : Hw :=
  if s.cond 12 = 2 then s
  else s.forAll (List.range 4) (fun s i =>
    s.onlyIf (s.rd (TIL_TICK.FALLBACK i) = 0) (fun s => (s.wr (TIL_TICK.FALLBACK i) 1).raise 0x5800000 EV_TIL.TICK_FALLBACK_EV))

/-- TIM stops running. -/
def Hw.timStops (s : Hw) : Hw := if s.timRuns then s.timToAon.ticksFallBack else s

/-! ## Who waits for a domain (R400-R406) -/

def Hw.ctlRaise (s : Hw) (bit : Nat) : Hw := s.raise 0x7000000 bit

/-- The domain of a master ID (R401); none for JTAG and Husk. -/
def masterDom (id : Nat) : Option Nat :=
  if id < 4 then some 2
  else if 0x10 ≤ id ∧ id < 0x50 then some (3 + (id - 0x10) / 8)
  else if id = 0x60 then some 29
  else if id = 0x70 then some 28
  else none

/-- Generation of a domain (R401). -/
def Hw.gen (s : Hw) (d : Nat) : Nat := s.aon.gens.get 0 d

/-- The generation a master's message is stamped with. -/
def Hw.masterGen (s : Hw) (id : Nat) : Nat := match masterDom id with
  | some d => s.gen d
  | none => 0

/-- A domain's generation advances. -/
def Hw.nextGen (s : Hw) (d : Nat) : Hw := { s with aon := { s.aon with gens := s.aon.gens.set 0 d ((s.gen d + 1) % 256) } }

/-- A domain is off or in reset. -/
def Hw.domDown (s : Hw) (d : Nat) : Bool := s.cond d == 2 || s.inReset d

def Hw.mbx (s : Hw) (ch : Nat) : Mbx := s.ctl.mbx.get {} ch
/-- A channel changes; LEVEL follows. -/
def Hw.setMbx (s : Hw) (ch : Nat) (x : Mbx) : Hw :=
  ({ s with ctl := { s.ctl with mbx := s.ctl.mbx.set {} ch x } }).wr (MBX_RX_STATUS.LEVEL ch) x.msgs.length

/-- The receiver is notified (R402). -/
def Hw.mbxNotify (s : Hw) (ch : Nat) : Hw :=
  let s := s.onlyIf (s.t (MBX_CFG.RX_CORES ch) ≠ 0) (fun s => s.ctlRaise EV_CTL.MBX_RX)
  s.onlyIf (s.t (MBX_CFG.RX_MSIX_EN ch) = 1) (fun s => s.msix (s.t (MBX_CFG.RX_VEC ch)))

/-- The empty interrupt of a channel reaches its sender, or is held while the sender's domain is off or in reset
(R403-R405). -/
def Hw.mbxEmptyInt (s : Hw) (ch : Nat) : Hw :=
  let x := s.mbx ch
  let down := match masterDom x.sender with
    | some d => s.domDown d
    | none => false
  if down then s.setMbx ch { x with due := true }
  else
    let s := s.onlyIf (s.t (MBX_CFG.TX_CORES ch) ≠ 0) (fun s => s.ctlRaise EV_CTL.MBX_EMPTY)
    (s.onlyIf (s.t (MBX_CFG.TX_MSIX_EN ch) = 1) (fun s => s.msix (s.t (MBX_CFG.TX_VEC ch)))).setMbx ch { x with due := false }

/-- A pending doorbell is delivered while its target domain is on. -/
def Hw.dbDeliver (s : Hw) (n : Nat) : Hw :=
  if s.cond (s.t (DB_CFG.TGT_DOM n)) = 0 ∧ s.inReset (s.t (DB_CFG.TGT_DOM n)) = false then
    let s := s.onlyIf (s.t (DB_CFG.CORE_MASK n) ≠ 0) (fun s => s.ctlRaise EV_CTL.DB)
    s.onlyIf (s.t (DB_CFG.MSIX_EN n) = 1) (fun s => s.msix (s.t (DB_CFG.VEC n)))
  else s

/-- Domain `d` is on again: held empty interrupts, messages and doorbells for it are delivered (R400, R405, R406). -/
def Hw.domainUp (s : Hw) (d : Nat) : Hw :=
  let s := s.forAll (s.ctl.mbx.map Prod.fst) (fun s ch =>
    let x := s.mbx ch
    let s := s.onlyIf (x.due = true ∧ masterDom x.sender = some d) (fun s => s.mbxEmptyInt ch)
    s.onlyIf (s.t (MBX_CFG.RX_DOM ch) = d ∧ x.msgs ≠ []) (fun s => s.mbxNotify ch))
  s.forAll ((List.range 1024).filter (fun n => s.rd ⟨MBX_DB_PEND.A (n / 32), n % 32, 1⟩ == 1 && s.t (DB_CFG.TGT_DOM n) == d))
    (fun s n => s.dbDeliver n)

/-- Domain `d` runs again: with TIM the local clock starts, with CTL the current bins are SUSPECT (R511), and what waited
for the domain is delivered. -/
def Hw.domainBegins (s : Hw) (d : Nat) : Hw :=
  let s := s.onlyIf (d = 31) (·.timStart)
  let s := s.onlyIf (d = 14) (fun s => { s with grn := { s.grn with selfRefresh := false } })
  let s := s.onlyIf (d = 2) (fun s => s.forAll (s.listed 14 3) (fun s o => s.onlyIf (s.t (PM_OBJ.EN o) = 1) (fun s => s.note o 24)))
  s.domainUp d

/-- The soft reset of domain `d` ends (R64); that of PCIE not while PERST_N is low (R527). -/
def Hw.endReset (s : Hw) (d : Nat) : Hw :=
  if s.inReset d = true ∧ ¬(d = 29 ∧ s.pins.perst = false) then (s.wr ⟨GLB_SOFT_RESET.A, d, 1⟩ 0).domainBegins d else s

/-- Domain `d` wakes alone (R47, R400, R406, R481); with domain TIM the local clock starts again. -/
def Hw.wakeOne (s : Hw) (d : Nat) : Hw :=
  if s.cond d = 1 then
    let s := s.setCond d 0
    let s := { s with pwr := { s.pwr with woken := d :: s.pwr.woken } }
    s.domainBegins d
  else s

/-- An access wakes domain `d`, which is counted (R481). -/
def Hw.wakeByAccess (s : Hw) (d : Nat) : Hw :=
  if s.cond d = 1 then (s.wakeOne d).count PWR_ACCESS_WAKES.COUNT else s

/-- The stall of an access: a soft reset of its domain ends, a sleeping domain is woken (R47). -/
def Hw.settle (s : Hw) (a : Nat) : Hw :=
  s.forAll (domsOf a) (fun s d => (s.endReset d).wakeByAccess d)

/-! ## Access errors (R46) -/

/-- First address of the external memory window (R45). -/
abbrev extBase : Nat := 0x1000000000

/-- Installed LPDDR5X capacity of the window in bytes: the shared parts of the four channels (R45, R255;
log entry 11). -/
def Hw.extBytes (s : Hw) : Nat := 4 * s.rd GRN_DRAM_CFG.SHARED * 0x4000000

/-- The register at `a` is secure (R413). Gate accesses to secure table entries are judged with the table. -/
def secureAddr (a : Nat) : Bool :=
  decide (a = GLB_CHIP_RESET.A ∨ a = GLB_SOFT_RESET.A
    ∨ (0x10000C ≤ a ∧ a < 0x200000 ∧ ¬ (a = PWR_STATE_STATUS.A ∨ a = PWR_DOM_STATE.A 0 ∨ a = PWR_DOM_STATE.A 1
        ∨ a = PWR_AVS_STATUS.A))
    ∨ (0x1000000 ≤ a ∧ a < 0x1400000 ∧
        (a % 0x100000 = 0x3008 ∨ a % 0x100000 = 0x300C ∨ a % 0x100000 = 0x3028 ∨ a % 0x100000 = 0x3030
          ∨ a % 0x100000 = 0x3034))
    ∨ (0x780000C ≤ a ∧ a < 0x8000000 ∧ a ≠ HSK_STATUS.A)
    ∨ a = CIP_CFG.A
    ∨ (MBX_SEND.A 128 ≤ a ∧ a < MBX_SEND.A 256)
    ∨ (MBX_RX_STATUS.A 128 ≤ a ∧ a < MBX_RX_STATUS.A 256))

/-- The gate whose BLK_TBL_SEL is in the block based at `b` (numbering of Machine/TabMap). -/
def gateOf (b : Nat) : Nat :=
  if b < 0x1000000 then 8
  else if b < 0x1800000 then (b - 0x1000000) / 0x100000
  else if b < 0x2000000 then 4
  else if b < 0x2800000 then 5
  else if b < 0x3000000 then 6
  else if b < 0x4000000 then 7
  else if b < 0x4800000 then 16 + (b - 0x4000000) / 0x1000
  else if b < 0x5000000 then 9
  else if b < 0x5800000 then 10
  else if b < 0x6000000 then 590
  else if b < 0x7000000 then 600 + (b - 0x6000000) / 0x10000
  else if b < 0x7800000 then 11
  else if b < 0x8800000 then 12
  else if b < 0x9000000 then 13
  else 14

/-- The entry a gate command on the block at `b` selects is secure (R413): CIP tables 1-3, SECURE_ONLY check-value
keys, mailbox channels 128-255. -/
def Hw.secureEntry (s : Hw) (b : Nat) : Bool :=
  let id := (s.word (b + 0x40)).toNat
  let x := (s.word (b + 0x44)).toNat
  if b = 0x8000000 then
    decide (1 ≤ id ∧ id ≤ 3) || (id == 4 && decide (x < 32) && s.t (CVE_KEY.SECURE_ONLY x) == 1)
  else if b = 0x7000000 then id == 1 && decide (128 ≤ x ∧ x < 256)
  else false

/-- Base of the block instance whose gate registers lie at `a`, when `a` is its BLK_TBL_CMD. -/
def gateCmdBase (a : Nat) : Option Nat :=
  if a % 0x1000 = 0x48 ∧ 0x200000 ≤ a ∧ a < 0xA000000 then some (a - 0x48) else none

/-- Addresses reserved for some masters only: an engine reaches its own instance of the ENG window alone, through its
alias, and ENG_CMD with its arguments no other master does (R360, spec/14); before HANDOFF the host reaches no register
but HSK_STATUS, to read it (R488). -/
def Hw.reservedFor (s : Hw) (m : Master) (a : Nat) (write : Bool) : Bool :=
  let eng := decide (0x6000000 ≤ a ∧ a < 0x7000000)
  match m with
  | .engine e => eng && (a - 0x6000000) / 0x10000 != e.val
  | .host => (eng && decide (0x2000 ≤ a % 0x10000 ∧ a % 0x10000 < 0x2014))
      || (s.rd HSK_STATUS.HANDOFF == 0 && (write || a != HSK_STATUS.A))
  | _ => eng && decide (0x2000 ≤ a % 0x10000 ∧ a % 0x10000 < 0x2014)

/-- Reason code of the access error of R46 an access meets, 0 for none; the checks in the order of the codes
(log entry 12). An access wider than 32 bits, or one of another width to the external window, is ALIGN, and the external
window is RESERVED to the host and to the twin: the spec gives neither a code (DEDUCED). -/
def Hw.accessError (s : Hw) (m : Master) (a size : Nat) (write : Bool) : Nat :=
  if size ≠ 4 ∨ a % 4 ≠ 0 then 1
  else if a < 0x10000000 then
    match rowAt a with
    | none => 2
    | some _ =>
      if s.reservedFor m a write then 2
      else if s.domOff a then 3
      else if secureAddr a && !s.secure m then 4
      else match gateCmdBase a with
        | some b => if write && s.secureEntry b && !s.secure m then 4 else 0
        | none => 0
  else if a < extBase ∨ extBase + 0x800000000 ≤ a then 2
  else match m with
    | .host => 2
    | .twin => 2
    | _ => if s.extBytes ≤ a - extBase then 5 else 0

/-- GLB_BUS_ERR_INFO of a captured error: its master, direction and reason, and VALID. -/
def busErrInfo (m : Master) (write : Bool) (reason : Nat) : Word :=
  BitVec.ofNat 32 (m.id + b2n write * 256 + reason * 512 + 2 ^ 31)

/-- Logs an access error (R46, "Bus error capture"). -/
def Hw.busError (s : Hw) (m : Master) (a : Nat) (write : Bool) (reason : Nat) : Hw :=
  let s := s.count GLB_BUS_ERR_COUNT.COUNT
  if s.rd GLB_BUS_ERR_INFO.VALID = 1 then s
  else
    let s := s.setWord GLB_BUS_ERR_INFO.A (busErrInfo m write reason)
    let s := s.setWord GLB_BUS_ERR_ADDR.A (BitVec.ofNat 32 a)
    let s := s.wr GLB_BUS_ERR_ADDR_HI.ADDR_HI (a / 2 ^ 32)
    s.raise 0 EV_GLB.BUS_ERR

/-- Event `code` happens `k` times on engine `e`: the counters that select it advance modulo 2^48, and a wrap with OVF_INT
sets PERF_OVF (R381). EVENT is live, the other fields are as captured (R61). -/
def Hw.perf (s : Hw) (e code : Nat) (k : Nat := 1) : Hw :=
  let type := (((s.til.engs.get {} e).run.map (fun t => (t.desc.getD 0 0#32).toNat % 4096)).getD 4096)
  s.forAll (List.range 8) (fun s n =>
    if s.rd (ENG_PERF_SEL.EVENT e n) = code ∧ (s.capRd (ENG_PERF_SEL.TYPE_EN e n) = 0 ∨ s.capRd (ENG_PERF_SEL.TYPE e n) = type) then
      let a := ENG_PERF_CNT.A e n
      let wraps := 2 ^ 48 ≤ s.val64 a + k
      let s := s.count64 a k 16
      s.onlyIf (wraps ∧ s.capRd (ENG_PERF_SEL.OVF_INT e n) = 1) (fun s => s.raise (0x6000000 + e * 0x10000) EV_ENG.PERF_OVF)
    else s)

/-- Registers of an engine's own instance that its alias does not write (R382). -/
def aliasCloses (m : Master) (a : Nat) : Bool :=
  match m with
  | .engine e => a == ENG_CTRL.A e || a == ENG_ENTRY.A e || a == ENG_RUN_LIMIT.A e || a == ENG_PERF_USER.A e
      || decide (ENG_PERF_SEL.A e 0 ≤ a ∧ a < ENG_PERF_SEL.A e 8)
  | _ => false

/-- The master is a control core that Husk holds in reset (R415, R496). -/
def Hw.coreHeld (s : Hw) : Master → Bool
  | .core _ => s.hsk.cores.isNone
  | _ => false

/-- The logic takes no access of master `m`: it is held in reset (R485, R542, R547), TEST_MODE has been captured and `m` is
not JTAG (R63), or `m` is a control core in reset. -/
def Hw.deaf (s : Hw) (m : Master) : Bool :=
  s.hsk.phase == .held || (s.rd GLB_STRAP.TEST_MODE == 1 && m != .jtag) || s.coreHeld m

/-- A register access that is a command of its own: the error of R46, or the wake of R47 and then `f`. An erroring
access reads 0 and writes nothing. -/
def Hw.onAccess (s : Hw) (m : Master) (a : Nat) (write : Bool) (f : Hw → Hw) : Hw :=
  if s.deaf m then s.answer 0#32
  else
    let s := match m with
      | .engine e => s.perf e 0x0C
      | _ => s
    match s.accessError m a 4 write with
    | 0 => f (s.settle a)
    | r + 1 => (s.busError m a write (r + 1)).answer 0#32

/-! ## Plain writes (R16, R18) -/

/-- Encoding `v` of a field is accepted (R18). -/
def FieldRow.accepts (f : FieldRow) (v : Nat) : Bool :=
  f.ok.isEmpty || f.ok.any (fun r => decide (r.1 ≤ v ∧ v ≤ r.2))

/-- What a plain write of `v` leaves in one field, by its access type. -/
def FieldRow.write (f : FieldRow) (w v : Word) : Word :=
  match f.acc with
  | .rw | .stage =>
    if !f.own && f.accepts (getField v f.lo f.width) then setField w f.lo f.width (getField v f.lo f.width) else w
  | .w1c => if f.own then w else w &&& ~~~(v &&& fieldMask f.lo f.width)
  | _ => w

/-- What a write leaves in one field when the command is the row of the register's own fields too. -/
def FieldRow.writeFull (f : FieldRow) (w v : Word) : Word :=
  match f.acc with
  | .rw => if f.accepts (getField v f.lo f.width) then setField w f.lo f.width (getField v f.lo f.width) else w
  | _ => f.write w v

/-- The word after a plain write, field by field. -/
def RegRow.write (r : RegRow) (w v : Word) : Word := r.fields.foldl (fun w f => f.write w v) w

/-- The word after a write that also reaches the fields with rows of their own. -/
def RegRow.writeFull (r : RegRow) (w v : Word) : Word := r.fields.foldl (fun w f => f.writeFull w v) w

/-- A pair that would be inverted (`bad`) keeps both old values (R18). -/
def keepPair (old w : Word) (a b : FRef) (bad : Nat → Nat → Bool) : Word :=
  if bad (getField w a.lo a.width) (getField w b.lo b.width) then
    setField (setField w a.lo a.width (getField old a.lo a.width)) b.lo b.width (getField old b.lo b.width)
  else w

/-- A field that keeps its old value unless `good`. -/
def keepField (old w : Word) (a : FRef) (good : Bool) : Word :=
  if good then w else setField w a.lo a.width (getField old a.lo a.width)

/-- Group `g` shares a channel with another group that has a member not OFF or enabled (R183; log entry 13). -/
def Hw.sharesChannel (s : Hw) (g : Nat) : Bool :=
  (List.range 4).any (fun c => s.rd (SHF_MBR_CTRL.ENABLE g c) == 1 &&
    (List.range 16).any (fun h => h != g && s.rd (SHF_MBR_CTRL.ENABLE h c) == 1))

/-- Bounds between fields and with other state that the chapters state for a register: a write that breaks one
leaves the fields concerned (R18). `r.base` names the register, `a` its instance. -/
def Hw.guardWrite (s : Hw) (base a : Nat) (old w : Word) : Word :=
  if base = TRK_PMA_CTRL.A 0 then
    -- R86
    let c := (a - base) / 0x100000
    keepField old w (TRK_PMA_CTRL.TX_ALLOW 0)
      (!(s.rd (TRK_PMA_STATUS.MOD_ABS c) == 1 && getField w 1 1 == 1))
  else if base = TRK_RX_BOUNDS.A 0 then
    -- R72
    let w := keepPair old w (TRK_RX_BOUNDS.CTLE_MIN 0) (TRK_RX_BOUNDS.CTLE_MAX 0) (fun l h => decide (h < l))
    keepPair old w (TRK_RX_BOUNDS.THR_MIN 0) (TRK_RX_BOUNDS.THR_MAX 0) (fun l h => decide (signed 6 h < signed 6 l))
  else if base = SRD_LANE_EQ.A 0 then
    -- R291
    keepPair old w (SRD_LANE_EQ.CTLE_MIN 0) (SRD_LANE_EQ.CTLE_MAX 0) (fun l h => decide (h < l))
  else if base = SRD_LANE_CTRL.A 0 then
    -- R305: RD_EN and AN_EN exclude each other
    keepField old w (SRD_LANE_CTRL.RD_EN 0) (!(getField w 9 1 == 1 && getField w 8 1 == 1))
  else if base = TRK_GUARD_STATUS.A 0 then
    -- R83: the latch is not cleared while STRIKE_LOCK = 1
    keepField old w (TRK_GUARD_STATUS.ROGUE_LATCH 0) (getField old 4 1 == 0)
  else if base = TRK_TEST_BURST.A 0 then
    keepPair old w (TRK_TEST_BURST.PERIOD 0) (TRK_TEST_BURST.LENGTH 0) (fun p l => decide (p ≤ l))
  else if base = TRK_WS_CFG.A 0 then
    keepPair old w (TRK_WS_CFG.WS_ON 0) (TRK_WS_CFG.WS_PERIOD 0) (fun on per => decide (per * 1000 ≤ on * 100))
  else if base = SHF_GRP_CFG.A 0 then
    let g := (a - base) / 0x100
    keepField old w (SHF_GRP_CFG.MODE 0) ((List.range 4).all (fun c => s.rd (SHF_MBR_STATUS.STATE g c) == 0))
  else if base = SHF_GRP_QRANGE.A 0 then
    let g := (a - base) / 0x100
    if s.rd (SHF_GRP_CFG.MODE g) = 0 ∧ getField w 0 16 % 4 ≠ 0 then old else w
  else if base = SHF_SHED_CFG.A 0 then
    let g := (a - base) / 0x100
    let w := keepPair old w (SHF_SHED_CFG.FLOOR 0) (SHF_SHED_CFG.CEIL 0) (fun f c => decide (c < f))
    let w := keepPair old w (SHF_SHED_CFG.LO_PCT 0) (SHF_SHED_CFG.HI_PCT 0) (fun l h => decide (h ≤ l))
    keepField old w (SHF_SHED_CFG.SHED_EN 0) (!(getField w 0 1 == 1 && s.sharesChannel g))
  else if base = GRN_POOL_PAUSE.A then
    keepPair old w GRN_POOL_PAUSE.POOL_XOFF GRN_POOL_PAUSE.POOL_XON (fun off on => decide (on ≤ off))
  else if base = GRN_DRAM_CFG.A then
    let up := getField old 17 1 == 0
    keepField old (keepField old (keepField old w GRN_DRAM_CFG.RATE up) GRN_DRAM_CFG.CH_SIZE up) GRN_DRAM_CFG.SHARED up
  else if base = GRN_DRAM_LOOP.A then
    keepPair old w GRN_DRAM_LOOP.REF_MIN GRN_DRAM_LOOP.REF_MAX (fun l h => decide (h < l))
  else if base = SRD_RD_CFG.A 0 then
    let w := keepPair old w (SRD_RD_CFG.RD_FLOOR 0) (SRD_RD_CFG.RD_CEIL 0) (fun l h => decide (h < l))
    keepPair old w (SRD_RD_CFG.RD_LO_PCT 0) (SRD_RD_CFG.RD_HI_PCT 0) (fun l h => decide (h ≤ l))
  else if base = SRD_MDIO_CMD.A 0 then
    -- OP 0b10 and 0b11 with CL45 = 0 are reserved
    keepField old w (SRD_MDIO_CMD.OP 0) (!(decide (2 ≤ getField w 10 2) && getField w 12 1 == 0))
  else if base = TIL_CL_THROT.A 0 then
    keepPair old w (TIL_CL_THROT.THROT_MIN 0) (TIL_CL_THROT.THROT_MAX 0) (fun l h => decide (h < l))
  else if base = PWR_AVS_CFG.A then
    keepPair old w PWR_AVS_CFG.VMIN PWR_AVS_CFG.VMAX (fun l h => decide (h < l))
  else if base = PM_REGION.A then
    keepField old w PM_REGION.PM_BLOCK (getField old 31 1 == 0 && getField w 31 1 == 0)
  else if base = THR_CTX_BASE.A then
    keepField old w THR_CTX_BASE.BLOCK (getField old 31 1 == 0 && getField w 31 1 == 0)
  else if base = THR_PRS_CFG.A 0 then
    -- QUAR_Q lies in the direction range of the instance
    let d := (a - base) / 0x100
    let q := getField w 0 18
    keepField old w (THR_PRS_CFG.QUAR_Q 0) (if d = 0 then decide (65536 ≤ q) else decide (q < 65536))
  else if base = THR_SLICE_CFG.A 0 then
    let off := getField old 0 2 == 0 && getField w 0 2 == 0
    let w := keepField old w (THR_SLICE_CFG.WIDTH 0) (off || getField w 2 2 == getField old 2 2)
    let w := keepField old w (THR_SLICE_CFG.BANK 0) (getField old 0 2 == 0)
    -- quarter 3 is reserved at width 320: the write that would bring the two together changes neither
    let w := keepField old w (THR_SLICE_CFG.QUARTER 0) (!(getField w 4 2 == 3 && getField w 2 2 == 1))
    keepField old w (THR_SLICE_CFG.WIDTH 0) (!(getField w 4 2 == 3 && getField w 2 2 == 1))
  else if base = SUB_PORT_CTRL.A 0 then
    -- R307: no secure entity on a port of a Spikelet lane
    let p := (a - base) / 0x1000
    keepField old w (SUB_PORT_CTRL.MACSEC_EN 0)
      (!(getField w 2 1 == 1 && decide (4 ≤ s.rd (SRD_LANE_CTRL.MODE (p / 8)))))
  else w

/-- A plain write of `v` to the register at `a`: every field without a row of its own follows its access type, and
the register's cross-field rules hold. A write to an AON register is also sent to the AON logic (R34). -/
def Hw.plainWrite (s : Hw) (a : Nat) (v : Word) : Hw :=
  match rowAt a with
  | none => s
  | some r =>
    let old := s.word a
    let s := s.setWord a (s.guardWrite r.base a old (r.write old v))
    if a < 0x200000 then { s with aon := { s.aon with writes := s.aon.writes ++ [(a, s.word a)] } } else s

/-- A write of `v` by the command that is the row of the register's own fields: all its fields follow their access
types. -/
def Hw.fullWrite (s : Hw) (a : Nat) (v : Word) : Hw :=
  match rowAt a with
  | none => s
  | some r =>
    let old := s.word a
    let s := s.setWord a (s.guardWrite r.base a old (r.writeFull old v))
    if a < 0x200000 then { s with aon := { s.aon with writes := s.aon.writes ++ [(a, s.word a)] } } else s

/-- An AON register, and a field of one, as the AON logic holds it (R34). -/
def Hw.aonWord (s : Hw) (a : Nat) : Word := s.aon.arrived.get (resetWord a) a
def Hw.aonRd (s : Hw) (f : FRef) : Nat := getField (s.aonWord f.addr) f.lo f.width

/-- With AVS_EN = 0 the core voltage is 0.85 V (R483). -/
def Hw.avsOff (s : Hw) : Hw :=
  s.onlyIf (s.aonRd PWR_AVS_CFG.AVS_EN = 0) (fun s =>
    { ((s.wr PWR_AVS_STATUS.VCORE 40).wr PWR_AVS_STATUS.SAFETY 0) with pwr := { s.pwr with vOver := false } })

/-- The oldest write on its way to AON arrives there. -/
def Hw.aonArrive (s : Hw) : Hw :=
  match s.aon.writes with
  | [] => s
  | w :: t =>
    let s := { s with aon := { s.aon with writes := t, arrived := s.aon.arrived.set (resetWord w.1) w.1 w.2 } }
    s.onlyIf (w.1 = PWR_AVS_CFG.A) (·.avsOff)

/-- Every write on its way to AON arrives: a command to AON that came behind them finds them there (R34). -/
def Hw.aonFlush (s : Hw) : Hw := s.forAll s.aon.writes (fun s _ => s.aonArrive)

end Sys2Proof.Machine
end

