-- ==== Sys2Proof/Machine/Granary.lean ====
section
/-!
DEFINITION. Granary buffering and ingress policing (spec/09): meters, cell accounting, admission, spill and refill,
pause from buffer state. The operations here are shared by the pipelines, the engines, the rings and the twin link.
-/
namespace Sys2Proof.Machine

/-- Granary counters (spec/09, counter assignment). -/
abbrev GRN_N.Q_INVALID := 0
abbrev GRN_N.METER_RED_DROP := 1
abbrev GRN_N.Q_LIMIT_DROP := 2
abbrev GRN_N.TAIL_DROP := 3
abbrev GRN_N.WRED_DROP := 6
abbrev GRN_N.POOL_DROP := 9
abbrev GRN_N.STAGE_DROP := 10
abbrev GRN_N.BULK_FULL_DROP := 11
abbrev GRN_N.FLUSH_DISCARD := 12
abbrev GRN_N.DRAM_CORR := 13
abbrev GRN_N.DRAM_UNCORR := 14
abbrev GRN_N.DRAM_LOST := 15
abbrev GRN_N.SPILL_ENTRIES := 16
abbrev GRN_N.PAUSE_XOFF_EVENTS := 17

/-- A Granary counter advances. -/
def Hw.grnCount (s : Hw) (n : Nat) : Hw := s.count (GRN_CNT.COUNT n)

/-- A Granary event. -/
def Hw.grnRaise (s : Hw) (bit : Nat) : Hw := s.raise 0x2800000 bit

/-- A read of external memory meets some number of errors that ECC corrects (R257). How many is the memory's doing and no
row brings it for this read: a free value (log entry 208). -/
def Hw.dramRead (s : Hw) : Hw := (s.count (GRN_CNT.COUNT GRN_N.DRAM_CORR) (s.draw 257)).drawn

/-- A read of `n` octets of the window at offset `off`: a poisoned line reads 0 and is reported (R257, R259). -/
def Hw.extRead (s : Hw) (mem : List Host.Cell) (off n : Nat) : Hw × Bytes :=
  if s.poisoned off n then ((s.grnRaise EV.MEM_UNCORR).grnRaise EV_GRN.DRAM_UNCORR_EV, List.replicate n 0)
  else (s.dramRead, s.memBytes mem off n)

/-! ## Meters (R240-R245) -/

/-- The bytes a shaper or meter counts for a frame: length plus signed overhead, never below 1 (R240, R273). -/
def chargeOf (len : Nat) (overhead : Int) : Nat := max 1 (Int.ofNat len + overhead).toNat

/-- What a rate in 8 kb/s units yields over `ns` nanoseconds with carried remainder `rem`: whole 1/256 bytes and
the new remainder. One unit is 0.000256 of a 1/256 byte per nanosecond (R243, R274). -/
def accrue (rate ns rem : Nat) : Nat × Nat :=
  let x := ns * rate * 256 + rem
  (x / 1000000, x % 1000000)

/-- A meter refilled to cycle `now` under its configuration (R241, R243). -/
def Meter.refill (m : Meter) (type cir eir cbs ebs now : Nat) : Meter :=
  let ns := now - m.c.last
  let gc := accrue cir ns m.c.rem
  let ge := accrue (if type = 2 then max cir eir else eir) ns m.e.rem
  let c := m.c.credit + Int.ofNat gc.1
  let capC := Int.ofNat (cbs * 256)
  let capE := Int.ofNat (ebs * 256)
  let spill := if c > capC then c - capC else 0
  let e := match type with
    | 1 => m.e.credit + spill
    | 2 => m.e.credit + Int.ofNat ge.1
    | _ => m.e.credit + Int.ofNat ge.1 + spill
  { m with
    c := { credit := min c capC, rem := gc.2, last := now }
    e := { credit := min e capE, rem := if type = 1 then m.e.rem else ge.2, last := now } }

/-- Datapath cycles that meters and shapers have seen: TM's clock stops while the domain sleeps (R243, R470). -/
abbrev Hw.tmClk (s : Hw) : Nat := s.clk - s.tms.slept

/-- The meter refilled under its present entry; a meter of TYPE 0 is left (R243). -/
def Hw.meterRefill (s : Hw) (i : Nat) : Hw :=
  if s.t (METER_CFG.TYPE i) = 0 then s
  else s.modMeter i (fun m => m.refill (s.t (METER_CFG.TYPE i)) (s.t (METER_CFG.CIR i)) (s.t (METER_CFG.EIR i))
    (s.t (METER_CFG.CBS i)) (s.t (METER_CFG.EBS i)) s.tmClk)

/-- Colour of a packet of charge `b` (in 1/256 byte) with input colour `inp`, and the meter after it (R241, R242).
Colours: 0 green, 1 yellow, 2 red. -/
def Meter.decide (m : Meter) (type : Nat) (inp : Nat) (b : Int) : Nat × Meter :=
  let takeC : Meter := { m with c := { m.c with credit := m.c.credit - b } }
  let takeE : Meter := { m with e := { m.e with credit := m.e.credit - b } }
  if inp = 2 then (2, m)
  else if type = 2 then
    if m.e.credit < b then (2, m)
    else if inp = 1 ∨ m.c.credit < b then (1, takeE)
    else (0, { takeE with c := { m.c with credit := m.c.credit - b } })
  else
    if inp = 0 ∧ b ≤ m.c.credit then (0, takeC)
    else if b ≤ m.e.credit then (1, takeE)
    else (2, m)

/-- The input colour of a colour-aware meter: DEI of the outer VLAN tag, or DSCP bits [2:1] (R242). -/
def awareColor (src : Nat) (dei : Option Nat) (dscp : Option Nat) : Nat :=
  if src = 0 then (if dei = some 1 then 1 else 0)
  else match dscp with
    | none => 0
    | some d => match d / 2 % 4 with
      | 2 => 1
      | 3 => 2
      | _ => 0

/-- Stage 2 of R238: the packet's colour under meter `i`, and whether it is discarded at the meter (R240-R245). -/
def Hw.meterPkt (s : Hw) (i len : Nat) (dei dscp : Option Nat) : Hw × Nat × Bool :=
  let type := s.t (METER_CFG.TYPE i)
  if type = 0 then (s, 0, false)
  else
    let s := s.meterRefill i
    let b := chargeOf len (s.tS (METER_CFG.OVERHEAD i))
    let inp := if s.t (METER_CFG.AWARE i) = 1 then awareColor (s.t (METER_CFG.COLOR_SRC i)) dei dscp else 0
    let r := (s.meter i).decide type inp (Int.ofNat (b * 256))
    let m := match r.1 with
      | 0 => { r.2 with green := r.2.green + 1 }
      | 1 => { r.2 with yellow := r.2.yellow + 1 }
      | _ => { r.2 with red := r.2.red + 1 }
    let s := s.modMeter i (fun _ => m)
    if r.1 = 2 ∧ s.t (METER_CFG.RED_DROP i) = 1 then (s.grnCount GRN_N.METER_RED_DROP, 2, true)
    else (s, r.1, false)

/-- Both buckets full to their sizes and the counters clear (R244). -/
def Hw.meterFill (s : Hw) (i : Nat) : Hw :=
  s.modMeter i (fun _ =>
    { c := { credit := Int.ofNat (s.t (METER_CFG.CBS i) * 256), rem := 0, last := s.tmClk }
      e := { credit := Int.ofNat (s.t (METER_CFG.EBS i) * 256), rem := 0, last := s.tmClk } })

/-- After a commit to METER_CFG: buckets above their new size are clamped, and a meter that had TYPE 0 starts to
count time now (R243, R244). `oldType` is the TYPE before. -/
def Hw.meterCommitted (s : Hw) (i : Nat) : Hw :=
  s.modMeter i (fun m =>
    { m with
      c := { m.c with credit := min m.c.credit (Int.ofNat (s.t (METER_CFG.CBS i) * 256)) }
      e := { m.e with credit := min m.e.credit (Int.ofNat (s.t (METER_CFG.EBS i) * 256)) } })

/-- A meter whose TYPE was 0 counts elapsed time from the instant its TYPE word is another (R243). -/
def Hw.meterTyped (s : Hw) (i oldType : Nat) : Hw :=
  s.onlyIf (oldType = 0 ∧ s.t (METER_CFG.TYPE i) ≠ 0) (fun s => s.modMeter i (fun m =>
    { m with c := { m.c with last := s.tmClk, rem := 0 }, e := { m.e with last := s.tmClk, rem := 0 } }))

/-! ## Cells (R246) -/

/-- Cells of a stored packet that lie on chip. -/
def Stored.chipCells (p : Stored) : Nat := match p.loc with
  | .chip => p.pkt.cells
  | _ => 0

/-- Staging cells of a stored packet. -/
def Stored.stageCells (p : Stored) : Nat := match p.loc with
  | .staging => p.pkt.cells
  | _ => 0

/-- A stored packet lies in external blocks and can be read: a lost one (R259) has no data to read back. -/
def Stored.readable (p : Stored) : Bool := match p.loc with
  | .ext _ => !p.lost
  | _ => false

/-- External blocks of a stored packet. -/
def Stored.blocks (p : Stored) : List (Nat × Nat) := match p.loc with
  | .ext bs => bs
  | _ => []

/-- Sum over a list. -/
def sumBy {α : Type} (f : α → Nat) (l : List α) : Nat := l.foldl (fun n a => n + f a) 0

def Queue.onchip (q : Queue) : Nat := sumBy Stored.chipCells q.pkts
def Queue.staged (q : Queue) : Nat := sumBy Stored.stageCells q.pkts
def Queue.bytes (q : Queue) : Nat := sumBy (fun p => p.pkt.len) q.pkts

/-- Queue length in 64-byte units, rounded up: QUEUE_STATE BYTES (log entry 9). -/
def Queue.units (q : Queue) : Nat := ceilDiv q.bytes 64

/-- The queue is empty. -/
def Queue.empty (q : Queue) : Bool := q.pkts.isEmpty

/-- Cells held by Sheaf for reordering in group `g` (R178). -/
def Group.cells (g : Group) : Nat := sumBy (fun f => ceilDiv f.bytes.length 256) g.held

/-- Cells Sheaf holds in all groups. -/
def Hw.sheafCells (s : Hw) : Nat := sumBy (fun p => Group.cells p.2) s.shf.groups

/-- Cells a flush has not yet released (R250). -/
def Hw.flushCells (s : Hw) : Nat := match s.grn.flush with
  | some f => f.cells
  | none => 0

/-- Cells of the packets that tasks of a direction hold (R364). -/
def Hw.taskCells (s : Hw) (ds : Bool) : Nat :=
  sumBy (fun (t : Task) => if t.ds == ds then sumBy Pkt.cells t.pkt.toList else 0)
    (s.til.tasks ++ s.thr.held.map Waiting.task)

/-- FREE_CELLS (R246). -/
def Hw.freeCells (s : Hw) : Nat :=
  262144 - (sumBy (fun p => p.2.onchip + p.2.staged) s.grn.queues + s.sheafCells + s.flushCells + s.taskCells true
    + s.taskCells false)

/-- Shared cells in use downstream (`ds`) or upstream: what queues hold beyond MIN_CELLS, and, downstream, what
Sheaf holds (R246). -/
def Hw.sharedUsed (s : Hw) (ds : Bool) : Nat :=
  sumBy (fun p => if decide (65536 ≤ p.1) == ds then p.2.onchip - s.t (QUEUE_CFG.MIN_CELLS p.1) else 0) s.grn.queues
    + (if ds then s.sheafCells else 0) + s.taskCells ds

/-- Spill staging cells in use (R246). -/
def Hw.stageUsed (s : Hw) : Nat := sumBy (fun p => p.2.staged) s.grn.queues

/-- Cells can be had for `n` more cells of queue `q`: within its guarantee, the rest within its direction's shared
part, and free (R246, R247 check 5). -/
def Hw.cellsFor (s : Hw) (q n : Nat) : Bool :=
  let min := s.t (QUEUE_CFG.MIN_CELLS q)
  let rest := n - (min - (s.queue q).onchip)
  let limit := if 65536 ≤ q then s.rd GRN_POOL_DS.SHARED_MAX else s.rd GRN_POOL_US.SHARED_MAX
  decide (n ≤ s.freeCells) && (rest == 0 || decide (s.sharedUsed (decide (65536 ≤ q)) + rest ≤ limit))

/-! ## External blocks (R252, R254, R256) -/

/-- Bulk blocks of a channel: what the shared and spare parts leave, the four channels together at most 24 GiB. -/
def Hw.bulkBlocks (s : Hw) : Nat :=
  let shared := s.rd GRN_DRAM_CFG.SHARED
  min (2 ^ s.rd GRN_DRAM_CFG.CH_SIZE * 16 - (shared + ceilDiv shared 3)) 96 * 32768

/-- Blocks in use on channel `r`. -/
def Hw.blocksUsed (s : Hw) (r : Nat) : List Nat :=
  let cur := s.grn.queues.filterMap (fun p => p.2.blk.map (fun b => (b.1, b.2.1)))
  let all := (s.grn.queues.map (fun p => (p.2.pkts.map Stored.blocks).flatten)).flatten ++ cur
    ++ (match s.grn.flush with
      | some f => f.blocks
      | none => [])
  ((all.filter (fun b => b.1 == r)).map Prod.snd).eraseDups

/-- Channel `r` is ACTIVE and started. -/
def Hw.dramActive (s : Hw) (r : Nat) : Bool :=
  s.rd GRN_DRAM_CFG.DRAM_UP == 1 && s.rd (GRN_DRAM_CH_STATUS.CH_STATE r) == 0

/-- Free external blocks over the ACTIVE channels. -/
def Hw.freeBlocks (s : Hw) : Nat :=
  sumBy (fun r => if s.dramActive r then s.bulkBlocks - (s.blocksUsed r).length else 0) (List.range 4)

/-- Bytes a packet takes of external blocks (R252). -/
def extSize (len : Nat) : Nat := ceilDiv (len + 16) 64 * 64

/-- Room left in the queue's current block. -/
def Queue.blkRoom (q : Queue) : Nat := match q.blk with
  | some b => 2048 - b.2.2
  | none => 0

/-- A new block from the ACTIVE channels in rotation, the lowest free number on the channel (R256; which block of a
channel is taken is the model's, log entry 14). `taken` are blocks already given to the packet in hand. -/
def Hw.newBlock (s : Hw) (taken : List (Nat × Nat)) : Option (Nat × Nat) :=
  ((List.range 4).map (fun i => (s.grn.rot + i) % 4)).findSome? (fun r =>
    let used := (taken.filter (fun b => b.1 == r)).map Prod.snd ++ s.blocksUsed r
    if s.dramActive r && decide (used.length < s.bulkBlocks) then
      (firstFrom (fun b => !used.contains b) (used.length + 1) 0).map (fun b => (r, b))
    else none)

/-! ## Pause from buffer state (R261, R262, R301) -/

/-- Cells held by packets received on port `p` with class `i` (R261); copies the terminal made do not count
(log entry 15). -/
def Hw.pfcCells (s : Hw) (p i : Nat) : Nat :=
  sumBy (fun e => sumBy (fun (x : Stored) =>
    if x.pkt.source = p ∧ x.pkt.tc = i ∧ x.pkt.copy = false then x.chipCells + x.stageCells else 0) e.2.pkts) s.grn.queues
    + sumBy (fun (t : Task) => sumBy (fun (k : Pkt) => if k.source = p ∧ k.tc = i then k.cells else 0) t.pkt.toList)
      s.til.tasks

/-- Priorities of port `p` in XOFF: those its own counts hold, all of them while the pool is forced (R261, R262). -/
def Hw.xoffMask (s : Hw) (p : Nat) : Nat :=
  let en := s.t (PFC_PORT.PRI_EN p)
  let own := if s.grn.forced then 255 else s.grn.xoff.get 0 p
  en &&& own

/-- The octets of a PFC frame (R301): enable vector and eight times. -/
def Hw.pfcFrame (s : Hw) (p en : Nat) (time : Nat → Nat) : Bytes :=
  let sa := beBytes 2 (s.rd (SUB_MAC_ADDR_HI.ADDR p)) ++ beBytes 4 (s.rd (SUB_MAC_ADDR_LO.ADDR p))
  let body := beBytes 6 0x0180C2000001 ++ sa ++ beBytes 2 0x8808 ++ beBytes 2 0x0101 ++ beBytes 2 en
    ++ ((List.range 8).map (fun i => beBytes 2 (if bitN en i = 1 then time i else 0))).flatten
  let padded := body ++ List.replicate (60 - body.length) 0
  padded ++ fcsOf padded

/-- Ports a lane mode places on its lane (R285). -/
def modePorts (mode : Nat) : Nat := if mode < 4 then 1 else if mode = 4 then 4 else 8

/-- Port `p` exists under its lane's mode. -/
def Hw.portExists (s : Hw) (p : Nat) : Bool :=
  decide (p < 512 ∧ p % 8 < modePorts (s.capRd (SRD_LANE_CTRL.MODE (p / 8))))

/-- Lane `l` carries a single port. -/
def Hw.singleLane (s : Hw) (l : Nat) : Bool := decide (s.capRd (SRD_LANE_CTRL.MODE l) < 4)

/-- Port rate of single-port mode `k` in Mb/s. -/
def modeRate : Nat → Nat
  | 0 => 1000
  | 1 => 2500
  | 2 => 5000
  | _ => 10000

/-- Port rate in Mb/s (R285). A SPK_SPEED the lane's Spikelet mode does not offer gives a rate the spec does not state
(log entry 173). -/
def Hw.portRate (s : Hw) (p : Nat) : Nat :=
  let mode := s.capRd (SRD_LANE_CTRL.MODE (p / 8))
  if s.singleLane (p / 8) then modeRate (s.rd (SRD_LANE_STATUS.CUR_MODE (p / 8)))
  else match s.capRd (SUB_PORT_CTRL.SPK_SPEED p), mode with
    | 0, _ => 1000
    | 1, 4 => 2500
    | 2, 5 => 100
    | n, m => Config.spkRate m n + 1

/-- Nanoseconds of `n` octets at the port rate. -/
def Hw.portNs (s : Hw) (p n : Nat) : Nat := ceilDiv (n * 8000) (s.portRate p)

abbrev Hw.portState (s : Hw) (p : Nat) : Nat := s.rd (SUB_PORT_STATUS.STATE p)

/-- A lane is ON; lanes 64-71 follow the twin link (R446). -/
def Hw.laneOn (s : Hw) (l : Nat) : Bool :=
  if l < 64 then s.rd (SRD_LANE_STATUS.STATE l) == 2 else s.rd TWN_STATUS.STATE == 2

/-- Block lock of a lane (R289, R448). -/
def Hw.laneLock (s : Hw) (l : Nat) : Bool :=
  if l < 64 then s.rd (SRD_LANE_STATUS.LOCK l) == 1 else bitN (s.rd TWN_LANE_STATUS.LOCK) (l - 64) == 1

/-- What lane `l` is to transmit: the generator's pattern under TEST, nothing while LPI quiesces it. -/
def Hw.laneWants (s : Hw) (l : Nat) : LaneTx :=
  if !s.laneOn l then .frames
  else if s.capRd (SRD_LANE_CTRL.TEST l) = 1 then .pattern (s.rd (SRD_PRBS_CTRL.TX_PAT l))
  else if 64 ≤ l then (if s.rd TWN_STATUS.LINK_STATE = 1 then .train else if s.twn.idle then .elecIdle else .frames)
  else if s.rd (SRD_LANE_STATUS.LPI_TX l) = 1 ∧ s.rd (SRD_LANE_CTRL.LPI_QUIET l) = 1 then
    .quiet (s.rd (SRD_LANE_STATUS.CUR_MODE l))
  else .frames

/-- The lane's transmitter follows (R304, R310). -/
def Hw.laneSync (s : Hw) (l : Nat) : Hw :=
  let v := s.laneWants l
  if (s.lane l).tx = v then s else (s.modLane l (fun x => { x with tx := v })).emit (.laneTx l v)

/-- The lanes of the twin link follow its state. -/
def Hw.twinLaneSync (s : Hw) : Hw := s.forAll (List.range 8) (fun s i => s.laneSync (64 + i))

/-- Low-power idle ends on lane `l`; its ports wait TW_SYS (R303). -/
def Hw.lpiEnd (s : Hw) (l : Nat) : Hw :=
  if s.rd (SRD_LANE_STATUS.LPI_TX l) = 0 then s
  else
    ((s.wr (SRD_LANE_STATUS.LPI_TX l) 0).laneSync l).forAll ((List.range 8).map (fun i => 8 * l + i)) (fun s p =>
      s.onlyIf (s.portState p = 2) (fun s => s.modPort p (fun x => { x with waking := true })))

/-- Nanoseconds for which `n` octets hold the port's lane: at the port rate of a single port, at 10 Gb/s on a Spikelet
lane (R288). -/
def Hw.laneNs (s : Hw) (p n : Nat) : Nat := if s.singleLane (p / 8) then s.portNs p n else ceilDiv (n * 8) 10

/-- The lane of port `p` is at a frame boundary (R288). -/
def Hw.laneFree (s : Hw) (p : Nat) : Bool := decide ((s.lane (p / 8)).freeAt ≤ s.clk)

/-- The seven octets after /S/: on a Spikelet lane with the port tag (R286). -/
def Hw.preamble (s : Hw) (p : Nat) : Bytes :=
  let t0 : Byte := BitVec.ofNat 8 (0xA0 + 2 * (p % 8))
  (if s.singleLane (p / 8) then List.replicate 6 0x55#8
    else List.replicate 4 0x55#8 ++ [t0, BitVec.ofNat 8 (crc8 [t0])]) ++ [0xD5#8]

/-- The gap after a frame of `len` octets with deficit idle count `dic`, and the count after it: a frame starts at a
multiple of four octets, the gap is 12 octets short of up to 3 that later gaps make up (R288; log entry 209). -/
def idleGap (len dic : Nat) : Nat × Nat :=
  let r := len % 4
  if r = 0 then (12, dic) else if dic + r ≤ 3 then (12 - r, dic + r) else (16 - r, dic + r - 4)

/-- The gap on lane `l`: the deficit idle count belongs to the 64b/66b modes. -/
def Hw.laneGap (s : Hw) (l len : Nat) : Nat × Nat :=
  if s.rd (SRD_LANE_STATUS.CUR_MODE l) = 0 then (12, (s.lane l).dic) else idleGap len (s.lane l).dic

/-- A frame starts on the lane of port `p`: counted, and the lane is held for it and its gap. -/
def Hw.putFrame (s : Hw) (p : Nat) (f : Bytes) : Hw :=
  let g := s.laneGap (p / 8) f.length
  let s := s.modLane (p / 8) (fun x => { x with freeAt := s.clk + s.laneNs p (f.length + 8 + g.1), dic := g.2 })
  ((s.count64 (SUB_TX_FRAMES.A p)).count64 (SUB_TX_BYTES.A p) f.length).emit (.frame p (s.preamble p) f)

/-- A frame the MAC sends of itself, ahead of data: it ends LPI, counts as transmitted, and delays the port's next data
frame (R288, R301, R303, R324). -/
def Hw.macFrame (s : Hw) (p : Nat) (f : Bytes) : Hw :=
  let s := s.lpiEnd (p / 8)
  let ns := s.portNs p (f.length + 20)
  (s.modPort p (fun x => { x with nextStart := x.nextStart + ns, idle := false })).putFrame p f

/-- The PFC frame that waits on port `p` leaves: QUANTA for every priority in XOFF when an entry or the refresh calls for
it, time 0 for those that have returned since (R301). -/
def Hw.pfcSend (s : Hw) (p : Nat) : Hw :=
  let x := s.port p
  let now := s.rd (SUB_PORT_STATUS.PFC_TX_XOFF p)
  let quanta := s.rd (SUB_PFC_CFG.QUANTA p)
  let en := (if x.pfcDue then now else 0) ||| (x.pfcOwed &&& (255 - now))
  let s := s.modPort p (fun x => { x with pfcDue := false, pfcOwed := 0 })
  if en = 0 then s
  else (s.macFrame p (s.pfcFrame p en (fun i => if bitN now i = 1 then quanta else 0))).count (SUB_PORT_CNT.COUNT p 8)

/-- At a frame boundary of its lane a port that is ON sends what goes ahead of data: a PFC frame, else a slot packet
(R288, R301, R324). -/
def Hw.macPump (s : Hw) (p : Nat) : Hw :=
  if s.portState p ≠ 2 ∨ s.laneFree p = false then s
  else if (s.port p).pfcDue ∨ (s.port p).pfcOwed ≠ 0 then s.pfcSend p
  else match (s.port p).slotq with
    | [] => s
    | (_, f) :: t => (s.modPort p (fun x => { x with slotq := t })).macFrame p f

/-- Ports with such a frame waiting. -/
def Hw.pumpPorts (s : Hw) : List Nat :=
  (s.sub.ports.filter (fun (e : Nat × Port) => e.2.pfcDue || e.2.pfcOwed != 0 || !e.2.slotq.isEmpty)).map Prod.fst

def Hw.pumpAll (s : Hw) : Hw := s.forAll s.pumpPorts (fun s p => s.macPump p)

/-- A PFC frame of port `p` begins to wait; a port that is not ON sends none. Changes until it starts are merged. -/
def Hw.pfcWant (s : Hw) (p : Nat) (due : Bool) (owed : Nat) : Hw :=
  if s.portState p ≠ 2 ∨ (due = false ∧ owed = 0) then s
  else (s.modPort p (fun x => { x with pfcDue := x.pfcDue || due, pfcOwed := x.pfcOwed ||| owed })).macPump p

/-- The pause state of port `p` is taken anew: own counts, then the mask at the MAC; each entry to XOFF is counted
and sends QUANTA for every priority in XOFF, each return sends time 0 for that priority (R261, R301). -/
def Hw.pfcPort (s : Hw) (p : Nat) : Hw :=
  let th := s.t (PFC_PORT.XOFF_TH p)
  let on := min (s.t (PFC_PORT.XON_TH p)) (th - 1)
  let en := s.t (PFC_PORT.PRI_EN p)
  let old := s.grn.xoff.get 0 p
  let own := (List.range 8).foldl (fun m i =>
    if bitN en i = 0 then m
    else
      let c := s.pfcCells p i
      if th ≤ c then m + 2 ^ i else if c ≤ on then m else m + bitN old i * 2 ^ i) 0
  let s := { s with grn := { s.grn with xoff := s.grn.xoff.set 0 p own } }
  let was := s.rd (SUB_PORT_STATUS.PFC_TX_XOFF p)
  let now := s.xoffMask p
  let entered := (List.range 8).filter (fun i => bitN now i == 1 && bitN was i == 0)
  let left := (List.range 8).filter (fun i => bitN now i == 0 && bitN was i == 1)
  let s := s.wr (SUB_PORT_STATUS.PFC_TX_XOFF p) now
  let s := s.forAll entered (fun s _ => s.grnCount GRN_N.PAUSE_XOFF_EVENTS)
  s.pfcWant p (!entered.isEmpty) (left.foldl (fun m i => m + 2 ^ i) 0)

/-- Ports with a PFC_PORT entry in use. -/
def Hw.pfcPorts (s : Hw) : List Nat := (s.listed 6 5).filter (fun p => decide (p < 512))

/-- After a change of cells: forced XOFF begins or ends (R262), and the ports' pause states follow (R261). -/
def Hw.poolUpdate (s : Hw) (src : Nat) : Hw :=
  let free := s.freeCells
  if s.grn.forced = false ∧ free < s.rd GRN_POOL_PAUSE.POOL_XOFF * 16 then
    let s := { s with grn := { s.grn with forced := true } }
    (s.grnRaise EV_GRN.POOL_LOW).forAll s.pfcPorts (fun s p => s.pfcPort p)
  else if s.grn.forced = true ∧ s.rd GRN_POOL_PAUSE.POOL_XON * 16 < free then
    let s := { s with grn := { s.grn with forced := false } }
    s.forAll s.pfcPorts (fun s p => s.pfcPort p)
  else if src < 512 then s.pfcPort src
  else s

/-! ## Admission (R247, R248) -/

/-- Check 3: the colour's part of the drop profile admits the packet; the WRED average is updated first. Counters
and average after it, and the verdict. -/
def Hw.dropProfile (s : Hw) (q : Nat) (p : Pkt) : Hw × Bool :=
  let d := s.t (QUEUE_CFG.DROP_PROF q)
  let f := fun (a b c : TRef) => s.t (if p.color = 0 then a else if p.color = 1 then b else c)
  let mode := f (DROP_PROF.MODE0 d) (DROP_PROF.MODE1 d) (DROP_PROF.MODE2 d)
  let maxp := f (DROP_PROF.MAXP0 d) (DROP_PROF.MAXP1 d) (DROP_PROF.MAXP2 d)
  let lo := f (DROP_PROF.MIN_TH0 d) (DROP_PROF.MIN_TH1 d) (DROP_PROF.MIN_TH2 d)
  let hi := f (DROP_PROF.MAX_TH0 d) (DROP_PROF.MAX_TH1 d) (DROP_PROF.MAX_TH2 d)
  let units := (s.queue q).units
  if mode = 0 then
    if units * 64 + p.len ≤ hi * 64 then (s, true)
    else (s.grnCount (GRN_N.TAIL_DROP + p.color), false)
  else
    let w := s.t (DROP_PROF.W d)
    let old := (s.queue q).avg
    let avg := (Int.ofNat old + (Int.ofNat (units * 32768) - Int.ofNat old) / Int.ofNat (2 ^ w)).toNat
    let s := s.modQueue q (fun x => { x with avg := avg })
    let drop := (s.grnCount (GRN_N.WRED_DROP + p.color), false)
    if avg < lo * 32768 then (s, true)
    else if hi ≤ lo ∨ hi * 32768 ≤ avg then drop
    else
      let r := s.draw 1 % 2 ^ 32
      if r * 256 * (hi - lo) * 32768 < 2 ^ 32 * maxp * (avg - lo * 32768) then
        (s.drawn.grnCount (GRN_N.WRED_DROP + p.color), false)
      else (s.drawn, true)

/-- Admission of a packet to queue `q` in the order of R247, then its storage on chip or in staging (R251). The
Boolean says whether it was stored. -/
def Hw.admission (s : Hw) (q : Nat) (p : Pkt) : Hw × Bool :=
  let n := p.cells
  let flushing := match s.grn.flush with
    | some f => f.queue == q && !f.released
    | none => false
  if s.t (QUEUE_CFG.VALID q) = 0 ∨ flushing = true then (s.grnCount GRN_N.Q_INVALID, false)
  else if s.t (QUEUE_CFG.MAX_4K q) ≠ 0 ∧ s.t (QUEUE_CFG.MAX_4K q) * 4096 < (s.queue q).units * 64 + p.len then
    (s.grnCount GRN_N.Q_LIMIT_DROP, false)
  else
    let r := s.dropProfile q p
    if !r.2 then r
    else
      let s := r.1
      let qs := s.queue q
      let enters := !qs.spill && s.t (QUEUE_CFG.SPILL_EN q) == 1 && decide (s.t (QUEUE_CFG.SPILL_TH q) < qs.onchip + n)
      if qs.spill = true ∨ enters = true then
        if s.rd GRN_POOL_CFG.SPILL_STAGE < s.stageUsed + n then
          ((s.grnCount GRN_N.STAGE_DROP).grnRaise EV_GRN.STAGE_FULL, false)
        else if s.freeBlocks * 2048 + qs.blkRoom < extSize p.len then
          ((s.grnCount GRN_N.BULK_FULL_DROP).grnRaise EV_GRN.BULK_FULL, false)
        else
          let s := s.onlyIf enters (·.grnCount GRN_N.SPILL_ENTRIES)
          let s := s.modQueue q (fun x => { x with spill := true, pkts := x.pkts ++ [{ pkt := p, loc := .staging }] })
          (s.poolUpdate p.source, true)
      else if s.cellsFor q n then
        let s := s.modQueue q (fun x => { x with pkts := x.pkts ++ [{ pkt := p }] })
        (s.poolUpdate p.source, true)
      else (s.grnCount GRN_N.POOL_DROP, false)

/-! ## Leaving a queue -/

/-- Spill mode ends when the external part and the staging are both empty (R251); a current block no packet lies in
any more is free (R252). -/
def Hw.spillEnd (s : Hw) (q : Nat) : Hw :=
  s.modQueue q (fun x =>
    let out := x.pkts.any (fun p => p.loc != .chip)
    let used := x.pkts.any (fun p => match x.blk with
      | some b => p.blocks.contains (b.1, b.2.1)
      | none => false)
    { x with spill := x.spill && out, blk := if used then x.blk else none })

/-- `n` octets of queue `q` are no longer there to be sent: of what a grant recorded of the queue, so much less is left
(R30, R142). -/
def Grant.taken (q n : Nat) (g : Grant) : Grant :=
  { g with limit := g.limit.map (fun e => if e.1 = q then (e.1, e.2 - n) else e) }

/-- Packets that hold `n` octets leave upstream queue `q`: every recording of it shrinks, whichever grant took them, so
that frames enqueued after a recording never travel under it (R30, R31, R142, R143). -/
def Hw.limitTaken (s : Hw) (q n : Nat) : Hw :=
  if 65536 ≤ q then s
  else s.forAll (List.range 4) (fun s c => s.modAct c (fun a => { a with
    bursts := a.bursts.map (fun u => { u with grants := u.grants.map (Grant.taken q n) }) }))

/-- The first `n` packets leave queue `q`, and the pause state of each port they came from is taken anew (R261). -/
def Hw.popPkts (s : Hw) (q n : Nat) : Hw :=
  let out := (s.queue q).pkts.take n
  let s := (s.modQueue q (fun x => { x with pkts := x.pkts.drop n })).limitTaken q (sumBy (fun p => p.pkt.len) out)
  (s.spillEnd q).forAll ((out.map (fun p => p.pkt.source)).eraseDups) (fun s p => s.poolUpdate p)

/-- Packets at the head of queue `q` whose data was lost with a failed channel are discarded (R259). -/
def Hw.purgeLost (s : Hw) (q : Nat) : Hw :=
  let n := ((s.queue q).pkts.takeWhile (fun p => p.lost)).length
  if n = 0 then s else (s.popPkts q n).count (GRN_CNT.COUNT GRN_N.DRAM_LOST) n

/-- The head packet leaves queue `q`. -/
def Hw.dequeue (s : Hw) (q : Nat) : Hw :=
  let s := s.onlyIf ((s.queue q).pkts.head?.any Stored.readable = true) (·.dramRead)
  (s.popPkts q 1).purgeLost q

/-- The head packet of queue `q`. -/
def Hw.headPkt (s : Hw) (q : Nat) : Option Pkt := ((s.queue q).pkts.head?).map Stored.pkt

/-! ## The mover (R252, R253) -/

/-- Blocks for `need` bytes of queue `q`, from its current block on, `taken` those already given; none when no block
can be had. -/
def Hw.placeExt (s : Hw) (q : Nat) : Nat → Nat → List (Nat × Nat) → Option (Hw × List (Nat × Nat))
  | 0, _, _ => none
  | fuel + 1, need, taken =>
    let place := fun (s : Hw) (c b used : Nat) =>
      let k := min need (2048 - used)
      let s := s.modQueue q (fun x => { x with blk := if used + k = 2048 then none else some (c, b, used + k) })
      if need - k = 0 then some (s, taken ++ [(c, b)])
      else Hw.placeExt s q fuel (need - k) (taken ++ [(c, b)])
    match (s.queue q).blk with
    | some (c, b, used) => place s c b used
    | none =>
      match s.newBlock taken with
      | none => none
      | some (c, b) => place { s with grn := { s.grn with rot := (c + 1) % 4 } } c b 0

/-- The first packet that satisfies `p` replaced. -/
def replaceFirst {α : Type} (p : α → Bool) (f : α → α) : List α → List α
  | [] => []
  | a :: t => if p a then f a :: t else a :: replaceFirst p f t

/-- The oldest staged packet of queue `q` goes to its external block; it waits while no block can be had (R252). -/
def Hw.spillMove (s : Hw) (q : Nat) : Hw :=
  match (s.queue q).pkts.find? (fun p => p.loc == .staging) with
  | none => s
  | some p =>
    match s.placeExt q 8 (extSize p.pkt.len) [] with
    | none => s
    | some (s, bs) =>
      let s := s.modQueue q (fun x =>
        { x with pkts := replaceFirst (fun p => p.loc == .staging) (fun p => { p with loc := .ext bs }) x.pkts })
      s.poolUpdate p.pkt.source

/-- The oldest external packet of queue `q` is read back into cells, while the queue is below REFILL_TH and cells can
be had (R253); the read meets `corr` corrected errors (R257). -/
def Hw.refillMove (s : Hw) (q corr : Nat) : Hw :=
  match (s.queue q).pkts.find? Stored.readable with
  | none => s
  | some p =>
    if (s.queue q).onchip < s.t (QUEUE_CFG.REFILL_TH q) ∧ s.cellsFor q p.pkt.cells = true then
      let s := s.modQueue q (fun x => { x with pkts := replaceFirst Stored.readable (fun p => { p with loc := .chip }) x.pkts })
      ((s.spillEnd q).poolUpdate p.pkt.source).count (GRN_CNT.COUNT GRN_N.DRAM_CORR) corr
    else s

/-! ## Flushing (R250) -/

/-- Every packet of the queue is discarded; the queue refuses arrivals until its on-chip part is released. -/
def Hw.flushStart (s : Hw) (q : Nat) : Hw :=
  let qs := s.queue q
  let srcs := (qs.pkts.map (fun p => p.pkt.source)).eraseDups
  let blocks := ((qs.pkts.map Stored.blocks).flatten ++ (match qs.blk with
    | some b => [(b.1, b.2.1)]
    | none => [])).eraseDups
  let s := s.count (GRN_CNT.COUNT GRN_N.FLUSH_DISCARD) qs.pkts.length
  let s := (s.modQueue q (fun x => { x with pkts := [], spill := false, blk := none })).limitTaken q qs.bytes
  let s := { s with grn := { s.grn with
    flush := some { queue := q, cells := qs.onchip + qs.staged, blocks := blocks, released := false } } }
  (s.wr GRN_Q_FLUSH.BUSY 1).forAll srcs (fun s p => s.poolUpdate p)

/-- The on-chip part of the flushed queue is released and the queue accepts packets again. -/
def Hw.flushRelease (s : Hw) : Hw :=
  match s.grn.flush with
  | none => s
  | some f => ({ s with grn := { s.grn with flush := some { f with cells := 0, released := true } } }).poolUpdate 512

/-- The external blocks are released and the flush is complete. -/
def Hw.flushDone (s : Hw) : Hw :=
  match s.grn.flush with
  | none => s
  | some _ =>
    let s := { s with grn := { s.grn with flush := none } }
    ((s.wr GRN_Q_FLUSH.BUSY 0).grnRaise EV_GRN.FLUSH_DONE).poolUpdate 512

/-! ## Views -/

/-- QUEUE_STATE, PFC_STATE and METER_STAT entries and the pool registers show the state held beside the tables. -/
def Hw.queueStateWord (s : Hw) (q w : Nat) : Word :=
  let x := s.queue q
  match w with
  | 0 => setField (BitVec.ofNat 32 x.onchip) 19 1 (b2n x.spill)
  | 1 => BitVec.ofNat 32 x.units
  | 2 => BitVec.ofNat 32 (x.avg / 32768)
  | _ => BitVec.ofNat 32 x.pkts.length

/-- PFC_STATE of port p, priority i at index p × 8 + i. -/
def Hw.pfcStateWord (s : Hw) (x : Nat) : Word :=
  setField (BitVec.ofNat 32 (s.pfcCells (x / 8) (x % 8))) 31 1 (bitN (s.xoffMask (x / 8)) (x % 8))

/-- METER_STAT of meter `i`. -/
def Hw.meterStatWord (s : Hw) (i w : Nat) : Word :=
  let m := s.meter i
  BitVec.ofNat 32 (match w with
    | 0 => m.c.credit.toNat
    | 1 => m.e.credit.toNat
    | 2 => m.green
    | 3 => m.green / 2 ^ 32
    | 4 => m.yellow
    | 5 => m.yellow / 2 ^ 32
    | 6 => m.red
    | _ => m.red / 2 ^ 32)

end Sys2Proof.Machine
end

