-- ==== Sys2Proof/Machine/Sched.lean ====
section
/-!
DEFINITION. Hierarchical scheduling and shaping (spec/10) and the state of gate lists (R354): buckets, deficit rounds,
selection down a tree, charges. Commits to scheduler entries act through `schedBefore` and `schedAfter`.
-/
namespace Sys2Proof.Machine

/-! ## Gates (R354) -/

/-- A local time in nanoseconds. -/
def LTime.abs (t : LTime) : Nat := t.sec * 1000000000 + t.ns

/-- Key of entry `i` of gate list `l` (0 or 1) of port `p`. -/
def gclIdx (l i : Nat) : Nat := l * 256 + i

/-- Class `tc` stays open until `until`, from entry `i` of list `l` that ends at `t`; `stop` is when the list ends
(a pending switch). -/
def Hw.openTill (s : Hw) (p l len cycle : Nat) (start : Int) (tc till stop : Nat) : Nat → Nat → Nat → Bool
  | 0, _, _ => true
  | fuel + 1, i, t =>
    if bitN (s.t (GCL.GATES p (gclIdx l i))) tc = 0 then false
    else if till ≤ t ∨ stop ≤ t then true
    else
      let cyc := (start + (Int.ofNat t - start) / Int.ofNat (max cycle 1) * Int.ofNat cycle).toNat
      let j := if t = cyc ∨ len ≤ i + 1 then 0 else i + 1
      let base := if j = 0 then cyc else t
      let e := base + ceilDiv (s.t (GCL.INTERVAL p (gclIdx l j))) 4 * 4
      let last := len ≤ j + 1
      Hw.openTill s p l len cycle start tc till stop fuel j (if last then cyc + cycle else min e (cyc + cycle))

/-- Class `tc` of port `p` may start a frame of `ns` nanoseconds now (R354). -/
def Hw.gateOpen (s : Hw) (p tc ns : Nat) : Bool :=
  if s.rd (SUB_GATE_CTRL.GATE_EN p) = 0 then true
  else
    let g := (s.port p).gate
    if !g.running then true
    else if bitN (s.rd (SUB_GATE_STATUS.GATES p)) tc = 0 then false
    else if s.rd (SUB_GATE_CTRL.GUARD p) = 0 then true
    else
      let l := s.rd (SUB_GATE_STATUS.ACTIVE_LIST p)
      let till := s.tim.now.abs + ns
      let stop := g.pend.getD (till + 1)
      let ok := s.openTill p l g.len g.cycle g.start tc till stop 512 (s.rd (SUB_GATE_STATUS.ENTRY p)) g.entryEnd
      ok && (decide (till ≤ stop) ||
        s.openTill p (1 - l) g.newLen g.newCycle (Int.ofNat stop) tc till (till + 1) 512 0
          (stop + ceilDiv (s.t (GCL.INTERVAL p (gclIdx (1 - l) 0))) 4 * 4))

/-! ## Nodes: a table of the TMS gate and an index (R266) -/

abbrev nodeKey (t x : Nat) : Nat := tabKey 7 t x 0
abbrev nodeVALID (t x : Nat) : TRef := ⟨nodeKey t x, 0, 1⟩
abbrev nodePRIO (t x : Nat) : TRef := ⟨nodeKey t x, 1, 3⟩
abbrev nodeWEIGHT (t x : Nat) : TRef := ⟨nodeKey t x, 4, 12⟩
abbrev nodeOVERHEAD (t x : Nat) : TRef := ⟨nodeKey t x, 16, 8⟩
abbrev nodePARENT (t x : Nat) : TRef := ⟨nodeKey t x, 32, 16⟩

/-- The tables of dual-rate nodes. -/
def isDual (t : Nat) : Bool := t == 4 || t == 5 || t == 8 || t == 9

/-- The table of the parent level. -/
def parentTable (t : Nat) : Nat := t + 1

/-- Rate, burst size and debt limit of a bucket of a node: `peak` chooses the second of a dual-rate node. -/
def Hw.shaper (s : Hw) (t x : Nat) (peak : Bool) : Nat × Nat × Nat :=
  if isDual t then
    if peak then (s.t ⟨nodeKey t x, 96, 25⟩, s.t ⟨nodeKey t x, 160, 25⟩, s.t ⟨nodeKey t x, 192, 24⟩)
    else (s.t ⟨nodeKey t x, 64, 25⟩, s.t ⟨nodeKey t x, 128, 25⟩, s.t ⟨nodeKey t x, 192, 24⟩)
  else (s.t ⟨nodeKey t x, 32, 25⟩, s.t ⟨nodeKey t x, 64, 25⟩, s.t ⟨nodeKey t x, 96, 24⟩)

/-- Store key of a bucket. -/
def bucketKey (t x : Nat) (peak : Bool) : Nat := nodeKey t x + b2n (peak && isDual t)

/-- A bucket refilled to cycle `now` (R274). -/
def Bucket.refill (b : Bucket) (rate burst now : Nat) : Bucket :=
  if rate = 0 then { b with last := now }
  else
    let g := accrue rate (now - b.last) b.rem
    { credit := min (b.credit + Int.ofNat g.1) (max b.credit (Int.ofNat (burst * 256))), rem := g.2, last := now }

/-- The bucket of a node as it stands now. -/
def Hw.bucketNow (s : Hw) (t x : Nat) (peak : Bool) : Bucket :=
  let sh := s.shaper t x peak
  (s.bucket (bucketKey t x peak)).refill sh.1 sh.2.1 s.tmClk

/-- A bucket is eligible for a packet of `len` bytes (R275, R276). -/
def Hw.bucketOk (s : Hw) (t x : Nat) (peak : Bool) (len : Nat) : Bool :=
  let sh := s.shaper t x peak
  if sh.1 = 0 then true
  else
    let b := s.bucketNow t x peak
    let charge := Int.ofNat (chargeOf len (s.tS (nodeOVERHEAD t x)) * 256)
    let d := Int.ofNat (max sh.2.2 (12415 - sh.2.1) * 256)
    decide (0 ≤ b.credit ∧ -d ≤ b.credit - charge)

/-- A bucket is charged for a packet; an unshaped one is not (R273, R276). -/
def Hw.chargeBucket (s : Hw) (t x : Nat) (peak : Bool) (len : Nat) : Hw :=
  if (s.shaper t x peak).1 = 0 then s
  else
    let b := s.bucketNow t x peak
    s.setBucket (bucketKey t x peak) { b with credit := b.credit - Int.ofNat (chargeOf len (s.tS (nodeOVERHEAD t x)) * 256) }

/-- A node's shapers let a packet pass: the peak or single bucket (R269). -/
def Hw.nodeOk (s : Hw) (t x len : Nat) : Bool := s.t (nodeVALID t x) == 1 && s.bucketOk t x true len

/-- A dual-rate node is in the committed phase for a packet (R271, R276). -/
def Hw.committed (s : Hw) (t x len : Nat) : Bool :=
  isDual t && (s.shaper t x false).1 != 0 && s.bucketOk t x false len && s.bucketOk t x true len

/-! ## Paths -/

/-- A queue with its path: service, subscriber and top node, and the length of its head packet. -/
structure Cand where
  q : Nat
  qn : Nat
  svc : Nat
  sub : Nat
  top : Nat
  len : Nat
  deriving DecidableEq, Repr

/-- First table of a direction: 3 downstream, 7 upstream. -/
abbrev dirTable (ds : Bool) : Nat := if ds then 3 else 7

/-- Index of the queue node of queue `q`. -/
abbrev qNode (ds : Bool) (q : Nat) : Nat := if ds then q - 65536 else q

/-- The path of queue `q`. -/
def Hw.pathOf (s : Hw) (ds : Bool) (q len : Nat) : Cand :=
  let t := dirTable ds
  let qn := qNode ds q
  let svc := s.t (nodePARENT t qn)
  let sub := s.t (nodePARENT (t + 1) svc)
  { q := q, qn := qn, svc := svc, sub := sub, top := s.t (nodePARENT (t + 2) sub), len := len }

/-- Every node of a path is valid and every shaper on it admits the packet (R269). -/
def Hw.pathOk (s : Hw) (ds : Bool) (c : Cand) : Bool :=
  let t := dirTable ds
  s.t (nodeVALID t c.qn) == 1 && s.nodeOk (t + 1) c.svc c.len && s.nodeOk (t + 2) c.sub c.len
    && s.nodeOk (t + 3) c.top c.len

/-- Every node of a path is valid (shapers apart). -/
def Hw.pathValid (s : Hw) (ds : Bool) (c : Cand) : Bool :=
  let t := dirTable ds
  s.t (nodeVALID t c.qn) == 1 && s.t (nodeVALID (t + 1) c.svc) == 1 && s.t (nodeVALID (t + 2) c.sub) == 1
    && s.t (nodeVALID (t + 3) c.top) == 1

/-- Queues of a direction that hold packets. -/
def Hw.backlog (s : Hw) (ds : Bool) : List Nat :=
  (s.grn.queues.filter (fun e => decide (65536 ≤ e.1) == ds && !e.2.empty)).map Prod.fst

/-! ## Rounds (R272) -/

/-- Child `x` joins the tail of the rounds of node `k`. -/
def Hw.joinRound (s : Hw) (k x : Nat) : Hw :=
  let r := s.round k
  if r.kids.contains x then s else s.setRound k { r with kids := r.kids ++ [x] }

/-- Child `x` (of table `t`) leaves the rounds of node `k` with DEFICIT 0. -/
def Hw.leaveRound (s : Hw) (k t x : Nat) : Hw :=
  let r := s.round k
  (s.setRound k { kids := r.kids.filter (· != x), fed := r.fed.filter (· != x) }).setDeficit (nodeKey t x) 0

/-- The child at the head moves to the tail and keeps its DEFICIT. -/
def Round.toTail (r : Round) (x : Nat) : Round :=
  { kids := r.kids.filter (· != x) ++ [x], fed := r.fed.filter (· != x) }

/-- Levels of rounds above a node of table `t`. -/
abbrev levelsAbove (t : Nat) : Nat := if t < 7 then 6 - t else 10 - t

/-- Node `x` of table `t` has packets below it: it joins its parent's rounds, and so does each ancestor in turn. -/
def Hw.joinUp (s : Hw) (t x : Nat) : Nat → Hw
  | 0 => s
  | n + 1 =>
    let p := s.t (nodePARENT t x)
    Hw.joinUp (s.joinRound (nodeKey (t + 1) p) x) (t + 1) p n

/-- Node `x` of table `t` leaves the rounds of its parent `p`; an ancestor whose subtree is then empty leaves with it. -/
def Hw.leaveUp (s : Hw) (t x p : Nat) : Nat → Hw
  | 0 => s
  | n + 1 =>
    let s := s.leaveRound (nodeKey (t + 1) p) t x
    if (s.round (nodeKey (t + 1) p)).kids.isEmpty then Hw.leaveUp s (t + 1) p (s.t (nodePARENT (t + 1) p)) n else s

/-- A packet has been enqueued: the queue and each ancestor join their parents' rounds. -/
def Hw.schedJoin (s : Hw) (q : Nat) : Hw :=
  let ds := decide (65536 ≤ q)
  s.joinUp (dirTable ds) (qNode ds q) 3

/-- Queue `q` may have become empty: what has an empty subtree leaves its round (R272). -/
def Hw.schedLeave (s : Hw) (q : Nat) : Hw :=
  let ds := decide (65536 ≤ q)
  let x := qNode ds q
  if (s.queue q).empty then s.leaveUp (dirTable ds) x (s.t (nodePARENT (dirTable ds) x)) 3 else s

/-- The queue a packet goes to when a group in HASH mode owns the one chosen: bits [1:0] name the channel its flow
hash selects (R172). -/
def Hw.hashQueue (s : Hw) (q : Nat) (p : Pkt) : Nat :=
  if 65536 ≤ q then q
  else match (List.range 16).find? (fun g => s.rd (SHF_GRP_CFG.MODE g) == 0
      && decide (s.rd (SHF_GRP_QRANGE.QBASE g) ≤ q ∧ q ≤ s.rd (SHF_GRP_QRANGE.QLAST g))) with
    | some g => q - q % 4 + s.t (MEMBER_MAP_EFF.CHANNEL (g * 64 + p.hash % 64))
    | none => q

/-- Admission, and the scheduler's rounds joined when the packet is stored: the one way a packet enters a queue. -/
def Hw.enqueueAt (s : Hw) (q : Nat) (p : Pkt) : Hw × Bool :=
  let q := s.hashQueue q p
  let r := s.admission q p
  if r.2 then
    let s := r.1.schedJoin q
    if q < 65536 then
      let node := (s.pathOf false q 0).top
      ({ s with tms := { s.tms with arrived := s.tms.arrived.set 0 node (s.tms.arrived.get 0 node + p.len) } }, true)
    else (s, true)
  else r

/-- A packet joins queue `q`. -/
def Hw.enqueue (s : Hw) (q : Nat) (p : Pkt) : Hw := (s.enqueueAt q p).1

/-- The head packet leaves queue `q`, and the rounds follow. -/
def Hw.take (s : Hw) (q : Nat) : Hw := (s.dequeue q).schedLeave q

/-- Every packet of queue `q` is discarded at once. -/
def Hw.discardAll (s : Hw) (q : Nat) : Hw :=
  let srcs := ((s.queue q).pkts.map (fun p => p.pkt.source)).eraseDups
  let n := (s.queue q).bytes
  let s := (s.modQueue q (fun x => { x with pkts := [], spill := false, blk := none })).limitTaken q n
  (s.schedLeave q).forAll srcs (fun s p => s.poolUpdate p)

/-! ## Selection (R271-R273) -/

/-- The least of a non-empty list of numbers. -/
def least (l : List Nat) : Nat := l.foldl min (l.headD 0)

/-- The next of `l` after `last` in cyclic ascending order. -/
def nextAfter (l : List Nat) (last : Nat) : Nat :=
  let up := l.filter (fun x => decide (last ≤ x))
  if up.isEmpty then least l else least up

/-- Deficit round robin of node `k` over the eligible children `ok` of table `t` (R272): the child selected, with
quanta given and heads moved. -/
def Hw.drr (s : Hw) (k t : Nat) (ok : List Nat) : Nat → Hw × Nat
  | 0 => (s, least ok)
  | fuel + 1 =>
    let prio := least (ok.map (fun x => s.t (nodePRIO t x)))
    let r := s.round k
    match r.kids.find? (fun x => s.t (nodePRIO t x) == prio) with
    | none => (s, least ok)
    | some x =>
      if !ok.contains x then Hw.drr (s.setRound k (r.toTail x)) k t ok fuel
      else
        let s := if r.fed.contains x then s
          else (s.setDeficit (nodeKey t x) (s.deficit (nodeKey t x)
            + Int.ofNat (max 1 (s.t (nodeWEIGHT t x)) * 64))).setRound k { r with fed := x :: r.fed }
        if 0 < s.deficit (nodeKey t x) then (s, x)
        else Hw.drr (s.setRound k ((s.round k).toTail x)) k t ok fuel

/-- The selected child of an excess phase is charged its frame length; it moves to the tail when its DEFICIT is used
up (R272). -/
def Hw.drrCharge (s : Hw) (k t x len : Nat) : Hw :=
  let d := s.deficit (nodeKey t x) - Int.ofNat len
  let s := s.setDeficit (nodeKey t x) d
  if 0 < d then s else s.setRound k ((s.round k).toTail x)

/-- One level of a selection: node `k` chooses among its children of table `t`; `kid` is a candidate's child there.
Answers the state, the child, and whether it was chosen in the committed phase. -/
def Hw.selectAt (s : Hw) (k t : Nat) (kid : Cand → Nat) (cs : List Cand) : Hw × Nat × Bool :=
  let com := cs.filter (fun c => s.committed t (kid c) c.len)
  if com.isEmpty then
    let ok := (cs.map kid).eraseDups
    let r := s.drr k t ok (((s.round k).kids.length + 1) * 256)
    (r.1, r.2, false)
  else
    let prio := least (com.map (fun c => s.t (nodePRIO t (kid c))))
    let l := ((com.filter (fun c => s.t (nodePRIO t (kid c)) == prio)).map kid).eraseDups
    let x := nextAfter l (s.tms.last.get 0 (8 * k + prio))
    ({ s with tms := { s.tms with last := s.tms.last.set 0 (8 * k + prio) (x + 1) } }, x, true)

/-- Candidates below the chosen child; in the committed phase only those it is committed for (log entry 16). -/
def Hw.narrow (s : Hw) (t : Nat) (kid : Cand → Nat) (x : Nat) (com : Bool) (cs : List Cand) : List Cand :=
  cs.filter (fun c => kid c == x && (!com || s.committed t x c.len))

/-- Selection from a top node down over the candidates, with the charges of R273: the state and the queue. -/
def Hw.selectTree (s : Hw) (ds : Bool) (top : Nat) (cs : List Cand) : Option (Hw × Cand) :=
  if cs.isEmpty then none
  else
    let t := dirTable ds
    let r1 := s.selectAt (nodeKey (t + 3) top) (t + 2) Cand.sub cs
    let cs1 := s.narrow (t + 2) Cand.sub r1.2.1 r1.2.2 cs
    let r2 := r1.1.selectAt (nodeKey (t + 2) r1.2.1) (t + 1) Cand.svc cs1
    let cs2 := s.narrow (t + 1) Cand.svc r2.2.1 r2.2.2 cs1
    let r3 := r2.1.selectAt (nodeKey (t + 1) r2.2.1) t Cand.qn cs2
    match cs2.find? (fun c => c.qn == r3.2.1) with
    | none => none
    | some c =>
      let s := r3.1
      let s := s.drrCharge (nodeKey (t + 1) c.svc) t c.qn c.len
      let s := if r2.2.2 then s.chargeBucket (t + 1) c.svc false c.len
        else s.drrCharge (nodeKey (t + 2) c.sub) (t + 1) c.svc c.len
      let s := s.chargeBucket (t + 1) c.svc true c.len
      let s := if r1.2.2 then s.chargeBucket (t + 2) c.sub false c.len
        else s.drrCharge (nodeKey (t + 3) c.top) (t + 2) c.sub c.len
      let s := s.chargeBucket (t + 2) c.sub true c.len
      let s := s.chargeBucket (t + 3) c.top true c.len
      let s := s.count64 (if ds then TMS_DEQ_DS.A else TMS_DEQ_US.A)
      some (s, c)

/-- Children of node `k` that have had their quantum at the head of a round and are not among the eligible ones `ok` move
to the tail (R272). -/
def Hw.trimRound (s : Hw) (k : Nat) (ok : List Nat) : Hw :=
  s.forAll ((s.round k).fed.filter (fun x => !ok.contains x)) (fun s x => s.setRound k ((s.round k).toTail x))

/-- The same in every round under top node `top`, whose eligible queues are `cs`. -/
def Hw.trimTree (s : Hw) (ds : Bool) (top : Nat) (cs : List Cand) : Hw :=
  let t := dirTable ds
  let subs := (s.round (nodeKey (t + 3) top)).kids
  let s := s.trimRound (nodeKey (t + 3) top) (cs.map Cand.sub)
  s.forAll subs (fun s u =>
    let svcs := (s.round (nodeKey (t + 2) u)).kids
    let s := s.trimRound (nodeKey (t + 2) u) ((cs.filter (fun c => c.sub == u)).map Cand.svc)
    s.forAll svcs (fun s v => s.trimRound (nodeKey (t + 1) v) ((cs.filter (fun c => c.svc == v)).map Cand.qn)))

/-- Downstream queues eligible at port node `p` (R269); `open` judges class and length at the port. -/
def Hw.dsCands (s : Hw) (p : Nat) (ok : Pkt → Bool) : List Cand :=
  (s.backlog true).filterMap (fun q =>
    match s.headPkt q with
    | none => none
    | some k =>
      let c := s.pathOf true q k.len
      if c.top == p && s.pathOk true c && ok k then some c else none)

/-! ## Commits (R277, R282) -/

/-- Buckets of a node are brought up to date at the old rates before a commit takes effect (R277). -/
def Hw.schedBefore (s : Hw) (t x : Nat) : Hw :=
  let up := fun (s : Hw) (peak : Bool) => s.setBucket (bucketKey t x peak) (s.bucketNow t x peak)
  if t = 3 ∨ t = 7 then s else if isDual t then up (up s false) true else up s true

/-- After a commit: a positive credit above a lowered burst size is clamped; a new PRIO moves the child to the tail,
a new PARENT moves it, when it has packets below it, to the new parent's round with DEFICIT 0; the new ancestors join
their rounds, and those left without packets leave theirs: one that both paths share stays (R272, R277, R282). -/
def Hw.schedAfter (s : Hw) (t x oldPrio oldParent : Nat) : Hw :=
  let clamp := fun (s : Hw) (peak : Bool) =>
    let b := s.bucket (bucketKey t x peak)
    let top := Int.ofNat ((s.shaper t x peak).2.1 * 256)
    if top < b.credit then s.setBucket (bucketKey t x peak) { b with credit := max 0 top } else s
  let s := if t = 3 ∨ t = 7 then s else if isDual t then clamp (clamp s false) true else clamp s true
  if t = 6 ∨ t = 10 then s
  else
    let parent := s.t (nodePARENT t x)
    let old := nodeKey (t + 1) oldParent
    let new := nodeKey (t + 1) parent
    if oldParent ≠ parent then
      if (s.round old).kids.contains x then
        let s := (s.leaveRound old t x).joinUp t x (levelsAbove t)
        s.onlyIf ((s.round old).kids.isEmpty = true) (fun s =>
          s.leaveUp (t + 1) oldParent (s.t (nodePARENT (t + 1) oldParent)) (levelsAbove t - 1))
      else s
    else if oldPrio ≠ s.t (nodePRIO t x) ∧ (s.round new).kids.contains x = true then
      s.setRound new ((s.round new).toTail x)
    else s

/-- Entries of a parent level, and the parents no node may name (R267). -/
def parentOk (t x : Nat) : Bool :=
  match t with
  | 4 => decide (x < 16384)
  | 5 => decide (x < 513 ∨ x = 514)
  | 7 => decide (x < 32768)
  | 8 => decide (x < 16384)
  | 9 => decide (x < 4096)
  | _ => true

/-! ## CLEAR_DEBT (R278) -/

/-- Table of a shaper level of TMS_SHP_CMD, and its number of nodes. -/
def shaperLevel : Nat → Option (Nat × Nat)
  | 0 => some (4, 65536)
  | 1 => some (5, 16384)
  | 2 => some (6, 520)
  | 3 => some (8, 32768)
  | 4 => some (9, 16384)
  | 5 => some (10, 4096)
  | _ => none

/-- Each negative credit among the selected buckets becomes 0. -/
def Hw.clearDebt (s : Hw) (t x bucket : Nat) : Hw :=
  let clear := fun (s : Hw) (peak : Bool) =>
    let b := s.bucketNow t x peak
    s.setBucket (bucketKey t x peak) { b with credit := max 0 b.credit }
  let s := s.onlyIf (isDual t = true ∧ bucket % 2 = 1) (fun s => clear s false)
  s.onlyIf (bucket / 2 = 1) (fun s => clear s true)

/-- Words of a scheduler entry that are kept by the hardware: DEFICIT and credits. -/
def Hw.schedWord (s : Hw) (t x w : Nat) : Option Word :=
  let bytes := fun (b : Bucket) => BitVec.ofNat 32 (unsigned 26 (b.credit / 256))
  let def' := BitVec.ofNat 32 (unsigned 32 (s.deficit (nodeKey t x)))
  if t = 3 ∨ t = 7 then (if w = 2 then some def' else none)
  else if isDual t then
    match w with
    | 7 => some def'
    | 8 => some (bytes (s.bucketNow t x false))
    | 9 => some (bytes (s.bucketNow t x true))
    | _ => none
  else if w = 4 then some (bytes (s.bucketNow t x true))
  else none

end Sys2Proof.Machine
end

