-- ==== Sys2Proof/Machine/SheafCore.lean ====
section
/-!
DEFINITION. Sheaf members and their markers (R157-R173), as the other blocks set them in motion: phases, tokens,
requests, leaves, the effective member map, and what a channel's change of readiness does.
-/
namespace Sys2Proof.Machine

abbrev SHF_N.SEQ_LOST := 0
abbrev SHF_N.SEQ_LATE := 1
abbrev SHF_N.SEQ_DUP := 2
abbrev SHF_N.WINDOW_JUMP := 3
abbrev SHF_N.FORCED_SKIP := 4
abbrev SHF_N.TIMEOUT_SKIP := 5
abbrev SHF_N.HINT_MISMATCH := 6
abbrev SHF_N.HINT_RSV := 7
abbrev SHF_N.NOT_MEMBER := 8
abbrev SHF_N.GROUP_MISMATCH := 9
abbrev SHF_N.SHIM_SHORT := 10
abbrev SHF_N.MARKER_UNEXPECTED := 11
abbrev SHF_N.JOIN_RETRIES := 12
abbrev SHF_N.US_FLUSH_DISCARD := 13
abbrev SHF_N.SHED_HE_WAKE := 14
abbrev SHF_N.SHED_EVENTS := 15

def Hw.shfCount (s : Hw) (g n : Nat) (k : Nat := 1) : Hw := s.count (SHF_GRP_CNT.COUNT g n) k
def Hw.shfRaise (s : Hw) (bit : Nat) : Hw := s.raise 0x1800000 bit

/-- A member is ready: its channel is ON, in O5, ACTIVE_HELD or ACTIVE_FREE (spec/06, "Member phases"). -/
def Hw.ready (s : Hw) (c : Nat) : Bool :=
  s.rd (TRK_PMA_STATUS.STATE c) == 2 && s.rd (TRK_ACT_STATUS.ACT_STATE c) == 5
    && decide (s.rd (TRK_ACT_STATUS.PM_STATE c) < 2)

/-- The channel transmits bursts of its allocations (R122, R129). -/
def Hw.transmits (s : Hw) (c : Nat) : Bool :=
  s.rd (TRK_PMA_STATUS.STATE c) == 2 && s.rd (TRK_ACT_STATUS.ACT_STATE c) == 5
    && s.rd (TRK_ACT_STATUS.PM_STATE c) != 3 && s.rd (TRK_DLN_STATUS.LODS c) == 0

/-- PHASE of a member (R165). -/
abbrev Hw.phase (s : Hw) (g c : Nat) : Nat := s.rd (SHF_MBR_STATUS.MEMBER_PHASE g c)

/-- Channel `c` is an ACTIVE member of group `g`. -/
def Hw.memberActive (s : Hw) (g c : Nat) : Bool := s.phase g c == 2

/-- ACTIVE members of a group in ascending channel order. -/
def Hw.activeMembers (s : Hw) (g : Nat) : List Nat := (List.range 4).filter (fun c => s.memberActive g c)

/-- The member is in HASH mode's group and owns queue `q` (R172). -/
def Hw.ownsQueue (s : Hw) (g c q : Nat) : Bool :=
  s.rd (SHF_GRP_CFG.MODE g) == 0 && decide (s.rd (SHF_GRP_QRANGE.QBASE g) ≤ q ∧ q ≤ s.rd (SHF_GRP_QRANGE.QLAST g))
    && q % 4 == c

/-- Backlogged hash queues of member (g, c). -/
def Hw.memberQueues (s : Hw) (g c : Nat) : List Nat := (s.backlog false).filter (fun q => s.ownsQueue g c q)

/-- The effective member map recomputed (R173). -/
def Hw.mapRecompute (s : Hw) (g : Nat) : Hw :=
  let act := s.activeMembers g
  let n := act.length
  ((List.range 64).foldl (fun (a : Hw × Nat) i =>
    let ch := s.t (MEMBER_MAP.CHANNEL (g * 64 + i))
    if n = 0 ∨ act.contains ch = true then (a.1.ts (MEMBER_MAP_EFF.CHANNEL (g * 64 + i)) ch, a.2)
    else (a.1.ts (MEMBER_MAP_EFF.CHANNEL (g * 64 + i)) (act.getD (a.2 % n) 0), a.2 + 1)) (s, 0)).1

/-- The phase of member (g, c) becomes `ph`, with what a change of the ACTIVE set does (R165, R170, R173). -/
def Hw.setPhase (s : Hw) (g c ph : Nat) : Hw :=
  let old := s.phase g c
  let s := s.wr (SHF_MBR_STATUS.MEMBER_PHASE g c) ph
  let s := if old = ph ∨ (old ≠ 2 ∧ ph ≠ 2) then s
    else (s.wr ⟨SHF_GRP_TX_STATUS.A g, 24 + c, 1⟩ (b2n (ph == 2))).mapRecompute g
  let s := s.onlyIf (old = 2 ∧ ph ≠ 2 ∧ s.activeMembers g = []) (fun s => s.shfRaise EV_SHF.GROUP_DOWN)
  s.onlyIf ((List.range 4).all (fun c => s.phase g c == 0) = true) (fun s => s.wr (SHF_GRP_RX_STATUS.SN_SYNCED g) 0)

/-- The token counter of a member advances (R164). -/
def Hw.newToken (s : Hw) (g c : Nat) : Hw := s.wr (SHF_MBR_STATUS.TOKEN g c) (s.rd (SHF_MBR_STATUS.TOKEN g c) + 1)

/-- A marker begins to wait for the grants of its target member. -/
def Hw.addMarker (s : Hw) (g : Nat) (m : Marker) : Hw := s.modGrp g (fun x => { x with markers := x.markers ++ [m] })

/-- The JOIN_TRIES member (g, c) captured at STARTING: the field is not live (R61, R165). -/
def Hw.joinTries (s : Hw) (g c : Nat) : Nat := s.capOwn (4 * g + c) SHF_JOIN_CFG.JOIN_TRIES

/-- A member with tries left decides to send a JOIN_REQ (R165). -/
def Hw.joinSend (s : Hw) (g c : Nat) : Hw :=
  let tries := s.rd (SHF_MBR_STATUS.TRIES g c)
  if s.ready c ∧ tries < s.joinTries g c then
    let s := s.wr (SHF_MBR_STATUS.TRIES g c) (tries + 1)
    let s := s.onlyIf (1 ≤ tries) (fun s => s.shfCount g SHF_N.JOIN_RETRIES)
    let s := s.modMbr g c (fun m => { m with outstanding := true, placed := false })
    s.addMarker g { group := g, target := c, subject := c, type := 1, reason := 0, token := s.rd (SHF_MBR_STATUS.TOKEN g c) }
  else s

/-- Entry to JOIN_WAIT: new token, tries reset, and the first request when the member is ready (R165). -/
def Hw.joinStart (s : Hw) (g c : Nat) : Hw :=
  let s := (s.newToken g c).wr (SHF_MBR_STATUS.TRIES g c) 0
  let s := s.modMbr g c (fun m => { m with outstanding := false, placed := false, leaveSent := false })
  (s.setPhase g c 1).joinSend g c

/-- A waiting JOIN_REQ of a member is withdrawn (R163). The try it stood for stays counted in TRIES: the spec does not say, and
it is the model's choice (log entry 199). -/
def Hw.joinWithdraw (s : Hw) (g c : Nat) : Hw :=
  let s := s.modGrp g (fun x => { x with markers := x.markers.filter (fun m => !(m.type == 1 && m.subject == c)) })
  s.modMbr g c (fun m => if m.placed then m else { m with outstanding := false })

/-- The member that carries a LEAVE or LEAVE_ACK about channel `c`: its own while it transmits, else the
lowest-numbered other ACTIVE member (R168). -/
def Hw.leaveCarrier (s : Hw) (g c : Nat) : Option Nat :=
  if s.transmits c then some c
  else (List.range 4).find? (fun d => d != c && s.memberActive g d && s.transmits d)

/-- A LEAVE (3) or LEAVE_ACK (4) about channel `c` begins to wait, if some member can carry it. -/
def Hw.leaveMarker (s : Hw) (g c type reason token : Nat) : Hw :=
  match s.leaveCarrier g c with
  | some d => s.addMarker g { group := g, target := d, subject := c, type := type, reason := reason, token := token }
  | none => if type = 3 ∧ reason ≠ 3 then s.modMbr g c (fun m => { m with leaveSent := true }) else s

/-- An ACTIVE member stops being ready (R165). -/
def Hw.memberSuspend (s : Hw) (g c : Nat) : Hw :=
  let s := (s.setPhase g c 3).shfRaise EV_SHF.MEMBER_SUSPEND
  let s := s.newToken g c
  s.leaveMarker g c 3 3 (s.rd (SHF_MBR_STATUS.TOKEN g c))

/-- The LEAVE of a member in LEAVE_WAIT is sent (R164, R167). -/
def Hw.sendLeave (s : Hw) (g c : Nat) : Hw :=
  let s := s.newToken g c
  s.leaveMarker g c 3 (if s.rd (SHF_MBR_STATUS.HELD g c) = 1 then 2 else 1) (s.rd (SHF_MBR_STATUS.TOKEN g c))

/-- The LEAVE of a stopping member waits for placement; one of a suspension (REASON 3) is not it (R167). -/
def Hw.leaveWaits (s : Hw) (g c : Nat) : Bool :=
  (s.grp g).markers.any (fun m => m.type == 3 && m.subject == c && m.reason != 3)

/-- The flush of a member in LEAVE_WAIT (R167): it waits while its hash queues drain on a transmitting channel;
without transmission they are discarded. -/
def Hw.leaveFlush (s : Hw) (g c : Nat) : Hw :=
  if s.phase g c ≠ 4 ∨ (s.mbr g c).leaveSent = true ∨ s.leaveWaits g c = true then s
  else if s.transmits c then (if (s.memberQueues g c).isEmpty then s.sendLeave g c else s)
  else
    let s := s.forAll (s.memberQueues g c) (fun s q =>
      (s.shfCount g SHF_N.US_FLUSH_DISCARD (s.queue q).pkts.length).discardAll q)
    s.sendLeave g c

/-- The member's lifecycle enters STOPPING (R165). -/
def Hw.memberStopping (s : Hw) (g c : Nat) : Hw :=
  if s.phase g c = 0 ∨ s.phase g c = 4 then s
  else
    let s := s.joinWithdraw g c
    let s := s.modMbr g c (fun m => { m with outstanding := false, placed := false, leaveSent := false })
    (s.setPhase g c 4).leaveFlush g c

/-- LEAVE_WAIT ends: the member is IDLE and its lifecycle goes to OFF, or to STARTING under RESTART_PENDING. -/
def Hw.memberIdle (s : Hw) (g c : Nat) : Hw :=
  let f : Fn := .member ⟨g % 16, Nat.mod_lt _ (by decide)⟩ ⟨c % 4, Nat.mod_lt _ (by decide)⟩
  let s := s.modGrp g (fun x => { x with markers := x.markers.filter (fun m => m.subject != c) })
  let s := s.modMbr g c (fun m => { m with outstanding := false, placed := false, leaveSent := false })
  let s := ((s.setPhase g c 0).shfRaise EV_SHF.LEAVE_DONE).lcOff f
  if s.st f = 1 then s.joinStart g c else s

/-- Waiting markers of channel `c` when it can no longer transmit: a JOIN_REQ is withdrawn, a LEAVE or LEAVE_ACK
moves to another member or is not sent (R163, R168). -/
def Hw.moveMarkers (s : Hw) (g c : Nat) : Hw :=
  if s.transmits c then s
  else
    let stuck := (s.grp g).markers.filter (fun m => m.target == c)
    let s := s.modGrp g (fun x => { x with markers := x.markers.filter (fun m => m.target != c) })
    s.forAll stuck (fun s m =>
      if m.type = 1 then s.modMbr g m.subject (fun x => { x with outstanding := false })
      else s.leaveMarker g m.subject m.type m.reason m.token)

/-- What a change of channel `c`'s readiness does to the members on it (R163, R165, R167). -/
def Hw.memberUpdate (s : Hw) (c : Nat) : Hw :=
  s.forAll (List.range 16) (fun s g =>
    let s := match s.phase g c with
      | 2 => if s.ready c then s else s.memberSuspend g c
      | 3 => if s.ready c then s.joinStart g c else s
      | 1 => if s.ready c then (if (s.mbr g c).outstanding then s else s.joinSend g c) else s.joinWithdraw g c
      | _ => s
    (s.moveMarkers g c).leaveFlush g c)

end Sys2Proof.Machine
end

