-- ==== Sys2Proof/Machine/SlotCore.lean ====
section
/-!
DEFINITION. The slot service (spec/12) as the rest of the terminal meets it: slot frame numbers, pages in force, path
defects and selectors, containers received and built, jitter buffers. Its commands are in Machine/Slot.
-/
namespace Sys2Proof.Machine

def Hw.sltRaise (s : Hw) (bit : Nat) : Hw := s.raise 0x4800000 bit
def Hw.slotCh (s : Hw) (k : Nat) : SlotCh := s.slt.chans.get {} k
def Hw.modSlotCh (s : Hw) (k : Nat) (f : SlotCh → SlotCh) : Hw :=
  { s with slt := { s.slt with chans := s.slt.chans.set {} k (f (s.slotCh k)) } }
def Hw.circ (s : Hw) (x : Nat) : Circ := s.slt.circs.get {} x
def Hw.modCirc (s : Hw) (x : Nat) (f : Circ → Circ) : Hw :=
  { s with slt := { s.slt with circs := s.slt.circs.set {} x (f (s.circ x)) } }
def Hw.slotPage (s : Hw) (p : Nat) : SlotPage := s.slt.pages.get {} p
def Hw.modSlotPage (s : Hw) (p : Nat) (f : SlotPage → SlotPage) : Hw :=
  { s with slt := { s.slt with pages := s.slt.pages.set {} p (f (s.slotPage p)) } }

/-- A field of a CIRCUIT entry as it is in force: a commit applies from the next slot frame (R322). -/
def Hw.cf (s : Hw) (x : Nat) (f : TRef) : Nat :=
  match s.slt.old.get none x with
  | some e => bitsOf e f.lo f.width
  | none => s.t f

/-- Circuits with anything in their entry, committed or in force. -/
def Hw.circList (s : Hw) : List Nat := (s.listed 9 3 ++ s.slt.old.map Prod.fst).eraseDups

/-- A counter of a CIRCUIT_STATE entry, saturating at 0xFFFF_FFFF (R332). -/
def Hw.circCount (s : Hw) (r : TRef) (bin : Option (Nat × Nat) := none) : Hw :=
  let s := s.ts r (satAdd (s.t r) 1 0xFFFFFFFF)
  match bin with
  | some b => s.note (4 + b.1) b.2
  | none => s

/-- The block's domain is on. -/
def Hw.sltOn (s : Hw) : Bool := s.cond 27 == 0

/-! ## Slot frames (R315) -/

/-- Slot frames since the epoch of local time. -/
def Hw.slotFrame (s : Hw) : Nat := s.tim.now.abs / 125000

/-- F_loc. -/
def Hw.fLoc (s : Hw) : Nat := s.slotFrame % 65536

/-- Frame number `f` is at or after `g`. -/
def atOrAfter (f g : Nat) : Bool := decide ((f + 65536 - g) % 65536 < 32768)

/-- Two frame numbers are within 32 of one another. -/
def near32 (f g : Nat) : Bool := decide ((f + 65536 - g) % 65536 ≤ 32 ∨ (g + 65536 - f) % 65536 ≤ 32)

/-! ## Pages (R320, R321) -/

/-- STATE of page `p` (R321). -/
abbrev Hw.pageState (s : Hw) (p : Nat) : Nat := s.rd (SLT_PAGE_STATUS.STATE p)

/-- The active page. -/
def Hw.pageOn (s : Hw) : Option Nat := (List.range 2).find? (fun p => s.pageState p == 2)

/-- The swap frame of page `p` is no more than 32 slot frames past, so that frames before it may still come (R321). -/
def Hw.swapRecent (s : Hw) (p : Nat) : Bool :=
  let a := (s.slotPage p).swapAt
  decide (a ≤ s.slotFrame + 1 ∧ s.slotFrame < a + 32)

/-- The page that applies to slot frame `f` (R321): the active one from its swap frame on, the one it replaces before. Frame
numbers come round after 2^16 frames; they are compared while frames from before the swap may still come. -/
def Hw.pageFor (s : Hw) (f : Nat) : Option Nat :=
  match s.pageOn with
  | none => none
  | some p =>
    if (s.swapRecent p = false ∧ s.pageState (1 - p) ≠ 3) ∨ atOrAfter f (s.rd (SLT_PAGE_STATUS.SWAP_FRAME p)) = true then some p
    else if s.pageState (1 - p) = 3 then some (1 - p) else none

/-- The page whose capture serves a circuit in frame `f`: also the active one before its swap frame where it replaces
none. While no page is ON the capture last in force serves on, since N, K and PORT change at a swap only (R321, R322); it
is kept as page 2. -/
def Hw.pageNear (s : Hw) (f : Nat) : Option Nat :=
  ((s.pageFor f).or s.pageOn).or (if (s.slotPage 2).armed then some 2 else none)

/-- N, K and PORT of a circuit as a page captured them. -/
def Hw.circCap (s : Hw) (p x : Nat) : Nat × Nat × Nat := (s.slotPage p).caps.get (0, 0, 0) x

/-- Mapped positions of channel `c` in a page, ascending: position, circuit, octet. -/
def Hw.mapped (s : Hw) (us : Bool) (p c : Nat) : List (Nat × Nat × Nat) :=
  let base := p * 16384 + c * 4096
  let bad := if us then (s.slotPage p).badUs else (s.slotPage p).badDs
  ((s.listed 9 (if us then 2 else 1)).filter (fun i => decide (base ≤ i ∧ i < base + 4096) && !bad.contains i)).filterMap
    (fun i =>
      let r := fun (a b : TRef) => s.t (if us then b else a)
      if r (CMEM_DS.VALID i) (CMEM_US.VALID i) = 1 then
        some (i - base, r (CMEM_DS.CIRCUIT i) (CMEM_US.CIRCUIT i), r (CMEM_DS.OCTET i) (CMEM_US.OCTET i))
      else none)

/-! ## Paths and defects (R326-R329) -/

/-- Slot channel of a path of a circuit: working, or protection on this terminal or its twin. -/
def Hw.pathCh (s : Hw) (x path : Nat) : Nat :=
  if path = 0 then s.cf x (CIRCUIT.WORK_CH x)
  else if s.cf x (CIRCUIT.PROT x) = 2 then 4 + s.cf x (CIRCUIT.PROT_CH x) else s.cf x (CIRCUIT.PROT_CH x)

/-- A circuit has the path. -/
def Hw.hasPath (s : Hw) (x path : Nat) : Bool := path == 0 || (s.cf x (CIRCUIT.PROT x) == 1 || s.cf x (CIRCUIT.PROT x) == 2)

def Circ.path (k : Circ) (path : Nat) : SlotPath := if path = 0 then k.work else k.prot
def Circ.setPath (k : Circ) (path : Nat) (d : SlotPath) : Circ := if path = 0 then { k with work := d } else { k with prot := d }

/-- Signal fail of a path (R328). -/
def Hw.signalFail (s : Hw) (x path : Nat) : Bool :=
  let k := s.pathCh x path
  s.hasPath x path && (decide (s.rd SLT_CFG.CONT_LOSS ≤ (s.slotCh k).missing) || ((s.circ x).path path).uneq
    || (if k < 4 then s.rd (TRK_DLN_STATUS.LODS k) == 1 else s.rd TWN_STATUS.LINK_STATE != 2))

/-- Judgement of a label against its path's last ones (R327). -/
def SlotPath.judge (d : SlotPath) (exp l : Nat) : SlotPath :=
  let ls := (l :: d.labels).take 5
  let u := fun (v : Nat) => decide (v = 0 ∧ exp ≠ 0)
  let m := fun (v : Nat) => decide (v ≠ exp ∧ v ≠ 0 ∧ v ≠ 1 ∧ exp ≠ 1)
  let five := ls.length == 5
  { labels := ls
    uneq := if five && ls.all u then true else if five && ls.all (fun v => !u v) then false else d.uneq
    plm := if five && ls.all (fun v => m v && v == l) then true
      else if five && ls.all (fun v => !m v) then false else d.plm }

/-- The path the highest request asks for (R329). -/
def Hw.wantedPath (s : Hw) (x : Nat) : Nat :=
  let now := s.t (CIRCUIT_STATE.ACTIVE_PATH x)
  let w := s.t (CIRCUIT_STATE.SF_W x) == 1
  let p := s.t (CIRCUIT_STATE.SF_P x) == 1
  let cmd := s.t (CIRCUIT_STATE.CMD_IN_FORCE x)
  if s.hasPath x 1 = false then 0
  else if cmd = 1 ∨ cmd = 2 then 0
  else if cmd = 3 then 1
  else if w && p then now
  else if w && (s.circ x).heldOff == some 0 then 1
  else if p && (s.circ x).heldOff == some 1 then 0
  else if cmd = 4 ∧ w = false then 0
  else if cmd = 5 ∧ p = false then 1
  else now

/-- The selector follows its requests; a switch is counted and signalled. -/
def Hw.select1p1 (s : Hw) (x : Nat) : Hw :=
  let dest := s.wantedPath x
  let s := if dest = s.t (CIRCUIT_STATE.ACTIVE_PATH x) then s
    else ((s.ts (CIRCUIT_STATE.ACTIVE_PATH x) dest).circCount (CIRCUIT_STATE.SWITCH_COUNT x) (some (x, 6))).sltRaise EV_SLT.PATH_SWITCH
  s.onlyIf (dest = 0) (fun s => s.ts (CIRCUIT_STATE.WTR_RUN x) 0)

/-- SF, UNEQ and PLM of a circuit are taken anew (R328); its hold-off, wait-to-restore and selector follow (R329). -/
def Hw.circDefects (s : Hw) (x : Nat) : Hw :=
  if s.cf x (CIRCUIT.VALID x) = 0 then s
  else
    let w := b2n (s.signalFail x 0)
    let p := b2n (s.signalFail x 1)
    let wasW := s.t (CIRCUIT_STATE.SF_W x)
    let wasP := s.t (CIRCUIT_STATE.SF_P x)
    let s := (s.ts (CIRCUIT_STATE.SF_W x) w).ts (CIRCUIT_STATE.SF_P x) p
    let alone := if w = 1 ∧ p = 0 then some 0 else if w = 0 ∧ p = 1 then some 1 else none
    let hold := s.cf x (CIRCUIT.HOLDOFF x)
    let s := s.modCirc x (fun k => { k with heldOff := if hold = 0 ∨ k.heldOff = alone then alone else none })
    let s := if w = 1 then s.ts (CIRCUIT_STATE.WTR_RUN x) 0
      else s.onlyIf (wasW = 1 ∧ s.t (CIRCUIT_STATE.ACTIVE_PATH x) = 1 ∧ s.cf x (CIRCUIT.REVERT x) = 1)
        (fun s => s.ts (CIRCUIT_STATE.WTR_RUN x) 1)
    let s := s.select1p1 x
    let d := (s.circ x).path (s.t (CIRCUIT_STATE.ACTIVE_PATH x))
    let s := (s.ts (CIRCUIT_STATE.UNEQ x) (b2n d.uneq)).ts (CIRCUIT_STATE.PLM x) (b2n d.plm)
    let sf := if s.t (CIRCUIT_STATE.ACTIVE_PATH x) = 0 then w else p
    let s := s.onlyIf (sf = 1) (fun s => s.note (4 + x) 21)
    let k := s.circ x
    let now := (k.work.uneq, k.work.plm, k.prot.uneq, k.prot.plm)
    let s := s.onlyIf (wasW ≠ w ∨ wasP ≠ p ∨ k.told ≠ now) (fun s => s.sltRaise EV_SLT.CIRCUIT_DEFECT)
    s.modCirc x (fun k => { k with told := now })

/-- Every circuit's defects, after a change of a channel's or the twin link's state. -/
def Hw.slotDefects (s : Hw) : Hw := if s.sltOn then s.forAll s.circList (fun s x => s.circDefects x) else s

/-! ## Containers received (R316, R317, R326, R327) -/

/-- CRC-16 of a container header. -/
def contCrc (bs : Bytes) : Nat := crcM 16 0x1021 0xFFFF bs

/-- The labels of an accepted container go to the circuits it serves on channel `k`. -/
def Hw.takeLabels (s : Hw) (k : Nat) (bs : Bytes) : Hw :=
  s.forAll (List.range 32) (fun s j =>
    let x := byteAt bs 8 % 32 * 32 + j
    let l := byteAt bs (9 + j)
    if s.cf x (CIRCUIT.VALID x) = 0 then s
    else
      let s := s.forAll [0, 1] (fun s path =>
        if s.hasPath x path && s.pathCh x path == k then
          let s := s.modCirc x (fun q => q.setPath path ((q.path path).judge (s.cf x (CIRCUIT.EXP_LABEL x)) l))
          s.onlyIf (s.t (CIRCUIT_STATE.ACTIVE_PATH x) = path) (fun s => s.ts (CIRCUIT_STATE.RX_LABEL x) l)
        else s)
      s.circDefects x)

/-- An accepted container is demapped into the store of slot channel `k`; circuits that wait for their first frame on
this, their working path, take their playout reference. -/
def Hw.demap (s : Hw) (k : Nat) (bs : Bytes) : Hw :=
  let f := beAt bs 2 2
  let len := beAt bs 4 2
  let s := match s.pageFor f with
    | none => s
    | some p =>
      let pos : List (Nat × Nat × Nat) := (s.mapped false p (k % 4)).filter (fun e => decide (e.1 < len))
      let fr : SlotFrame := { no := f, octets := pos.map (fun (e : Nat × Nat × Nat) => (e.2.1, e.2.2, bs.getD (41 + e.1) 0)) }
      let s := s.modSlotCh k (fun h => { h with store := h.store.set none (f % 32) (some fr) })
      s.forAll ((pos.map (fun (e : Nat × Nat × Nat) => e.2.1)).eraseDups) (fun s x =>
        if k < 4 ∧ s.cf x (CIRCUIT.VALID x) = 1 ∧ s.cf x (CIRCUIT.WORK_CH x) = k ∧ (s.circ x).start = none then
          let now := s.tim.now.abs
          s.modCirc x (fun q => { q with start := some (f, now), played := 0 })
        else s)
  s.takeLabels k bs

/-- No container with this number was accepted on the channel in the last 32 slot frames (check 4). -/
def Hw.contFresh (s : Hw) (k f : Nat) : Bool :=
  !(s.slotCh k).seen.any (fun e => e.1 == f && decide (s.slotFrame - e.2 < 32))

/-- A container accepted on slot channel `k` is recorded. -/
def Hw.contSeen (s : Hw) (k f : Nat) : Hw :=
  let n := s.slotFrame
  let hit := near32 f s.fLoc
  s.modSlotCh k (fun h => { h with
    seen := (f, n) :: h.seen.filter (fun e => decide (n - e.2 < 32)), got := h.got || hit })

/-- Checks 1 to 4 of R317: 0 accepted, else one more than the counter of the failing check. -/
def Hw.contCheck (s : Hw) (c : Nat) (bs : Bytes) : Nat :=
  let len := beAt bs 4 2
  if s.pageOn.isNone then 2
  else if bs.length < 8 ∨ byteAt bs 0 ≠ 1 ∨ beAt bs 6 2 ≠ contCrc (bs.take 6) ∨ byteAt bs 1 / 16 ≠ c then 2
  else if bs.length ≠ 41 + len ∨ len = 0 ∨ 4096 < len ∨ byteAt bs 8 ≠ beAt bs 2 2 % 32 then 3
  else if s.contFresh c (beAt bs 2 2) then 0 else 4

/-- A container that arrived on trunk channel `c`; one accepted is also forwarded to the twin (R457). -/
def Hw.container (s : Hw) (c : Nat) (bs : Bytes) : Hw :=
  match s.contCheck c bs with
  | 0 =>
    let s := ((s.count (SLT_CH_CNT.COUNT c 0)).contSeen c (beAt bs 2 2)).demap c bs
    s.onlyIf (s.rd GLB_STRAP.TWIN_EN = 1 ∧ bitN (s.rd TWN_COVER.SLOT_FWD_MASK) c = 1 ∧ s.rd TWN_STATUS.LINK_STATE = 2)
      (fun s => { s with twn := { s.twn with slots := s.twn.slots ++ [(true, c, bs)] } })
  | n => (s.count (SLT_CH_CNT.COUNT c (n - 1))).sltRaise EV_SLT.CONTAINER_ERR

/-! ## Upstream frames (R318, R325) -/

/-- The next frame of a circuit's jitter buffer; `idle` while it fills or when it is empty. -/
def Hw.usNext (s : Hw) (x : Nat) (idle : Bytes) : Hw × Bytes :=
  let k := s.circ x
  match k.jitter with
  | [] =>
    if k.running then ((s.circCount (CIRCUIT_STATE.US_UNDERRUN x) (some (x, 3))).modCirc x (fun q => { q with running := false }), idle)
    else (s, idle)
  | b :: t =>
    if k.running || decide (s.cf x (CIRCUIT.JB_FRAMES x) / 2 ≤ k.jitter.length) then
      (s.modCirc x (fun q => { q with running := true, jitter := t }), b)
    else (s, idle)

/-- The frame taken for slot frame `f`. -/
def Hw.usFresh (s : Hw) (x f n : Nat) : Hw × Bytes :=
  let r := s.usNext x (List.replicate n (0xFF#8))
  (r.1.modCirc x (fun q => { q with taken := some (f, r.2) }), r.2)

/-- The octets of a circuit for slot frame `f`, taken once for every container that carries them. -/
def Hw.usTake (s : Hw) (x f n : Nat) : Hw × Bytes :=
  match (s.circ x).taken with
  | some t => if t.1 = f then (s, t.2) else Hw.usFresh s x f n
  | none => Hw.usFresh s x f n

/-- LENGTH of channel `c`'s upstream container: one more than its highest mapped position (1 with none mapped; log
entry 38). -/
def Hw.usLength (s : Hw) (p c : Nat) : Nat := (s.mapped true p c).foldl (fun n e => max n (e.1 + 1)) 1

/-- The upstream container of channel `c` for slot frame `f` under page `p` (R318). -/
def Hw.buildContainer (s : Hw) (p c f : Nat) : Hw × Bytes :=
  let pos := s.mapped true p c
  let len := s.usLength p c
  let xs := ((pos.map (fun e => e.2.1)).eraseDups).filter (fun x => s.cf x (CIRCUIT.VALID x) == 1 && s.cf x (CIRCUIT.US_EN x) == 1)
  let r := xs.foldl (fun (a : Hw × List (Nat × Bytes)) x =>
    let t := a.1.usTake x f (s.circCap p x).1
    (t.1, (x, t.2) :: a.2)) (s, [])
  let octet := fun (i : Nat) => match pos.find? (fun e => e.1 == i) with
    | some e => (match r.2.find? (fun q => q.1 == e.2.1) with
      | some q => q.2.getD e.2.2 0
      | none => 0#8)
    | none => 0#8
  let head := [1#8] ++ beBytes 1 (c * 16) ++ beBytes 2 f ++ beBytes 2 len
  let labels := (List.range 32).map (fun j =>
    let x := f % 32 * 32 + j
    if s.cf x (CIRCUIT.VALID x) = 1 ∧ s.cf x (CIRCUIT.US_EN x) = 1 then BitVec.ofNat 8 (s.cf x (CIRCUIT.TX_LABEL x)) else 0#8)
  (r.1, head ++ beBytes 2 (contCrc head) ++ beBytes 1 (f % 32) ++ labels ++ (List.range len).map octet)

/-- A grant is one of the slot allocation's (R318). -/
def Hw.isSlotGrant (s : Hw) (c idx : Nat) : Bool :=
  s.rd (SLT_CH_CFG.US_EN c) == 1 && s.rd (SLT_CH_CFG.ALLOC_IDX c) == idx && s.sltOn

/-- At the cutoff of a slot grant of the upstream frame of superframe count `sfc` with `room` octets: the container it
carries, if any (R318, R457); none while no page is in force (R321). -/
def Hw.slotGrant (s : Hw) (c sfc room : Nat) : Hw × Option Bytes :=
  if (s.slotCh c).usFrame = sfc + 1 then (s.count (SLT_CH_CNT.COUNT c 7), none)
  else
    let s := s.modSlotCh c (fun h => { h with usFrame := sfc + 1, granted := true })
    match s.pageFor s.fLoc with
    | none => (s.count (SLT_CH_CNT.COUNT c 5), none)
    | some p =>
      let twin := (s.slotCh c).twinUs
      let s := s.modSlotCh c (fun h => { h with twinUs := none })
      let fresh := match twin with
        | some t => if s.clk - t.1 ≤ 250000 then some t.2 else none
        | none => none
      let s := s.onlyIf (twin.isSome = true ∧ fresh = none) (fun s => s.count (TWN_CNT.COUNT 13))
      match fresh with
      | some bs =>
        if room < 8 + bs.length then ((s.count (SLT_CH_CNT.COUNT c 6)).count (TWN_CNT.COUNT 13), none) else (s, some bs)
      | none =>
        if room < 49 + s.usLength p c then (s.count (SLT_CH_CNT.COUNT c 6), none)
        else
          let r := s.buildContainer p c s.fLoc
          (r.1, some r.2)

/-! ## Subscriber slot packets (R325) -/

/-- Offset of the type field of a slot packet: after no tag or one VLAN tag. -/
def Hw.slotAt (s : Hw) (bs : Bytes) : Option Nat :=
  let e := s.rd SLT_CFG.ETYPE
  if beAt bs 12 2 = e then some 12
  else if [0x8100, 0x88A8, 0x9100].contains (beAt bs 12 2) = true ∧ beAt bs 16 2 = e then some 16
  else none

/-- The `k` frames of `n` octets at the head of a run. -/
def slotFrames (n : Nat) (bs : Bytes) : Nat → List Bytes
  | 0 => []
  | k + 1 => bs.take n :: slotFrames n (bs.drop n) k

/-- A slot packet received on port `p`, its type field at `o`. Frames of 0xFF for a gap are stored first, as far as the
buffer has room (log entry 177), then the packet, or it is discarded. -/
def Hw.slotRx (s : Hw) (p o : Nat) (bs : Bytes) : Hw :=
  let h := beAt bs (o + 2) 4
  let x := h / 2 ^ 22
  let seq := h % 4096
  let body := (bs.take (bs.length - 4)).drop (o + 6)
  let bad := s.circCount (CIRCUIT_STATE.RX_BAD x) (some (x, 4))
  if s.sltOn = false then s
  else if s.cf x (CIRCUIT.VALID x) = 0 then s.count SLT_RX_NO_CIRCUIT.COUNT
  else match s.pageNear s.fLoc with
    | none => bad
    | some pg =>
      let cap := s.circCap pg x
      let n := cap.1
      let k := cap.2.1
      if s.cf x (CIRCUIT.US_EN x) = 0 ∨ cap.2.2 ≠ p then bad
      else if body.length < k * n ∨ (body.length ≠ k * n ∧ bs.length ≠ 64) then bad
      else
        let fs := slotFrames n body k
        let d := (seq + 4096 - (s.circ x).expect.getD seq) % 4096
        if 2048 ≤ d then bad
        else
          let s := s.onlyIf (d ≠ 0) (fun s => s.circCount (CIRCUIT_STATE.SEQ_GAP x) (some (x, 5)))
          let s := s.modCirc x (fun q => { q with expect := some ((seq + 1) % 4096) })
          let s := s.onlyIf (16 ≤ d) (fun s => s.modCirc x (fun q => { q with jitter := [], running := false }))
          let fill := if d ≤ 15 then List.replicate (d * k) (List.replicate n (0xFF#8)) else []
          let room := s.cf x (CIRCUIT.JB_FRAMES x)
          let s := s.onlyIf (d ≠ 0) (fun s =>
            s.modCirc x (fun q => { q with jitter := (q.jitter ++ fill).take (max room q.jitter.length) }))
          if room < (s.circ x).jitter.length + fs.length then s.circCount (CIRCUIT_STATE.US_OVERFLOW x) (some (x, 3))
          else s.modCirc x (fun q => { q with jitter := q.jitter ++ fs })

end Sys2Proof.Machine
end

