-- ==== Sys2Proof/Machine/TrunkCore.lean ====
section
/-!
DEFINITION. What one event on a trunk channel does to the rest of the terminal: defects and their consequent actions
(R121, R122), the activation state and its clear (R126-R129), power management (R153, R154), the rogue-transmit guard
(R82, R83), the lifecycle of a channel (R68, R69), the source of time (R335, R340, R346) and trunk failure (R461, R462).
-/
namespace Sys2Proof.Machine

abbrev DLN_N.FALSE_CANDIDATE := 0
abbrev DLN_N.CAND_OVERFLOW := 1
abbrev DLN_N.SFC_HEC_CORR := 2
abbrev DLN_N.SFC_HEC_UNCORR := 3
abbrev DLN_N.SFC_JUMP_COUNT := 4
abbrev DLN_N.HLEND_UNCORR := 5
abbrev DLN_N.BWMAP_HEC_CORR := 6
abbrev DLN_N.BWMAP_HEC_UNCORR := 7
abbrev DLN_N.GRANT_FOREIGN := 8
abbrev DLN_N.GRANT_RANGE := 9
abbrev DLN_N.GRANT_EXCESS := 10
abbrev DLN_N.GRANT_OVERLAP := 11
abbrev DLN_N.PLOAM_DROP := 12
abbrev DLN_N.GEM_HEC_CORR := 13
abbrev DLN_N.GEM_HEC_UNCORR := 14
abbrev DLN_N.GEM_LOST_BYTES := 15
abbrev DLN_N.GEM_FEC_DISCARD := 16
abbrev DLN_N.GEM_NO_PORT := 17
abbrev DLN_N.FRAG_DISCARD := 18
abbrev DLN_N.OVERSIZE := 19
abbrev DLN_N.ENC_MISMATCH := 20
abbrev DLN_N.KEY_INVALID := 21
abbrev DLN_N.KEY_IDX_RSV := 22
abbrev DLN_N.KEY_HARD_DISCARD := 23
abbrev ACT_N.SN_RESP_SENT := 2
abbrev ACT_N.BURSTS_SENT := 3
abbrev ACT_N.STATE_DISCARD := 4
abbrev ACT_N.TXDIS_DISCARD := 5
abbrev ACT_N.PROFILE_INVALID := 6
abbrev ACT_N.LATE_GRANT := 7
abbrev ACT_N.UNDERRUN_FILL := 8
abbrev ACT_N.US_GEM_NO_PORT := 9
abbrev ACT_N.US_KEY_HARD_DISCARD := 10
abbrev ACT_N.EQD_OVERLAP_DROP := 11
abbrev ACT_N.CMD_REJECT := 12
abbrev ACT_N.PLOAM_TX_FULL := 13
abbrev ACT_N.SHED_NO_SLEEP := 14
abbrev ACT_N.KEY_SWITCH_LATE_COUNT := 15

def Hw.trkRaise (s : Hw) (c bit : Nat) : Hw := s.raise (0x1000000 + c * 0x100000) bit
def Hw.dlnCount (s : Hw) (c n : Nat) (k : Nat := 1) : Hw := s.count (TRK_DLN_CNT.COUNT c n) k
def Hw.actCount (s : Hw) (c n : Nat) (k : Nat := 1) : Hw := s.count (TRK_ACT_CNT.COUNT c n) k
def Hw.twnCount (s : Hw) (n : Nat) (k : Nat := 1) : Hw := s.count (TWN_CNT.COUNT n) k
def Hw.twnRaise (s : Hw) (bit : Nat) : Hw := s.raise 0x8800000 bit

/-- The channel is ON. -/
def Hw.trkOn (s : Hw) (c : Nat) : Bool := s.rd (TRK_PMA_STATUS.STATE c) == 2

/-- HE_DISABLE of a channel (R84). -/
def Hw.heDisabled (s : Hw) (c : Nat) : Bool := bitN s.aon.heDisable c == 1

/-- The superframe count used for the latest frame (R104). -/
def Hw.sfc (s : Hw) (c : Nat) : Nat := s.val64 (TRK_SFC.A c)

/-! ## The source of time -/

/-- The clock leaves LOCKED for HOLDOVER (R335). -/
def Hw.clockHoldover (s : Hw) : Hw :=
  if s.cond 31 = 0 ∧ s.rd TIM_STATUS.STATE = 1 then
    ((s.wr TIM_STATUS.STATE 2).raise 0x5000000 EV_TIM.STATE_CHANGE).timSource
  else s

/-! ## Trunk failure as the twin sees it (R461-R463) -/

/-- Channel `c` is in COVER_MASK. -/
def Hw.covered (s : Hw) (c : Nat) : Bool := bitN (s.rd TWN_COVER.COVER_MASK) c == 1

/-- A covered channel is in O5. -/
def Hw.coveredO5 (s : Hw) : Bool :=
  (List.range 4).any (fun c => s.covered c && s.trkOn c && s.rd (TRK_ACT_STATUS.ACT_STATE c) == 5)

/-- REDIRECT takes a value, with its event. -/
def Hw.setRedirect (s : Hw) (v : Nat) : Hw :=
  if s.rd TWN_STATUS.REDIRECT = v then s
  else
    let s := (s.wr TWN_STATUS.REDIRECT v).twnRaise EV_TWN.REDIRECT_CHANGE
    s.onlyIf (v = 1) (fun s => s.twnCount 5)

/-- Channel `c` has declared LODS: TRUNK_FAIL when it was the last covered one that is ON, and REDIRECT with it
(R461, R462). -/
def Hw.trunkFail (s : Hw) (c : Nat) : Hw :=
  if s.rd GLB_STRAP.TWIN_EN = 1 ∧ s.covered c = true ∧ s.trkOn c = true ∧ s.rd TWN_STATUS.TRUNK_FAIL = 0
      ∧ (List.range 4).all (fun d => !(s.covered d && s.trkOn d) || s.rd (TRK_DLN_STATUS.LODS d) == 1) = true then
    let s := s.wr TWN_STATUS.TRUNK_FAIL 1
    s.onlyIf (s.rd TWN_CTRL.REDIR_EN = 1 ∧ s.rd TWN_STATUS.ROLE_STATE = 3 ∧ s.rd TWN_STATUS.LINK_STATE = 2
        ∧ s.rd TWN_STATUS.PEER_STATE = 1 ∧ s.rd TWN_STATUS.PEER_CH_O5 ≠ 0) (fun s => s.setRedirect 1)
  else s

/-! ## Bursts and the burst enable -/

/-- The terminal drives TRK_BEN. The pad follows, unless something holds it: a pad that differs from the driven level stays
at its own, which is the model's choice, since the spec names no event that releases it (log entry 190). -/
def Hw.driveBen (s : Hw) (c : Nat) (v : Bool) : Hw :=
  s.modOpt c (fun o => { o with benDrive := v, benPad := if o.benPad = o.benDrive then v else o.benPad })

/-- The pad of TRK_BEN is found at a level (R81). -/
def Hw.padAt (s : Hw) (c : Nat) (v : Bool) : Hw := s.modOpt c (fun o => { o with benPad := v })

/-- Guard windows open now: of bursts in progress, and of one whose TRK_BEN has stayed high from the burst before it
(R78, R80). A window that closes with no other open lowers TRK_BEN. -/
def Hw.closeWindow (s : Hw) (c : Nat) : Hw :=
  let s := s.modOpt c (fun o => { o with windows := o.windows - 1 })
  if (s.opt c).windows = 0 then s.driveBen c false else s

/-- A burst in progress is cut off (R82, R122). -/
def Hw.cutBurst (s : Hw) (c : Nat) : Hw :=
  let s := s.onlyIf ((s.act c).bursts.any (fun b => b.launched) = true) (fun s => s.emit (.burstCut c))
  let s := s.modAct c (fun a => { a with
    bursts := (a.bursts.filter (fun b => !b.launched)).map (fun b => { b with opened := false }) })
  (s.driveBen c false).modOpt c (fun o => { o with windows := 0 })

/-- Grants accepted and not yet launched are cancelled (R122, R126). -/
def Hw.cancelGrants (s : Hw) (c : Nat) : Hw :=
  let open' := (s.act c).bursts.any (fun b => !b.launched && b.opened)
  let s := s.modAct c (fun a => { a with bursts := a.bursts.filter (fun b => b.launched) })
  if open' then s.closeWindow c else s

/-- The open GEM fragment is discarded (R117). -/
def Hw.fragDiscard (s : Hw) (c : Nat) : Hw :=
  if (s.dln c).frag.isSome then
    (s.dlnCount c DLN_N.FRAG_DISCARD).modDln c (fun d => { d with frag := none, fragDue := false })
  else s

/-- Frames partly sent with LF = 0 can no longer be completed: what is left of them is flushed (R145). -/
def Hw.sentFragsDiscard (s : Hw) (c : Nat) : Hw :=
  (s.count (GRN_CNT.COUNT GRN_N.FLUSH_DISCARD) (s.act c).frags.length).modAct c (fun a => { a with frags := [] })

/-! ## Activation -/

/-- PM_STATE takes a value (R153); outside WATCH the receiver is at full power, and a receiver that was off restarts
delineation's search (log entry 19). -/
def Hw.setPm (s : Hw) (c v : Nat) : Hw :=
  if s.rd (TRK_ACT_STATUS.PM_STATE c) = v then s
  else (s.wr (TRK_ACT_STATUS.PM_STATE c) v).trkRaise c EV_TRK.PM_CHANGE

/-- Upstream PLOAM queue and its LEVEL; becoming empty sets PLOAM_TX_EMPTY (R134). -/
def Hw.setPloamTx (s : Hw) (c : Nat) (q : List Bytes) : Hw :=
  let was := (s.act c).ploamTx.length
  let s := (s.modAct c (fun a => { a with ploamTx := q })).wr (TRK_PLOAM_TX.LEVEL c) q.length
  s.onlyIf (q.length = 0 ∧ was ≠ 0) (fun s => s.trkRaise c EV_TRK.PLOAM_TX_EMPTY)

/-- "Clear", the entry to O1.1 (R128). TRK_EQD goes on reading a written value that has been dropped, which is the model's
choice: the spec says only that EQD_PENDING clears (log entry 169). -/
def Hw.actClear (s : Hw) (c : Nat) : Hw :=
  let s := (s.wr (TRK_ONU_ID.ONU_ID_VALID c) 0).wr (TRK_ACT_STATUS.EQD_VALID c) 0
  let s := s.forAll (s.listed c 1) (fun s x => s.ts (ALLOC_OWN.VALID c x) 0)
  let s := s.setPloamTx c []
  let s := (s.ts (LINE_KEY.VALID (4 * c)) 0).ts (LINE_KEY.VALID (4 * c + 1)) 0
  let s := s.setPm c 0
  let s := (s.wr (TRK_ACT_STATUS.EQD_PENDING c) 0).wr (TRK_ACT_CTRL.WS_ALLOWED c) 0
  s.sentFragsDiscard c

/-- ACT_STATE takes a value, with what every change of it does (R126, R130, R153, R165, R461). -/
def Hw.setAct (s : Hw) (c v : Nat) : Hw :=
  let was := s.rd (TRK_ACT_STATUS.ACT_STATE c)
  if was = v then s
  else
    let s := (s.wr (TRK_ACT_STATUS.ACT_STATE c) v).trkRaise c EV_TRK.ACT_CHANGE
    let s := s.onlyIf (was ≤ 2 ∧ 2 < v) (fun s => s.wr (TRK_ACT_CTRL.TEST_HOLD c) 0)
    let s := s.onlyIf (was = 5) (fun s => s.setPm c 0)
    let s := s.onlyIf (v = 5 ∧ s.covered c = true) (fun s => s.wr TWN_STATUS.TRUNK_FAIL 0)
    s.memberUpdate c

/-- Return to O1.1 with clear, and on to O1.2 when delineation is already in SYNC (R126, R128). -/
def Hw.actO1 (s : Hw) (c : Nat) : Hw :=
  let s := (s.wr (TRK_ACT_STATUS.TO1_RUN c) 0).wr (TRK_ACT_STATUS.TO2_RUN c) 0
  let s := (s.actClear c).setAct c 1
  if s.inSync c = true ∧ s.trkOn c = true ∧ s.rd (TRK_DLN_STATUS.LODS c) = 0 then s.setAct c 2 else s

/-- LODS declared, as activation takes it (R126). -/
def Hw.actLods (s : Hw) (c : Nat) : Hw :=
  match s.rd (TRK_ACT_STATUS.ACT_STATE c) with
  | 2 => s.actO1 c
  | 3 => s.actO1 c
  | 4 => s.actO1 c
  | 5 => (s.setAct c 6).wr (TRK_ACT_STATUS.TO2_RUN c) 1
  | _ => s

/-- LODS cleared, as activation takes it (R126). -/
def Hw.actLodsClear (s : Hw) (c : Nat) : Hw :=
  match s.rd (TRK_ACT_STATUS.ACT_STATE c) with
  | 1 => if s.inSync c then s.setAct c 2 else s
  | 6 => if s.rd (TRK_ACT_STATUS.TO2_RUN c) = 1 then (s.wr (TRK_ACT_STATUS.TO2_RUN c) 0).setAct c 5 else s
  | _ => s

/-! ## Defects (R121, R122) -/

/-- LODS becomes declared on channel `c` (R122). -/
def Hw.lodsDeclare (s : Hw) (c : Nat) : Hw :=
  let s := ((s.wr (TRK_DLN_STATUS.LODS c) 1).trkRaise c EV_TRK.LODS_CHANGE).note c 21
  if s.trkOn c then
    let s := ((s.cutBurst c).cancelGrants c).fragDiscard c
    let s := s.modDln c (fun d => { d with inFrame := false })
    let s := s.onlyIf (s.rd TIM_CTRL.SRC_EN = 1 ∧ s.rd TIM_CTRL.SRC_CH = c) (·.clockHoldover)
    (((s.actLods c).memberUpdate c).trunkFail c).slotDefects
  else s.slotDefects

/-- LODS clears on channel `c`. -/
def Hw.lodsClear (s : Hw) (c : Nat) : Hw :=
  let s := ((s.wr (TRK_DLN_STATUS.LODS c) 0).trkRaise c EV_TRK.LODS_CHANGE).slotDefects
  if s.trkOn c then (s.actLodsClear c).memberUpdate c else s

/-- Delineation raises no LODS in WATCH (R153). -/
def Hw.lodsHeld (s : Hw) (c : Nat) : Bool := s.trkOn c && s.rd (TRK_ACT_STATUS.PM_STATE c) == 3

/-- LOF and LODS follow LOS, the alignment machine and the lifecycle (R121, R153). -/
def Hw.defects (s : Hw) (c : Nat) : Hw :=
  let los := s.rd (TRK_PMA_STATUS.LOS c)
  let lof := b2n (s.trkOn c && los == 0 && !s.inSync c)
  let s := if s.rd (TRK_DLN_STATUS.LOF c) = lof then s
    else ((s.wr (TRK_DLN_STATUS.LOF c) lof).trkRaise c EV_TRK.LOF_CHANGE).onlyIf (lof = 1) (fun s => s.note c 20)
  let lods := if los = 1 ∨ lof = 1 then 1 else 0
  if s.lodsHeld c = true ∨ s.rd (TRK_DLN_STATUS.LODS c) = lods then s
  else if lods = 1 then s.lodsDeclare c else s.lodsClear c

/-- Recorded candidates and their number. -/
def Hw.setCands (s : Hw) (c : Nat) (l : List PsyncCand) : Hw :=
  (s.modDln c (fun d => { d with cands := l })).wr (TRK_DLN_STATUS.CAND_COUNT c) l.length

/-- SYNC_STATE takes a value (R96); entering and leaving SYNC set SYNC_CHANGE and move the defects and the source
of time. Leaving SYNC also ends the frame and its open fragment (R117). -/
def Hw.setSync (s : Hw) (c v : Nat) : Hw :=
  let was := s.rd (TRK_DLN_STATUS.SYNC_STATE c)
  let s := s.wr (TRK_DLN_STATUS.SYNC_STATE c) v
  if was ≠ 2 ∧ v ≠ 2 then s
  else if was = v then s
  else
    let s := s.trkRaise c EV_TRK.SYNC_CHANGE
    let s := if v = 2 then s.modAct c (fun a => { a with resync := false })
      else (s.fragDiscard c).modDln c (fun d => { d with inFrame := false })
    (s.defects c).timSource

/-- HUNT with an empty candidate table (R95). LOSS_CNT reads 0 then, which is the model's choice (R98; log entry 167). -/
def Hw.hunt (s : Hw) (c : Nat) : Hw :=
  let s := (s.setCands c []).modDln c (fun d => { d with cand := none, fromMiss := false })
  let s := (s.wr (TRK_DLN_STATUS.CONFIRM_CNT c) 0).wr (TRK_DLN_STATUS.LOSS_CNT c) 0
  s.setSync c 0

/-! ## Watchful sleep (R153, R154) -/

/-- The receiver goes back to full power; when it was off, delineation restarts from HUNT. -/
def Hw.receiverOn (s : Hw) (c : Nat) : Hw :=
  if (s.act c).rxOn then s else (s.modAct c (fun a => { a with rxOn := true, resync := true })).hunt c

/-- AWARE or WATCH to ACTIVE_HELD at full power. -/
def Hw.pmWake (s : Hw) (c : Nat) : Hw :=
  if 2 ≤ s.rd (TRK_ACT_STATUS.PM_STATE c) then (((s.setPm c 0).receiverOn c).defects c).memberUpdate c else s

/-- A change `f` of the activation state that may leave O5: the receiver is at full power first, and what watchful sleep
held back is judged after it (R153). -/
def Hw.actLeave (s : Hw) (c : Nat) (f : Hw → Hw) : Hw :=
  ((f (s.receiverOn c)).modAct c (fun a => { a with resync := false })).defects c

/-- The head end wakes a sleeping channel: groups that have shed it count the wake and keep the member off (R184). -/
def Hw.heWake (s : Hw) (c : Nat) : Hw :=
  let s := s.forAll ((List.range 16).filter (fun g => (s.grp g).shedOff.contains c)) (fun s g =>
    (s.shfCount g SHF_N.SHED_HE_WAKE).modGrp g (fun x => { x with woken := c :: x.woken.erase c }))
  s.pmWake c

/-- Sleep request from Sheaf. -/
def Hw.sleepRequest (s : Hw) (c : Nat) : Hw :=
  if s.trkOn c = true ∧ s.rd (TRK_ACT_STATUS.ACT_STATE c) = 5 then
    if s.rd (TRK_ACT_CTRL.WS_ALLOWED c) = 0 then s.actCount c ACT_N.SHED_NO_SLEEP
    else if s.rd (TRK_ACT_STATUS.PM_STATE c) < 2 then (s.setPm c 2).memberUpdate c else s
  else s

/-! ## The transmitter and the guard -/

/-- A source of R79 other than the states of R129 holds TRK_TXDIS high. -/
def Hw.txdisForced (s : Hw) (c : Nat) : Bool :=
  !s.trkOn c || s.rd (TRK_PMA_CTRL.TX_ALLOW c) == 0 || s.rd (TRK_PMA_STATUS.MOD_ABS c) == 1
    || s.capRd (TRK_PMA_CTRL.LOOPBACK c) == 1 || s.rd (TRK_GUARD_STATUS.ROGUE_LATCH c) == 1
    || s.rd (TRK_GUARD_STATUS.STRIKE_LOCK c) == 1 || s.heDisabled c || s.cond (15 + c) != 0 || s.inReset (15 + c)

/-- The activation state lets a burst of kind `k` out (R125, R130). -/
def Hw.stateSends (s : Hw) (c : Nat) (k : BurstKind) : Bool :=
  let a := s.rd (TRK_ACT_STATUS.ACT_STATE c)
  match k with
  | .data => a == 5
  | .serial => a == 3 || a == 5
  | .ranging => a == 4 || a == 5
  | .test => decide (a ≤ 2)

/-- A state of R129 holds TRK_TXDIS high. -/
def Hw.txdisState (s : Hw) (c : Nat) : Bool :=
  let a := s.rd (TRK_ACT_STATUS.ACT_STATE c)
  (decide (a ≤ 2) && s.rd (TRK_ACT_CTRL.TEST_HOLD c) == 0) || decide (6 ≤ a)
    || (s.rd (TRK_ACT_STATUS.PM_STATE c) == 3 && !(s.act c).rxOn)

/-- TRK_TXDIS is released: the laser is dark (R66, R79). -/
def Hw.txdis (s : Hw) (c : Nat) : Bool := s.txdisForced c || s.txdisState c

/-- The guard trips (R82, R83). -/
def Hw.guardTrip (s : Hw) (c reason : Nat) : Hw :=
  let s := s.cutBurst c
  let s := (s.wr (TRK_GUARD_STATUS.ROGUE_LATCH c) 1).wr (TRK_GUARD_STATUS.LAST_REASON c) reason
  let s := (s.count (TRK_GUARD_STATUS.TRIP_COUNT c)).trkRaise c EV_TRK.ROGUE_TRIP
  let s := s.onlyIf (reason = 4) (fun s => s.trkRaise c EV_TRK.CLK_TRK_FAIL)
  let now := s.clk
  let s := s.modOpt c (fun o => { o with strikes := o.strikes.filter (fun t => decide (now - t < 1000000000)) ++ [now] })
  s.onlyIf (s.capRd (TRK_GUARD_CFG.STRIKE_LIMIT c) ≤ (s.opt c).strikes.length)
    (fun s => s.wr (TRK_GUARD_STATUS.STRIKE_LOCK c) 1)

/-- HE_DISABLE set or cleared by the head end (R84, R126). -/
def Hw.setHeDisable (s : Hw) (c : Nat) (v : Bool) : Hw :=
  let was := s.heDisabled c
  let s := { s with aon := { s.aon with heDisable := putBits s.aon.heDisable c 1 (b2n v) } }
  if was = v ∨ s.trkOn c = false then s
  else if v then
    s.actLeave c (fun s =>
      let s := (s.wr (TRK_ACT_STATUS.TO1_RUN c) 0).wr (TRK_ACT_STATUS.TO2_RUN c) 0
      ((s.actClear c).cancelGrants c).setAct c 7)
  else if s.rd (TRK_ACT_STATUS.ACT_STATE c) = 7 then
    let s := (s.wr (TRK_ACT_CTRL.WS_ALLOWED c) 0).setAct c 1
    if s.inSync c then s.setAct c 2 else s
  else s

/-! ## Lifecycle of a channel (R68, R69, R126) -/

/-- Entry to STARTING. -/
def Hw.trkStarting (s : Hw) (c : Nat) : Hw :=
  let s := (List.range 24).foldl (fun s n => s.wr (TRK_DLN_CNT.COUNT c n) 0) s
  let s := (List.range 16).foldl (fun s n => s.wr (TRK_ACT_CNT.COUNT c n) 0) s
  let s := ((s.wr (TRK_PMA_STATUS.CDR_LOCK c) 0).modDln c (fun _ => {})).hunt c
  let s := (s.modAct c (fun a => { a with bursts := [], rxOn := true, resync := false })).actClear c
  let s := (s.wr (TRK_ACT_STATUS.TO1_RUN c) 0).wr (TRK_ACT_STATUS.TO2_RUN c) 0
  s.setAct c (if s.heDisabled c then 7 else 1)

/-- The start condition of R68 holds as far as the state shows it; LOOPBACK needs 49.7664 Gb/s (R91). -/
def Hw.trkCanStart (s : Hw) (c : Nat) : Bool :=
  s.rd GLB_CLK_STATUS.TRK_OK == 1
    && !(s.capRd (TRK_PMA_CTRL.LOOPBACK c) == 1 && s.capRd (TRK_PMA_CTRL.US_RATE c) != 2)

/-- Entry to ON. -/
def Hw.trkEnterOn (s : Hw) (c : Nat) : Hw := s.defects c

/-- Entry to STOPPING: no new burst, the timers stop, delineation leaves off but for the codeword in progress (R69), the
channel is no longer ready. -/
def Hw.trkStopping (s : Hw) (c : Nat) : Hw :=
  let decodes := s.rd (TRK_DLN_STATUS.SYNC_STATE c) != 0 && (s.act c).rxOn
  let s := s.modDln c (fun d => { d with tail := decodes && decide (d.cw < 360), tailCounts := d.inFrame })
  let s := (s.wr (TRK_ACT_STATUS.TO1_RUN c) 0).wr (TRK_ACT_STATUS.TO2_RUN c) 0
  let s := s.cancelGrants c
  let s := ((s.hunt c).defects c).timSource
  s.memberUpdate c

/-- Entry to OFF, and to no other state (R60, R83): lock, latches, strike history, test bursts and frames partly sent (R70, R83, R92, R145). -/
def Hw.trkOff (s : Hw) (c : Nat) : Hw :=
  let s := s.wr (TRK_PMA_STATUS.CDR_LOCK c) 0
  let s := (s.wr (TRK_GUARD_STATUS.ROGUE_LATCH c) 0).wr (TRK_GUARD_STATUS.STRIKE_LOCK c) 0
  let s := (s.wr (TRK_GUARD_STATUS.WINDOW_REJECT c) 0).wr (TRK_TEST_BURST.ARM c) 0
  let s := (s.wr (TRK_ONU_ID.ONU_ID_VALID c) 0).modOpt c (fun o => { o with strikes := [], windows := 0 })
  let s := (s.modAct c (fun a => { a with bursts := [] })).driveBen c false
  (s.modDln c (fun d => { d with tail := false })).sentFragsDiscard c

/-! ## Pipeline input (R26) -/

/-- Pipeline a source feeds: 0 A, 1 B. -/
abbrev pipeA : Nat := 0
abbrev pipeB : Nat := 1

/-- Octets an input FIFO holds at most: ports, twin, mirror loop, recirculation (R235), trunk channels. The table of R26
gives none for host transmit (source 512), and R394 names none: the model holds its packets without a bound, which is its
choice (DESIGN CHOICE, log entry 174). -/
def fifoSize (src : Nat) : Option Nat :=
  if src < 512 then some 16384
  else if src = 514 then some 131072
  else if src = 516 then some 262144
  else if src = 517 then some 131072
  else if 520 ≤ src then some 65536
  else none

def Hw.fifo (s : Hw) (pipe src : Nat) : List Pkt := s.thr.fifos.get [] (pipe * 1024 + src)
def Hw.setFifo (s : Hw) (pipe src : Nat) (l : List Pkt) : Hw :=
  { s with thr := { s.thr with fifos := s.thr.fifos.set [] (pipe * 1024 + src) l } }

/-- Sources that pipeline `pipe` takes packets from (R22, R24): A the trunk channels and the twin, B the ports, and each
host transmit, its mirror loop and its recirculation. -/
def feeds (pipe src : Nat) : Bool :=
  src == 512 || src == 516 || src == 517
    || (if pipe = 0 then src == 514 || decide (520 ≤ src ∧ src < 524) else decide (src < 512))

/-- A packet that finds room in input FIFO `src` is held there; otherwise nothing of it is. -/
def Hw.fifoAdd (s : Hw) (pipe src : Nat) (pkt : Pkt) : Hw × Bool :=
  let l := s.fifo pipe src
  let used := l.foldl (fun n p => n + p.len) 0
  match fifoSize src with
  | some max => if used + pkt.len ≤ max then (s.setFifo pipe src (l ++ [pkt]), true) else (s, false)
  | none => (s.setFifo pipe src (l ++ [pkt]), true)

/-- A packet of its own source reaches the pipeline input; a frame lost at a full trunk, twin or mirror FIFO is
counted there (R26). -/
def Hw.fifoPush (s : Hw) (pipe : Nat) (pkt : Pkt) : Hw × Bool :=
  let r := s.fifoAdd pipe pkt.source pkt
  if r.2 = true ∨ pkt.source < 512 then r
  else
    let k := pipe * 1024 + pkt.source
    ({ s with thr := { s.thr with drops := s.thr.drops.set 0 k (s.thr.drops.get 0 k + 1) } }, false)

end Sys2Proof.Machine
end

