-- ==== Sys2Proof/Machine/Control.lean ====
section
/-!
DEFINITION. Control complex and host interface (spec/15): the watchdog's kick and warning, rings, mailboxes, doorbells,
hardware locks and the console (R539). The resets are with the other resets.
-/
namespace Sys2Proof.Machine

/-! ## Watchdog (R388) -/

/-- Nanoseconds that the watchdog has counted since the last kick: not while JTAG debug held every core halted. -/
def Hw.wdogNs (s : Hw) : Nat := s.clk - s.ctl.kick - s.ctl.haltNs

/-- Milliseconds since the last kick, as CTL_WDOG ELAPSED shows them. -/
def Hw.wdogElapsed (s : Hw) : Nat := if s.rd CTL_WDOG.TIMEOUT = 0 then 0 else min 65535 (s.wdogNs / 1000000)

/-- The count starts anew. -/
def Hw.wdogRestart (s : Hw) : Hw := { s with ctl := { s.ctl with kick := s.clk, haltNs := 0 } }

/-- The cores have all been halted for `ns` since the last kick. -/
def Hw.wdogHalted (s : Hw) (ns : Nat) : Hw := { s with ctl := { s.ctl with haltNs := max s.ctl.haltNs ns } }

/-- `pct` per cent of TIMEOUT, in milliseconds, have been counted. -/
def Hw.wdogPast (s : Hw) (pct : Nat) : Bool :=
  s.rd CTL_WDOG.TIMEOUT != 0 && decide (s.rd CTL_WDOG.TIMEOUT * 1000000 * pct ≤ s.wdogNs * 100)

/-- WDOG_KICK (R388). -/
def execWdogKick (m : Master) (v : Word) (s : State) : Host.Outcome State Fault Refusal :=
  s.on (fun s => s.onAccess m CTL_WDOG_KICK.A true (fun s =>
    s.onlyIf (v = 0x4B1C#32) (·.wdogRestart)))

/-- WDOG_WARN (R388). -/
def execWdogWarn (s : State) (halted : Nat := 0) : Host.Outcome State Fault Refusal :=
  s.on (fun s => (s.wdogHalted halted).onlyIf ((s.wdogHalted halted).wdogPast 75 = true) (fun s => s.ctlRaise EV_CTL.WDOG_WARN))

/-! ## Rings (R391-R397) -/

def Hw.ring (s : Hw) (d r : Nat) : RingRun := s.ctl.rings.get {} (d * 1024 + r)
def Hw.modRing (s : Hw) (d r : Nat) (f : RingRun → RingRun) : Hw :=
  { s with ctl := { s.ctl with rings := s.ctl.rings.set {} (d * 1024 + r) (f (s.ring d r)) } }
abbrev Hw.ringState (s : Hw) (d r : Nat) : Nat := s.rd (RING_STATUS.STATE d r)
def Hw.ringSize (s : Hw) (d r : Nat) : Nat := 64 * 2 ^ s.capRd (RING_CTRL.SIZE d r)
/-- Descriptors between HEAD and TAIL: free buffers of a delivery ring, frames to send of a transmit ring. -/
def Hw.ringAvail (s : Hw) (d r : Nat) : Nat :=
  let n := s.ringSize d r
  (s.rd (RING_TAIL.TAIL d r) % n + n - s.rd (RING_HEAD.HEAD d r) % n) % n
/-- Window offset of descriptor `i`. -/
def Hw.ringDesc (s : Hw) (d r i : Nat) : Nat :=
  s.capRd (RING_BASE_HI.BASE d r) * 2 ^ 32 + s.capRd (RING_BASE_LO.BASE d r) * 64 + 32 * i - extBase

/-- The ring raises its interrupt (R396), with VEC and MSIX_EN as it captured them (R61). -/
def Hw.ringInt (s : Hw) (d r : Nat) : Hw :=
  let s := s.modRing d r (fun _ => { acc := 0, level := true })
  s.onlyIf (s.capRd (RING_INT.MSIX_EN d r) = 1) (fun s => s.msix (s.capRd (RING_INT.VEC d r)))

/-- One descriptor has been written back and HEAD moves past it. -/
def Hw.ringWrote (s : Hw) (d r : Nat) : Hw :=
  let s := s.wr (RING_HEAD.HEAD d r) ((s.rd (RING_HEAD.HEAD d r) + 1) % s.ringSize d r)
  let s := s.modRing d r (fun x => { x with acc := x.acc + 1 })
  if s.rd (RING_INT.INT_PKTS d r) ≤ (s.ring d r).acc then s.ringInt d r else s

/-- A buffer and words 2-7 of its descriptor go to descriptor HEAD of a ring. -/
def Hw.ringPut (s : Hw) (d r : Nat) (words : List Word) (bytes : Bytes) : Hw :=
  let i := s.rd (RING_HEAD.HEAD d r)
  let s := if s.capRd (RING_CTRL.LOC d r) = 0 then s.emit (.ringWrite d r i words bytes)
    else
      let s := if bytes.isEmpty then s else s.memVia (s.ringDesc d r i) bytes
      s.memWrite (s.ringDesc d r i + 8) ((words.map (fun w => leBytes 4 w.toNat)).flatten)
  s.ringWrote d r

/-- Words 2-7 of a delivery descriptor. -/
def dlvWords (p : Pkt) (len : Nat) (sop eop trunc : Bool) : List Word :=
  let ts := p.rxTs.getD (0, 0)
  [BitVec.ofNat 32 (len + b2n sop * 2 ^ 16 + b2n eop * 2 ^ 17 + b2n trunc * (2 ^ 18 + 2 ^ 19) + b2n p.tainted * 2 ^ 20
      + b2n p.rxTs.isSome * 2 ^ 21 + b2n p.copy * 2 ^ 22 + p.chaff % 64 * 2 ^ 23 + 2 ^ 31),
    BitVec.ofNat 32 (p.source % 1024 + p.tc % 8 * 2 ^ 10 + p.color % 4 * 2 ^ 13),
    BitVec.ofNat 32 (p.flowId % 2 ^ 20), BitVec.ofNat 32 ts.2, BitVec.ofNat 32 ts.1,
    BitVec.ofNat 32 (if eop then p.len else 0)]

/-- The frame's octets into the buffers that are free, `n` of them; `trunc` when they are too few. -/
def Hw.ringFill (s : Hw) (r : Nat) (p : Pkt) (size : Nat) (trunc : Bool) : Nat → Bytes → Bool → Hw
  | 0, _, _ => s
  | n + 1, bs, sop =>
    let eop := n == 0
    Hw.ringFill (s.ringPut 0 r (dlvWords p (bs.take size).length sop eop (eop && trunc)) (bs.take size)) r p size trunc n
      (bs.drop size) false

/-- The ring enters NOBUF. -/
def Hw.ringNobuf (s : Hw) (r : Nat) : Hw := (s.wr (RING_STATUS.NOBUF 0 r) 1).ctlRaise EV_CTL.RING_NOBUF_EV

/-- A frame is delivered to delivery ring `r` (R392, R393, R397). -/
def Hw.ringDeliver (s : Hw) (r : Nat) (p : Pkt) : Hw :=
  if s.ringState 0 r ≠ 2 then s.count (RING_CNT.COUNT 0 r 2)
  else if s.rd (RING_STATUS.NOBUF 0 r) = 1 then s.count (RING_CNT.COUNT 0 r 1)
  else
    let free := s.ringAvail 0 r
    let size := 256 * 2 ^ s.capRd (RING_CTRL.BUF_SIZE 0 r)
    let need := max 1 (ceilDiv p.len size)
    if free = 0 then (s.count (RING_CNT.COUNT 0 r 1)).ringNobuf r
    else if need ≤ free then s.ringFill r p size false need p.bytes true
    else ((s.ringFill r p size true free p.bytes true).count (RING_CNT.COUNT 0 r 0)).ringNobuf r

/-- A packet that port node 512 sends goes to the ring of its downstream subscriber node (R392). -/
def Hw.hostDeliver (s : Hw) (sub : Nat) (p : Pkt) : Hw :=
  if s.t (SUB_RING.VALID sub) = 1 then
    ({ s with ctl := { s.ctl with dma := s.ctl.dma + p.bytes.length } }).ringDeliver (s.t (SUB_RING.RING sub)) p
  else s.count (RING_CNT.COUNT 0 0 3)

/-- The DMA write FIFO has room for `n` octets (R392). -/
def Hw.dmaRoom (s : Hw) (n : Nat) : Bool := decide (s.ctl.dma + n ≤ 65536)

/-- One cycle of the DMA: it takes from the FIFO what the host's bus lets through, which the spec does not give: a free
number of octets (log entry 211). -/
def Hw.tickDma (s : Hw) : Hw :=
  if s.ctl.dma = 0 then s
  else { s.drawn with ctl := { s.ctl with dma := s.ctl.dma - min s.ctl.dma (s.draw 392) } }

/-- A delivery ring whose free buffers reach MIN_FREE leaves NOBUF (R393). -/
def Hw.ringFreed (s : Hw) (r : Nat) : Hw :=
  s.onlyIf (s.rd (RING_CTRL.MIN_FREE 0 r) ≤ s.ringAvail 0 r) (fun s => s.wr (RING_STATUS.NOBUF 0 r) 0)

/-- TAIL is advanced (R391, R393). -/
def Hw.ringTail (s : Hw) (d r : Nat) (v : Word) : Hw :=
  let s := s.fullWrite (RING_TAIL.A d r) v
  s.onlyIf (d = 0) (fun s => s.ringFreed r)

/-- RING_TAIL_WRITE (R391). -/
def execRingTailWrite (m : Master) (d : Fin 2) (r : Fin 1024) (v : Word) (s : State) : Host.Outcome State Fault Refusal :=
  s.on (fun s => s.onAccess m (RING_TAIL.A d r) true (fun s => s.ringTail d r v))

/-- A transmit descriptor read from external memory. -/
def Hw.txDescAt (s : Hw) (mem : List Host.Cell) (r i : Nat) : TxDesc :=
  let d := leNat (s.memBytes mem (s.ringDesc 1 r i) 32)
  let len := bitsOf d 64 15
  { len := len, sop := bitN d 80 == 1, eop := bitN d 81 == 1, oneStep := bitN d 82 == 1, tsReq := bitN d 83 == 1
    tsId := bitsOf d 96 16, tc := bitsOf d 112 3, color := bitsOf d 115 2, queue := bitsOf d 128 18
    data := s.memBytes mem (bitsOf d 0 64 - extBase) len }

/-- Up to `n` descriptors from HEAD, through the one with EOP. -/
def Hw.txDescs (s : Hw) (mem : List Host.Cell) (r : Nat) : Nat → Nat → List TxDesc
  | 0, _ => []
  | n + 1, i =>
    let d := s.txDescAt mem r i
    if d.eop then [d] else d :: Hw.txDescs s mem r n ((i + 1) % s.ringSize 1 r)

/-- Words 2-7 of a transmit descriptor written back. -/
def txWords (d : TxDesc) (err : Bool) : List Word :=
  [BitVec.ofNat 32 (d.len % 2 ^ 15 + b2n d.sop * 2 ^ 16 + b2n d.eop * 2 ^ 17 + b2n d.oneStep * 2 ^ 18 + b2n d.tsReq * 2 ^ 19
    + b2n err * 2 ^ 20 + 2 ^ 31)]

/-- A frame of a transmit ring, its descriptors in order: into a pipeline, into a queue, or discarded (R394, R395). -/
def Hw.txFrame (s : Hw) (r : Nat) (ds : List TxDesc) (dmaErr : Bool) : Hw :=
  match ds with
  | [] => s
  | h :: _ =>
    let bytes := (ds.map (fun d => d.data.take d.len)).flatten
    let bad := !h.sop || decide (bytes.length < 18 ∨ 12288 < bytes.length) || ds.any (fun d => d.len == 0)
    let s := s.forAll ds (fun s d => s.ringPut 1 r (txWords d (bad || dmaErr)) [])
    if bad then (s.count (RING_CNT.COUNT 1 r 0)).ctlRaise EV_CTL.TX_ERR_EV
    else if dmaErr then (s.count (RING_CNT.COUNT 1 r 1)).ctlRaise EV_CTL.TX_ERR_EV
    else
      let s := s.count (RING_CNT.COUNT 1 r 2)
      let p : Pkt := { bytes := bytes, source := 512, oneStep := h.oneStep, tsReq := if h.tsReq then some h.tsId else none }
      if s.capRd (RING_CTRL.MODE 1 r) = 0 then (s.fifoPush (s.capRd (RING_CTRL.DIR 1 r)) p).1
      else s.enqueue h.queue { p with tc := h.tc, color := h.color }

/-- The next frame of a ring that is ON is fetched: from external memory, or from the host as `ds` gives it. A frame
whose EOP descriptor software has not handed over yet waits. -/
def Hw.txFetch (s : Hw) (mem : List Host.Cell) (r : Nat) (ds : List TxDesc) (dmaErr : Bool) : Hw :=
  if s.ringState 1 r ≠ 2 then s
  else
    let n := s.ringAvail 1 r
    let l := if s.capRd (RING_CTRL.LOC 1 r) = 1 then s.txDescs mem r n (s.rd (RING_HEAD.HEAD 1 r)) else ds.take n
    match l.getLast? with
    | some e => if e.eop then s.txFrame r l dmaErr else s
    | none => s

/-- TX_RING_FETCH (R394). -/
def execTxRingFetch (r : Fin 1024) (ds : List TxDesc) (dmaErr : Bool) (s : State) : Host.Outcome State Fault Refusal :=
  s.onMem (fun mem s => s.txFetch mem r ds dmaErr)

/-- RING_INT_TIMER (R396). -/
def execRingIntTimer (d : Fin 2) (r : Fin 1024) (s : State) : Host.Outcome State Fault Refusal :=
  s.on (fun s => s.onlyIf ((s.ring d r).acc ≠ 0 ∧ s.rd (RING_INT.INT_USEC d r) ≠ 0) (fun s => s.ringInt d r))

/-- RING_INT_ACK (R396). -/
def execRingIntAck (m : Master) (d : Fin 2) (r : Fin 1024) (_v : Word) (s : State) : Host.Outcome State Fault Refusal :=
  s.on (fun s => s.onAccess m (RING_INT_ACK.A d r) true (fun s => s.modRing d r (fun x => { x with level := false })))

/-! ## Mailboxes (R398-R405) -/

/-- The MODE stamp of a post (R401). -/
def Hw.postMode (s : Hw) (id : Nat) : Nat :=
  if s.rd HSK_STATUS.HANDOFF = 0 then 1 else if id = 0x61 then 2 else if s.rd GLB_STRAP.BOOT_SEL = 3 then 3 else 0

/-- The status a post of master `id` on channel `ch` meets: 0 OK, 1 FULL, 2 DOMAIN_OFF, 3 NOT_SENDER (R399; log entry
22). -/
def Hw.postStatus (s : Hw) (id ch : Nat) : Nat :=
  if s.t (MBX_CFG.VALID ch) = 0 ∨ (s.t (MBX_CFG.TX_MASTER ch) ≠ 255 ∧ s.t (MBX_CFG.TX_MASTER ch) ≠ id) then 3
  else if s.domDown (s.t (MBX_CFG.RX_DOM ch)) then 2
  else if s.t (MBX_CFG.RX_DOM ch) = 28 ∧ s.rd TWN_STATUS.LINK_STATE ≠ 2 then 2
  else if 16 ≤ (s.mbx ch).msgs.length then 1 else 0

/-- The head message of a channel whose receiver is the twin waits to be sent, unless it has been (R456). -/
def Hw.mbxForward (s : Hw) (ch : Nat) : Hw :=
  match (s.mbx ch).msgs with
  | [] => s
  | m :: _ =>
    if s.t (MBX_CFG.RX_DOM ch) = 28 ∧ s.rd GLB_STRAP.TWIN_EN = 1 ∧ s.rd TWN_STATUS.LINK_STATE = 2 ∧ s.twn.sent.contains ch = false then
      { s with twn := { s.twn with sent := ch :: s.twn.sent, mbx := s.twn.mbx ++ [.message ch m] } }
    else s

/-- A message is stored in the next free slot with its stamp, and the receiver woken and notified (R400-R402). -/
def Hw.mbxStoreAs (s : Hw) (ch : Nat) (msg : Msg) : Hw :=
  let x := s.mbx ch
  let s := s.setMbx ch { x with msgs := x.msgs ++ [{ msg with seq := x.seq }], seq := (x.seq + 1) % 4096, sender := msg.master }
  let on := s.cond (s.t (MBX_CFG.RX_DOM ch)) == 0
  let s := s.onlyIf (s.t (MBX_CFG.WAKE ch) = 1) (fun s => s.wakeOne (s.t (MBX_CFG.RX_DOM ch)))
  (if x.msgs.isEmpty && on then s.mbxNotify ch else s).mbxForward ch

/-- A post of master `id`. -/
def Hw.mbxStore (s : Hw) (id ch : Nat) (words : List Word) (gen : Nat) : Hw :=
  s.mbxStoreAs ch { words := words, master := id, mode := s.postMode id, gen := gen, seq := 0, orig := id }

/-- A read of MBX_SEND posts the staged message and returns the status. -/
def Hw.mbxSend (s : Hw) (id ch : Nat) : Hw :=
  let st := s.postStatus id ch
  let s := match st with
    | 0 => s.mbxStore id ch ((List.range 8).map (fun i => s.ctl.stage.get 0#32 (id * 8 + i))) (s.masterGen id)
    | 2 => s.count MBX_POST_ERR.COUNT
    | _ => s
  s.answer (BitVec.ofNat 32 st)

/-- The head message is removed; the sender hears when the channel is empty (R402, R403). -/
def Hw.mbxRemove (s : Hw) (ch : Nat) : Hw :=
  let x := s.mbx ch
  match x.msgs with
  | [] => s
  | _ :: t =>
    let s := s.setMbx ch { x with msgs := t }
    if t.isEmpty then (s.wr (MBX_RX_STATUS.EMPTY_STATUS ch) 1).mbxEmptyInt ch else s

/-- The oldest message of channel `ch` is removed (R402). -/
def Hw.mbxPop (s : Hw) (ch : Nat) (v : Word) : Hw :=
  let s := s.plainWrite (MBX_RX_STATUS.A ch) v
  if getField v 8 1 = 1 then s.mbxRemove ch else s

/-- A read of EMPTY_STATUS; the sender's read clears it and DISCARD_COUNT (R405). -/
def Hw.mbxEmptyRead (s : Hw) (id ch : Nat) : Hw :=
  let s := s.answer (s.word (MBX_RX_STATUS.A ch))
  let tx := s.t (MBX_CFG.TX_MASTER ch)
  if id = tx ∨ (tx = 255 ∧ id = (s.mbx ch).sender) then
    (s.wr (MBX_RX_STATUS.EMPTY_STATUS ch) 0).wr (MBX_RX_STATUS.DISCARD_COUNT ch) 0
  else s

/-- The receiver domain is soft reset or turned off: unread messages of its channels are lost (R404). -/
def Hw.mbxDomainDown (s : Hw) (d : Nat) : Hw :=
  s.forAll (s.ctl.mbx.map Prod.fst) (fun s ch =>
    let x := s.mbx ch
    let n := x.msgs.length
    if s.t (MBX_CFG.RX_DOM ch) = d ∧ n ≠ 0 then
      let s := (s.setMbx ch { x with msgs := [] }).wr (MBX_RX_STATUS.EMPTY_STATUS ch) 2
      let s := s.wr (MBX_RX_STATUS.DISCARD_COUNT ch) (min 31 (s.rd (MBX_RX_STATUS.DISCARD_COUNT ch) + n))
      s.mbxEmptyInt ch
    else s)

/-- MBX_SEND (R399). -/
def execMbxSend (m : Master) (ch : Fin 256) (s : State) : Host.Outcome State Fault Refusal :=
  s.on (fun s => s.onAccess m (MBX_SEND.A ch) false (fun s => s.mbxSend m.id ch))
/-- MBX_POP (R402). -/
def execMbxPop (m : Master) (ch : Fin 256) (v : Word) (s : State) : Host.Outcome State Fault Refusal :=
  s.on (fun s => s.onAccess m (MBX_RX_STATUS.A ch) true (fun s => s.mbxPop ch v))
/-- MBX_EMPTY_STATUS_READ (R405). -/
def execMbxEmptyStatusRead (m : Master) (ch : Fin 256) (s : State) : Host.Outcome State Fault Refusal :=
  s.on (fun s => s.onAccess m (MBX_RX_STATUS.A ch) false (fun s => s.mbxEmptyRead m.id ch))

/-! ## Doorbells (R406) -/

/-- A doorbell is rung (R406). -/
def Hw.dbRing (s : Hw) (n : Nat) : Hw :=
  let f : FRef := ⟨MBX_DB_PEND.A (n / 32), n % 32, 1⟩
  if s.rd f = 1 then s.count DB_MERGED.COUNT
  else
    let s := s.wr f 1
    if s.t (DB_CFG.WAKE n) = 1 ∧ s.cond (s.t (DB_CFG.TGT_DOM n)) = 1 then s.wakeOne (s.t (DB_CFG.TGT_DOM n)) else s.dbDeliver n

/-- DB_SET (R406). -/
def execDbSet (m : Master) (v : Word) (s : State) : Host.Outcome State Fault Refusal :=
  s.on (fun s => s.onAccess m MBX_DB_SET.A true (fun s => s.dbRing (getField v 0 10)))

/-- The receiver of channel `ch` is notified: messages wait and its domain runs (R400, R402). -/
def Hw.mbxLevel (s : Hw) (ch : Nat) : Bool :=
  !(s.mbx ch).msgs.isEmpty && s.cond (s.t (MBX_CFG.RX_DOM ch)) == 0

/-- Doorbell `n` is pending and its target domain is on (R406). -/
def Hw.dbLevel (s : Hw) (n : Nat) : Bool :=
  s.rd ⟨MBX_DB_PEND.A (n / 32), n % 32, 1⟩ == 1 && s.cond (s.t (DB_CFG.TGT_DOM n)) == 0 && !s.inReset (s.t (DB_CFG.TGT_DOM n))

/-- The empty interrupt of channel `ch` stands: its status has been delivered and the sender has not read it (R403, R405). -/
def Hw.emptyLevel (s : Hw) (ch : Nat) : Bool := s.rd (MBX_RX_STATUS.EMPTY_STATUS ch) != 0 && !(s.mbx ch).due

/-- Control core `i` sees a level interrupt: a summary bit (R57), a ring's level (R396), messages of a channel (R402), a
doorbell whose target domain is on (R406). -/
def Hw.coreLevel (s : Hw) (i : Nat) : Bool :=
  s.coreIrq i
    || s.ctl.rings.any (fun e => e.2.level && bitN (s.capRd (RING_INT.CORE_MASK (e.1 / 1024) (e.1 % 1024))) i == 1)
    || s.ctl.mbx.any (fun e => s.mbxLevel e.1 && bitN (s.t (MBX_CFG.RX_CORES e.1)) i == 1)
    || s.ctl.mbx.any (fun e => s.emptyLevel e.1 && bitN (s.t (MBX_CFG.TX_CORES e.1)) i == 1)
    || (List.range 1024).any (fun n => s.dbLevel n && bitN (s.t (DB_CFG.CORE_MASK n)) i == 1)

/-- MBX_RX and DB stand for levels: a clear while the level is up leaves them set (R402, R406; DEDUCED, log entry 179). -/
def Hw.ctlLevels (s : Hw) : Hw :=
  let s := s.onlyIf (s.ctl.mbx.any (fun e => s.mbxLevel e.1 && s.t (MBX_CFG.RX_CORES e.1) != 0) = true)
    (·.ctlRaise EV_CTL.MBX_RX)
  s.onlyIf ((List.range 1024).any (fun n => s.dbLevel n && s.t (DB_CFG.CORE_MASK n) != 0) = true) (·.ctlRaise EV_CTL.DB)

/-! ## Hardware locks (R407-R409, R433) -/

/-- The check-value engine aborts and clears (R433). -/
def Hw.cveAbort (s : Hw) : Hw :=
  let s := { s with cip := { s.cip with cve := none } }
  s.forAll (CVE_LEN.A :: CVE_SRC_LO.A :: CVE_SRC_HI.A :: CVE_STATUS.A ::
    (List.range 12).map CVE_TAG.A ++ (List.range 16).map CVE_BUF.A) (fun s a => s.setWord a 0#32)

/-- Lock `n` becomes free. -/
def Hw.lockFree (s : Hw) (n : Nat) : Hw :=
  let s := s.setWord (HW_LOCK.A n) 0#32
  if n = 0 then s.cveAbort else s

/-- The reading master that wins a free lock whose pointer is `p`: the first whose ID is `p` or above, modulo 256. -/
def lockWinner (p : Nat) (ids : List Nat) (id : Nat) : Nat :=
  ids.foldl (fun w i => if (i + 256 - p) % 256 < (w + 256 - p) % 256 then i else w) id

/-- A read of lock `n` by master `id` while the masters `rivals` read it in the same cycle. -/
def Hw.lockRead (s : Hw) (n id : Nat) (rivals : List Nat) : Hw :=
  let a := HW_LOCK.A n
  if s.rd ⟨a, 1, 1⟩ = 1 then s.answer (BitVec.ofNat 32 (2 + s.rd ⟨a, 8, 8⟩ * 256))
  else
    let w := lockWinner (s.ctl.lockPtr.get 0 n) rivals id
    let s := s.setWord a (BitVec.ofNat 32 (2 + w * 256))
    let s := { s with ctl := { s.ctl with lockPtr := s.ctl.lockPtr.set 0 n ((w + 1) % 256) } }
    s.answer (BitVec.ofNat 32 (b2n (w == id) + 2 + w * 256))

/-- A write of the owner's ID frees a lock (R409). -/
def Hw.lockRelease (s : Hw) (n : Nat) (v : Word) : Hw :=
  let a := HW_LOCK.A n
  if s.rd ⟨a, 1, 1⟩ = 1 ∧ s.rd ⟨a, 8, 8⟩ = getField v 0 8 then s.lockFree n
  else (s.count (HW_LOCK_CNT.COUNT 0)).ctlRaise EV_CTL.LOCK_BAD_EV

/-- Locks whose owner's domain `d` is soft reset or turned off are released. -/
def Hw.locksDomainDown (s : Hw) (d : Nat) : Hw :=
  s.forAll ((List.range 64).filter (fun n => s.rd ⟨HW_LOCK.A n, 1, 1⟩ == 1 && masterDom (s.rd ⟨HW_LOCK.A n, 8, 8⟩) == some d))
    (fun s n => (s.count (HW_LOCK_CNT.COUNT 1)).lockFree n)

/-- A control core breaks a lock (R409). -/
def Hw.lockBreak (s : Hw) (m : Master) (v : Word) : Hw :=
  let n := getField v 0 6
  match m with
  | .core _ => if s.rd ⟨HW_LOCK.A n, 1, 1⟩ = 1 then (s.count (HW_LOCK_CNT.COUNT 2)).lockFree n else s
  | _ => s

/-- LOCK_ACQUIRE (R407). -/
def execLockAcquire (m : Master) (n : Fin 64) (rivals : List Master) (s : State) : Host.Outcome State Fault Refusal :=
  s.on (fun s => s.onAccess m (HW_LOCK.A n) false (fun s => s.lockRead n m.id (rivals.map Master.id)))
/-- LOCK_RELEASE (R409). -/
def execLockRelease (m : Master) (n : Fin 64) (v : Word) (s : State) : Host.Outcome State Fault Refusal :=
  s.on (fun s => s.onAccess m (HW_LOCK.A n) true (fun s => s.lockRelease n v))
/-- LOCK_BREAK (R409). -/
def execLockBreak (m : Master) (v : Word) (s : State) : Host.Outcome State Fault Refusal :=
  s.on (fun s => s.onAccess m HW_LOCK_BREAK.A true (fun s => s.lockBreak m v))

/-! ## Console (R539) -/

/-- Console FIFOs change; their levels follow. -/
def Hw.setUart (s : Hw) (tx rx wait : Bytes) : Hw :=
  let s := { s with ctl := { s.ctl with uartTx := tx, uartRx := rx, uartWait := wait } }
  (s.wr CTL_UART_STATUS.TX_LEVEL tx.length).wr CTL_UART_STATUS.RX_LEVEL rx.length

/-- A write queues an octet; while the FIFO is full it stalls. -/
def Hw.uartWrite (s : Hw) (b : Byte) : Hw :=
  if s.rd HSK_STATUS.HANDOFF = 0 then s
  else if s.ctl.uartTx.length < 64 ∧ s.ctl.uartWait = [] then s.setUart (s.ctl.uartTx ++ [b]) s.ctl.uartRx s.ctl.uartWait
  else s.setUart s.ctl.uartTx s.ctl.uartRx (s.ctl.uartWait ++ [b])

/-- A read of CTL_UART_DATA takes the oldest octet received (R539). -/
def Hw.uartRead (s : Hw) : Hw :=
  match s.ctl.uartRx with
  | [] => s.answer 0#32
  | b :: t => (s.setUart s.ctl.uartTx t s.ctl.uartWait).answer (BitVec.ofNat 32 (b.toNat + 256))

/-- The console is the firmware's and on. -/
def Hw.uartOn (s : Hw) : Bool := s.rd HSK_STATUS.HANDOFF == 1 && s.rd CTL_UART_CFG.ENABLE == 1

/-- An octet has been received on the console (R539). -/
def Hw.uartRx (s : Hw) (b : Byte) (frameErr : Bool) : Hw :=
  if !s.uartOn then s
  else if frameErr then s.wr CTL_UART_STATUS.FRAME_ERR 1
  else if 64 ≤ s.ctl.uartRx.length then s.wr CTL_UART_STATUS.RX_OVF 1
  else s.setUart s.ctl.uartTx (s.ctl.uartRx ++ [b]) s.ctl.uartWait

/-- An octet has left the console (R539). -/
def Hw.uartSent (s : Hw) : Hw :=
  if !s.uartOn then s
  else match s.ctl.uartTx with
    | [] => s
    | b :: t => (s.setUart (t ++ s.ctl.uartWait.take 1) s.ctl.uartRx (s.ctl.uartWait.drop 1)).emit (.uart b)

/-- UART_DATA_WRITE (R539). -/
def execUartDataWrite (m : Master) (v : Word) (s : State) : Host.Outcome State Fault Refusal :=
  s.on (fun s => s.onAccess m CTL_UART_DATA.A true (fun s => s.uartWrite (BitVec.ofNat 8 v.toNat)))
/-- UART_DATA_READ (R539). -/
def execUartDataRead (m : Master) (s : State) : Host.Outcome State Fault Refusal :=
  s.on (fun s => s.onAccess m CTL_UART_DATA.A false (·.uartRead))
/-- UART_BYTE_RX (R539). -/
def execUartByteRx (b : Byte) (frameErr : Bool) (s : State) : Host.Outcome State Fault Refusal := s.on (·.uartRx b frameErr)
/-- UART_BYTE_SENT (R539). -/
def execUartByteSent (s : State) : Host.Outcome State Fault Refusal := s.on (·.uartSent)

end Sys2Proof.Machine
end

