-- ==== Sys2Proof/Machine/Crypto.lean ====
section
/-!
DEFINITION. The cryptographic functions the terminal implements (R5): AES (FIPS 197), counter mode and GCM (SP 800-38D, as
IEEE 802.1AE uses it), AES-CMAC (SP 800-38B), SHA-256, SHA-384 and SHA-512 (FIPS 180-4), HMAC (FIPS 198-1), RSASSA-PSS with
SHA-384 (RFC 8017), SLH-DSA-SHA2-192s and -192f (FIPS 205). The spec names these standards and prints none of them: what
stands here is the standards' (PRESUMED, log entry 4).
-/
namespace Sys2Proof.Machine

/-- Octet-wise XOR, as long as the shorter run. -/
def xorBytes : Bytes → Bytes → Bytes
  | a :: s, b :: t => (a ^^^ b) :: xorBytes s t
  | _, _ => []

/-- A run cut into pieces of `n` octets, the last one perhaps shorter; at most `fuel` of them. -/
def chunks (n : Nat) : Nat → Bytes → List Bytes
  | 0, _ => []
  | fuel + 1, bs => if bs.isEmpty then [] else bs.take n :: chunks n fuel (bs.drop n)

/-- Zeros that fill a run of `len` octets to a multiple of `n`. -/
def padTo (n len : Nat) : Bytes := List.replicate ((n - len % n) % n) 0

/-! ## AES -/

/-- Product in GF(2^8) of AES; `n` bits of `b` are used. -/
def aesMul (a b : Nat) : Nat → Nat
  | 0 => 0
  | n + 1 =>
    (if b % 2 = 1 then a else 0) ^^^ aesMul ((2 * a % 256) ^^^ (if 128 ≤ a then 0x1B else 0)) (b / 2) n

def aesSq (a : Nat) : Nat := aesMul a a 8

/-- The inverse in GF(2^8), 0 for 0: the 254th power. -/
def aesInv (a : Nat) : Nat :=
  let p2 := aesSq a
  let p4 := aesSq p2
  let p8 := aesSq p4
  let p16 := aesSq p8
  let p32 := aesSq p16
  let p64 := aesSq p32
  let p128 := aesSq p64
  aesMul p2 (aesMul p4 (aesMul p8 (aesMul p16 (aesMul p32 (aesMul p64 p128 8) 8) 8) 8) 8) 8

/-- A byte turned left by `n` bits. -/
def rol8 (b n : Nat) : Nat := (b * 2 ^ n % 256) ||| (b / 2 ^ (8 - n))

/-- The S-box. -/
def aesSub (a : Nat) : Nat :=
  let b := aesInv a
  b ^^^ rol8 b 1 ^^^ rol8 b 2 ^^^ rol8 b 3 ^^^ rol8 b 4 ^^^ 0x63

def aesSbox : List Nat := (List.range 256).map aesSub

def aesS (a : Nat) : Nat := aesSbox.getD a 0

/-- The powers of x that the key expansion adds. -/
def aesRcon : Nat → Nat
  | 0 => 1
  | n + 1 => aesMul (aesRcon n) 2 8

/-- The words of the key schedule, latest first, from those of the key: `n` more. A word is four bytes. -/
def aesExpand (nk : Nat) : Nat → List (List Nat) → List (List Nat)
  | 0, l => l
  | n + 1, l =>
    let i := l.length
    let t := l.headD []
    let t := if i % nk = 0 then
        let r := (t.drop 1 ++ t.take 1).map aesS
        [r.getD 0 0 ^^^ aesRcon (i / nk - 1), r.getD 1 0, r.getD 2 0, r.getD 3 0]
      else if 6 < nk ∧ i % nk = 4 then t.map aesS else t
    aesExpand nk n ((List.zipWith (· ^^^ ·) (l.getD (nk - 1) []) t) :: l)

/-- The round keys of a key of 16 or 32 octets. -/
def aesKeys (key : Bytes) : List (List Nat) :=
  let nk := key.length / 4
  let ws := (chunks 4 nk key).map (fun w => w.map BitVec.toNat)
  let all := (aesExpand nk (4 * (nk + 7) - nk) ws.reverse).reverse
  (List.range (nk + 7)).map (fun r => ((List.range 4).map (fun i => all.getD (4 * r + i) [])).flatten)

/-- ShiftRows on sixteen bytes, column by column. -/
def aesShift (s : List Nat) : List Nat :=
  (List.range 16).map (fun i => s.getD ((i + 4 * (i % 4)) % 16) 0)

/-- MixColumns. -/
def aesMix (s : List Nat) : List Nat :=
  (List.range 16).map (fun i =>
    let b := fun (k : Nat) => s.getD (i / 4 * 4 + (i + k) % 4) 0
    aesMul (b 0) 2 8 ^^^ aesMul (b 1) 3 8 ^^^ b 2 ^^^ b 3)

/-- The rounds after the first key, the last without MixColumns. -/
def aesRounds : List (List Nat) → List Nat → List Nat
  | [], s => s
  | [k], s => List.zipWith (· ^^^ ·) (aesShift (s.map aesS)) k
  | k :: t, s => aesRounds t (List.zipWith (· ^^^ ·) (aesMix (aesShift (s.map aesS))) k)

/-- One block under expanded round keys. -/
def aesBlock (ks : List (List Nat)) (b : Bytes) : Bytes :=
  (aesRounds (ks.drop 1) (List.zipWith (· ^^^ ·) (b.map BitVec.toNat) (ks.headD []))).map (fun v => BitVec.ofNat 8 v)

/-! ## Counter mode, GCM, CMAC -/

/-- The keystream of `n` blocks, `ctr i` being the counter block of block `i`. -/
def aesStream (key : Bytes) (n : Nat) (ctr : Nat → Nat) : Bytes :=
  let ks := aesKeys key
  ((List.range n).map (fun i => aesBlock ks (beBytes 16 (ctr i)))).flatten

/-- Product in GF(2^128) of GCM; `n` bits of `x` from the most significant on. -/
def ghashMul (x v : Nat) : Nat → Nat
  | 0 => 0
  | n + 1 =>
    (if bitN x n = 1 then v else 0) ^^^ ghashMul x (v / 2 ^^^ (if v % 2 = 1 then 0xE1 * 2 ^ 120 else 0)) n

/-- GHASH under `h`. -/
def ghash (h : Nat) (bs : Bytes) : Nat :=
  (chunks 16 (bs.length / 16) bs).foldl (fun y b => ghashMul (y ^^^ beNat b) h 128) 0

/-- Counter block `i` after the first of a 96-bit nonce; the low 32 bits count. -/
def gcmCtr (nonce i : Nat) : Nat := nonce * 2 ^ 32 + (i + 1) % 2 ^ 32

/-- GCM's cipher, which is its own inverse: key of `bits` bits, nonce, octets. -/
def gcmOpen (bits key nonce : Nat) (cipher : Bytes) : Bytes :=
  xorBytes cipher (aesStream (leBytes (bits / 8) key) (ceilDiv cipher.length 16) (fun i => gcmCtr nonce (i + 1)))

/-- GCM: the cipher octets and the 16-octet tag over `aad` and them. -/
def gcmSeal (bits key nonce : Nat) (aad plain : Bytes) : Bytes :=
  let k := leBytes (bits / 8) key
  let c := gcmOpen bits key nonce plain
  let h := beNat (aesStream k 1 (fun _ => 0))
  let x := aad ++ padTo 16 aad.length ++ c ++ padTo 16 c.length ++ beBytes 8 (8 * aad.length) ++ beBytes 8 (8 * c.length)
  c ++ xorBytes (beBytes 16 (ghash h x)) (aesStream k 1 (fun _ => gcmCtr nonce 0))

/-- The doubling of CMAC's subkeys. -/
def cmacDbl (x : Nat) : Nat := (2 * x % 2 ^ 128) ^^^ (if 2 ^ 127 ≤ x then 0x87 else 0)

/-- AES-CMAC. -/
def cmac (key msg : Bytes) : Bytes :=
  let ks := aesKeys key
  let k1 := cmacDbl (beNat (aesBlock ks (beBytes 16 0)))
  let n := max 1 (ceilDiv msg.length 16)
  let last := msg.drop (16 * (n - 1))
  let z := if last.length = 16 then xorBytes last (beBytes 16 k1)
    else xorBytes (last ++ [0x80#8] ++ List.replicate (15 - last.length) 0) (beBytes 16 (cmacDbl k1))
  (chunks 16 (n - 1) (msg.take (16 * (n - 1))) ++ [z]).foldl (fun y b => aesBlock ks (xorBytes y b)) (beBytes 16 0)

/-! ## SHA-2 and HMAC -/

/-- The constants of SHA-512; SHA-256's are the upper halves of the first 64. -/
def sha2K0 : List Nat :=
  [0x428A2F98D728AE22, 0x7137449123EF65CD, 0xB5C0FBCFEC4D3B2F, 0xE9B5DBA58189DBBC,
  0x3956C25BF348B538, 0x59F111F1B605D019, 0x923F82A4AF194F9B, 0xAB1C5ED5DA6D8118,
  0xD807AA98A3030242, 0x12835B0145706FBE, 0x243185BE4EE4B28C, 0x550C7DC3D5FFB4E2,
  0x72BE5D74F27B896F, 0x80DEB1FE3B1696B1, 0x9BDC06A725C71235, 0xC19BF174CF692694]
/-- Further constants. -/
def sha2K1 : List Nat :=
  [0xE49B69C19EF14AD2, 0xEFBE4786384F25E3, 0xFC19DC68B8CD5B5, 0x240CA1CC77AC9C65,
  0x2DE92C6F592B0275, 0x4A7484AA6EA6E483, 0x5CB0A9DCBD41FBD4, 0x76F988DA831153B5,
  0x983E5152EE66DFAB, 0xA831C66D2DB43210, 0xB00327C898FB213F, 0xBF597FC7BEEF0EE4,
  0xC6E00BF33DA88FC2, 0xD5A79147930AA725, 0x6CA6351E003826F, 0x142929670A0E6E70]
/-- Further constants. -/
def sha2K2 : List Nat :=
  [0x27B70A8546D22FFC, 0x2E1B21385C26C926, 0x4D2C6DFC5AC42AED, 0x53380D139D95B3DF,
  0x650A73548BAF63DE, 0x766A0ABB3C77B2A8, 0x81C2C92E47EDAEE6, 0x92722C851482353B,
  0xA2BFE8A14CF10364, 0xA81A664BBC423001, 0xC24B8B70D0F89791, 0xC76C51A30654BE30,
  0xD192E819D6EF5218, 0xD69906245565A910, 0xF40E35855771202A, 0x106AA07032BBD1B8]
/-- Further constants. -/
def sha2K3 : List Nat :=
  [0x19A4C116B8D2D0C8, 0x1E376C085141AB53, 0x2748774CDF8EEB99, 0x34B0BCB5E19B48A8,
  0x391C0CB3C5C95A63, 0x4ED8AA4AE3418ACB, 0x5B9CCA4F7763E373, 0x682E6FF3D6B2B8A3,
  0x748F82EE5DEFB2FC, 0x78A5636F43172F60, 0x84C87814A1F0AB72, 0x8CC702081A6439EC,
  0x90BEFFFA23631E28, 0xA4506CEBDE82BDE9, 0xBEF9A3F7B2C67915, 0xC67178F2E372532B]
/-- Further constants. -/
def sha2K4 : List Nat :=
  [0xCA273ECEEA26619C, 0xD186B8C721C0C207, 0xEADA7DD6CDE0EB1E, 0xF57D4F7FEE6ED178,
  0x6F067AA72176FBA, 0xA637DC5A2C898A6, 0x113F9804BEF90DAE, 0x1B710B35131C471B,
  0x28DB77F523047D84, 0x32CAAB7B40C72493, 0x3C9EBE0A15C9BEBC, 0x431D67C49C100D4C,
  0x4CC5D4BECB3E42B6, 0x597F299CFC657E2A, 0x5FCB6FAB3AD6FAEC, 0x6C44198C4A475817]

def sha2K : List Nat := sha2K0 ++ sha2K1 ++ sha2K2 ++ sha2K3 ++ sha2K4

/-- A member of the SHA-2 family: word width, rounds, the rotations of its four functions (the third number of the small
ones is a shift), initial value. -/
structure Sha2 where
  w : Nat
  rounds : Nat
  big0 : Nat × Nat × Nat
  big1 : Nat × Nat × Nat
  small0 : Nat × Nat × Nat
  small1 : Nat × Nat × Nat
  init : List Nat

/-- A `w`-bit word turned right by `n` bits. -/
def rotR (w x n : Nat) : Nat := (x / 2 ^ n) ||| (x * 2 ^ (w - n) % 2 ^ w)

def Sha2.big (f : Sha2) (r : Nat × Nat × Nat) (x : Nat) : Nat := rotR f.w x r.1 ^^^ rotR f.w x r.2.1 ^^^ rotR f.w x r.2.2
def Sha2.small (f : Sha2) (r : Nat × Nat × Nat) (x : Nat) : Nat := rotR f.w x r.1 ^^^ rotR f.w x r.2.1 ^^^ x / 2 ^ r.2.2

/-- `n` more words of the message schedule, latest first. -/
def Sha2.schedule (f : Sha2) : Nat → List Nat → List Nat
  | 0, l => l
  | n + 1, l =>
    f.schedule n (((f.small f.small1 (l.getD 1 0) + l.getD 6 0 + f.small f.small0 (l.getD 14 0) + l.getD 15 0) % 2 ^ f.w) :: l)

/-- One round on the eight working words, with its constant and message word. -/
def Sha2.round (f : Sha2) (s : List Nat) (k w : Nat) : List Nat :=
  match s with
  | [a, b, c, d, e, g, h, i] =>
    let t1 := i + f.big f.big1 e + ((e &&& g) ^^^ ((2 ^ f.w - 1 - e) &&& h)) + k + w
    let t2 := f.big f.big0 a + ((a &&& b) ^^^ (a &&& c) ^^^ (b &&& c))
    [(t1 + t2) % 2 ^ f.w, a, b, c, (d + t1) % 2 ^ f.w, e, g, h]
  | s => s

/-- The hash value after one more block. -/
def Sha2.block (f : Sha2) (h : List Nat) (b : Bytes) : List Nat :=
  let n := f.w / 8
  let ws := (f.schedule (f.rounds - 16) ((chunks n 16 b).map beNat).reverse).reverse
  let ks := sha2K.map (fun k => k / 2 ^ (64 - f.w))
  let s := (List.zip ks ws).foldl (fun s x => f.round s x.1 x.2) h
  List.zipWith (fun a b => (a + b) % 2 ^ f.w) h s

/-- The hash of a message, eight words long. -/
def Sha2.hash (f : Sha2) (msg : Bytes) : Bytes :=
  let n := 2 * f.w
  let l := msg.length + 1 + f.w / 4
  let m := msg ++ [0x80#8] ++ padTo n l ++ beBytes (f.w / 4) (8 * msg.length)
  (((chunks n (m.length / n) m).foldl f.block f.init).map (fun x => beBytes (f.w / 8) x)).flatten

def sha256F : Sha2 :=
  { w := 32, rounds := 64, big0 := (2, 13, 22), big1 := (6, 11, 25), small0 := (7, 18, 3), small1 := (17, 19, 10)
    init := [0x6A09E667, 0xBB67AE85, 0x3C6EF372, 0xA54FF53A,
      0x510E527F, 0x9B05688C, 0x1F83D9AB, 0x5BE0CD19] }

def sha512F : Sha2 :=
  { w := 64, rounds := 80, big0 := (28, 34, 39), big1 := (14, 18, 41), small0 := (1, 8, 7), small1 := (19, 61, 6)
    init := [0x6A09E667F3BCC908, 0xBB67AE8584CAA73B, 0x3C6EF372FE94F82B, 0xA54FF53A5F1D36F1,
      0x510E527FADE682D1, 0x9B05688C2B3E6C1F, 0x1F83D9ABFB41BD6B, 0x5BE0CD19137E2179] }

def sha384F : Sha2 :=
  { sha512F with
    init := [0xCBBB9D5DC1059ED8, 0x629A292A367CD507, 0x9159015A3070DD17, 0x152FECD8F70E5939,
      0x67332667FFC00B31, 0x8EB44A8768581511, 0xDB0C2E0D64F98FA7, 0x47B5481DBEFA4FA4] }

def sha256 (m : Bytes) : Bytes := sha256F.hash m
def sha512 (m : Bytes) : Bytes := sha512F.hash m
def sha384 (m : Bytes) : Bytes := (sha384F.hash m).take 48

/-- HMAC of a hash with blocks of `n` octets. -/
def hmac (hash : Bytes → Bytes) (n : Nat) (key msg : Bytes) : Bytes :=
  let k := if n < key.length then hash key else key
  let k := k ++ List.replicate (n - k.length) 0
  hash (k.map (· ^^^ 0x5C#8) ++ hash (k.map (· ^^^ 0x36#8) ++ msg))

/-- The code of the check-value engine by its algorithm (R434): AES-CMAC-128 and -256, HMAC-SHA-256 and -384. -/
def macOf (alg key keyLen : Nat) (msg : Bytes) : Bytes :=
  match alg with
  | 0 => cmac (leBytes 16 key) msg
  | 1 => cmac (leBytes 32 key) msg
  | 2 => hmac sha256 64 (leBytes keyLen key) msg
  | _ => hmac sha384 128 (leBytes keyLen key) msg

/-! ## RSASSA-PSS with SHA-384, 3,072 bits, salts of 48 octets -/

/-- b^e mod m; `n` bits of `e` are used. -/
def powMod (m : Nat) : Nat → Nat → Nat → Nat
  | 0, _, _ => 1 % m
  | n + 1, b, e =>
    let r := powMod m n (b * b % m) (e / 2)
    if e % 2 = 1 then r * b % m else r

/-- MGF1: `n` octets from a seed. -/
def mgf1 (hash : Bytes → Bytes) (hLen : Nat) (seed : Bytes) (n : Nat) : Bytes :=
  (((List.range (ceilDiv n hLen)).map (fun i => hash (seed ++ beBytes 4 i))).flatten).take n

/-- The hash of PSS over a message and a salt. -/
def pssHash (msg salt : Bytes) : Bytes := sha384 (List.replicate 8 0 ++ sha384 msg ++ salt)

/-- The encoded message: 335 octets of masked data block, the hash, 0xBC. Its first bit is 0. -/
def pssEncode (msg salt : Bytes) : Bytes :=
  let h := pssHash msg salt
  let db := List.replicate 286 0 ++ [1#8] ++ salt
  let masked := xorBytes db (mgf1 sha384 48 h 335)
  (masked.take 1).map (· &&& 0x7F#8) ++ masked.drop 1 ++ h ++ [0xBC#8]

/-- An encoded message is consistent with a message. -/
def pssOk (msg em : Bytes) : Bool :=
  let h := (em.drop 335).take 48
  let db := xorBytes (em.take 335) (mgf1 sha384 48 h 335)
  byteAt em 383 == 0xBC && decide (byteAt em 0 < 128)
    && ((db.take 1).map (· &&& 0x7F#8) ++ (db.drop 1).take 286) == List.replicate 286 0 ++ [1#8]
    && h == pssHash msg (db.drop 287)

/-- Verification: 384 octets of modulus and 4 of exponent, message, signature. -/
def rsaVerify (key msg sig : Bytes) : Bool :=
  let n := beNat (key.take 384)
  let s := beNat sig
  decide (sig.length = 384 ∧ s < n) && pssOk msg (beBytes 384 (powMod n 32 s (beNat (key.drop 384))))

/-- The signature of a message with a salt: modulus and private exponent. -/
def rsaSign (n d : Nat) (msg salt : Bytes) : Bytes := beBytes 384 (powMod n 3072 (beNat (pssEncode msg salt)) d)

/-! ## SLH-DSA with SHA-2, category 3 (n = 24) -/

/-- A parameter set: total height, layers, height of a tree, height and number of the FORS trees. -/
structure Slh where
  h : Nat
  d : Nat
  hp : Nat
  a : Nat
  k : Nat

def slh192s : Slh := { h := 63, d := 7, hp := 9, a := 14, k := 17 }
def slh192f : Slh := { h := 66, d := 22, hp := 3, a := 8, k := 33 }

/-- An address: layer, tree, type, key pair, and two words whose use depends on the type. -/
structure SlhAdr where
  layer : Nat := 0
  tree : Nat := 0
  type : Nat := 0
  kp : Nat := 0
  w1 : Nat := 0
  w2 : Nat := 0

/-- Its compressed form, 22 octets. -/
def SlhAdr.bytes (x : SlhAdr) : Bytes :=
  beBytes 1 x.layer ++ beBytes 8 x.tree ++ beBytes 1 x.type ++ beBytes 4 x.kp ++ beBytes 4 x.w1 ++ beBytes 4 x.w2

/-- The functions F and PRF: one hash of a short input. -/
def slhF (seed : Bytes) (x : SlhAdr) (m : Bytes) : Bytes := (sha256 (seed ++ List.replicate 40 0 ++ x.bytes ++ m)).take 24
/-- The functions H and T. -/
def slhT (seed : Bytes) (x : SlhAdr) (m : Bytes) : Bytes := (sha512 (seed ++ List.replicate 104 0 ++ x.bytes ++ m)).take 24

/-- `n` numbers of `b` bits from the front of a run of octets. -/
def slhDigits (bs : Bytes) (b n : Nat) : List Nat :=
  let v := beNat bs
  (List.range n).map (fun i => bitsOf v (8 * bs.length - b * (i + 1)) b)

/-- Chain: `n` steps from `i`. -/
def slhChain (seed : Bytes) (x : SlhAdr) : Nat → Nat → Bytes → Bytes
  | 0, _, m => m
  | n + 1, i, m => slhChain seed x n (i + 1) (slhF seed { x with w2 := i } m)

/-- The 51 digits that WOTS+ signs of a node. -/
def wotsDigits (m : Bytes) : List Nat :=
  let l := slhDigits m 4 48
  l ++ slhDigits (beBytes 2 (l.foldl (fun c v => c + (15 - v)) 0 * 16)) 4 3

/-- The compressed public key of 51 chain ends. -/
def wotsPk (seed : Bytes) (x : SlhAdr) (ends : List Bytes) : Bytes := slhT seed { x with type := 1, w1 := 0, w2 := 0 } ends.flatten

/-- The WOTS+ public key a signature and a node stand for. -/
def wotsFromSig (seed : Bytes) (x : SlhAdr) (sig m : Bytes) : Bytes :=
  let ds := wotsDigits m
  wotsPk seed x ((List.range 51).map (fun i =>
    slhChain seed { x with type := 0, w1 := i } (15 - ds.getD i 0) (ds.getD i 0) ((sig.drop (24 * i)).take 24)))

/-- The root that a leaf and its authentication path stand for: `x` is the address of the tree's nodes, `i` the leaf's
index, `z` the height reached. -/
def slhClimb (seed : Bytes) (x : SlhAdr) : List Bytes → Nat → Nat → Bytes → Bytes
  | [], _, _, m => m
  | b :: t, i, z, m =>
    slhClimb seed x t (i / 2) (z + 1) (slhT seed { x with w1 := z + 1, w2 := i / 2 } (if i % 2 = 0 then m ++ b else b ++ m))

/-- The root of an XMSS tree from a signature of node `m` at leaf `i`. -/
def Slh.xmssFromSig (p : Slh) (seed : Bytes) (x : SlhAdr) (i : Nat) (sig m : Bytes) : Bytes :=
  let leaf := wotsFromSig seed { x with kp := i } sig m
  slhClimb seed { x with type := 2, kp := 0 } (chunks 24 p.hp (sig.drop (24 * 51))) i 0 leaf

/-- The hypertree's root from its signature: layers `j` and above. -/
def Slh.htFromSig (p : Slh) (seed : Bytes) : Nat → Nat → Nat → Nat → Bytes → Bytes → Bytes
  | 0, _, _, _, _, m => m
  | n + 1, j, tree, leaf, sig, m =>
    let r := p.xmssFromSig seed { layer := j, tree := tree } leaf sig m
    p.htFromSig seed n (j + 1) (tree / 2 ^ p.hp) (tree % 2 ^ p.hp) (sig.drop (24 * (51 + p.hp))) r

/-- The FORS public key from a signature and the indices it opens. -/
def Slh.forsFromSig (p : Slh) (seed : Bytes) (x : SlhAdr) (ixs : List Nat) (sig : Bytes) : Bytes :=
  let roots := (List.range p.k).map (fun i =>
    let s := sig.drop (24 * (p.a + 1) * i)
    let y := { x with type := 3 }
    let ix := i * 2 ^ p.a + ixs.getD i 0
    slhClimb seed y (chunks 24 p.a (s.drop 24)) ix 0 (slhF seed { y with w1 := 0, w2 := ix } (s.take 24)))
  slhT seed { x with type := 4, w1 := 0, w2 := 0 } roots.flatten

/-- Length of the message digest, and its parts: FORS indices, tree, leaf. -/
def Slh.digest (p : Slh) (r seed root msg : Bytes) : List Nat × Nat × Nat :=
  let md := ceilDiv (p.k * p.a) 8
  let tb := ceilDiv (p.h - p.hp) 8
  let lb := ceilDiv p.hp 8
  let d := mgf1 sha512 64 (r ++ seed ++ sha512 (r ++ seed ++ root ++ msg)) (md + tb + lb)
  (slhDigits (d.take md) p.a p.k, beAt d md tb % 2 ^ (p.h - p.hp), beAt d (md + tb) lb % 2 ^ p.hp)

/-- What pure mode with an empty context signs. -/
def slhPure (msg : Bytes) : Bytes := [0#8, 0#8] ++ msg

/-- Octets of a signature. -/
def Slh.sigLen (p : Slh) : Nat := 24 * (1 + p.k * (1 + p.a) + p.h + 51 * p.d)

/-- Verification: 48 octets of public key, message, signature. -/
def Slh.verify (p : Slh) (key msg sig : Bytes) : Bool :=
  let seed := key.take 24
  let r := sig.take 24
  let d := p.digest r seed (key.drop 24) (slhPure msg)
  let fors := (sig.drop 24).take (24 * p.k * (1 + p.a))
  let pk := p.forsFromSig seed { tree := d.2.1, kp := d.2.2 } d.1 fors
  decide (sig.length = p.sigLen)
    && p.htFromSig seed p.d 0 d.2.1 d.2.2 (sig.drop (24 * (1 + p.k * (1 + p.a)))) pk == key.drop 24

/-! ### Keys and signing -/

/-- Start of WOTS+ chain `i`. -/
def wotsStart (sk seed : Bytes) (x : SlhAdr) (i : Nat) : Bytes := slhF seed { x with type := 5, w1 := i, w2 := 0 } sk

/-- The node of an XMSS tree at height `z` and index `i`. -/
def xmssNode (sk seed : Bytes) (x : SlhAdr) : Nat → Nat → Bytes
  | 0, i =>
    let y := { x with kp := i }
    wotsPk seed y ((List.range 51).map (fun c => slhChain seed { y with type := 0, w1 := c } 15 0 (wotsStart sk seed y c)))
  | z + 1, i =>
    slhT seed { x with type := 2, kp := 0, w1 := z + 1, w2 := i } (xmssNode sk seed x z (2 * i) ++ xmssNode sk seed x z (2 * i + 1))

/-- The authentication path of leaf `i`: the siblings on the way up, from height `z`. -/
def slhPath (node : Nat → Nat → Bytes) : Nat → Nat → Nat → Bytes
  | 0, _, _ => []
  | n + 1, z, i => node z (i ^^^ 1) ++ slhPath node n (z + 1) (i / 2)

/-- The XMSS signature of node `m` at leaf `i`. -/
def Slh.xmssSign (p : Slh) (sk seed : Bytes) (x : SlhAdr) (i : Nat) (m : Bytes) : Bytes :=
  let ds := wotsDigits m
  let y := { x with kp := i }
  ((List.range 51).map (fun c => slhChain seed { y with type := 0, w1 := c } (ds.getD c 0) 0 (wotsStart sk seed y c))).flatten
    ++ slhPath (xmssNode sk seed x) p.hp 0 i

/-- The hypertree's signature of node `m`: layers `j` and above. -/
def Slh.htSign (p : Slh) (sk seed : Bytes) : Nat → Nat → Nat → Nat → Bytes → Bytes
  | 0, _, _, _, _ => []
  | n + 1, j, tree, leaf, m =>
    let x : SlhAdr := { layer := j, tree := tree }
    let sig := p.xmssSign sk seed x leaf m
    sig ++ p.htSign sk seed n (j + 1) (tree / 2 ^ p.hp) (tree % 2 ^ p.hp) (p.xmssFromSig seed x leaf sig m)

/-- Secret value `ix` of the FORS trees. -/
def forsSecret (sk seed : Bytes) (x : SlhAdr) (ix : Nat) : Bytes := slhF seed { x with type := 6, w1 := 0, w2 := ix } sk

/-- The node of the FORS trees at height `z` and index `i`. -/
def forsNode (sk seed : Bytes) (x : SlhAdr) : Nat → Nat → Bytes
  | 0, i => slhF seed { x with type := 3, w1 := 0, w2 := i } (forsSecret sk seed x i)
  | z + 1, i => slhT seed { x with type := 3, w1 := z + 1, w2 := i } (forsNode sk seed x z (2 * i) ++ forsNode sk seed x z (2 * i + 1))

/-- The root of the top tree. -/
def Slh.root (p : Slh) (sk seed : Bytes) : Bytes := xmssNode sk seed { layer := p.d - 1 } p.hp 0

/-- The deterministic signature of a message: secret seed, secret for the randomiser, public seed. -/
def Slh.sign (p : Slh) (sk prf seed msg : Bytes) : Bytes :=
  let m := slhPure msg
  let r := (hmac sha512 128 prf (seed ++ m)).take 24
  let d := p.digest r seed (p.root sk seed) m
  let x : SlhAdr := { tree := d.2.1, kp := d.2.2 }
  let fors := ((List.range p.k).map (fun i =>
    let ix := i * 2 ^ p.a + d.1.getD i 0
    forsSecret sk seed x ix ++ slhPath (forsNode sk seed x) p.a 0 ix)).flatten
  r ++ fors ++ p.htSign sk seed p.d 0 d.2.1 d.2.2 (p.forsFromSig seed x d.1 fors)

end Sys2Proof.Machine
end

