-- ==== Sys2Proof/Machine/Assembly.lean ====
section
/-!
DEFINITION. The space of a burst and its cutoff (R135-R145, R148, R150): upstream words and profiles, what a burst's
grants leave for GEM frames, occupancy and look-ahead, upstream encryption, the closing of a grant. Delineation uses it
for grants that arrive late (R144).
-/
namespace Sys2Proof.Machine

/-! ## Words, profiles, allocations (R107, R137, R140, R142) -/

/-- Upstream words in 125 µs at the channel's rate (R137), and bit periods at 49.7664 Gb/s in a word. -/
def Hw.usWords (s : Hw) (c : Nat) : Nat := match s.capRd (TRK_PMA_CTRL.US_RATE c) with
  | 0 => 48600
  | 1 => 97200
  | _ => 194400
def Hw.usWordBits (s : Hw) (c : Nat) : Nat := match s.capRd (TRK_PMA_CTRL.US_RATE c) with
  | 0 => 128
  | 1 => 64
  | _ => 32

/-- Bit periods in a downstream frame. -/
abbrev framePeriod : Nat := 6220800

/-- The fixed response time of 35.000 µs in bit periods at 49.7664 Gb/s, which is 1,741,824 of them (R138). -/
abbrev respTime : Nat := 1741824

/-- A position in bit periods at 49.7664 Gb/s, rounded to the nearest upstream UI of the channel's rate (R138). At
12.4416 and 24.8832 Gb/s a UI is four and two bit periods; a position halfway is rounded up, which is the model's choice
(log entry 165). -/
def Hw.toUi (s : Hw) (c x : Nat) : Nat :=
  let ui := s.usWordBits c / 32
  (x + ui / 2) / ui * ui

/-- Overhead of a burst profile in upstream words (R140). -/
def Hw.profileOvh (s : Hw) (c p : Nat) : Nat :=
  ceilDiv (s.t (BURST_PROFILE.PRE_LEN c p) * s.t (BURST_PROFILE.PRE_REPEAT c p) + s.t (BURST_PROFILE.DELIM_LEN c p)) 4

/-- A profile is valid: VALID, and every field once written in range (R140). -/
def Hw.profileValid (s : Hw) (c p : Nat) : Bool :=
  s.t (BURST_PROFILE.VALID c p) == 1 && s.t (BURST_PROFILE.PRE_REPEAT c p) != 0
    && decide (1 ≤ s.t (BURST_PROFILE.PRE_LEN c p) ∧ s.t (BURST_PROFILE.PRE_LEN c p) ≤ 8)
    && (s.t (BURST_PROFILE.DELIM_LEN c p) == 4 || s.t (BURST_PROFILE.DELIM_LEN c p) == 8)

/-- Lowest valid ALLOC_OWN entry that holds an allocation ID (R107 check 2). -/
def Hw.allocOwn (s : Hw) (c id : Nat) : Option Nat :=
  (s.listed c 1).find? (fun x => s.t (ALLOC_OWN.VALID c x) == 1 && s.t (ALLOC_OWN.ALLOC_ID c x) == id)

/-- Upstream queues with packets under an allocation node, the express ones or the others (R142). -/
def Hw.allocQueues (s : Hw) (node : Nat) (express : Bool) : List Nat :=
  (s.backlog false).filter (fun q => (s.pathOf false q 0).top == node && (s.t (US_QNODE.EXPRESS q) == 1) == express)

/-- Bytes enqueued in each of a list of queues. -/
def Hw.bytesOf (s : Hw) (qs : List Nat) : List (Nat × Nat) := qs.map (fun q => (q, (s.queue q).bytes))

/-! ## Space (R135, R141, R145) -/

/-- Octets of the burst header, a PLOAM message, a DBRu and the trailer, of an upstream codeword and of the payload it
carries. R135 gives 48 for the message; the others are PRESUMED of G.9804.2 (log entry 24). -/
abbrev usHeader : Nat := 4
abbrev usPloam : Nat := 48
abbrev usDbru : Nat := 4
abbrev usTrailer : Nat := 4
abbrev usCodeword : Nat := 2160
abbrev usCodeData : Nat := 1824

/-- Payload octets among the first `x` octets after the delimiter of a burst of `n`: codewords follow one another over the
whole burst, payload before parity, and the last is shortened (R141). -/
def codeData (fec : Bool) (n x : Nat) : Nat :=
  if !fec then x
  else
    let k := min (x / usCodeword) ((n - 1) / usCodeword)
    let last := k == (n - 1) / usCodeword
    let cap := if last then n - k * usCodeword - (usCodeword - usCodeData) else usCodeData
    k * usCodeData + min (x - k * usCodeword) cap

/-- Octets of GEM space of each grant of a burst, in map order. `at'` octets of the burst's `n` lie in the grants before
these. -/
def gemSpace (fec : Bool) (n at' : Nat) (first : Bool) : List Grant → List Nat
  | [] => []
  | g :: t =>
    let stop := at' + 4 * g.size
    let overhead := (if first then usHeader + (if g.ploamu then usPloam else 0) else 0) + (if g.dbru then usDbru else 0)
      + (if t.isEmpty then usTrailer else 0)
    (codeData fec n stop - codeData fec n at' - overhead) :: gemSpace fec n stop false t

/-- A burst is coded with FEC: as its profile says, until the burst begins at its cutoff (R156; log entry 189). -/
def Hw.burstFec (s : Hw) (c : Nat) (u : Burst) : Bool :=
  if u.staged then u.fec else s.t (BURST_PROFILE.FEC_EN c u.profile) == 1

/-- The grants of a burst with their space, given what earlier ones have used of theirs. -/
def Hw.respace (s : Hw) (c : Nat) (u : Burst) (gs : List Grant) : List Grant :=
  let n := sumBy (fun (g : Grant) => 4 * g.size) gs
  (gs.zip (gemSpace (s.burstFec c u) n 0 true gs)).map (fun e =>
    { e.1 with space := e.2, room := e.2 - (e.1.space - e.1.room) })

/-- Upstream words of a Serial_Number_ONU or ranging burst after its delimiter: header, message and trailer, coded with
FEC when the profile says so (R135, R136). -/
def respWords (fec : Bool) : Nat :=
  (usHeader + usPloam + usTrailer + (if fec then usCodeword - usCodeData else 0)) / 4

/-! ## Occupancy and look-ahead (R148, R149, R175) -/

/-- The group whose member names allocation index `x` on channel `c`, from STARTING until OFF (R157). -/
def Hw.memberOf (s : Hw) (c x : Nat) : Option Nat :=
  (List.range 16).find? (fun g => s.rd (SHF_MBR_STATUS.STATE g c) != 0 && s.capRd (SHF_MBR_CTRL.ALLOC_IDX g c) == x)

/-- Octets of partly sent frames of an allocation that are still to be sent (log entry 17). -/
def Hw.fragRest (s : Hw) (c x : Nat) : Nat :=
  sumBy (fun (f : SentFrag) => if f.alloc = x then f.pkt.bytes.length - f.pkt.sent else 0) (s.act c).frags

/-- Bytes queued under a node. -/
def Hw.nodeBytes (s : Hw) (node : Nat) : Nat :=
  sumBy (fun e => e.2) (s.bytesOf (s.allocQueues node true ++ s.allocQueues node false))

/-- What an allocation's report takes at the cutoff, in the fields of the grant that carries it, and the clamp it counts. In
ROUND_ROBIN mode bytes and estimate are shared among the ACTIVE members, and a member that is not ACTIVE reports its markers
alone (R175). -/
def Hw.report (s : Hw) (c x node : Nat) (y : Grant) : Hw × Grant :=
  let m := s.memberOf c x
  let marks := match m with
    | some g => 20 * ((s.grp g).markers.filter (fun k => k.target == c)).length
    | none => 0
  let rr := match m with
    | some g => s.rd (SHF_GRP_CFG.MODE g) == 1
    | none => false
  let active := match m with
    | some g => s.memberActive g c
    | none => false
  let n := match m with
    | some g => (s.activeMembers g).length
    | none => 1
  if rr && !active then (s, { y with occ := 0, share := 1, marks := marks, add := 0 })
  else
    let d := if rr then n else 1
    let y := { y with occ := s.nodeBytes node + s.fragRest c x, share := d, marks := marks, add := 0 }
    if s.t (LA_ALLOC.LA_EN c x) = 0 then (s, y)
    else
      let est := ceilDiv (s.t (LA_ALLOC.RATE_EST c x)) d * s.rd (TRK_US_CFG.HORIZON c)
      let lo := s.t (LA_ALLOC.LA_FLOOR c x) * 65536
      let hi := s.t (LA_ALLOC.LA_CEIL c x) * 65536
      (s.onlyIf (est < lo ∨ hi < est) (fun s => s.count (TRK_LA_CLAMP_COUNT.POLICY_CLAMP_COUNT c)),
        { y with add := min hi (max lo est) })

/-- DBRu words of a grant of a burst: the report of R148 in 4-byte words, the bytes held less those placed in the burst,
shared as R175 says. -/
def Burst.report (b : Burst) (g : Grant) : Nat :=
  let placed := sumBy (fun (x : Grant) => if x.allocIdx = g.allocIdx then x.placed else 0) b.grants
  min 0xFFFFFE (ceilDiv ((ceilDiv (g.occ - placed) g.share + g.marks) * 65536 + g.add) (4 * 65536))

/-! ## Line keys (R119, R120, R150-R152, R425, R426) -/

/-- Slot of the line key store (R425). -/
def lineSlot (c mcast idx : Nat) : Nat := c * 4 + mcast * 2 + (idx - 1)

/-- Blocks of a GEM payload processed under slot `x` are counted, and its limits observed. The Boolean says whether the
frame may be used: the hard limit had not been reached and is not reached by it (R120, R426). -/
def Hw.lineKeyUse (s : Hw) (c x len : Nat) : Hw × Bool :=
  if s.t (LINE_KEY.HARD_HIT x) = 1 then (s, false)
  else
    let u := min (2 ^ 64 - 1) (s.t (LINE_KEY.USAGE x) + ceilDiv len 16)
    let s := s.ts (LINE_KEY.USAGE x) u
    let s := if 2 ^ s.rd CIP_CFG.LINE_SOFT_LOG2 ≤ u ∧ s.t (LINE_KEY.SOFT_HIT x) = 0 then
        (((s.ts (LINE_KEY.SOFT_HIT x) 1).wr ⟨CIP_LINE_LIMIT_STATUS.A, x, 1⟩ 1).raise 0x8000000 EV_CIP.LINE_SOFT).trkRaise c
          EV_TRK.KEY_LIMIT
      else s
    if 2 ^ 37 ≤ u then
      ((((s.ts (LINE_KEY.HARD_HIT x) 1).wr ⟨CIP_LINE_LIMIT_STATUS.A, 16 + x, 1⟩ 1).raise 0x8000000 EV_CIP.LINE_HARD).trkRaise c
        EV_TRK.KEY_LIMIT, false)
    else (s, true)

/-- The line cipher, AES-128 in counter mode, applied to a payload at word position `pos` of superframe `sfc` (R119,
R150). -/
def lineCipher (key sfc pos : Nat) (bs : Bytes) : Bytes :=
  xorBytes bs (aesStream (leBytes 16 key) (ceilDiv bs.length 16) (Config.lineCounter sfc pos))

/-- Encryption of an upstream payload under the index in force for the grant's burst; none when the slot is invalid or
at its hard limit (R150-R152). -/
def Hw.usEncrypt (s : Hw) (c : Nat) (enc : Bool) (g : Grant) (bs : Bytes) : Hw × Option (Nat × Bytes) :=
  if !enc then (s, some (0, bs))
  else
    let k := lineSlot c 0 g.keyIdx
    if s.t (LINE_KEY.VALID k) = 0 then (s, none)
    else
      let r := s.lineKeyUse c k bs.length
      if r.2 then
        (r.1, some (g.keyIdx, lineCipher (s.t (LINE_KEY.KEY k)) g.sfc (g.start + (g.space - g.room) / 4) bs))
      else (r.1, none)

/-! ## The closing of a grant (R143, R144) -/

/-- A slot grant carries its container and nothing else (R318). -/
def Hw.closeSlotGrant (s : Hw) (c : Nat) (g : Grant) : Hw × Grant :=
  let g := { g with limit := [], slot := true }
  let r := s.slotGrant c g.sfc g.room
  match r.2 with
  | none => (r.1, g)
  | some bs =>
    let e := r.1.usEncrypt c (s.rd (SLT_CH_CFG.US_ENC c) == 1) g bs
    match e.2 with
    | none => (e.1.actCount c ACT_N.US_KEY_HARD_DISCARD, g)
    | some (idx, out) =>
      (e.1, { g with room := g.room - (8 + bs.length), items := [.gem (s.rd (SLT_CH_CFG.US_GEM c)) idx true out] })

/-- The cutoff of a grant whose space is known: express queues are closed, the occupancy is measured (R143, R144,
R148). -/
def Hw.closeGrant (s : Hw) (c : Nat) (g : Grant) : Hw × Grant :=
  let limit := if g.late then g.limit else g.limit ++ s.bytesOf (s.allocQueues g.node true)
  let r := s.report c g.allocIdx g.node { g with limit := limit }
  let s := if g.dbru then r.1 else s
  let g := r.2
  if s.isSlotGrant c g.allocIdx then s.closeSlotGrant c g else (s, g)

/-- The cutoffs of a burst's grants in map order. -/
def Hw.closeGrants (s : Hw) (c : Nat) : List Grant → Hw × List Grant
  | [] => (s, [])
  | g :: t =>
    let r := s.closeGrant c g
    let q := Hw.closeGrants r.1 c t
    (q.1, r.2 :: q.2)

end Sys2Proof.Machine
end

