-- ==== Sys2Proof/Machine/Delin.lean ====
section
/-!
DEFINITION. Downstream delineation (spec/04): the alignment machine, descrambling, frame positions, codewords, the
bandwidth map and its checks, PLOAM, GEM frames with line decryption. Accepted grants enter burst assembly or activation here (R135,
R136, R141, R142).
-/
namespace Sys2Proof.Machine

/-! ## Alignment (R95-R99) -/

/-- LOOPBACK is in force: the receive lane takes what the transmit serialiser sends and nothing of the fibre (R91). -/
def Hw.looped (s : Hw) (c : Nat) : Bool := s.trkOn c && s.capRd (TRK_PMA_CTRL.LOOPBACK c) == 1

/-- The machine searches: the channel is ON with its receiver on, LOS is clear and the CDR locked (R95). In loopback no
frame reaches it (R91). -/
def Hw.searching (s : Hw) (c : Nat) : Bool :=
  s.trkOn c && (s.act c).rxOn && s.rd (TRK_PMA_STATUS.LOS c) == 0 && s.rd (TRK_PMA_STATUS.CDR_LOCK c) == 1
    && !s.looped c

/-! ## Descrambling (R100) -/

/-- The scrambler's register at the first bit after the PSBd of the frame of superframe count `sfc`: the count's 51 bits,
then seven ones. The spec names the recommendation's frame-synchronous scrambler; register and polynomial
x^58 + x^39 + 1 are PRESUMED of G.9804.2 (log entry 166). -/
def scramblerSeed (sfc : Nat) : Nat := sfc % 2 ^ 51 * 128 + 127

/-- One bit of the scrambler, and its register after it. -/
def scramblerBit (r : Nat) : Nat × Nat :=
  let b := (bitN r 57 + bitN r 38) % 2
  (b, (r * 2 + b) % 2 ^ 58)

/-- Eight bits of the scrambler, the first most significant. -/
def scramblerOctet (r : Nat) : Nat → Nat × Nat
  | 0 => (0, r)
  | n + 1 =>
    let p := scramblerOctet r n
    let q := scramblerBit p.2
    (p.1 * 2 + q.1, q.2)

/-- Octets of the line descrambled from a register on, and the register after them. -/
def descramble (r : Nat) : Bytes → Bytes × Nat
  | [] => ([], r)
  | b :: t =>
    let p := scramblerOctet r 8
    let q := descramble p.2 t
    ((b ^^^ BitVec.ofNat 8 p.1) :: q.1, q.2)

/-- Codewords of a frame; octets of the first 359 on the line, and of the shortened last (R94). -/
abbrev dsCodewords : Nat := 360
/-- The octets of codeword `i` of a downstream frame (R94). -/
abbrev dsCodewordLen (k : Nat) : Nat := if k < 359 then 2160 else 2136

/-- A frame begins at a PSBd that is plain on the line: from the bit after it, codewords are descrambled under superframe
count `v` (R100). -/
def Hw.frameSeed (s : Hw) (c v : Nat) : Hw :=
  s.modDln c (fun d => { d with cw := 0, scr := scramblerSeed v, word := [], parity := [] })

/-- The scrambler's register `n` octets after `r`. -/
def scramblerAfter (r : Nat) : Nat → Nat
  | 0 => r
  | n + 1 => (scramblerOctet (scramblerAfter r n) 8).2

/-- The descrambler turns to the frame of a candidate of which `bits` bits have passed: to the first codeword that is still
to come whole, under the candidate's own count (R100). The content of an uncorrectable SFC structure is never used (R103):
the seed is then a free value (log entry 191). -/
def Hw.candidateSeed (s : Hw) (c : Nat) (k : PsyncCand) (bits : Nat) : Hw :=
  let cw := min dsCodewords (ceilDiv (bits - 192) 17280)
  let seed := match k.sfc with
    | some v => scramblerSeed v
    | none => s.draw 51 % 2 ^ 58
  (if k.sfc.isNone then s.drawn else s).modDln c (fun d =>
    { d with cw := cw, scr := scramblerAfter seed (2160 * cw), word := [], parity := [] })

/-- A candidate is taken, `bits` bits after its position: PRESYNC with CONFIRM_CNT 0 (R96). -/
def Hw.takeCandidate (s : Hw) (c : Nat) (k : PsyncCand) (bits : Nat) : Hw :=
  let s := (s.modDln c (fun d => { d with cand := some k.pos, fromMiss := false })).wr (TRK_DLN_STATUS.CONFIRM_CNT c) 0
  (s.setSync c 1).candidateSeed c k bits

/-- HUNT entered from a PRESYNC miss takes its earliest recorded candidate once the machine may leave HUNT again (R95, R96);
the rest of that candidate's frame has no codeword to decode. -/
def Hw.huntResume (s : Hw) (c : Nat) : Hw :=
  match (s.dln c).cands with
  | [] => s
  | k :: t =>
    if s.searching c = true ∧ (s.dln c).fromMiss = true ∧ s.rd (TRK_DLN_STATUS.SYNC_STATE c) = 0 then
      (s.setCands c t).takeCandidate c k framePeriod
    else s

/-- An exact PSync match at bit position `pos` of the 125 µs (R96, R97). Its SFC structure reads `v` and has the HEC
judgement `hec`; the count seeds the descrambler of the candidate's frame (R100, R103), and no counter takes the judgement,
since this is no position judged in PRESYNC or SYNC (R96). In SYNC the hunter records nothing, which is the model's choice
(log entry 167). -/
def Hw.psyncMatch (s : Hw) (c pos v : Nat) (hec : Hec) : Hw :=
  let k : PsyncCand := { pos := pos, sfc := if hec = .bad then none else some v }
  if !s.searching c then s
  else match s.rd (TRK_DLN_STATUS.SYNC_STATE c) with
    | 0 => s.takeCandidate c k 0
    | 1 =>
      let l := (s.dln c).cands
      if l.length < 8 then s.setCands c (l ++ [k]) else s.dlnCount c DLN_N.CAND_OVERFLOW
    | _ => s

/-- The earliest recorded candidate becomes stale and is removed (R97). -/
def Hw.candidateStale (s : Hw) (c : Nat) : Hw := s.setCands c ((s.dln c).cands.drop 1)

/-- SFC HEC counts (R103). -/
def Hw.sfcHec (s : Hw) (c : Nat) : Hec → Hw
  | .ok => s
  | .corrected => s.dlnCount c DLN_N.SFC_HEC_CORR
  | .bad => s.dlnCount c DLN_N.SFC_HEC_UNCORR

/-- TRK_SFC takes a count. -/
def Hw.setSfc (s : Hw) (c v : Nat) : Hw := (s.wr (TRK_SFC.SFC_LO c) v).wr (TRK_SFC_HI.SFC_HI c) (v / 2 ^ 32)

/-- The terminal's clock in bit periods at 49.7664 Gb/s, of which 6,220,800 make 125 µs. -/
def Hw.clkBits (s : Hw) : Nat := s.clk * 497664 / 10000

/-- A frame begins to be processed under superframe count `v`: the open fragment that the last payload should have
continued is lost, a pending EqD takes effect, the operation control structure is counted (R105, R117, R139).
OC_HEC_CORR and OC_HEC_UNCORR count the processed frames only, neither PRESYNC positions nor the one that loses SYNC: the
spec does not say, and it is the model's choice (log entry 192). -/
def Hw.frameBegins (s : Hw) (c v : Nat) (oc : Hec) : Hw :=
  let s := (s.setSfc c v).frameSeed c v
  let s := if (s.dln c).frag.isSome && (s.dln c).fragDue && (s.dln c).firstGem then s.fragDiscard c else s
  let s := s.modDln c (fun d => { d with
    inFrame := true, hl := none, maps := 0, ploams := 0, ploamCount := 0, payloadOff := false, firstGem := true
    fragDue := d.frag.isSome, prevEnd := none, prevFate := 0, accepted := 0 })
  let s := s.modAct c (fun a => { a with keyLate := false, keyNow := a.keyLate || a.keyNow })
  let s := if s.rd (TRK_ACT_STATUS.EQD_PENDING c) = 1 then
      ((s.wr (TRK_EQD_ACTIVE.EQD c) (s.rd (TRK_EQD.EQD c))).wr (TRK_ACT_STATUS.EQD_PENDING c) 0).trkRaise c EV_TRK.EQD_APPLIED
    else s
  match oc with
  | .ok => s
  | .corrected => s.actCount c 0
  | .bad => s.actCount c 1

/-- A position judged in PRESYNC (R96, R97, R99). On entry to SYNC the recorded candidates are forgotten and CAND_COUNT
reads 0, and CONFIRM_CNT keeps its last value after a miss with an empty table, where the other ways into HUNT set it to
0: both are the model's choice, the spec does not say (log entry 167). The first processed frame's arrival is read from the
terminal's clock (R138; log entry 165). While the CDR is unlocked no recorded candidate is taken (R95). -/
def Hw.presyncPosition (s : Hw) (c errs : Nat) (hec : Hec) (v : Nat) (oc : Hec) : Hw :=
  if errs ≤ s.rd (TRK_DLN_CFG.PSYNC_TOL c) ∧ hec ≠ .bad then
    let n := s.rd (TRK_DLN_STATUS.CONFIRM_CNT c) + 1
    let s := s.wr (TRK_DLN_STATUS.CONFIRM_CNT c) n
    if s.rd (TRK_DLN_CFG.N_CONFIRM c) ≤ n then
      let at' := s.clkBits
      let s := (s.wr (TRK_DLN_STATUS.LOSS_CNT c) 0).modDln c (fun d => { d with frag := none, fragDue := false, frameAt := at' })
      let s := ((s.setCands c []).setSfc c v).setSync c 2
      let s := s.onlyIf (s.rd (TRK_ACT_STATUS.ACT_STATE c) = 1 ∧ s.trkOn c = true) (fun s => s.setAct c 2)
      s.frameBegins c v oc
    else s.frameSeed c v
  else
    let s := s.dlnCount c DLN_N.FALSE_CANDIDATE
    match (s.dln c).cands, s.searching c with
    | k :: t, true => (s.setCands c t).takeCandidate c k (((s.dln c).cand.getD 0 + framePeriod - k.pos) % framePeriod)
    | _, _ => (s.modDln c (fun d => { d with cand := none, fromMiss := true })).setSync c 0

/-- A position judged in SYNC (R98, R104): an errored one has the expected count, whatever its SFC structure reads. -/
def Hw.syncPosition (s : Hw) (c errs : Nat) (hec : Hec) (v : Nat) (oc : Hec) : Hw :=
  let expected := (s.sfc c + 1) % 2 ^ 51
  let s := s.modDln c (fun d => { d with frameAt := d.frameAt + framePeriod })
  let errored := decide (s.rd (TRK_DLN_CFG.PSYNC_TOL c) < errs) || hec == .bad
  let n := s.rd (TRK_DLN_STATUS.LOSS_CNT c) + 1
  if errored = true ∧ s.rd (TRK_DLN_CFG.M_LOSS c) ≤ n then s.hunt c
  else
    let s := s.wr (TRK_DLN_STATUS.LOSS_CNT c) (if errored then n else 0)
    if errored then s.frameBegins c expected oc
    else
      let s := if v = expected then s else (s.dlnCount c DLN_N.SFC_JUMP_COUNT).trkRaise c EV_TRK.SFC_JUMP
      s.frameBegins c v oc

/-- A frame position is judged (R96, R98). -/
def Hw.framePosition (s : Hw) (c errs : Nat) (hec : Hec) (v : Nat) (oc : Hec) : Hw :=
  if s.trkOn c = false ∨ (s.act c).rxOn = false ∨ s.looped c = true then s
  else match s.rd (TRK_DLN_STATUS.SYNC_STATE c) with
    | 1 => (s.sfcHec c hec).presyncPosition c errs hec v oc
    | 2 => (s.sfcHec c hec).syncPosition c errs hec v oc
    | _ => s

/-- A write of RESYNC (R99). -/
def Hw.resync (s : Hw) (c : Nat) (v : Word) : Hw :=
  let s := s.plainWrite (TRK_DLN_CFG.A c) v
  if getField v 16 1 = 1 then s.hunt c else s

/-- PSYNC_MATCH (R96). -/
def execPsyncMatch (c : Fin 4) (pos : Nat) (s : State) (sfc : Nat := 0) (hec : Hec := .ok) : Host.Outcome State Fault Refusal :=
  s.on (·.psyncMatch c pos sfc hec)
/-- CANDIDATE_STALE (R97). -/
def execCandidateStale (c : Fin 4) (s : State) : Host.Outcome State Fault Refusal := s.on (·.candidateStale c)
/-- FRAME_POSITION (R98). -/
def execFramePosition (c : Fin 4) (errs : Nat) (hec : Hec) (sfc : Nat) (oc : Hec) (s : State) :
    Host.Outcome State Fault Refusal := s.on (·.framePosition c errs hec sfc oc)
/-- RESYNC (R99). -/
def execResync (m : Master) (c : Fin 4) (v : Word) (s : State) : Host.Outcome State Fault Refusal :=
  s.on (fun s => s.onAccess m (TRK_DLN_CFG.A c) true (fun s => s.resync c v))

/-! ## Codewords and HLend (R101-R106) -/

/-- The decoder has a codeword of the channel to decode: one of the frame in PRESYNC or SYNC while the receiver is on
(R100, R123), or the one in progress when the channel left ON (R69). -/
def Hw.decoding (s : Hw) (c : Nat) : Bool :=
  (s.dln c).tail || (s.trkOn c && (s.act c).rxOn && s.rd (TRK_DLN_STATUS.SYNC_STATE c) != 0 && decide ((s.dln c).cw < dsCodewords))

/-- Payload octets of codeword `k` of a frame: 14,592 bits, and 14,400 of the last (R94). -/
abbrev dsPayloadLen (k : Nat) : Nat := if k < 359 then 1824 else 1800

/-- Octets of the framing-sublayer frame: the payload of a frame's codewords (R94). -/
abbrev fsFrame : Nat := 656616

/-- The line's octets of the next codeword are descrambled into the decoder, payload before parity (R94). -/
def Hw.codewordIn (s : Hw) (c : Nat) (line : Bytes) : Hw :=
  s.modDln c (fun d =>
    let r := descramble d.scr (line.take (dsCodewordLen d.cw))
    { d with cw := d.cw + 1, scr := r.2, word := r.1.take (dsPayloadLen d.cw), parity := r.1.drop (dsPayloadLen d.cw)
             tail := false, tailCounts := false })

/-- The decoder leaves a check failing: none can be made to hold, or more than ITER_MAX iterations would be needed
(R101). -/
def Hw.uncorrectable (s : Hw) (c : Nat) : Codeword → Bool
  | .clean => false
  | .corrected _ iters => decide (s.rd (TRK_DLN_CFG.ITER_MAX c) < iters)
  | .bad => true

/-- A codeword is descrambled and decoded (R100, R101). The counters take those of processed frames; an uncorrectable one
sets FEC_UNCORR in PRESYNC too (R96, R102). -/
def Hw.codeword (s : Hw) (c : Nat) (w : Codeword) (line : Bytes) : Hw :=
  if !s.decoding c then s
  else
    let counts := (s.dln c).inFrame || (s.dln c).tailCounts
    let bad := s.uncorrectable c w
    let s := s.codewordIn c line
    let s := if counts then
        let s := s.count64 (TRK_FEC_CW.A c)
        match w, bad with
        | _, true => s.count64 (TRK_FEC_CW_UNCORR.A c)
        | .corrected bits _, false => (s.count64 (TRK_FEC_CW_CORR.A c)).count64 (TRK_FEC_BITS_CORR.A c) bits
        | _, false => s
      else s
    s.onlyIf (bad = true) (fun s => s.trkRaise c EV_TRK.FEC_UNCORR)

/-- The parts of the FS frame in their order (R94): allocation structures while some are due, then PLOAM messages, then
GEM frames; none before a good HLend (R106). -/
def Dln.good (d : Dln) : Bool := d.inFrame && d.hl == some true
/-- Allocation structures of the frame are due (R106). -/
def Dln.inMap (d : Dln) : Bool := d.good && d.maps != 0
/-- PLOAM messages of the frame are due (R106). -/
def Dln.inPloam (d : Dln) : Bool := d.good && d.maps == 0 && d.ploams != 0
/-- The FS payload is under way (R106, R114). -/
def Dln.inPayload (d : Dln) : Bool := d.good && d.maps == 0 && d.ploams == 0 && !d.payloadOff

/-- HLend of the frame, the 4 octets its FS frame begins with: it gives the number of allocation structures of 8 octets and
of PLOAM messages of 48, as far as the FS frame holds them (R94, R110); what is left is the FS payload. When it is
uncorrectable, map, PLOAM partition and FS payload are discarded. -/
def Hw.hlend (s : Hw) (c : Nat) (hec : Hec) (maps ploams : Nat) : Hw :=
  let d := s.dln c
  if d.inFrame = false ∨ d.hl.isSome = true then s
  else if hec = .bad then
    let s := s.dlnCount c DLN_N.HLEND_UNCORR
    let s := if (s.dln c).fragDue then s.fragDiscard c else s
    s.modDln c (fun d => { d with hl := some false, payloadOff := true })
  else
    let m := min maps ((fsFrame - 4) / 8)
    let p := min ploams ((fsFrame - 4 - 8 * m) / 48)
    s.modDln c (fun d => { d with hl := some true, maps := m, ploams := p, ploamCount := p
                                  fsLeft := fsFrame - 4 - 8 * m - 48 * p })

/-- CODEWORD_DECODED (R101). -/
def execCodewordDecoded (c : Fin 4) (w : Codeword) (s : State) (line : Bytes := []) : Host.Outcome State Fault Refusal :=
  s.on (·.codeword c w line)
/-- HLEND_RX (R106). -/
def execHlendRx (c : Fin 4) (hec : Hec) (s : State) (maps ploams : Nat := 0) : Host.Outcome State Fault Refusal :=
  s.on (·.hlend c hec maps ploams)

/-! ## Grants (R107, R108, R135-R142) -/

/-- Accepted grants of a channel whose interval shares a word with [a, b). -/
def Act.overlapping (x : Act) (a b : Nat) : List Grant :=
  ((x.bursts.map (fun u => u.grants)).flatten).filter (fun g => decide (g.absStart < b ∧ a < g.absEnd))

/-- A grant that overlaps the interval [a, b) wins against a newcomer whose start (R138) is `t`: staging has begun, or it
does not start later (R108). The spec says that assembly begins at arrival (R142) and that a grant it has begun to
assemble is never dropped; the model reads this of a burst whose staging has begun, at its cutoff (log entry 23). -/
def Burst.holds (u : Burst) (a b t : Nat) : Bool :=
  u.grants.any (fun g => decide (g.absStart < b ∧ a < g.absEnd) && (u.staged || decide (g.absT ≤ t)))

/-- The grants of a burst from the first overlapped one on are dropped, with those that continue it. -/
def Burst.dropFrom (u : Burst) (a b : Nat) : Burst :=
  { u with grants := u.grants.takeWhile (fun g => !decide (g.absStart < b ∧ a < g.absEnd)) }

/-- Accepted grants that start later than the newcomer's interval and overlap it are dropped (R108). -/
def Hw.dropOverlapped (s : Hw) (c a b : Nat) : Hw :=
  let before := sumBy (fun (u : Burst) => u.grants.length) (s.act c).bursts
  let s := s.modAct c (fun x => { x with
    bursts := (x.bursts.map (fun u => if u.staged then u else u.dropFrom a b)).filter
      (fun u => u.staged || !u.grants.isEmpty) })
  let after := sumBy (fun (u : Burst) => u.grants.length) (s.act c).bursts
  s.dlnCount c DLN_N.GRANT_OVERLAP (before - after)

/-- At the first grant of a frame at or after SWITCH_SFC the armed key switch applies; one armed late, at the first
grant of a frame after the one it was armed in (R151, R152). -/
def Hw.keySwitch (s : Hw) (c : Nat) : Hw :=
  if s.rd (TRK_KEY_SWITCH.ARM c) = 1 ∧ (s.act c).keyLate = false ∧ ((s.act c).keyNow = true
      ∨ (s.sfc c + 2 ^ 51 - s.val64 (TRK_KEY_SWITCH_SFC.A c) % 2 ^ 51) % 2 ^ 51 < 2 ^ 50) then
    let s := s.modAct c (fun a => { a with keyNow := false })
    ((s.wr (TRK_KEY_SWITCH.CUR_IDX c) (s.rd (TRK_KEY_SWITCH.TARGET_IDX c))).wr (TRK_KEY_SWITCH.ARM c) 0).trkRaise c
      EV_TRK.KEY_SWITCHED
  else s

/-- A burst joins the channel's bursts in the order of its first bit. -/
def insertBurst (u : Burst) : List Burst → List Burst
  | [] => [u]
  | h :: t => if u.absFirst < h.absFirst then u :: h :: t else h :: insertBurst u t

def Hw.addBurst (s : Hw) (c : Nat) (u : Burst) : Hw := s.modAct c (fun x => { x with bursts := insertBurst u x.bursts })

/-- The grant of a structure after its checks: where its burst is, and what counts it when activation or assembly
discards it. -/
structure GrantIn where
  alloc : Nat
  start : Nat
  size : Nat
  profile : Nat
  opens : Bool
  ploamu : Bool
  dbru : Bool
  late : Bool
  absStart : Nat
  absT : Nat
  absEnd : Nat

/-- A grant passed on is discarded and counted in activation counter `n`, with those that continue it (R108). -/
def Hw.grantDiscard (s : Hw) (c n : Nat) : Hw := (s.actCount c n).modDln c (fun d => { d with prevFate := n + 1 })

/-- The grant as it is held: its position, the delay, count and key index in force for it. -/
def Hw.newGrant (s : Hw) (c : Nat) (g : GrantIn) : Grant :=
  { allocIdx := g.alloc, start := g.start, size := g.size, absStart := g.absStart, absT := g.absT, absEnd := g.absEnd
    eqd := s.rd (TRK_EQD_ACTIVE.EQD c), sfc := s.sfc c, keyIdx := s.rd (TRK_KEY_SWITCH.CUR_IDX c) }

/-- The burst that a continuing grant of the present frame joins. -/
def Hw.joins (s : Hw) (c : Nat) (g : GrantIn) (u : Burst) : Bool :=
  u.kind == .data && (match u.grants.getLast? with
    | some l => l.sfc == s.sfc c && l.start + l.size == g.start
    | none => false)

/-- Burst assembly begins for a grant (R142, R144). One that continues a burst already staged is closed at once, and the
space of the whole burst is taken anew: the trailer moves to it and codewords run on (R141, R144). -/
def Hw.assemble (s : Hw) (c : Nat) (g : GrantIn) : Hw :=
  let node := s.t (ALLOC_OWN.NODE c g.alloc)
  let limit := s.bytesOf (s.allocQueues node false) ++ (if g.late then s.bytesOf (s.allocQueues node true) else [])
  let x : Grant := { s.newGrant c g with node := node, ploamu := g.ploamu, dbru := g.dbru, limit := limit, late := g.late }
  let s := s.onlyIf g.late (fun s => s.actCount c ACT_N.LATE_GRANT)
  if g.opens then s.addBurst c { profile := g.profile, absFirst := g.absStart, grants := [x] }
  else match (s.act c).bursts.find? (s.joins c g) with
    | none => s
    | some u =>
      if u.staged then
        let gs := s.respace c u (u.grants ++ [x])
        let r := s.closeGrant c (gs.getLastD x)
        r.1.modAct c (fun a => { a with bursts := replaceFirst (s.joins c g) (fun u => { u with grants := gs.dropLast ++ [r.2] }) a.bursts })
      else s.modAct c (fun a => { a with bursts := replaceFirst (s.joins c g) (fun u => { u with grants := u.grants ++ [x] }) a.bursts })

/-- The Serial_Number_ONU response of O2-3 with its random delay (R135). -/
def Hw.serialResponse (s : Hw) (c : Nat) (g : GrantIn) : Hw :=
  let words := respWords (s.t (BURST_PROFILE.FEC_EN c g.profile) == 1)
  let limit := min (s.rd (TRK_ACT_CTRL.RAND_DELAY c) * s.usWords c / 125) (s.usWords c - (g.start + words))
  if s.usWords c < g.start + words then s.grantDiscard c ACT_N.STATE_DISCARD
  else
    let delay := s.draw 2 % (limit + 1) * s.usWordBits c
    let x := { s.newGrant c g with size := words, absStart := g.absStart + delay, absT := g.absT + delay
                                   absEnd := g.absT + words * s.usWordBits c + delay }
    s.drawn.addBurst c { kind := .serial, profile := g.profile, absFirst := x.absStart, grants := [x] }

/-- The ranging response of O4 (R136): the content of R135, whatever the grant's size. -/
def Hw.rangingResponse (s : Hw) (c : Nat) (g : GrantIn) : Hw :=
  let words := respWords (s.t (BURST_PROFILE.FEC_EN c g.profile) == 1)
  let x := { s.newGrant c g with size := words, absEnd := g.absT + words * s.usWordBits c }
  s.addBurst c { kind := .ranging, profile := g.profile, absFirst := g.absStart, grants := [x] }

/-- A grant that passed every check goes to activation or to burst assembly (R107, R125, R129, R140). -/
def Hw.grantPassed (s : Hw) (c : Nat) (g : GrantIn) : Hw :=
  let s := s.keySwitch c
  let fate := (s.dln c).prevFate
  if !g.opens && fate != 0 then s.grantDiscard c (fate - 1)
  else
    let s := s.modDln c (fun d => { d with prevFate := 0 })
    let a := s.rd (TRK_ACT_STATUS.ACT_STATE c)
    let activation := s.t (ALLOC_OWN.ACTIVATION c g.alloc) == 1
    if s.rd (TRK_ACT_STATUS.PM_STATE c) = 3 then s.grantDiscard c ACT_N.STATE_DISCARD
    else if a = 5 ∨ (activation = true ∧ (a = 3 ∨ a = 4)) then
      if g.opens && !s.profileValid c g.profile then s.grantDiscard c ACT_N.PROFILE_INVALID
      else if a = 5 then s.assemble c g
      else if a = 3 then s.serialResponse c g
      else s.rangingResponse c g
    else s.grantDiscard c ACT_N.STATE_DISCARD

/-- An allocation structure that is not accepted: a structure that continues it has no known start. -/
def Hw.structureLost (s : Hw) (c n : Nat) : Hw :=
  (s.dlnCount c n).modDln c (fun d => { d with prevEnd := none, prevFate := 0 })

/-- An allocation structure (R107): its checks in order. `start` none stands for the contiguous StartTime value. A grant
dropped for a clash of equalisation delays (R139) is judged before check 5, and a structure that continues it has no known
start: it counts in GRANT_RANGE. R107 and R108 can be read otherwise, and it is the model's choice (log entry 193). -/
def Hw.allocation (s : Hw) (c : Nat) (hec : Hec) (id : Nat) (start : Option Nat) (size profile : Nat)
    (ploamu dbru wake late : Bool) : Hw :=
  let d := s.dln c
  if d.inMap = false then s
  else
    let s := s.modDln c (fun d => { d with maps := d.maps - 1 })
    if hec = .bad then s.structureLost c DLN_N.BWMAP_HEC_UNCORR
    else
    let s := s.onlyIf (hec = .corrected) (fun s => s.dlnCount c DLN_N.BWMAP_HEC_CORR)
    match s.allocOwn c id with
    | none => s.structureLost c DLN_N.GRANT_FOREIGN
    | some x =>
      let s' := if wake && s.rd (TRK_ACT_STATUS.PM_STATE c) == 3 then s.heWake c else s
      match (match start with
        | some n => some n
        | none => d.prevEnd) with
      | none => s'.structureLost c DLN_N.GRANT_RANGE
      | some st =>
        if s.usWords c < st + size ∨ s.usWords c ≤ st then s'.structureLost c DLN_N.GRANT_RANGE
        else if 256 ≤ d.accepted then s'.structureLost c DLN_N.GRANT_EXCESS
        else
          let opens := start.isSome
          let eqd := s.rd (TRK_EQD_ACTIVE.EQD c)
          let t := s.toUi c (d.frameAt + respTime + eqd) + st * s.usWordBits c
          let ovh := if opens then s.profileOvh c profile else 0
          let a := t - ovh * s.usWordBits c
          let b := t + size * s.usWordBits c
          let clash := (s.act c).overlapping a b
          if clash.any (fun g => g.eqd != eqd) then
            (s'.actCount c ACT_N.EQD_OVERLAP_DROP).modDln c (fun d => { d with prevEnd := none, prevFate := 0 })
          else if (s.act c).bursts.any (fun u => u.holds a b t) then s'.structureLost c DLN_N.GRANT_OVERLAP
          else
            -- R129: a grant that arrives in WATCH is judged before the wake it may carry
            let s := if wake && s.rd (TRK_ACT_STATUS.PM_STATE c) == 3 then
                (((s.dropOverlapped c a b).keySwitch c).grantDiscard c ACT_N.STATE_DISCARD).heWake c
              else (s.dropOverlapped c a b).grantPassed c
                { alloc := x, start := st, size := size, profile := profile, opens := opens, ploamu := ploamu, dbru := dbru
                  late := late, absStart := a, absT := t, absEnd := b }
            s.modDln c (fun d => { d with prevEnd := some (st + size), accepted := d.accepted + 1 })

/-! ## PLOAM (R111, R112, R133) -/

/-- A message copied into PLOAM_RXQ entry `i`, first octet in DATA0 [7:0] (log entry 25). -/
def Hw.putPloam (s : Hw) (c i : Nat) (msg : Bytes) : Hw := s.ts (PLOAM_RXQ.MSG c i) (leNat (msg.take 48))

/-- A downstream PLOAM message (R102, R111, R112). One for this ONU-ID also wakes a sleeping channel (R153). -/
def Hw.ploamRx (s : Hw) (c onu : Nat) (msg : Bytes) (errored : Bool) : Hw :=
  if (s.dln c).inPloam = false then s
  else
    let s := s.modDln c (fun d => { d with ploams := d.ploams - 1 })
    if errored then (s.dlnCount c DLN_N.PLOAM_DROP).trkRaise c EV_TRK.PLOAM_DROP
    else
    let mine := s.rd (TRK_ONU_ID.ONU_ID_VALID c) == 1 && s.rd (TRK_ONU_ID.ONU_ID c) == onu
    if mine = false ∧ onu ≠ 0x3FF then s
    else
      let n := s.rd (TRK_PLOAM_RX.LEVEL c)
      let s := if n < 32 then ((s.putPloam c n msg).wr (TRK_PLOAM_RX.LEVEL c) (n + 1)).trkRaise c EV_TRK.PLOAM_RX
        else (s.dlnCount c DLN_N.PLOAM_DROP).trkRaise c EV_TRK.PLOAM_DROP
      if mine && s.rd (TRK_ACT_STATUS.PM_STATE c) == 3 then s.heWake c else s

/-- The oldest message is removed; PLOAM_RX is set again while messages remain. The entry that falls free then reads 0: the
spec says nothing of entries at or above LEVEL, and it is the model's choice (log entry 194). -/
def Hw.ploamPop (s : Hw) (c : Nat) (v : Word) : Hw :=
  let s := s.plainWrite (TRK_PLOAM_RX.A c) v
  let n := s.rd (TRK_PLOAM_RX.LEVEL c)
  if getField v 8 1 = 0 ∨ n = 0 then s
  else
    let s := (List.range (n - 1)).foldl (fun s i => s.ts (PLOAM_RXQ.MSG c i) (s.t (PLOAM_RXQ.MSG c (i + 1)))) s
    let s := (s.ts (PLOAM_RXQ.MSG c (n - 1)) 0).wr (TRK_PLOAM_RX.LEVEL c) (n - 1)
    s.onlyIf (1 < n) (fun s => s.trkRaise c EV_TRK.PLOAM_RX)

/-- A Disable_Serial_Number message of the frame's PLOAM partition acts on HE_DISABLE in its frame: for the serial number
it carries, or for all. Its copy for the queue is a PLOAM_MESSAGE_RX (R113). -/
def Hw.heMessage (s : Hw) (c : Nat) (serial : Option Nat) (disable : Bool) : Hw :=
  let d := s.dln c
  let own := s.rd (TRK_SERIAL_HI.SERIAL_HI c) * 2 ^ 32 + s.rd (TRK_SERIAL.SERIAL_LO c)
  if d.good = false ∨ d.maps ≠ 0 ∨ d.ploamCount = 0 then s
  else match serial with
    | none => s.setHeDisable c disable
    | some n => if n = own then s.setHeDisable c disable else s

/-- ALLOCATION_STRUCTURE (R107). -/
def execAllocationStructure (c : Fin 4) (hec : Hec) (id : Nat) (start : Option Nat) (size : Nat) (profile : Fin 4)
    (ploamu dbru wake late : Bool) (s : State) : Host.Outcome State Fault Refusal :=
  s.on (·.allocation c hec id start size profile ploamu dbru wake late)
/-- PLOAM_MESSAGE_RX (R111). -/
def execPloamMessageRx (c : Fin 4) (onu : Nat) (msg : Bytes) (errored : Bool) (s : State) : Host.Outcome State Fault Refusal :=
  s.on (·.ploamRx c onu msg errored)
/-- PLOAM_POP (R112). -/
def execPloamPop (m : Master) (c : Fin 4) (v : Word) (s : State) : Host.Outcome State Fault Refusal :=
  s.on (fun s => s.onAccess m (TRK_PLOAM_RX.A c) true (fun s => s.ploamPop c v))
/-- HE_DISABLE_ONU (R133). -/
def execHeDisableOnu (c : Fin 4) (serial : Nat) (s : State) : Host.Outcome State Fault Refusal :=
  s.on (·.heMessage c (some serial) true)
/-- HE_ENABLE_ONU (R133). -/
def execHeEnableOnu (c : Fin 4) (serial : Nat) (s : State) : Host.Outcome State Fault Refusal :=
  s.on (·.heMessage c (some serial) false)
/-- HE_DISABLE_ALL (R133). -/
def execHeDisableAll (c : Fin 4) (s : State) : Host.Outcome State Fault Refusal := s.on (·.heMessage c none true)
/-- HE_ENABLE_ALL (R133). -/
def execHeEnableAll (c : Fin 4) (s : State) : Host.Outcome State Fault Refusal := s.on (·.heMessage c none false)

/-! ## GEM frames (R114-R120, R426) -/

/-- The lowest valid GEM_PORT entry of a port ID (R116). -/
def Hw.gemPort (s : Hw) (c port : Nat) : Option Nat :=
  (s.listed c 2).find? (fun x => s.t (GEM_PORT.VALID c x) == 1 && s.t (GEM_PORT.PORT_ID c x) == port)

/-- Line decryption of a GEM payload (R119, R120): none when the frame is discarded. -/
def Hw.lineDecrypt (s : Hw) (c x idx pos : Nat) (bs : Bytes) : Hw × Option Bytes :=
  if idx = 0 then
    if s.t (GEM_PORT.ENC_REQ c x) = 1 then (s.dlnCount c DLN_N.ENC_MISMATCH, none) else (s, some bs)
  else if idx = 3 then (s.dlnCount c DLN_N.KEY_IDX_RSV, none)
  else
    let k := lineSlot c (s.t (GEM_PORT.MCAST c x)) idx
    if s.t (LINE_KEY.VALID k) = 0 then (s.dlnCount c DLN_N.KEY_INVALID, none)
    else
      let r := s.lineKeyUse c k bs.length
      if r.2 then (r.1, some (lineCipher (s.t (LINE_KEY.KEY k)) (s.sfc c) pos bs))
      else (r.1.dlnCount c DLN_N.KEY_HARD_DISCARD, none)

/-- A whole frame goes where its GEM_PORT entry sends it (R118): to Sheaf or pipeline A, to the OMCI ring, or to the
slot service. -/
def Hw.gemDeliver (s : Hw) (c : Nat) (f : Frag) : Hw :=
  if 12288 < f.bytes.length then s.dlnCount c DLN_N.OVERSIZE
  else match f.dest with
    | 1 => s.ringDeliver (s.rd (CTL_OMCI_RING.RING c)) { bytes := f.bytes, source := 520 + c }
    | 2 => { s with slt := { s.slt with inbox := s.slt.inbox.set [] c (s.slt.inbox.get [] c ++ [f.bytes]) } }
    | _ =>
      if f.bonded then
        { s with shf := { s.shf with inbox := s.shf.inbox.set [] c (s.shf.inbox.get [] c ++ [{ group := f.group, bytes := f.bytes }]) } }
      else (s.fifoPush pipeA { bytes := f.bytes, source := 520 + c }).1

/-- A GEM frame that continues the open fragment, or begins a frame of its own (R117). -/
def Hw.gemAccept (s : Hw) (c x port : Nat) (lf first : Bool) (bs : Bytes) : Hw :=
  let d := s.dln c
  let cont := match d.frag with
    | some f => if first && d.fragDue && f.port == port then some f else none
    | none => none
  let s := if cont.isNone && first && d.fragDue then s.fragDiscard c else s
  let f : Frag := match cont with
    | some f => { f with bytes := f.bytes ++ bs }
    | none => { port := port, bytes := bs, bonded := s.t (GEM_PORT.BONDED c x) == 1, group := s.t (GEM_PORT.GROUP c x)
                dest := s.t (GEM_PORT.DEST c x) }
  if lf then
    let s := if cont.isSome then s.modDln c (fun d => { d with frag := none, fragDue := false }) else s
    s.gemDeliver c f
  else
    let s := if cont.isNone then s.fragDiscard c else s
    s.modDln c (fun d => { d with frag := some f, fragDue := false })

/-- A GEM frame is delineated, while the FS payload holds a header. `remaining` is what the payload holds after the header,
never more than the FS frame leaves (R94); `errored` marks a byte in an uncorrectable codeword; `pos` is the word position
for the cipher. A header whose PLI contradicts the payload is handled as an uncorrectable one, so a correction of it is not
counted in GEM_HEC_CORR: the spec does not say, and it is the model's choice (log entry 195). An idle frame is consumed
before the discards are judged; of several discards that apply the first here counts alone, FEC before port before key, and
a frame lost to FEC adds no key usage: the spec orders them nowhere (log entry 168). -/
def Hw.gemRx (s : Hw) (c : Nat) (hec : Hec) (pli idx port : Nat) (lf idle errored : Bool) (remaining pos : Nat)
    (payload : Bytes) : Hw :=
  let d := s.dln c
  if d.inPayload = false ∨ d.fsLeft < 8 then s
  else
    let remaining := min remaining (d.fsLeft - 8)
    let first := d.firstGem
    let s := s.modDln c (fun d => { d with firstGem := false, fsLeft := d.fsLeft - 8 - pli })
    let due := first && d.fragDue
    let lose := fun (s : Hw) => if due then s.fragDiscard c else s
    if hec = .bad ∨ remaining < pli then
      let s := (s.dlnCount c DLN_N.GEM_LOST_BYTES (8 + remaining)).dlnCount c DLN_N.GEM_HEC_UNCORR
      (lose s).modDln c (fun d => { d with payloadOff := true })
    else
      let s := s.onlyIf (hec = .corrected) (fun s => s.dlnCount c DLN_N.GEM_HEC_CORR)
      if idle then lose s
      else if errored then lose (s.dlnCount c DLN_N.GEM_FEC_DISCARD)
      else match s.gemPort c port with
        | none => lose (s.dlnCount c DLN_N.GEM_NO_PORT)
        | some x =>
          let bs := payload.take pli
          let r := ((s.note c 8 bs.length).note c 40).lineDecrypt c x idx pos bs
          match r.2 with
          | none => lose r.1
          | some bs => r.1.gemAccept c x port lf first bs

/-- GEM_FRAME_RX (R116). -/
def execGemFrameRx (c : Fin 4) (hec : Hec) (pli : Nat) (idx : Fin 4) (port : Nat) (lf idle errored : Bool)
    (remaining pos : Nat) (payload : Bytes) (s : State) : Host.Outcome State Fault Refusal :=
  s.on (·.gemRx c hec pli idx port lf idle errored remaining pos payload)

end Sys2Proof.Machine
end

