-- ==== Sys2Proof/Machine/Optics.lean ====
section
/-!
DEFINITION. Trunk optics (spec/03): clock recovery, adaptation, loss of signal, the module and its two-wire bus, bursts
at the pins, the rogue-transmit guard, test patterns. The equaliser and pattern checker of a subscriber lane follow the
same rules (R291, R310).
-/
namespace Sys2Proof.Machine

/-! ## Clock recovery (R70) -/

/-- The CDR runs: from the channel's entry to ON until its entry to OFF. -/
def Hw.cdrRuns (s : Hw) (c : Nat) : Bool := decide (2 ≤ s.rd (TRK_PMA_STATUS.STATE c))

/-- The CDR locks while it runs: LOS is clear, the receiver is on. ADAPT_DONE counts convergence since lock. -/
def Hw.cdrLock (s : Hw) (c : Nat) : Hw :=
  if s.cdrRuns c = true ∧ s.rd (TRK_PMA_STATUS.LOS c) = 0 ∧ s.rd (TRK_PMA_STATUS.CDR_LOCK c) = 0 ∧ (s.act c).rxOn = true then
    ((s.wr (TRK_PMA_STATUS.CDR_LOCK c) 1).wr (TRK_RX_EQ_STATUS.ADAPT_DONE c) 0).huntResume c
  else s

/-- The CDR loses lock. -/
def Hw.cdrUnlock (s : Hw) (c : Nat) : Hw :=
  if s.rd (TRK_PMA_STATUS.CDR_LOCK c) = 1 then (s.wr (TRK_PMA_STATUS.CDR_LOCK c) 0).trkRaise c EV_TRK.CDR_UNLOCK else s

/-- CDR_LOCK_ACQUIRED (R70). -/
def execCdrLockAcquired (c : Fin 4) (s : State) : Host.Outcome State Fault Refusal := s.on (·.cdrLock c)
/-- CDR_UNLOCK (R70). -/
def execCdrUnlock (c : Fin 4) (s : State) : Host.Outcome State Fault Refusal := s.on (·.cdrUnlock c)

/-! ## Adaptation (R71, R72, R291, R482) -/

/-- A number held between two bounds. -/
def clampInt (lo hi x : Int) : Int := min hi (max lo x)

/-- A code outside its bounds moves to the nearest and counts one clamp (R72, R482; log entry 20). -/
def Hw.moveInto (s : Hw) (x : FRef) (lo hi : Nat) (clamps : FRef) : Hw :=
  let v := s.rd x
  let n := min hi (max lo v)
  if n = v then s else (s.wr x n).count clamps

/-- The same for the signed threshold offset. -/
def Hw.moveThr (s : Hw) (c : Nat) : Hw :=
  let v := s.rdS (TRK_RX_EQ_STATUS.THR c)
  let n := clampInt (s.rdS (TRK_RX_BOUNDS.THR_MIN c)) (s.rdS (TRK_RX_BOUNDS.THR_MAX c)) v
  if n = v then s
  else (s.wr (TRK_RX_EQ_STATUS.THR c) (unsigned 6 n)).count (TRK_RX_CLAMP_COUNT.POLICY_CLAMP_COUNT c)

/-- The codes of a lane's loop that its bounds exclude move into them. -/
def Hw.moveCodes (s : Hw) : RxLane → Hw
  | .trunk c => (s.moveInto (TRK_RX_EQ_STATUS.CTLE c) (s.rd (TRK_RX_BOUNDS.CTLE_MIN c)) (s.rd (TRK_RX_BOUNDS.CTLE_MAX c))
      (TRK_RX_CLAMP_COUNT.POLICY_CLAMP_COUNT c)).moveThr c
  | .sub l => s.moveInto (SRD_LANE_EQ.CTLE l) (s.rd (SRD_LANE_EQ.CTLE_MIN l)) (s.rd (SRD_LANE_EQ.CTLE_MAX l))
      (SRD_LANE_CLAMP_COUNT.POLICY_CLAMP_COUNT l)

/-- A lane's loop runs; otherwise it is frozen at its values (R71, R291). -/
def Hw.adapts (s : Hw) : RxLane → Bool
  | .trunk c => s.capRd (TRK_RX_BOUNDS.ADAPT_EN c) == 1 && s.rd (TRK_PMA_STATUS.CDR_LOCK c) == 1
      && s.rd (TRK_PMA_STATUS.LOS c) == 0
  | .sub l => s.capRd (SRD_LANE_EQ.ADAPT_EN l) == 1 && s.laneLock l

/-- One step of a trunk channel's adaptation toward the codes the loop wants; a value that bounds written while the loop
was frozen exclude moves first. -/
def Hw.adaptTrunk (s : Hw) (c : Fin 4) (ctle : Nat) (thr : Int) (dfe1 : Int) (dfe : List Int) (converged : Bool) : Hw :=
  if s.adapts (.trunk c) then
    let s := s.moveCodes (.trunk c)
    let k := min (s.rd (TRK_RX_BOUNDS.CTLE_MAX c)) (max (s.rd (TRK_RX_BOUNDS.CTLE_MIN c)) ctle)
    let t := clampInt (s.rdS (TRK_RX_BOUNDS.THR_MIN c)) (s.rdS (TRK_RX_BOUNDS.THR_MAX c)) thr
    let s := (s.wr (TRK_RX_EQ_STATUS.CTLE c) k).wr (TRK_RX_EQ_STATUS.THR c) (unsigned 6 t)
    let s := (s.wr (TRK_RX_EQ_STATUS.DFE1 c) (unsigned 8 dfe1)).modOpt c (fun o => { o with dfe := dfe })
    let s := s.onlyIf (k ≠ ctle ∨ t ≠ thr) (fun s => s.count (TRK_RX_CLAMP_COUNT.POLICY_CLAMP_COUNT c))
    s.onlyIf converged (fun s => s.wr (TRK_RX_EQ_STATUS.ADAPT_DONE c) 1)
  else s

/-- One step of the equaliser of a subscriber or twin lane. -/
def Hw.adaptLane (s : Hw) (l : Fin 72) (ctle : Nat) (dfe : List Int) : Hw :=
  if s.adapts (.sub l) then
    let s := s.moveCodes (.sub l)
    let k := min (s.rd (SRD_LANE_EQ.CTLE_MAX l)) (max (s.rd (SRD_LANE_EQ.CTLE_MIN l)) ctle)
    let s := (s.wr (SRD_LANE_EQ.CTLE l) k).modLane l (fun x => { x with dfe := dfe })
    s.onlyIf (k ≠ ctle) (fun s => s.count (SRD_LANE_CLAMP_COUNT.POLICY_CLAMP_COUNT l))
  else s

/-- ADAPT_STEP (R71). -/
def execAdaptStep (lane : RxLane) (ctle : Nat) (thr dfe1 : Int) (dfe : List Int) (converged : Bool) (s : State) :
    Host.Outcome State Fault Refusal :=
  s.on (fun s => match lane with
    | .trunk c => s.adaptTrunk c ctle thr dfe1 dfe converged
    | .sub l => s.adaptLane l ctle dfe)

/-- Address of the bounds register of a lane. -/
def RxLane.boundsAddr : RxLane → Nat
  | .trunk c => TRK_RX_BOUNDS.A c.val
  | .sub l => SRD_LANE_EQ.A l.val

/-- A write of bounds: a running loop moves an excluded value at once. The spec does not say what a frozen one does (R71
freezes it, R72 gives it 10 µs, R482 its next step): the model leaves the value until the loop's next step (log
entry 20). -/
def Hw.rxBounds (s : Hw) (lane : RxLane) (v : Word) : Hw :=
  let s := s.fullWrite lane.boundsAddr v
  if s.adapts lane then s.moveCodes lane else s

/-- RX_BOUNDS_WRITE (R72). -/
def execRxBoundsWrite (m : Master) (lane : RxLane) (v : Word) (s : State) : Host.Outcome State Fault Refusal :=
  s.on (fun s => s.onAccess m lane.boundsAddr true (fun s => s.rxBounds lane v))

/-! ## Loss of signal (R73) -/

/-- An enabled source of LOS is asserted. -/
def Hw.losAsserted (s : Hw) (c : Nat) : Bool :=
  let o := s.opt c
  (s.rd (TRK_LOS_CFG.USE_PIN c) == 1 && o.losPin)
    || (s.rd (TRK_LOS_CFG.USE_SD c) == 1 && decide (o.ampMv < 4 * s.rd (TRK_LOS_CFG.SD_THRESH c)))

/-- The LOS_ASSERT or LOS_CLEAR count runs while its condition holds. -/
def Hw.losCount (s : Hw) (c : Nat) : Hw :=
  let runs := (s.rd (TRK_PMA_STATUS.LOS c) == 0) == s.losAsserted c
  let now := s.clk
  s.modOpt c (fun o => { o with losCnt := if runs then some (o.losCnt.getD now) else none })

/-- What the pins carry changes; the judgement runs while domain TRK c does. -/
def Hw.losSource (s : Hw) (c : Nat) (pin : Bool) (ampMv : Nat) : Hw :=
  let s := s.modOpt c (fun o => { o with losPin := pin, ampMv := ampMv })
  if s.domRuns (15 + c) then s.losCount c else s

/-- LOS is declared; the CDR loses lock with it, and the alignment machine goes to HUNT (R70, R73, R95). -/
def Hw.losDeclare (s : Hw) (c : Nat) : Hw :=
  if s.domRuns (15 + c) = false ∨ s.rd (TRK_PMA_STATUS.LOS c) = 1 ∨ s.losAsserted c = false then s
  else
    let s := (s.wr (TRK_PMA_STATUS.LOS c) 1).trkRaise c EV_TRK.LOS_CHANGE
    let s := s.modOpt c (fun o => { o with losCnt := none })
    ((s.cdrUnlock c).hunt c).defects c

/-- LOS clears. -/
def Hw.losClear (s : Hw) (c : Nat) : Hw :=
  if s.domRuns (15 + c) = false ∨ s.rd (TRK_PMA_STATUS.LOS c) = 0 ∨ s.losAsserted c = true then s
  else
    let s := (s.wr (TRK_PMA_STATUS.LOS c) 0).trkRaise c EV_TRK.LOS_CHANGE
    (s.modOpt c (fun o => { o with losCnt := none })).defects c

/-- LOS_CFG_WRITE (R73). -/
def execLosCfgWrite (m : Master) (c : Fin 4) (v : Word) (s : State) : Host.Outcome State Fault Refusal :=
  s.on (fun s => s.onAccess m (TRK_LOS_CFG.A c) true (fun s => (s.fullWrite (TRK_LOS_CFG.A c) v).losCount c))
/-- LOS_SOURCE_CHANGE (R73). -/
def execLosSourceChange (c : Fin 4) (pin : Bool) (ampMv : Nat) (s : State) : Host.Outcome State Fault Refusal :=
  s.on (·.losSource c pin ampMv)
/-- LOS_DECLARE (R73). -/
def execLosDeclare (c : Fin 4) (s : State) : Host.Outcome State Fault Refusal := s.on (·.losDeclare c)
/-- LOS_CLEAR (R73). -/
def execLosClear (c : Fin 4) (s : State) : Host.Outcome State Fault Refusal := s.on (·.losClear c)

/-! ## Two-wire bus (R87-R89) -/

/-- Octets 0 to n-1 held in consecutive data registers from address `a`, byte 4n + i in bits [8i + 7:8i]. -/
def Hw.dataBytes (s : Hw) (a n : Nat) : Bytes :=
  (List.range n).map (fun i => BitVec.ofNat 8 ((s.word (a + i / 4 * 4)).toNat / 2 ^ (8 * (i % 4))))

/-- Octets stored into consecutive data registers from address `a`. -/
def Hw.putBytes (s : Hw) (a : Nat) (bs : Bytes) : Hw :=
  (List.range bs.length).foldl (fun s i =>
    s.setWord (a + i / 4 * 4) (setField (s.word (a + i / 4 * 4)) (8 * (i % 4)) 8 (byteAt bs i))) s

/-- A software command takes the bus (R87). -/
def Hw.twiStart (s : Hw) (c : Nat) : Hw :=
  let rd := s.rd (TRK_TWI_CMD.READ c) == 1
  let n := s.rd (TRK_TWI_CMD.LEN c) + 1
  let s := s.modOpt c (fun o => { o with twiCmd := true, cmdWaits := false })
  s.emit (.twi c rd (s.rd (TRK_TWI_CMD.DEV_ADDR c)) (s.rd (TRK_TWI_CMD.OFFSET c)) n
    (if rd then [] else s.dataBytes (TRK_TWI_DATA.A c 0) n))

/-- A monitor poll takes the bus (R89). -/
def Hw.twiPollStart (s : Hw) (c : Nat) : Hw :=
  let s := s.modOpt c (fun o => { o with polling := true, pollDue := false })
  s.emit (.twi c true (s.rd (TRK_TWI_MON_CFG.MON_DEV_ADDR c)) (s.rd (TRK_TWI_MON_CFG.MON_OFFSET c))
    (s.rd (TRK_TWI_MON_CFG.MON_LEN c) + 1) [])

/-- The bus is free: a recovery that ended up due runs, then a command that waits, then a poll that fell due. -/
def Hw.twiFree (s : Hw) (c : Nat) (stuck : Bool) : Hw :=
  let s := s.onlyIf (stuck = true ∨ (s.opt c).twiRec = true) (fun s => s.emit (.twiRecovery c))
  let s := s.modOpt c (fun o => { o with twiRec := false })
  if (s.opt c).cmdWaits then s.twiStart c else if (s.opt c).pollDue then s.twiPollStart c else s

/-- The software command is over with a code (R88). -/
def Hw.twiResult (s : Hw) (c err : Nat) : Hw :=
  let s := ((s.wr (TRK_TWI_CMD.BUSY c) 0).wr (TRK_TWI_CMD.ERR c) err).trkRaise c EV_TRK.TWI_DONE
  let s := s.onlyIf (err ≠ 0) (fun s => s.trkRaise c EV_TRK.TWI_ERR)
  s.modOpt c (fun o => { o with twiCmd := false, cmdWaits := false })

/-- The software command on the bus ends with a code and the octets it read. -/
def Hw.twiEnd (s : Hw) (c err : Nat) (data : Bytes) : Hw :=
  if (s.opt c).twiCmd then
    let s := s.onlyIf (err = 0 ∧ s.rd (TRK_TWI_CMD.READ c) = 1)
      (fun s => s.putBytes (TRK_TWI_DATA.A c 0) (data.take (s.rd (TRK_TWI_CMD.LEN c) + 1)))
    (s.twiResult c err).twiFree c (err == 3)
  else s

/-- A monitor poll on the bus ends (R89): its octets are kept on ERR 0 only. -/
def Hw.twiPollEnd (s : Hw) (c err : Nat) (data : Bytes) : Hw :=
  if (s.opt c).polling then
    let s := s.onlyIf (err = 0)
      (fun s => s.putBytes (TRK_TWI_MON.A c 0) (data.take (s.rd (TRK_TWI_MON_CFG.MON_LEN c) + 1)))
    (s.modOpt c (fun o => { o with polling := false })).twiFree c (err == 3)
  else s

/-- GO starts a command, which waits for a poll to end; BUSY reads 1 meanwhile (R89). GO while BUSY = 1 is ignored, and
DEV_ADDR, READ, OFFSET and LEN written during a transaction are what its end uses: the spec is silent on both (log
entry 170). -/
def Hw.twiCommand (s : Hw) (c : Nat) (v : Word) : Hw :=
  let s := s.plainWrite (TRK_TWI_CMD.A c) v
  if getField v 24 1 = 0 ∨ s.rd (TRK_TWI_CMD.BUSY c) = 1 then s
  else
    let s := s.wr (TRK_TWI_CMD.BUSY c) 1
    if (s.opt c).polling then s.modOpt c (fun o => { o with cmdWaits := true }) else s.twiStart c

/-- RECOVER runs the recovery, once the bus is free: the spec does not say what it does while a command or a poll is on the
bus, and the delay is the model's choice (log entry 198). -/
def Hw.twiRecover (s : Hw) (c : Nat) (v : Word) : Hw :=
  let s := s.plainWrite (TRK_TWI_CFG.A c) v
  if getField v 16 1 = 0 then s
  else if (s.opt c).twiCmd || (s.opt c).polling then s.modOpt c (fun o => { o with twiRec := true })
  else s.emit (.twiRecovery c)

/-- A poll falls due (`err` is none), waits while a command runs, at most one deep; or it ends with its ERR and the bytes
read (R88, R89). A module that is absent ends it with ERR 4 before anything is read. -/
def Hw.twiMonitor (s : Hw) (c : Nat) (err : Option (Fin 5)) (data : Bytes) : Hw :=
  match err with
  | none =>
    if s.rd (TRK_TWI_MON_CFG.PERIOD c) = 0 ∨ s.rd (TRK_PMA_STATUS.MOD_ABS c) = 1 ∨ (s.opt c).polling = true then s
    else if (s.opt c).twiCmd then s.modOpt c (fun o => { o with pollDue := true })
    else s.twiPollStart c
  | some e => s.twiPollEnd c e data

/-- The module goes: what is on the bus ends with ERR 4, and so does what waits for it. -/
def Hw.twiAbort (s : Hw) (c : Nat) : Hw :=
  let busy := (s.opt c).twiCmd || (s.opt c).cmdWaits
  let rec' := (s.opt c).twiRec
  let s := s.onlyIf (busy = true) (fun s => s.twiResult c 4)
  let s := s.modOpt c (fun o => { o with polling := false, pollDue := false, twiRec := false })
  s.onlyIf (rec' = true) (fun s => s.emit (.twiRecovery c))

/-- TWI_COMMAND (R87). -/
def execTwiCommand (m : Master) (c : Fin 4) (v : Word) (s : State) : Host.Outcome State Fault Refusal :=
  s.on (fun s => s.onAccess m (TRK_TWI_CMD.A c) true (fun s => s.twiCommand c v))
/-- TWI_DONE (R88). -/
def execTwiDone (c : Fin 4) (err : Fin 5) (data : Bytes) (s : State) : Host.Outcome State Fault Refusal :=
  s.on (fun s => s.twiEnd c (if s.rd (TRK_PMA_STATUS.MOD_ABS c) = 1 then 4 else err) data)
/-- TWI_RECOVER (R88). -/
def execTwiRecover (m : Master) (c : Fin 4) (v : Word) (s : State) : Host.Outcome State Fault Refusal :=
  s.on (fun s => s.onAccess m (TRK_TWI_CFG.A c) true (fun s => s.twiRecover c v))
/-- TWI_MONITOR_POLL (R89). -/
def execTwiMonitorPoll (c : Fin 4) (err : Option (Fin 5)) (data : Bytes) (s : State) : Host.Outcome State Fault Refusal :=
  s.on (·.twiMonitor c err data)

/-! ## The module (R85) -/

/-- The module is removed (R85). -/
def Hw.moduleRemoved (s : Hw) (c : Nat) : Hw :=
  if s.rd (TRK_PMA_STATUS.MOD_ABS c) = 1 then s
  else
    let s := (s.wr (TRK_PMA_STATUS.MOD_ABS c) 1).wr (TRK_PMA_CTRL.TX_ALLOW c) 0
    ((s.cutBurst c).twiAbort c).trkRaise c EV_TRK.MOD_CHANGE

/-- A module is inserted (R85). -/
def Hw.moduleInserted (s : Hw) (c : Nat) : Hw :=
  if s.rd (TRK_PMA_STATUS.MOD_ABS c) = 0 then s
  else (s.wr (TRK_PMA_STATUS.MOD_ABS c) 0).trkRaise c EV_TRK.MOD_CHANGE

/-- MODULE_REMOVED (R85). -/
def execModuleRemoved (c : Fin 4) (s : State) : Host.Outcome State Fault Refusal := s.on (·.moduleRemoved c)
/-- MODULE_INSERTED (R85). -/
def execModuleInserted (c : Fin 4) (s : State) : Host.Outcome State Fault Refusal := s.on (·.moduleInserted c)

/-! ## Bursts at the pins (R76-R80, R92) -/

/-- A guard window around `bits` tenths of a picosecond of light is longer than MAX_BEN (R77, R80): LEAD and LAG are in
0.3215 ns, the slack is 12.860 ns on each side. -/
def Hw.windowTooLong (s : Hw) (c tenthPs : Nat) : Bool :=
  decide (s.rd (TRK_GUARD_CFG.MAX_BEN c) * 10000000
    < tenthPs + (s.rd (TRK_BEN_TIMING.LEAD c) + s.rd (TRK_BEN_TIMING.LAG c)) * 3215 + 257200)

/-- Everything a burst carries, in the order of R141; space not filled is idle GEM. -/
def Burst.content (b : Burst) : List BurstItem :=
  b.items ++ (b.grants.map (fun g =>
    (if g.dbru then [BurstItem.dbru (b.report g)] else []) ++ g.items
      ++ (if g.room = 0 then [] else [BurstItem.idle g.room]))).flatten ++ [.trailer]

/-- Where a burst's last bit leaves. -/
def Burst.last (b : Burst) : Nat := b.grants.foldl (fun e g => max e g.absEnd) b.absFirst

/-- The first burst not yet launched is consumed and counted `k` times in activation counter `n`; a window that R78 has
opened for it closes. -/
def Hw.dropLaunch (s : Hw) (c n k : Nat) : Hw :=
  let open' := ((s.act c).bursts.find? (fun b => !b.launched)).any (fun b => b.opened)
  let s := s.modAct c (fun a => { a with
    bursts := a.bursts.filter (fun x => x.launched) ++ (a.bursts.filter (fun x => !x.launched)).drop 1 })
  (if open' then s.closeWindow c else s).actCount c n k

/-- The launch of the first burst not yet launched: TRK_BEN rises unless it has stayed high, with LEAD and LAG as they
are now (R77, R78). -/
def Hw.launch (s : Hw) (c : Nat) (b : Burst) : Hw :=
  let lead := s.rd (TRK_BEN_TIMING.LEAD c)
  let lag := s.rd (TRK_BEN_TIMING.LAG c)
  let s := s.modAct c (fun a => { a with
    bursts := replaceFirst (fun x => !x.launched) (fun x => { x with launched := true, lead := lead, lag := lag }) a.bursts })
  let s := if b.opened then s else (s.driveBen c true).modOpt c (fun o => { o with windows := o.windows + 1 })
  let s := s.onlyIf (b.kind = .serial) (fun s => s.actCount c ACT_N.SN_RESP_SENT)
  (s.actCount c ACT_N.BURSTS_SENT).emit (.launch c b.kind b.absFirst)

/-- The first staged burst leaves, when nothing forces the laser dark and its state transmits it; otherwise it is
consumed (R80, R122, R125, R129, R147): once for the burst in TXDIS_DISCARD, once for each of its grants in STATE_DISCARD
(R108). -/
def Hw.burstLaunch (s : Hw) (c : Nat) : Hw :=
  match (s.act c).bursts.find? (fun b => !b.launched) with
  | none => s
  | some b =>
    if b.staged = false ∨ s.trkOn c = false ∨ s.rd (TRK_DLN_STATUS.LODS c) = 1 then s
    else if s.txdisForced c then s.dropLaunch c ACT_N.TXDIS_DISCARD 1
    else if s.txdisState c || !s.stateSends c b.kind then s.dropLaunch c ACT_N.STATE_DISCARD b.grants.length
    else s.launch c b

/-- Burst `n` follows burst `b` so closely that its rising edge of TRK_BEN would come before the falling edge of `b`
(R78). LEAD and LAG are in 1/16 word cycle of 256 bit periods. -/
def Burst.merges (b n : Burst) (lead : Nat) : Bool := decide (n.absFirst < b.last + 16 * (b.lag + lead))

/-- The burst TRK_BEN stays high for after burst `b`: one launched, or the next staged one when nothing keeps it dark. -/
def Hw.mergedNext (s : Hw) (c : Nat) (b : Burst) : Option Burst :=
  match ((s.act c).bursts.filter (fun x => x.launched)).drop 1 with
  | n :: _ => if b.merges n n.lead then some n else none
  | [] =>
    match (s.act c).bursts.find? (fun x => !x.launched) with
    | none => none
    | some n =>
      if n.staged && !s.txdis c && s.stateSends c n.kind && b.merges n (s.rd (TRK_BEN_TIMING.LEAD c)) then some n else none

/-- What a data burst has carried is counted in the bins (R510). -/
def Hw.noteSent (s : Hw) (c : Nat) (b : Burst) : Hw :=
  let gems := (b.grants.map Grant.items).flatten.filterMap (fun i => match i with
    | .gem _ _ _ bs => some bs.length
    | _ => none)
  s.onlyIf (gems ≠ []) (fun s => (s.note c 10 (gems.foldl (· + ·) 0)).note c 41 gems.length)

/-- The last bit of the earliest burst leaves: what it carried has gone out, and TRK_BEN falls after its lag, unless the
next burst's rise comes first; then the serialiser sends zeros between the two (R77, R78). -/
def Hw.burstEnd (s : Hw) (c : Nat) : Hw :=
  match (s.act c).bursts.find? (fun b => b.launched) with
  | none => s
  | some b =>
    let next := s.mergedNext c b
    let s := (s.noteSent c b).emit (.burst c b.kind b.absFirst (if b.kind = .test then b.items else b.content))
    let s := s.modAct c (fun a => { a with
      bursts := (a.bursts.filter (fun x => x.launched)).drop 1 ++ a.bursts.filter (fun x => !x.launched) })
    match next with
    | none => s.closeWindow c
    | some n =>
      let s := s.emit (.zeros c (n.absFirst - b.last))
      if n.launched then s.closeWindow c
      else s.modAct c (fun a => { a with bursts := replaceFirst (fun x => !x.launched) (fun x => { x with opened := true }) a.bursts })

/-- A test burst (R92), a guard window like any other. -/
def Hw.testBurst (s : Hw) (c : Nat) : Hw :=
  let len := s.rd (TRK_TEST_BURST.LENGTH c)
  if s.rd (TRK_TEST_BURST.ARM c) = 1 ∧ s.rd (TRK_TEST_BURST.PERIOD c) ≠ 0 ∧ len ≠ 0 ∧ s.txdisForced c = false
      ∧ s.rd (TRK_ACT_CTRL.TEST_HOLD c) = 1 ∧ s.inSync c = true then
    if s.windowTooLong c (len * 10000000) then s.count (TRK_GUARD_STATUS.WINDOW_REJECT c)
    else
      let items := [BurstItem.pattern (s.rd (TRK_PRBS_CTRL.TX_PAT c)) len]
      let u : Burst := { kind := .test, staged := true, launched := true, items := items }
      let s := s.modAct c (fun a => { a with bursts := u :: a.bursts })
      ((s.driveBen c true).modOpt c (fun o => { o with windows := o.windows + 1 })).emit (.launch c .test 0)
  else s

/-- BURST_LAUNCH (R76). -/
def execBurstLaunch (c : Fin 4) (s : State) : Host.Outcome State Fault Refusal := s.on (·.burstLaunch c)
/-- BURST_END (R77). -/
def execBurstEnd (c : Fin 4) (s : State) : Host.Outcome State Fault Refusal := s.on (·.burstEnd c)
/-- TEST_BURST_LAUNCH (R92). -/
def execTestBurstLaunch (c : Fin 4) (s : State) : Host.Outcome State Fault Refusal := s.on (·.testBurst c)

/-! ## The guard (R81)

Each event finds the pad of TRK_BEN at a level of its own: high (reasons 1 and 2), other than the driven one (reason 3). -/

/-- Guard reason 1: BEN outside a burst window (R81). -/
def Hw.guardOutside (s : Hw) (c : Nat) : Hw :=
  if s.cond (15 + c) = 0 ∧ (s.opt c).windows = 0 then (s.padAt c true).guardTrip c 1 else s
/-- Guard reason 2: BEN for too long (R81). -/
def Hw.guardTooLong (s : Hw) (c : Nat) : Hw :=
  if s.cond (15 + c) = 0 then (s.padAt c true).guardTrip c 2 else s
/-- Guard reason 3: the pad differs from what drives it (R81). -/
def Hw.guardMismatch (s : Hw) (c : Nat) : Hw :=
  if s.cond (15 + c) = 0 then (s.padAt c (!(s.opt c).benDrive)).guardTrip c 3 else s

/-- GUARD_OUTSIDE_WINDOW (R81). -/
def execGuardOutsideWindow (c : Fin 4) (s : State) : Host.Outcome State Fault Refusal := s.on (·.guardOutside c)
/-- GUARD_TOO_LONG (R81). -/
def execGuardTooLong (c : Fin 4) (s : State) : Host.Outcome State Fault Refusal := s.on (·.guardTooLong c)
/-- GUARD_PAD_MISMATCH (R81). -/
def execGuardPadMismatch (c : Fin 4) (s : State) : Host.Outcome State Fault Refusal := s.on (·.guardMismatch c)

/-! ## Pattern checkers (R90, R310) -/

/-- Registers of a lane's checker: control, status, error count, bit count, and where its event goes. -/
def RxLane.prbs : RxLane → Nat × Nat × Nat × Nat
  | .trunk c => (TRK_PRBS_CTRL.A c.val, TRK_PRBS_STATUS.A c.val, TRK_PRBS_ERR.A c.val, TRK_PRBS_BITS.A c.val)
  | .sub l => (SRD_PRBS_CTRL.A l.val, SRD_PRBS_STATUS.A l.val, SRD_PRBS_ERR.A l.val, SRD_PRBS_BITS.A l.val)

/-- The checker runs: its lane is ON, in test mode for a subscriber or twin lane, and a pattern is chosen. -/
def Hw.prbsRuns (s : Hw) (lane : RxLane) : Bool :=
  s.rd ⟨lane.prbs.1, 4, 3⟩ != 0 && (match lane with
    | .trunk c => s.trkOn c
    | .sub l => s.laneOn l && s.capRd (SRD_LANE_CTRL.TEST l) == 1)

/-- In loopback the checker sees the channel's own pattern: it can lock when that is the one it looks for, in the same
polarity (R90, R91). What comes over the fibre or the line is the command's. -/
def Hw.prbsFits (s : Hw) : RxLane → Bool
  | .trunk c =>
    if s.looped c then
      s.rd (TRK_PRBS_CTRL.TX_PAT c) == s.rd (TRK_PRBS_CTRL.RX_PAT c)
        && (s.capRd (TRK_PMA_CTRL.TX_INVERT c) + s.capRd (TRK_PMA_CTRL.RX_INVERT c)) % 2 == s.rd (TRK_PRBS_CTRL.RX_INV c)
    else true
  | .sub _ => true

/-- A checker that no longer runs is not locked. -/
def Hw.prbsHalt (s : Hw) (lane : RxLane) : Hw := if s.prbsRuns lane then s else s.wr ⟨lane.prbs.2.1, 0, 1⟩ 0

/-- A write of CLEAR (R90). -/
def Hw.prbsClear (s : Hw) (lane : RxLane) (v : Word) : Hw :=
  let s := (s.plainWrite lane.prbs.1 v).prbsHalt lane
  let s := match lane with
    | .trunk _ => s
    | .sub l => s.laneSync l
  if getField v 9 1 = 1 then
    let p := lane.prbs
    (((s.setWord p.2.2.1 0#32).setWord (p.2.2.1 + 4) 0#32).setWord p.2.2.2 0#32).setWord (p.2.2.2 + 4) 0#32
  else s

/-- The checker of `lane` has locked (R90). -/
def Hw.prbsLock (s : Hw) (lane : RxLane) : Hw :=
  if s.prbsRuns lane && s.prbsFits lane then s.wr ⟨lane.prbs.2.1, 0, 1⟩ 1 else s

/-- Lock is lost; `wrong` bits were found wrong since lock or since the last such count. -/
def Hw.prbsLoss (s : Hw) (lane : RxLane) (wrong : Nat) : Hw :=
  if s.rd ⟨lane.prbs.2.1, 0, 1⟩ = 1 then
    let s := (s.wr ⟨lane.prbs.2.1, 0, 1⟩ 0).wr ⟨lane.prbs.2.1, 1, 1⟩ 1
    let s := s.count64 lane.prbs.2.2.1 wrong
    match lane with
    | .trunk c => s.trkRaise c EV_TRK.PRBS_LOCK_LOST
    | .sub l => s.raise (0x210000 + l.val * 0x10000) EV_LANE.PRBS_LOCK_LOST
  else s

/-- PRBS_CLEAR (R90). -/
def execPrbsClear (m : Master) (lane : RxLane) (v : Word) (s : State) : Host.Outcome State Fault Refusal :=
  s.on (fun s => s.onAccess m lane.prbs.1 true (fun s => s.prbsClear lane v))
/-- PRBS_CHECKER_LOCK (R90). -/
def execPrbsCheckerLock (lane : RxLane) (s : State) : Host.Outcome State Fault Refusal := s.on (·.prbsLock lane)
/-- PRBS_LOCK_LOSS (R90). -/
def execPrbsLockLoss (lane : RxLane) (wrong : Nat) (s : State) : Host.Outcome State Fault Refusal :=
  s.on (·.prbsLoss lane wrong)

/-- Tenths of a thousandth of a bit a lane's checker sees in one 4 ns tick. -/
def Hw.prbsRate (s : Hw) : RxLane → Nat
  | .trunk _ => 1990656
  | .sub l => if 64 ≤ l.val then 1125000 else match s.rd (SRD_LANE_STATUS.CUR_MODE l) with
    | 0 => 50000
    | 1 => 103125
    | 2 => 206250
    | _ => 412500

/-- Pattern bits counted over one tick while locked; how many of them were wrong is a free value (R90; log entry 3). -/
def Hw.prbsTick (s : Hw) (lane : RxLane) : Hw :=
  if s.rd ⟨lane.prbs.2.1, 0, 1⟩ = 0 then s
  else if s.prbsRuns lane = false then s.prbsHalt lane
  else
    let rem := (match lane with
      | .trunk c => (s.opt c).prbsRem
      | .sub l => (s.lane l).prbsRem) + s.prbsRate lane
    let bits := rem / 10000
    let s := (s.count64 lane.prbs.2.2.2 bits).count64 lane.prbs.2.2.1 (s.draw 33 % (bits + 1))
    let s := s.drawn
    match lane with
    | .trunk c => s.modOpt c (fun o => { o with prbsRem := rem % 10000 })
    | .sub l => s.modLane l (fun o => { o with prbsRem := rem % 10000 })

end Sys2Proof.Machine
end

