-- ==== Sys2Proof/Machine/Bursts.lean ====
section
/-!
DEFINITION. Activation and upstream bursts (spec/05): activation commands and timers, the upstream PLOAM queue, the
equalisation delay, assembly at the cutoff, upstream selection (R279, R280), look-ahead, key switching, watchful sleep.
-/
namespace Sys2Proof.Machine

/-! ## Activation commands and timers (R126, R127) -/

/-- An activation command whose row applies takes effect; any other is discarded and counted. `beaten` says that a higher
event of R127 reaches the machine in the same cycle: the command loses to it. -/
def Hw.actCmd (s : Hw) (c : Nat) (v : Word) (beaten : Bool) (ok : Hw → Bool) (f : Hw → Hw) : Hw :=
  let s := s.plainWrite (TRK_ACT_CTRL.A c) v
  if s.trkOn c && ok s && !beaten then f s else s.actCount c ACT_N.CMD_REJECT

/-- ACT_STATE of channel `c` (R126). -/
abbrev Hw.actState (s : Hw) (c : Nat) : Nat := s.rd (TRK_ACT_STATUS.ACT_STATE c)

/-- ENTER_O4 (R126, R127). -/
def Hw.enterO4 (s : Hw) (c : Nat) (v : Word) (beaten : Bool) : Hw :=
  s.actCmd c v beaten (fun s => s.actState c == 3 && s.rd (TRK_ONU_ID.ONU_ID_VALID c) == 1)
    (fun s => (s.wr (TRK_ACT_STATUS.TO1_RUN c) 1).setAct c 4)
/-- ENTER_O5 (R126, R127). -/
def Hw.enterO5 (s : Hw) (c : Nat) (v : Word) (beaten : Bool) : Hw :=
  s.actCmd c v beaten (fun s => s.actState c == 4 && s.rd (TRK_ACT_STATUS.EQD_VALID c) == 1)
    (fun s => (s.wr (TRK_ACT_STATUS.TO1_RUN c) 0).setAct c 5)
/-- DEACTIVATE (R126, R128). -/
def Hw.deactivate (s : Hw) (c : Nat) (v : Word) (beaten : Bool) : Hw :=
  s.actCmd c v beaten (fun s => decide (3 ≤ s.actState c ∧ s.actState c ≤ 5)) (fun s => s.actLeave c (·.actO1 c))
/-- RESTART (R126, R128). -/
def Hw.restart (s : Hw) (c : Nat) (v : Word) (beaten : Bool) : Hw :=
  s.actCmd c v beaten (fun s => s.actState c != 7) (fun s => s.actLeave c (·.actO1 c))

/-- ENTER_O4 (R126). -/
def execEnterO4 (m : Master) (c : Fin 4) (v : Word) (s : State) (beaten : Bool := false) : Host.Outcome State Fault Refusal :=
  s.on (fun s => s.onAccess m (TRK_ACT_CTRL.A c) true (fun s => s.enterO4 c v beaten))
/-- ENTER_O5 (R126). -/
def execEnterO5 (m : Master) (c : Fin 4) (v : Word) (s : State) (beaten : Bool := false) : Host.Outcome State Fault Refusal :=
  s.on (fun s => s.onAccess m (TRK_ACT_CTRL.A c) true (fun s => s.enterO5 c v beaten))
/-- DEACTIVATE (R126). -/
def execDeactivate (m : Master) (c : Fin 4) (v : Word) (s : State) (beaten : Bool := false) : Host.Outcome State Fault Refusal :=
  s.on (fun s => s.onAccess m (TRK_ACT_CTRL.A c) true (fun s => s.deactivate c v beaten))
/-- RESTART (R126). -/
def execRestart (m : Master) (c : Fin 4) (v : Word) (s : State) (beaten : Bool := false) : Host.Outcome State Fault Refusal :=
  s.on (fun s => s.onAccess m (TRK_ACT_CTRL.A c) true (fun s => s.restart c v beaten))

/-- O1.2 to O2-3 once a profile is valid and SN_EN is set, outside testing. -/
def Hw.serialAdvance (s : Hw) (c : Nat) : Hw :=
  if s.trkOn c = true ∧ s.actState c = 2 ∧ s.rd (TRK_ACT_CTRL.SN_EN c) = 1 ∧ s.rd (TRK_ACT_CTRL.TEST_HOLD c) = 0
      ∧ (List.range 4).any (fun p => s.profileValid c p) = true then s.setAct c 3
  else s

/-- TO1 has expired (R126, R127). -/
def Hw.to1Expire (s : Hw) (c : Nat) : Hw :=
  if s.trkOn c = true ∧ s.actState c = 4 ∧ s.rd (TRK_ACT_STATUS.TO1_RUN c) = 1 then
    (s.trkRaise c EV_TRK.TO1_EXPIRED).actO1 c
  else s
/-- TO2 has expired (R126, R127). -/
def Hw.to2Expire (s : Hw) (c : Nat) : Hw :=
  if s.trkOn c = true ∧ s.actState c = 6 ∧ s.rd (TRK_ACT_STATUS.TO2_RUN c) = 1 then
    (s.trkRaise c EV_TRK.TO2_EXPIRED).actO1 c
  else s

/-- TEST_HOLD is written in O1.1 and O1.2 only (R130). -/
def Hw.testHold (s : Hw) (c : Nat) (v : Word) : Hw :=
  let s := s.plainWrite (TRK_ACT_CTRL.A c) v
  if s.actState c ≤ 2 then s.wr (TRK_ACT_CTRL.TEST_HOLD c) (getField v 1 1) else s

/-- SERIAL_NUMBER_ADVANCE (R126). -/
def execSerialNumberAdvance (c : Fin 4) (s : State) : Host.Outcome State Fault Refusal := s.on (·.serialAdvance c)
/-- TO1_EXPIRE (R126). -/
def execTo1Expire (c : Fin 4) (s : State) : Host.Outcome State Fault Refusal := s.on (·.to1Expire c)
/-- TO2_EXPIRE (R126). -/
def execTo2Expire (c : Fin 4) (s : State) : Host.Outcome State Fault Refusal := s.on (·.to2Expire c)
/-- TEST_HOLD_WRITE (R130). -/
def execTestHoldWrite (m : Master) (c : Fin 4) (v : Word) (s : State) : Host.Outcome State Fault Refusal :=
  s.on (fun s => s.onAccess m (TRK_ACT_CTRL.A c) true (fun s => s.testHold c v))

/-! ## Upstream PLOAM and the equalisation delay (R134, R139) -/

/-- An upstream PLOAM message is queued (R134). -/
def Hw.ploamPush (s : Hw) (c : Nat) (v : Word) : Hw :=
  let s := s.plainWrite (TRK_PLOAM_TX.A c) v
  if getField v 8 1 = 0 then s
  else if 8 ≤ (s.act c).ploamTx.length then s.actCount c ACT_N.PLOAM_TX_FULL
  else s.setPloamTx c ((s.act c).ploamTx ++ [leBytes 48 (s.t (PLOAM_TXQ.MSG c 0))])

/-- The equalisation delay is written; it waits for the next frame (R139). -/
def Hw.eqdWrite (s : Hw) (c : Nat) (v : Word) : Hw :=
  ((s.fullWrite (TRK_EQD.A c) v).wr (TRK_ACT_STATUS.EQD_VALID c) 1).wr (TRK_ACT_STATUS.EQD_PENDING c) 1

/-- PLOAM_PUSH (R134). -/
def execPloamPush (m : Master) (c : Fin 4) (v : Word) (s : State) : Host.Outcome State Fault Refusal :=
  s.on (fun s => s.onAccess m (TRK_PLOAM_TX.A c) true (fun s => s.ploamPush c v))
/-- EQD_WRITE (R139). -/
def execEqdWrite (m : Master) (c : Fin 4) (v : Word) (s : State) : Host.Outcome State Fault Refusal :=
  s.on (fun s => s.onAccess m (TRK_EQD.A c) true (fun s => s.eqdWrite c v))

/-! ## Look-ahead (R148) -/

/-- The 1 µs step of every allocation's estimate, 16.16 bytes per µs. R148 does not say how (a − r) × 2^−ALPHA is rounded
in that format: the model takes the floor (DESIGN CHOICE, log entry 205). -/
def Hw.laUpdate (s : Hw) : Hw :=
  let s := s.forAll (List.range 4) (fun s c =>
    s.forAll ((s.listed c 1).filter (fun x => s.t (ALLOC_OWN.VALID c x) == 1)) (fun s x =>
      let r := Int.ofNat (s.t (LA_ALLOC.RATE_EST c x))
      let a := Int.ofNat (s.tms.arrived.get 0 (s.t (ALLOC_OWN.NODE c x)) * 65536)
      s.ts (LA_ALLOC.RATE_EST c x) (r + (a - r) / Int.ofNat (2 ^ s.rd (TRK_US_CFG.ALPHA c))).toNat))
  { s with tms := { s.tms with arrived := [] } }

/-- LA_ESTIMATE_UPDATE (R148). -/
def execLaEstimateUpdate (s : State) : Host.Outcome State Fault Refusal := s.on (·.laUpdate)

/-! ## Assembly (R142-R147) -/

/-- The earliest burst not yet staged is taken away. -/
def Hw.dropUnstaged (s : Hw) (c : Nat) : Hw :=
  s.modAct c (fun a => { a with
    bursts := a.bursts.filter (fun u => u.staged) ++ (a.bursts.filter (fun u => !u.staged)).drop 1 })

/-- The earliest burst not yet staged becomes `u`. -/
def Hw.setUnstaged (s : Hw) (c : Nat) (u : Burst) : Hw :=
  s.modAct c (fun a => { a with bursts := replaceFirst (fun x => !x.staged) (fun _ => u) a.bursts })

/-- Tenths of a picosecond of a burst, from its first preamble bit to its last bit (R138). -/
def Burst.tenthPs (u : Burst) : Nat := (u.last - u.absFirst) * 100000000 / 497664

/-- Preamble octets of a profile: its pattern, first octet in DATA1 [7:0], PRE_REPEAT times (R140, R141). -/
def Hw.preambleOf (s : Hw) (c p : Nat) : Bytes :=
  (List.replicate (s.t (BURST_PROFILE.PRE_REPEAT c p))
    (leBytes (s.t (BURST_PROFILE.PRE_LEN c p)) (s.t (BURST_PROFILE.PREAMBLE c p)))).flatten

/-- Delimiter octets of a profile, first octet in DATA3 [7:0]. -/
def Hw.delimiterOf (s : Hw) (c p : Nat) : Bytes :=
  leBytes (s.t (BURST_PROFILE.DELIM_LEN c p)) (s.t (BURST_PROFILE.DELIMITER c p))

/-- Preamble, delimiter and burst header. -/
def Hw.burstHead (s : Hw) (c : Nat) (u : Burst) : List BurstItem :=
  [.preamble (s.preambleOf c u.profile), .delimiter (s.delimiterOf c u.profile), .header (s.rd (TRK_ONU_ID.ONU_ID c))]

/-- A burst not yet begun takes its profile anew: its overhead, and the length of a response (R108, R135, R140, R156). -/
def Hw.reprofile (s : Hw) (c : Nat) (u : Burst) : Burst :=
  let ovh := s.profileOvh c u.profile * s.usWordBits c
  let words := respWords (s.burstFec c u)
  match u.grants with
  | [] => u
  | g :: t =>
    let g := { g with absStart := g.absT - ovh }
    let g := match u.kind with
      | .serial => { g with size := words, absEnd := g.absT + words * s.usWordBits c }
      | .ranging => { g with size := words, absEnd := g.absT + words * s.usWordBits c }
      | _ => g
    { u with absFirst := g.absStart, grants := g :: t }

/-- BURST_PROFILE entry `p` has changed: bursts not yet begun, those before their cutoff, follow it and stand in the order of
their new first bits (R156; log entry 189). -/
def Hw.profileChanged (s : Hw) (c p : Nat) : Hw :=
  s.modAct c (fun a => { a with bursts :=
    (a.bursts.map (fun u => if u.staged || u.profile != p then u else s.reprofile c u)).foldl (fun l u => insertBurst u l) [] })

/-- The oldest upstream PLOAM message leaves its queue. -/
def Hw.popPloamTx (s : Hw) (c : Nat) : Hw := s.setPloamTx c ((s.act c).ploamTx.drop 1)

/-- The cutoff of the earliest burst not yet staged (R143): its staging begins, or it is consumed (R80, R125, R129, R135,
R136, R147). The idle PLOAM of an empty queue (R134) is shown as a message of no octets, which is the model's choice: the
spec prints none for it (log entry 171). -/
def Hw.cutoff (s : Hw) (c : Nat) : Hw :=
  match (s.act c).bursts.find? (fun u => !u.staged) with
  | none => s
  | some u =>
    if s.trkOn c = false ∨ s.rd (TRK_DLN_STATUS.LODS c) = 1 then s
    else if s.txdisForced c then (s.dropUnstaged c).actCount c ACT_N.TXDIS_DISCARD
    else if s.txdisState c || !s.stateSends c u.kind then
      (s.dropUnstaged c).actCount c ACT_N.STATE_DISCARD u.grants.length
    else if s.windowTooLong c u.tenthPs then (s.dropUnstaged c).count (TRK_GUARD_STATUS.WINDOW_REJECT c)
    else match u.kind with
      | .serial =>
        s.setUnstaged c { u with staged := true, cur := u.grants.length
                                 items := s.burstHead c u ++ [.serialNumber (s.word (TRK_SERIAL_HI.A c)) (s.word (TRK_SERIAL.A c))] }
      | .ranging =>
        match (s.act c).ploamTx with
        | [] => (s.dropUnstaged c).actCount c ACT_N.STATE_DISCARD
        | msg :: _ =>
          (s.setUnstaged c { u with staged := true, cur := u.grants.length, items := s.burstHead c u ++ [.ploam msg] }).popPloamTx c
      | _ =>
        let ploamu := u.grants.head?.any (fun g => g.ploamu)
        let items := s.burstHead c u ++ (if ploamu then [BurstItem.ploam ((s.act c).ploamTx.headD [])] else [])
        let r := s.closeGrants c (s.respace c u u.grants)
        let s := r.1.setUnstaged c { u with staged := true, fec := s.burstFec c u, items := items, grants := r.2 }
        if ploamu then s.popPloamTx c else s

/-- ASSEMBLY_CUTOFF (R143). -/
def execAssemblyCutoff (c : Fin 4) (s : State) : Host.Outcome State Fault Refusal := s.on (·.cutoff c)

/-! ## Upstream selection (R145, R146, R150, R158, R163, R279, R280) -/

/-- A staged burst has a grant to fill. It may have been launched: staging only runs ahead of the serialiser (R143). -/
def Burst.filling (u : Burst) : Bool := u.staged && decide (u.cur < u.grants.length)

/-- The grant being filled. -/
def Burst.grant (u : Burst) : Grant := u.grants.getD u.cur {}

/-- A staging: the channel and the place of the burst among the channel's. -/
structure Staging where
  chan : Nat
  place : Nat
  deriving DecidableEq, Repr

/-- The burst of a staging. -/
def Hw.burstAt (s : Hw) (x : Staging) : Burst := (s.act x.chan).bursts.getD x.place {}
def Hw.modBurst (s : Hw) (x : Staging) (f : Burst → Burst) : Hw :=
  s.modAct x.chan (fun a => { a with bursts := a.bursts.modify x.place f })

/-- The grant being filled changes. -/
def Hw.modGrant (s : Hw) (x : Staging) (f : Grant → Grant) : Hw :=
  s.modBurst x (fun u => { u with grants := u.grants.set u.cur (f u.grant) })

/-- The grant being filled is closed; what is left of its space is idle GEM. -/
def Hw.nextGrant (s : Hw) (x : Staging) : Hw := s.modBurst x (fun u => { u with cur := u.cur + 1 })

/-- A GEM frame is placed in the grant being filled; `octets` of it are packet octets, which the report leaves out. -/
def Hw.placeGem (s : Hw) (x : Staging) (port idx : Nat) (lf : Bool) (payload : Bytes) (octets : Nat) : Hw :=
  s.modGrant x (fun g => { g with
    room := g.room - (8 + payload.length), placed := g.placed + octets, items := g.items ++ [.gem port idx lf payload] })

/-- Shim of a bonded frame in network order (R159); the group's next sequence number is used up (R174). -/
def Hw.shim (s : Hw) (g c : Nat) (marker : Bool) : Hw × Bytes :=
  let sn := s.rd (SHF_GRP_TX_STATUS.NEXT_TX_SN g)
  (s.wr (SHF_GRP_TX_STATUS.NEXT_TX_SN g) (sn + 1), beBytes 4 (g * 2 ^ 28 + b2n marker * 2 ^ 27 + c * 2 ^ 24 + sn))

/-- What is left of a packet of queue `q`, behind its shim where it has one, goes into the grant: whole with LF = 1, or as
much as fits with LF = 0, the rest kept for the next grant of the allocation. A rest that does not fit that grant is broken
off again whatever FRAG_EN holds then: the spec does not say, and it is the model's choice (log entry 196). -/
def Hw.placePayload (s : Hw) (x : Staging) (q : Nat) (p : Pkt) (shim : Nat) : Hw :=
  let c := x.chan
  let g := (s.burstAt x).grant
  if s.t (US_GEM.VALID c q) = 0 then s.actCount c ACT_N.US_GEM_NO_PORT
  else
    let rest := p.bytes.drop p.sent
    let lf := decide (8 + rest.length ≤ g.room)
    let part := if lf then rest else rest.take (g.room - 8)
    let r := s.usEncrypt c (s.t (US_GEM.ENC c q) == 1) g part
    match r.2 with
    | none => r.1.actCount c ACT_N.US_KEY_HARD_DISCARD
    | some (idx, bs) =>
      let s := r.1.placeGem x (s.t (US_GEM.PORT_ID c q)) idx lf bs (part.length - (shim - p.sent))
      if lf then s
      else s.modAct c (fun a => { a with
        frags := a.frags ++ [{ alloc := g.allocIdx, q := q, after := g.absT, pkt := { p with sent := p.sent + part.length } }] })

/-- A frame continued from an earlier grant is sent first (R145, R279): in the next grant of the allocation by its start,
of the grants that hold nothing yet. That a grant begun before the frame was broken off is passed over is the model's
choice for stagings that overlap (log entry 197). -/
def Hw.placeContinuation (s : Hw) (x : Staging) : Option Hw :=
  let g := (s.burstAt x).grant
  match (s.act x.chan).frags.find? (fun f => f.alloc == g.allocIdx && decide (f.after < g.absT)) with
  | none => none
  | some f =>
    if g.room ≤ 8 ∨ g.items ≠ [] then none
    else
      let s := s.modAct x.chan (fun a => { a with frags := a.frags.erase f })
      some (s.placePayload x f.q f.pkt 0)

/-- The octets of a marker's body (R161). -/
def Marker.body (m : Marker) : Bytes :=
  beBytes 1 m.type ++ beBytes 1 (m.subject * 16 + m.reason) ++ beBytes 2 m.token ++ beBytes 4 0

/-- A waiting marker of the member whose allocation the grant names is placed (R163), ahead of every frame dequeued for
the grant (R279): one that begins to wait later waits for a later grant. -/
def Hw.placeMarker (s : Hw) (x : Staging) : Option Hw :=
  let c := x.chan
  let g := (s.burstAt x).grant
  match s.memberOf c g.allocIdx with
  | none => none
  | some h =>
    match (s.grp h).markers.find? (fun m => m.target == c) with
    | none => none
    | some m =>
      if g.room < 20 ∨ g.framed = true ∨ s.phase h c = 0 then none
      else
        let s := s.modGrp h (fun x => { x with markers := x.markers.erase m })
        let sh := s.shim h c true
        let r := sh.1.usEncrypt c (s.rd (SHF_GRP_CFG.MARKER_ENC h) == 1) g (sh.2 ++ m.body)
        let s := match r.2 with
          | none => r.1.actCount c ACT_N.US_KEY_HARD_DISCARD
          | some (idx, bs) => r.1.placeGem x (s.rd (SHF_GRP_CFG.MARKER_GEM h)) idx true bs 20
        some (if m.type = 1 then s.modMbr h m.subject (fun x => { x with placed := true })
          else if m.type = 3 ∧ s.phase h m.subject = 4 ∧ m.reason ≠ 3 then s.modMbr h m.subject (fun x => { x with leaveSent := true })
          else s)

/-- Octets of a queue the grant still admits. -/
def Grant.limitOf (g : Grant) (q : Nat) : Nat := ((g.limit.find? (fun e => e.1 == q)).map Prod.snd).getD 0

/-- Octets of shim in front of each frame of a grant. -/
def Hw.shimOf (s : Hw) (c : Nat) (g : Grant) : Nat := if (s.memberOf c g.allocIdx).isSome then 4 else 0

/-- Queues a grant may draw from, with their heads: under its node, within its byte limits, open to its member's phase
(R166), and fitting the space left (R145). -/
def Hw.grantHeads (s : Hw) (c : Nat) (g : Grant) : List Cand :=
  let m := s.memberOf c g.allocIdx
  let shim := s.shimOf c g
  (s.backlog false).filterMap (fun q =>
    match s.headPkt q with
    | none => none
    | some p =>
      let k := s.pathOf false q p.len
      let open' := match m with
        | none => true
        | some h => s.memberActive h c || (s.phase h c == 4 && s.ownsQueue h c q)
      let fits := decide (8 + shim + p.len ≤ g.room) || (s.rd (TRK_ACT_CTRL.FRAG_EN c) == 1 && decide (8 < g.room))
      if k.top == g.node && open' && decide (p.len ≤ g.limitOf q) && fits && s.pathValid false k then some k else none)

/-- The queues of the grant's node that are eligible for it; the others that were at the head of a round have moved to
its tail (R269, R272). -/
def Hw.trimGrant (s : Hw) (x : Staging) : Hw :=
  let g := (s.burstAt x).grant
  s.trimTree false g.node ((s.grantHeads x.chan g).filter (fun k => s.pathOk false k))

/-- A packet dequeued for the grant is placed: with a shim for a group's member (R159). -/
def Hw.placePkt (s : Hw) (x : Staging) (q : Nat) (p : Pkt) : Hw :=
  let s := s.modGrant x (fun g => { g with framed := true })
  if s.t (US_GEM.VALID x.chan q) = 0 then s.actCount x.chan ACT_N.US_GEM_NO_PORT
  else match s.memberOf x.chan (s.burstAt x).grant.allocIdx with
    | some h =>
      let s := s.modGrp h (fun y => { y with usOctets := y.usOctets + p.bytes.length })
      let sh := s.shim h x.chan false
      sh.1.placePayload x q { p with bytes := sh.2 ++ p.bytes } 4
    | none => s.placePayload x q p 0

/-- One packet is selected from the grant's node, charged, and placed (R279). -/
def Hw.placeFrame (s : Hw) (x : Staging) : Option Hw :=
  let g := (s.burstAt x).grant
  match s.selectTree false g.node ((s.grantHeads x.chan g).filter (fun k => s.pathOk false k)) with
  | none => none
  | some (s, k) =>
    match s.headPkt k.q with
    | none => none
    | some p => some (((s.take k.q).placePkt x k.q p).trimGrant x)

/-- What a staging does in this cycle, if anything; a slot grant carries its container alone (R318). -/
def Hw.stageStep (s : Hw) (x : Staging) : Option Hw :=
  if (s.burstAt x).grant.slot then none
  else match s.placeContinuation x with
  | some s => some s
  | none => match s.placeMarker x with
    | some s => some s
    | none => (s.trimGrant x).placeFrame x

/-- Octets of queue `q`'s frames, oldest first, that lie within `limit` and fit `room` behind a GEM header and `shim`. -/
def fillOf (shim : Nat) (frag : Bool) : Nat → Nat → List Nat → Nat × Nat
  | _, room, [] => (0, room)
  | limit, room, n :: t =>
    if limit < n then (0, room)
    else if 8 + shim + n ≤ room then
      let r := fillOf shim frag (limit - n) (room - (8 + shim + n)) t
      (n + r.1, r.2)
    else if frag && decide (8 + shim < room) then (room - (8 + shim), 0)
    else (0, room)

/-- Bytes of frames within a grant's limits and its space that a shaper alone holds back (R279). -/
def Hw.shapedBytes (s : Hw) (c : Nat) (g : Grant) : Nat :=
  (((s.grantHeads c g).filter (fun k => !s.pathOk false k)).foldl (fun a k =>
    let r := fillOf (s.shimOf c g) (s.rd (TRK_ACT_CTRL.FRAG_EN c) == 1) (g.limitOf k.q) a.2
      ((s.queue k.q).pkts.map (fun p => p.pkt.len))
    (a.1 + r.1, r.2)) (0, g.room)).1

/-- Nothing can be placed: the grant is closed, and bytes only a shaper held back are counted (R279). -/
def Hw.idleFill (s : Hw) (x : Staging) : Hw :=
  let g := (s.burstAt x).grant
  if g.slot then s.nextGrant x
  else ((s.trimGrant x).count (TMS_SCH_CNT.COUNT 0) (s.shapedBytes x.chan g)).nextGrant x

/-- Stagings of a channel, in the order of its bursts; none while TRK_TXDIS is forced or its state sends no such burst
(R125, R147). -/
def Hw.stagingsOf (s : Hw) (c : Nat) : List Staging :=
  if s.txdisForced c then []
  else ((List.range (s.act c).bursts.length).map (fun i => ({ chan := c, place := i } : Staging))).filter (fun x =>
    (s.burstAt x).filling && s.stateSends c (s.burstAt x).kind)

/-- Stagings in the order of R280: earliest burst first, then the lower channel. -/
def Hw.stagings (s : Hw) : List Staging :=
  let first := fun (x : Staging) => (s.burstAt x).absFirst
  ((List.range 4).flatMap (fun c => s.stagingsOf c)).foldl (fun acc x =>
    acc.filter (fun y => decide (first y ≤ first x)) ++ [x] ++ acc.filter (fun y => decide (first x < first y))) []

/-- What staging `x` does in this cycle, from the grant being filled on: a grant with nothing to place is closed when a
later one of the burst has something, since the grants of a burst are staged in map order (R280). -/
def Hw.stageFrom (s : Hw) (x : Staging) : Nat → Option Hw
  | 0 => none
  | n + 1 => match s.stageStep x with
    | some t => some t
    | none => Hw.stageFrom (s.idleFill x) x n

/-- One cycle of the upstream scheduler (R280): `full` has a bit for each channel whose transmit FIFO has no room. When
`underrun`, the Granary has not delivered and the rest of the earliest staging's grant goes idle (R145). -/
def Hw.upstreamSelect (s : Hw) (underrun : Bool) (full : Nat) : Hw :=
  match s.stagings with
  | [] => s
  | x :: _ =>
    if underrun then (s.actCount x.chan ACT_N.UNDERRUN_FILL).nextGrant x
    else
      let l := s.stagings.filter (fun y => bitN full y.chan == 0)
      match l.findSome? (fun y => s.stageFrom y ((s.burstAt y).grants.length - (s.burstAt y).cur)) with
      | some s => s
      | none => match l with
        | [] => s
        | y :: _ => s.idleFill y

/-- UPSTREAM_SELECT (R279). -/
def execUpstreamSelect (underrun : Bool) (s : State) (full : Fin 16 := 0) : Host.Outcome State Fault Refusal :=
  s.on (·.upstreamSelect underrun full)

/-! ## Key switching (R151, R152) -/

/-- KEY_SWITCH_ARM (R151, R152). -/
def Hw.keyArm (s : Hw) (c : Nat) (v : Word) : Hw :=
  let s := s.plainWrite (TRK_KEY_SWITCH.A c) v
  if getField v 4 1 = 0 then s
  else
    let s := (s.wr (TRK_KEY_SWITCH.ARM c) 1).modAct c (fun a => { a with keyLate := false, keyNow := false })
    if 2 ^ 50 ≤ (s.val64 (TRK_KEY_SWITCH_SFC.A c) % 2 ^ 51 + 2 ^ 51 - s.sfc c) % 2 ^ 51 then
      ((s.modAct c (fun a => { a with keyLate := true })).actCount c ACT_N.KEY_SWITCH_LATE_COUNT).trkRaise c EV_TRK.KEY_SWITCH_LATE
    else s

/-- KEY_SWITCH_ARM (R151). -/
def execKeySwitchArm (m : Master) (c : Fin 4) (v : Word) (s : State) : Host.Outcome State Fault Refusal :=
  s.on (fun s => s.onAccess m (TRK_KEY_SWITCH.A c) true (fun s => s.keyArm c v))

/-! ## Watchful sleep (R153) -/

/-- A write of WS_ALLOWED (R153). -/
def Hw.wsAllowed (s : Hw) (c : Nat) (v : Word) : Hw :=
  let s := (s.plainWrite (TRK_ACT_CTRL.A c) v).wr (TRK_ACT_CTRL.WS_ALLOWED c) (getField v 2 1)
  if s.trkOn c = false ∨ s.actState c ≠ 5 then s
  else match s.rd (TRK_ACT_STATUS.PM_STATE c), getField v 2 1 with
    | 0, 1 => s.setPm c 1
    | 1, 0 => s.setPm c 0
    | 2, 0 => s.pmWake c
    | 3, 0 => s.pmWake c
    | _, _ => s

/-- Two frames in AWARE: the receiver is duty-cycled from here on, its off part first (log entry 19). -/
def Hw.awareToWatch (s : Hw) (c : Nat) : Hw :=
  if s.rd (TRK_ACT_STATUS.PM_STATE c) = 2 then
    let s := (s.setPm c 3).modAct c (fun a => { a with rxOn := false })
    (s.modDln c (fun d => { d with inFrame := false })).memberUpdate c
  else s

/-- The receiver of a channel in WATCH is turned on (R153). -/
def Hw.watchStart (s : Hw) (c : Nat) : Hw := if s.rd (TRK_ACT_STATUS.PM_STATE c) = 3 then s.receiverOn c else s

/-- The receiver of a channel in WATCH is turned off (R153). -/
def Hw.watchEnd (s : Hw) (c : Nat) : Hw :=
  if s.rd (TRK_ACT_STATUS.PM_STATE c) = 3 then
    (s.modAct c (fun a => { a with rxOn := false })).modDln c (fun d => { d with inFrame := false })
  else s

/-- SYNC has not come in time (R153). -/
def Hw.watchTimeout (s : Hw) (c : Nat) : Hw :=
  if (s.act c).resync = true ∧ (s.act c).rxOn = true ∧ s.inSync c = false then
    let s := s.modAct c (fun a => { a with resync := false })
    ((s.setPm c 0).defects c).memberUpdate c
  else s

/-- WS_ALLOWED_WRITE (R153). -/
def execWsAllowedWrite (m : Master) (c : Fin 4) (v : Word) (s : State) : Host.Outcome State Fault Refusal :=
  s.on (fun s => s.onAccess m (TRK_ACT_CTRL.A c) true (fun s => s.wsAllowed c v))
/-- AWARE_TO_WATCH (R153). -/
def execAwareToWatch (c : Fin 4) (s : State) : Host.Outcome State Fault Refusal := s.on (·.awareToWatch c)
/-- WATCH_INTERVAL_START (R153). -/
def execWatchIntervalStart (c : Fin 4) (s : State) : Host.Outcome State Fault Refusal := s.on (·.watchStart c)
/-- WATCH_INTERVAL_END (R153). -/
def execWatchIntervalEnd (c : Fin 4) (s : State) : Host.Outcome State Fault Refusal := s.on (·.watchEnd c)
/-- WATCH_SYNC_TIMEOUT (R153). -/
def execWatchSyncTimeout (c : Fin 4) (s : State) : Host.Outcome State Fault Refusal := s.on (·.watchTimeout c)

end Sys2Proof.Machine
end

