-- ==== Sys2Proof/Machine/Sheaf.lean ====
section
/-!
DEFINITION. Sheaf as commands (spec/06): shim checks and reordering of downstream frames, markers received, the timers
of the member phases, shedding. Markers are acted on at their delivery, in the same command (log entry 29).
-/
namespace Sys2Proof.Machine

/-- Member (g, c) as a startable function. -/
def memberFn (g c : Nat) : Fn := .member ⟨g % 16, Nat.mod_lt _ (by decide)⟩ ⟨c % 4, Nat.mod_lt _ (by decide)⟩

/-! ## Markers received (R162, R164, R165) -/

/-- A marker that no state of its member awaits (R162, R164). -/
def Hw.markerUnexpected (s : Hw) (g : Nat) : Hw :=
  (s.shfCount g SHF_N.MARKER_UNEXPECTED).shfRaise EV_SHF.MARKER_UNEXP

/-- JOIN_ACK: a member in JOIN_WAIT with this token becomes ACTIVE, its lifecycle ON. A member whose channel is no
longer ready is suspended at once. -/
def Hw.joinAckRx (s : Hw) (g c token : Nat) : Hw :=
  if s.phase g c = 1 ∧ s.rd (SHF_MBR_STATUS.TOKEN g c) = token then
    let s := (s.joinWithdraw g c).modMbr g c (fun m => { m with outstanding := false, placed := false })
    let s := ((s.setPhase g c 2).shfRaise EV_SHF.JOIN_DONE).lcOn (memberFn g c)
    if s.ready c then s else s.memberSuspend g c
  else s.markerUnexpected g

/-- LEAVE of the head end: HOLDOFF, answered with its own token and reason; a reserved REASON is read as 0 (R162). -/
def Hw.leaveRx (s : Hw) (g c reason token : Nat) : Hw :=
  let reason := if reason < 5 then reason else 0
  if s.phase g c = 1 ∨ s.phase g c = 2 then
    let s := (s.joinWithdraw g c).modMbr g c (fun m => { m with outstanding := false, placed := false })
    (s.setPhase g c 6).leaveMarker g c 4 reason token
  else s.markerUnexpected g

/-- The member is out of the bond; a shed channel is asked to sleep (R181). -/
def Hw.memberLeft (s : Hw) (g c : Nat) : Hw :=
  let s := s.memberIdle g c
  if (s.grp g).shedOff.contains c && s.st (memberFn g c) == 0 then s.sleepRequest c else s

/-- LEAVE_ACK: a member in LEAVE_WAIT whose LEAVE with this token has been sent is IDLE. -/
def Hw.leaveAckRx (s : Hw) (g c token : Nat) : Hw :=
  if s.phase g c = 4 ∧ (s.mbr g c).leaveSent = true ∧ s.rd (SHF_MBR_STATUS.TOKEN g c) = token then s.memberLeft g c
  else s.markerUnexpected g

/-- A marker at its point of delivery. -/
def Hw.markerRx (s : Hw) (g : Nat) (body : Bytes) : Hw :=
  let c := byteAt body 1 / 16
  let reason := byteAt body 1 % 16
  let token := beAt body 2 2
  if body.length < 8 ∨ 3 < c then s.markerUnexpected g
  else if s.st (memberFn g c) = 0 then s.markerUnexpected g
  else match byteAt body 0 with
    | 2 => s.joinAckRx g c token
    | 3 => s.leaveRx g c reason token
    | 4 => s.leaveAckRx g c token
    | _ => s.markerUnexpected g

/-- JOIN_ACK_RX (R165). -/
def execJoinAckRx (g : Fin 16) (c : Fin 4) (token : Nat) (s : State) : Host.Outcome State Fault Refusal :=
  s.on (·.joinAckRx g c token)
/-- LEAVE_RX (R165). -/
def execLeaveRx (g : Fin 16) (c : Fin 4) (reason token : Nat) (s : State) : Host.Outcome State Fault Refusal :=
  s.on (·.leaveRx g c reason token)
/-- LEAVE_ACK_RX (R165). -/
def execLeaveAckRx (g : Fin 16) (c : Fin 4) (token : Nat) (s : State) : Host.Outcome State Fault Refusal :=
  s.on (·.leaveAckRx g c token)

/-! ## Reordering (R160, R176-R178) -/

/-- NEXT_SN of group `g` (R176). -/
abbrev Hw.nextSn (s : Hw) (g : Nat) : Nat := s.rd (SHF_GRP_RX_STATUS.NEXT_SN g)

/-- Distance of a sequence number from NEXT_SN. -/
def Hw.snDist (s : Hw) (g sn : Nat) : Nat := (sn + 2 ^ 24 - s.nextSn g) % 2 ^ 24

/-- A frame in its turn: a data frame goes on to pipeline A and counts in the group's net throughput (R13, R180), a
marker is taken. -/
def Hw.shfDeliver (s : Hw) (g : Nat) (f : HeldFrame) : Hw :=
  if f.marker then s.markerRx g f.bytes
  else ((s.modGrp g (fun x => { x with dsOctets := x.dsOctets + f.bytes.length })).fifoPush pipeA { bytes := f.bytes, source := 520 + f.chan }).1

/-- The frame numbered NEXT_SN is delivered. -/
def Hw.shfNext (s : Hw) (g : Nat) (f : HeldFrame) : Hw :=
  (s.wr (SHF_GRP_RX_STATUS.NEXT_SN g) (s.nextSn g + 1)).shfDeliver g f

/-- Held frames are delivered while the next number is held. -/
def Hw.shfRun (s : Hw) (g : Nat) : Nat → Hw
  | 0 => s
  | n + 1 =>
    match (s.grp g).held.find? (fun f => f.sn == s.nextSn g) with
    | none => s
    | some f => Hw.shfRun ((s.modGrp g (fun x => { x with held := x.held.erase f })).shfNext g f) g n

/-- The held frame nearest to NEXT_SN. -/
def Hw.shfLowest (s : Hw) (g : Nat) : Option HeldFrame :=
  (s.grp g).held.foldl (fun b f => match b with
    | none => some f
    | some x => if s.snDist g f.sn < s.snDist g x.sn then some f else some x) none

/-- NEXT_SN moves to `sn`; the numbers passed over are lost. -/
def Hw.shfSkipTo (s : Hw) (g sn : Nat) : Hw :=
  let n := s.snDist g sn
  if n = 0 then s
  else ((s.shfCount g SHF_N.SEQ_LOST n).shfRaise EV_SHF.SEQ_LOSS).wr (SHF_GRP_RX_STATUS.NEXT_SN g) sn

/-- The gap in front of the lowest held frame is skipped and the run after it delivered; counter `n` advances. -/
def Hw.shfSkip (s : Hw) (g n : Nat) : Hw :=
  match s.shfLowest g with
  | none => s
  | some f => ((s.shfSkipTo g f.sn).shfCount g n).shfRun g (s.grp g).held.length

/-- The frame can be held: within REORDER_CELLS and what the pool supplies (R178). -/
def Hw.shfRoom (s : Hw) (g : Nat) (f : HeldFrame) : Bool :=
  let n := ceilDiv f.bytes.length 256
  decide ((s.grp g).cells + n ≤ s.rd (SHF_GRP_HOLD.REORDER_CELLS g) ∧ n ≤ s.freeCells
    ∧ s.sharedUsed true + n ≤ s.rd GRN_POOL_DS.SHARED_MAX)

/-- Every held frame in sequence order, skipped numbers lost; then NEXT_SN is the frame's and the numbers before it are
lost too (R176, a jump beyond the window). -/
def Hw.shfFlush (s : Hw) (g sn : Nat) : Nat → Hw
  | 0 => s.shfSkipTo g sn
  | n + 1 =>
    match s.shfLowest g with
    | none => s.shfSkipTo g sn
    | some f => Hw.shfFlush (((s.shfSkipTo g f.sn).modGrp g (fun x => { x with held := x.held.erase f })).shfNext g f) g sn n

/-- The reorder decision; a frame that finds no room skips a gap and is decided again. -/
def Hw.shfDecide (s : Hw) (g : Nat) (f : HeldFrame) : Nat → Hw
  | 0 => s
  | n + 1 =>
    let d := s.snDist g f.sn
    let held := (s.grp g).held
    if d = 0 then (s.shfNext g f).shfRun g held.length
    else if d < 8192 then
      if held.any (fun x => x.sn == f.sn) then s.shfCount g SHF_N.SEQ_DUP
      else if s.shfRoom g f then s.modGrp g (fun x => { x with held := x.held ++ [f] })
      else if held.isEmpty then ((s.shfSkipTo g f.sn).shfCount g SHF_N.FORCED_SKIP).shfNext g f
      else Hw.shfDecide (s.shfSkip g SHF_N.FORCED_SKIP) g f n
    else if d < 8388608 then
      let s := (s.shfCount g SHF_N.WINDOW_JUMP).shfRaise EV_SHF.WINDOW_JUMP_EV
      (s.shfFlush g f.sn held.length).shfNext g f
    else s.shfCount g SHF_N.SEQ_LATE

/-- A frame that has passed the shim checks. -/
def Hw.shfAccept (s : Hw) (g : Nat) (f : HeldFrame) : Hw :=
  if s.rd (SHF_GRP_RX_STATUS.SN_SYNCED g) = 0 then
    ((s.wr (SHF_GRP_RX_STATUS.NEXT_SN g) f.sn).wr (SHF_GRP_RX_STATUS.SN_SYNCED g) 1).shfNext g f
  else s.shfDecide g f ((s.grp g).held.length + 2)

/-- The shim checks in order (R160). -/
def Hw.bondedRx (s : Hw) (c : Nat) (b : Bonded) : Hw :=
  let w := beAt b.bytes 0 4
  let g := b.group
  let hint := bitsOf w 24 3
  if b.bytes.length < 4 then s.shfCount g SHF_N.SHIM_SHORT
  else if bitsOf w 28 4 ≠ g then s.shfCount g SHF_N.GROUP_MISMATCH
  else if 3 < hint then s.shfCount g SHF_N.HINT_RSV
  else if s.st (memberFn g c) = 0 then s.shfCount g SHF_N.NOT_MEMBER
  else
    let s := s.onlyIf (hint ≠ c) (fun s => s.shfCount g SHF_N.HINT_MISMATCH)
    s.shfAccept g { sn := bitsOf w 0 24, chan := c, marker := bitN w 27 == 1, bytes := b.bytes.drop 4 }

/-- The channel whose FIFO is served: the first from the rotation's place on that holds a frame (R179). -/
def Hw.bondedTurn (s : Hw) : Option Nat :=
  ((List.range 4).map (fun i => (s.shf.turn + i) % 4)).find? (fun c => !(s.shf.inbox.get [] c).isEmpty)

/-- The oldest frame of channel `c`'s FIFO is taken; the rotation goes on to the next channel. -/
def Hw.bondedTake (s : Hw) (c : Nat) : Hw :=
  match s.shf.inbox.get [] c with
  | [] => s
  | b :: t =>
    let s := { s with shf := { s.shf with inbox := s.shf.inbox.set [] c t, turn := (c + 1) % 4 } }
    (s.bondedRx c b).poolUpdate 512

/-- The reorder timer of a group expires (R177). -/
def Hw.reorderTimeout (s : Hw) (g : Nat) : Hw :=
  if (s.grp g).held.isEmpty then s else (s.shfSkip g SHF_N.TIMEOUT_SKIP).poolUpdate 512

/-- The channel named does not decide which one is served (R179). -/
def execBondedFrameRx (_c : Fin 4) (s : State) : Host.Outcome State Fault Refusal :=
  s.on (fun s => match s.bondedTurn with
    | some c => s.bondedTake c
    | none => s)
/-- REORDER_TIMEOUT (R177). -/
def execReorderTimeout (g : Fin 16) (s : State) : Host.Outcome State Fault Refusal := s.on (·.reorderTimeout g)

/-! ## Timers of the member phases (R165, R167) -/

/-- JOIN_RETRY elapses after a placed request. -/
def Hw.joinRetryExpire (s : Hw) (g c : Nat) : Hw :=
  let m := s.mbr g c
  if s.phase g c = 1 ∧ s.ready c = true ∧ m.outstanding = true ∧ m.placed = true then
    let s := s.modMbr g c (fun m => { m with outstanding := false, placed := false })
    if s.rd (SHF_MBR_STATUS.TRIES g c) < s.joinTries g c then s.joinSend g c
    else (s.setPhase g c 5).shfRaise EV_SHF.JOIN_FAIL
  else s

/-- JOIN_RETRY_EXPIRE (R165). -/
def execJoinRetryExpire (g : Fin 16) (c : Fin 4) (s : State) : Host.Outcome State Fault Refusal :=
  s.on (·.joinRetryExpire g c)

/-- JOIN_RETRY (R165). -/
def execJoinRetry (m : Master) (g : Fin 16) (c : Fin 4) (v : Word) (s : State) : Host.Outcome State Fault Refusal :=
  s.on (fun s => s.onAccess m (SHF_MBR_CTRL.A g c) true (fun s =>
    (s.plainWrite (SHF_MBR_CTRL.A g c) v).onlyIf (getField v 1 1 = 1 ∧ s.phase g c = 5) (fun s => s.joinStart g c)))

/-- REJOIN_HOLD_EXPIRE (R165). -/
def execRejoinHoldExpire (g : Fin 16) (c : Fin 4) (s : State) : Host.Outcome State Fault Refusal :=
  s.on (fun s => s.onlyIf (s.phase g c = 6) (fun s => s.joinStart g c))

/-- The flush of a member in LEAVE_WAIT goes on: with its queues empty its LEAVE is sent. -/
def execLeaveFlushDrained (g : Fin 16) (c : Fin 4) (s : State) : Host.Outcome State Fault Refusal :=
  s.on (fun s => s.leaveFlush g c)

/-- LEAVE_TIMEOUT_EXPIRE (R165). -/
def execLeaveTimeoutExpire (g : Fin 16) (c : Fin 4) (s : State) : Host.Outcome State Fault Refusal :=
  s.on (fun s => s.onlyIf (s.phase g c = 4 ∧ (s.mbr g c).leaveSent = true) (fun s => s.memberLeft g c))

/-! ## Shedding (R180-R184) -/

/-- HELD is set on a member, and on its channel's shed unit: the unit stays in O5 and sleeps, so its hold is the entry of
`shedOff`, which HELD of TRK_PMA_STATUS shows and which stops no lifecycle (R181; log entry 172). -/
def Hw.shedMember (s : Hw) (g c : Nat) : Hw :=
  let f := memberFn g c
  let was := s.effEnable f
  let s := (s.wr f.HELD 1).modGrp g (fun x => { x with shedOff := c :: x.shedOff.erase c, woken := x.woken.erase c, shedCnt := 0 })
  let s := (s.shfCount g SHF_N.SHED_EVENTS).shfRaise EV_SHF.SHED_CHANGE
  if was then (s.lcDown f).memberStopping g c else s

/-- Sheaf's HELD is cleared on a member (a hold of the power controller stays), its channel is woken, and it joins when ready. -/
def Hw.addMember (s : Hw) (g c : Nat) : Hw :=
  let f := memberFn g c
  let s := (s.wr f.HELD (b2n (s.pwr.held.contains 11 || s.pwr.held.contains (15 + c)))).modGrp g (fun x => { x with shedOff := x.shedOff.erase c, woken := x.woken.erase c, shedCnt := 0 })
  let s := ((s.shfCount g SHF_N.SHED_EVENTS).shfRaise EV_SHF.SHED_CHANGE).pmWake c
  if s.effEnable f then
    let s := s.lcUp f
    if s.st f = 1 ∧ s.phase g c = 0 then s.joinStart g c else s
  else s

/-- The member a shed takes, and the one an add takes. -/
def Hw.shedPick (s : Hw) (g : Nat) : Option Nat :=
  (s.activeMembers g).reverse.find? (fun c => s.rd (SHF_CHAN_CFG.SHED_OK c) == 1)
/-- The member that is added next (R181). -/
def Hw.addPick (s : Hw) (g : Nat) : Option Nat := (List.range 4).find? (fun c => (s.grp g).shedOff.contains c)

/-- Some member is starting, stopping, joining or leaving. -/
def Hw.shedUnstable (s : Hw) (g : Nat) : Bool :=
  (List.range 4).any (fun c => s.st (memberFn g c) == 1 || s.st (memberFn g c) == 3 || s.phase g c == 1 || s.phase g c == 4)

/-- A shed channel the head end has woken is asked to sleep again while the evaluation still calls for the shed
(R184; log entry 30). -/
def Hw.sleepAgain (s : Hw) (g : Nat) : Hw :=
  let l := (s.grp g).woken
  (s.modGrp g (fun x => { x with woken := [] })).forAll l (fun s c => s.sleepRequest c)

/-- One member is added (R181). -/
def Hw.addOne (s : Hw) (g : Nat) : Hw := match s.addPick g with
  | some c => s.addMember g c
  | none => s
/-- One member is shed (R181). -/
def Hw.shedOne (s : Hw) (g : Nat) : Hw := match s.shedPick g with
  | some c => s.shedMember g c
  | none => s
/-- A decision that CEIL or FLOOR has limited is counted (R180, R482). -/
def Hw.shedClamp (s : Hw) (g : Nat) : Hw := s.count (SHF_SHED_CLAMP_COUNT.POLICY_CLAMP_COUNT g)

/-- The group's load over the past interval exceeds `pct` per cent of `m` members' capacity: octets × 8 over
EVAL × 10 ms in Mb/s, compared exactly (R180). -/
def Hw.loadAbove (s : Hw) (g octets m pct : Nat) : Bool :=
  decide (m * s.rd (SHF_SHED_CAP.C_UNIT g) * pct * (s.rd (SHF_SHED_CAP.EVAL g) * 10000) < octets * 800)
/-- The load is below what one member fewer would carry (R180). -/
def Hw.loadBelow (s : Hw) (g octets m pct : Nat) : Bool :=
  decide (octets * 800 < m * s.rd (SHF_SHED_CAP.C_UNIT g) * pct * (s.rd (SHF_SHED_CAP.EVAL g) * 10000))

/-- The decision of one evaluation for `n` ACTIVE members that have carried `octets` (R180, R182). -/
def Hw.shedJudge (s : Hw) (g n octets : Nat) : Hw :=
  if s.loadAbove g octets n (s.rd (SHF_SHED_CFG.HI_PCT g)) then
    let s := s.modGrp g (fun x => { x with shedCnt := 0 })
    if s.rd (SHF_SHED_CFG.CEIL g) ≤ n then s.shedClamp g else s.addOne g
  else if s.loadBelow g octets (n - 1) (s.rd (SHF_SHED_CFG.LO_PCT g)) then
    let k := (s.grp g).shedCnt + 1
    if k < s.rd (SHF_SHED_CFG.SHED_HOLD g) then s.modGrp g (fun x => { x with shedCnt := k })
    else if n ≤ s.rd (SHF_SHED_CFG.FLOOR g) then s.shedClamp g
    else s.shedOne g
  else s.modGrp g (fun x => { x with shedCnt := 0 })

/-- One evaluation over the octets of the past interval, the larger direction's. A member moved because the bounds
exclude their number counts one clamp (R482; log entry 154); where none can be moved, the load is judged. -/
def Hw.shedEval (s : Hw) (g : Nat) : Hw :=
  let octets := max (s.grp g).dsOctets (s.grp g).usOctets
  let s := s.modGrp g (fun x => { x with dsOctets := 0, usOctets := 0 })
  let n := (s.activeMembers g).length
  if s.rd (SHF_SHED_CFG.SHED_EN g) = 0 then s
  else if s.shedUnstable g then s.modGrp g (fun x => { x with shedCnt := 0 })
  else
    let s := s.onlyIf (s.loadBelow g octets n (s.rd (SHF_SHED_CFG.LO_PCT g)) = true) (fun s => s.sleepAgain g)
    if s.rd (SHF_SHED_CFG.CEIL g) < n ∧ (s.shedPick g).isSome = true then (s.shedClamp g).shedOne g
    else if n < s.rd (SHF_SHED_CFG.FLOOR g) ∧ (s.addPick g).isSome = true then (s.shedClamp g).addOne g
    else s.shedJudge g n octets

/-- L is what the group has carried, not an operand (R180). -/
def execShedEvaluate (g : Fin 16) (_load : Nat) (s : State) : Host.Outcome State Fault Refusal := s.on (·.shedEval g)

end Sys2Proof.Machine
end

