-- ==== Sys2Proof/Machine/TillerCore.lean ====
section
/-!
DEFINITION. Tasks as the pipelines, the engines and the power controller set them in motion (spec/14): routing and
refusal (R370, R372), ready lists, preemption (R376), dispatch and the end of a task, spread groups in ROUND_ROBIN mode
(R232), and the mirror queue to the twin (R458, R460).
-/
namespace Sys2Proof.Machine

def engFn (e : Nat) : Fn := .engine ⟨e % 64, Nat.mod_lt _ (by decide)⟩
def Hw.eng (s : Hw) (e : Nat) : Eng := s.til.engs.get {} e
def Hw.modEng (s : Hw) (e : Nat) (f : Eng → Eng) : Hw :=
  { s with til := { s.til with engs := s.til.engs.set {} e (f (s.eng e)) } }
def Hw.tilCount (s : Hw) (n : Nat) (k : Nat := 1) : Hw := s.count (TIL_CNT.COUNT n) k
def Hw.tilRaise (s : Hw) (bit : Nat) : Hw := s.raise 0x5800000 bit
def Hw.thrRaise (s : Hw) (bit : Nat) : Hw := s.raise 0x2000000 bit
def Hw.clsCount (s : Hw) (n : Nat) (k : Nat := 1) : Hw := s.count (THR_CLS_CNT.COUNT n) k
def Hw.engOn (s : Hw) (e : Nat) : Bool := s.st (engFn e) == 2

/-! ## The mirror queue (R458, R460) -/

/-- The local twin sends mirror records for blocks of `bit`. -/
def Hw.mirrors (s : Hw) (bit : Nat) : Bool :=
  s.rd TWN_STATUS.ROLE_STATE == 3 && s.rd TWN_CTRL.MIRROR_EN == 1 && s.rd TWN_STATUS.PEER_STATE == 1
    && s.rd TWN_STATUS.LINK_STATE == 2 && bitN (s.rd TWN_MIRROR_CFG.MIRROR_BLOCKS) bit == 1

/-- The queue of records, and its length in QUEUED. -/
def Hw.setMirror (s : Hw) (l : List MirRec) : Hw :=
  ({ s with twn := { s.twn with mirror := l } }).wr TWN_MIRROR_STATUS.QUEUED l.length

/-- A record is made; one that finds the queue full is lost. -/
def Hw.mirrorPush (s : Hw) (r : MirRec) : Hw :=
  if s.mirrors r.block then
    if s.twn.mirror.length < 4096 then s.setMirror (s.twn.mirror ++ [r])
    else
      let s := (s.twnCount 7).twnRaise EV_TWN.MIRROR_OVF_EV
      { s with twn := { s.twn with mirrorLost := true } }
  else s

/-! ## Routing (R370, R372) -/

/-- A cluster has an engine ON and is not draining. -/
def Hw.clusterUp (s : Hw) (k : Nat) : Bool :=
  (List.range 8).any (fun j => s.engOn (8 * k + j)) && s.rd (TIL_CL_STATUS.DRAINING k) == 0

/-- Tasks in the ready lists of a cluster. -/
def Hw.readyCount (s : Hw) (k : Nat) : Nat := (s.til.ready.filter (fun t => t.engine / 8 == k)).length

/-- Free descriptors of the pool. -/
def Hw.freeDescs (s : Hw) : Nat := 65536 - (s.til.ready.length + s.til.delay.length)

/-- Where a task goes when it is created or falls due, and whether that redirects it; none where no engine can have
it (R372). -/
def Hw.taskRoute (s : Hw) (t : Task) : Option (Task × Bool) :=
  let k := t.engine / 8
  if s.clusterUp k then
    if !t.any && !s.engOn t.engine then some ({ t with any := true }, true) else some (t, false)
  else
    let f := s.rd (TIL_CL_CFG.FALLBACK k)
    if s.rd (TIL_CL_CFG.FALLBACK_EN k) = 1 ∧ s.clusterUp f = true then some ({ t with engine := 8 * f, any := true }, true)
    else none

/-! ## Spread numbers (R232, R233) -/

def Hw.spread (s : Hw) (g : Nat) : SpreadRun := s.thr.spreads.get {} g
def Hw.modSpread (s : Hw) (g : Nat) (f : SpreadRun → SpreadRun) : Hw :=
  { s with thr := { s.thr with spreads := s.thr.spreads.set {} g (f (s.spread g)) } }

/-- The packets waiting for the oldest number's turn enter their queues, and released numbers leave, in order. -/
def Hw.spreadDrain (s : Hw) (g : Nat) : Nat → Hw
  | 0 => s
  | n + 1 =>
    match (s.spread g).out with
    | [] => s
    | h :: t =>
      let s := s.forAll h.pkts (fun s e => s.enqueue e.1 e.2)
      if h.done then Hw.spreadDrain (s.modSpread g (fun x => { x with out := t })) g n
      else s.modSpread g (fun x => { x with out := { h with pkts := [] } :: t })

def Hw.spreadGo (s : Hw) (g : Nat) : Hw := s.spreadDrain g ((s.spread g).out.length + 1)

/-- A number is released: its task has ended. -/
def Hw.spreadRelease (s : Hw) (g seq : Nat) : Hw :=
  (s.modSpread g (fun x => { x with out := x.out.map (fun n => if n.seq = seq then { n with done := true } else n) })).spreadGo g

/-- A packet returned for a number waits for its turn; one for a number that was skipped is discarded. -/
def Hw.spreadReturn (s : Hw) (g seq q : Nat) (p : Pkt) : Hw :=
  if (s.spread g).out.any (fun n => n.seq == seq) then
    (s.modSpread g (fun x => { x with out := x.out.map (fun n =>
      if n.seq = seq then { n with pkts := n.pkts ++ [(q, p)] } else n) })).spreadGo g
  else s.clsCount 18

/-! ## The life of a task -/

/-- Word `w` of a task's descriptor. -/
def Task.word (t : Task) (w : Nat) : Word := t.desc.getD w 0#32
/-- The spread number a task carries. -/
def Task.spread (t : Task) : Option (Nat × Nat) :=
  if getField (t.word 0) 20 1 = 1 then some (getField (t.word 4) 0 6, getField (t.word 4) 16 16) else none

/-- A task is over: its packet is gone and its spread number released. -/
def Hw.taskOver (s : Hw) (t : Task) : Hw :=
  let s := match t.spread with
    | some n => s.spreadRelease n.1 n.2
    | none => s
  match t.pkt with
  | some p => s.poolUpdate p.source
  | none => s

/-- A task no engine can take (R372). -/
def Hw.taskNoEngine (s : Hw) (t : Task) : Hw := ((s.tilCount 2).tilRaise EV_TIL.NO_ENGINE_EV).taskOver t

/-- Octet `off` of an engine's data memory takes a value. -/
def Hw.dmemPut (s : Hw) (e off : Nat) (b : Byte) : Hw :=
  s.ts ⟨DMEM.E e (off / 64), 8 * (off % 64), 8⟩ b.toNat
/-- A run of octets stored in an engine's data memory. -/
def Hw.dmemStore (s : Hw) (e off : Nat) : Bytes → Hw
  | [] => s
  | b :: t => Hw.dmemStore (s.dmemPut e off b) e (off + 1) t
/-- Octets read from an engine's data memory. -/
def Hw.dmemBytes (s : Hw) (e off n : Nat) : Bytes :=
  (List.range n).map (fun i => BitVec.ofNat 8 (s.t ⟨DMEM.E e ((off + i) / 64), 8 * ((off + i) % 64), 8⟩))

/-- Offset of a task frame in data memory (R363). -/
abbrev frameBase (f : Nat) : Nat := 0x1F800 + 0x400 * f

/-- A free frame is filled and the engine starts the program on the task (R363, R369). -/
def Hw.taskStart (s : Hw) (e f : Nat) (t : Task) : Hw :=
  let le := fun (l : List Word) => (l.map (fun w => leBytes 4 w.toNat)).flatten
  let s := s.dmemStore e (frameBase f) (le t.desc ++ List.replicate (64 - 4 * t.desc.length) 0)
  let s := s.dmemStore e (frameBase f + 0x40) (le t.parse ++ List.replicate (64 - 4 * t.parse.length) 0)
  let s := s.dmemStore e (frameBase f + 0xC0) ((t.pkt.map (fun p => p.bytes.take 256)).getD [])
  let s := s.modEng e (fun x => { x with run := some t, frame := f })
  let s := (s.wr (ENG_CMD.FRAME e) f).wr (ENG_CMD.NO_PREEMPT e) 0
  (((s.wr (ENG_STATUS.RUNNING e) 1).wr (ENG_STATUS.RUN_PRIO e) t.prio).count (ENG_CNT.COUNT e 0)).perf e 3

/-- Engines of its cluster a task may use. -/
def Hw.usable (s : Hw) (t : Task) : List Nat :=
  if t.any then ((List.range 8).map (fun j => 8 * (t.engine / 8) + j)).filter s.engOn
  else [t.engine].filter s.engOn

/-- A task's priority lets it preempt in its cluster. -/
def Hw.mayPreempt (s : Hw) (t : Task) : Bool :=
  s.rd (TIL_CL_CFG.PREEMPT_EN (t.engine / 8)) == 1 && decide (t.prio ≤ s.rd (TIL_CL_CFG.PREEMPT_PRIO (t.engine / 8)))

/-- Priority number of an engine's running task. -/
def Hw.runPrio (s : Hw) (e : Nat) : Nat := ((s.eng e).run.map Task.prio).getD 0

/-- The engine a ready task preempts, when every engine it may use is busy (R376). -/
def Hw.victim (s : Hw) (t : Task) : Option Nat :=
  let l := s.usable t
  if s.mayPreempt t && !l.isEmpty && l.all (fun e => (s.eng e).run.isSome) then
    (l.filter (fun e => decide (t.prio < s.runPrio e) && (s.eng e).pre.isNone && s.rd (ENG_CMD.NO_PREEMPT e) == 0)).foldl
      (fun b e => match b with
        | none => some e
        | some x => if s.runPrio x < s.runPrio e then some e else some x) none
  else none

/-- The running context goes to the save area: 256 octets the spec does not describe (free values). -/
def Hw.saveContext (s : Hw) (e f : Nat) : Hw :=
  s.forAll (List.range 64) (fun s i =>
    (s.ts ⟨DMEM.E e ((frameBase f + 0x1C0 + 4 * i) / 64), 8 * ((frameBase f + 0x1C0 + 4 * i) % 64), 32⟩ (s.draw 14)).drawn)

/-- Engine `e` puts its task aside and starts `t` in its other frame. -/
def Hw.preempt (s : Hw) (e : Nat) (t : Task) : Hw :=
  match (s.eng e).run with
  | none => s
  | some old =>
    let f := (s.eng e).frame
    let s := ((s.perf e 5).saveContext e f).modEng e (fun x => { x with pre := some (old, f) })
    let s := (s.wr (ENG_STATUS.PREEMPTED e) 1).count (ENG_CNT.COUNT e 3)
    (s.tilCount 6).taskStart e (1 - f) t

/-- A task enters a ready list, and preempts where it may. -/
def Hw.taskEnter (s : Hw) (t : Task) : Hw :=
  match s.victim t with
  | some e => s.preempt e t
  | none => { s with til := { s.til with ready := s.til.ready ++ [t] } }

/-- A classifier task is offered to the Tiller: accepted, discarded, or refused (false), which the pipeline holds for
(R370). -/
def Hw.taskOffer (s : Hw) (t : Task) : Hw × Bool :=
  match s.taskRoute t with
  | none => (s.taskNoEngine t, true)
  | some (t, moved) =>
    let k := t.engine / 8
    if s.freeDescs ≤ s.rd TIL_CFG.POOL_RESERVE ∨ s.rd (TIL_CL_CFG.CL_QUOTA k) ≤ s.readyCount k then
      if s.rd (TIL_CL_CFG.BP_MODE k) = 1 then ((s.tilCount 0).taskOver t, true)
      else if s.rd (TIL_CL_STATUS.BP k) = 1 then (s, false)
      else ((s.wr (TIL_CL_STATUS.BP k) 1).tilRaise EV_TIL.BP_ON, false)
    else
      let s := (s.wr (TIL_CL_STATUS.BP k) 0).onlyIf (moved = true) (·.tilCount 1)
      (s.taskEnter t, true)

/-- The first ready task, of the highest priority, among those that satisfy `p` (R369). -/
def Hw.bestReady (s : Hw) (p : Task → Bool) : Option Task :=
  (s.til.ready.filter p).foldl (fun b t => match b with
    | none => some t
    | some x => if t.prio < x.prio then some t else some x) none

/-- Engine `e` may run a ready task. -/
def Task.fits (t : Task) (e : Nat) : Bool := if t.any then t.engine / 8 == e / 8 else t.engine == e

def Hw.unready (s : Hw) (t : Task) : Hw := { s with til := { s.til with ready := s.til.ready.erase t } }

/-- The preempting task is over: another that may preempt and outranks the preempted one, or that one again (R376). An
engine that is not ON takes no new task (R377). -/
def Hw.resumePre (s : Hw) (e : Nat) : Hw :=
  match (s.eng e).pre with
  | none => s
  | some (old, f) =>
    match s.bestReady (fun t => s.engOn e && t.fits e && s.mayPreempt t && decide (t.prio < old.prio)) with
    | some t => (s.unready t).taskStart e (1 - f) t
    | none =>
      let s := s.modEng e (fun x => { x with run := some old, frame := f, pre := none })
      let s := (s.wr (ENG_CMD.FRAME e) f).wr (ENG_STATUS.PREEMPTED e) 0
      (s.wr (ENG_STATUS.RUNNING e) 1).wr (ENG_STATUS.RUN_PRIO e) old.prio

/-- The running task of engine `e` is over (R367, R378). -/
def Hw.engineFree (s : Hw) (e : Nat) : Hw :=
  let s := match (s.eng e).run with
    | some t => (s.modEng e (fun x => { x with run := none })).taskOver t
    | none => s
  ((s.wr (ENG_STATUS.RUNNING e) 0).wr (ENG_STATUS.RUN_PRIO e) 0).resumePre e

end Sys2Proof.Machine
end

