-- ==== Sys2Proof/Machine/Parser.lean ====
section
/-!
DEFINITION. The Thresher parser (spec/07): where a walk starts, the walk over built-in and programmable nodes, regions
and Chaff reasons, the parse record.
-/
namespace Sys2Proof.Machine

/-- The big-endian value of `n` octets from offset `i`, octets beyond the end reading 0. -/
def rdz (bs : Bytes) (i n : Nat) : Nat := (List.range n).foldl (fun v k => v * 256 + byteAt bs (i + k)) 0

/-- What a node makes of its header: length, key ("—" is none), octets read from its first one on. -/
structure Hdr where
  len : Nat
  key : Option Nat
  reads : Nat

/-- Octets through the bottom of an MPLS stack of at most 16 entries; none without one. -/
def mplsStack (bs : Bytes) (o : Nat) : Nat → Nat → Option Nat
  | 0, _ => none
  | n + 1, i => if bitN (byteAt bs (o + 4 * i + 2)) 0 = 1 then some (4 * (i + 1)) else mplsStack bs o n (i + 1)

/-- The end of a chain of GTP-U extension headers from offset `i` whose type octet lies just before, octets read, and
whether a length octet of 0 ended it. -/
def gtpChain (bs : Bytes) : Nat → Nat → Nat × Nat × Bool
  | 0, i => (i, i, false)
  | n + 1, i =>
    if byteAt bs (i - 1) = 0 then (i, i, false)
    else if byteAt bs i = 0 then (i, i + 1, true)
    else gtpChain bs n (i + 4 * byteAt bs i)

/-- A GTP-U header's end, octets read, and the zero-length flag. -/
def gtpEnd (bs : Bytes) (o : Nat) : Nat × Nat × Bool :=
  let fl := byteAt bs o % 8
  if fl = 0 then (o + 8, o + 8, false)
  else if fl / 4 = 0 then (o + 12, o + 12, false)
  else gtpChain bs bs.length (o + 12)

/-- The built-in nodes (R192). `bs` is the frame without its FCS; bit 5 of the TCI octet is SC (PRESUMED, IEEE 802.1AE;
log entry 31). -/
def builtin (node : Nat) (bs : Bytes) (o : Nat) : Hdr :=
  match node with
  | 0 => ⟨14, some (rdz bs (o + 12) 2), 14⟩
  | 1 => ⟨4, some (rdz bs (o + 2) 2), 4⟩
  | 2 => ⟨4, some (rdz bs (o + 2) 2), 4⟩
  | 3 => ⟨4, some (rdz bs (o + 2) 2), 4⟩
  | 4 => if rdz bs o 3 = 0xAAAA03 then ⟨8, some (rdz bs (o + 6) 2), 8⟩ else ⟨3, none, 3⟩
  | 5 => match mplsStack bs o 16 0 with
    | some l => ⟨l, some (byteAt bs (o + l) / 16), l + 1⟩
    | none => ⟨64, none, 64⟩
  | 6 => ⟨4, some 0, 4⟩
  | 7 => ⟨6, none, 6⟩
  | 8 => ⟨8, some (rdz bs (o + 6) 2), 8⟩
  | 9 => ⟨28, none, 0⟩
  | 10 => ⟨byteAt bs o % 16 * 4, if rdz bs (o + 6) 2 % 8192 ≠ 0 then none else some (byteAt bs (o + 9)), 10⟩
  | 11 => ⟨40, some (byteAt bs (o + 6)), 7⟩
  | 12 => ⟨(byteAt bs (o + 1) + 1) * 8, some (byteAt bs o), 2⟩
  | 13 => ⟨(byteAt bs (o + 1) + 1) * 8, some (byteAt bs o), 2⟩
  | 14 => ⟨8, if rdz bs (o + 2) 2 / 8 ≠ 0 then none else some (byteAt bs o), 4⟩
  | 15 => ⟨(byteAt bs (o + 1) + 1) * 8, some (byteAt bs o), 2⟩
  | 16 => ⟨(byteAt bs (o + 1) + 2) * 4, some (byteAt bs o), 2⟩
  | 17 => ⟨8, none, 0⟩
  | 18 => ⟨byteAt bs (o + 12) / 16 * 4, none, 13⟩
  | 19 => ⟨8, some (rdz bs (o + 2) 2), 4⟩
  | 20 => ⟨12, none, 0⟩
  | 24 =>
    let f := byteAt bs o
    ⟨4 + 4 * (bitN f 7 + bitN f 5 + bitN f 4), some (rdz bs (o + 2) 2), 4⟩
  | 25 => ⟨8, some 0, 0⟩
  | 26 => ⟨8 + byteAt bs o % 64 * 4, some (rdz bs (o + 2) 2), 4⟩
  | 27 =>
    let e := gtpEnd bs o
    if byteAt bs (o + 1) = 255 ∧ e.2.2 = false then ⟨e.1 - o, some (byteAt bs e.1 / 16), e.1 + 1 - o⟩
    else ⟨e.1 - o, none, e.2.1 - o⟩
  | 28 => ⟨34, none, 0⟩
  | 29 => ⟨4, none, 0⟩
  | 30 => ⟨if bitN (byteAt bs o) 5 = 1 then 16 else 8, none, 1⟩
  | 31 => ⟨1, none, 0⟩
  | _ => ⟨8, none, 0⟩

/-- Next node by a type field (ETH, VLAN, SNAP). -/
def byType (k : Nat) : Option Nat :=
  if k ≤ 1500 then some 4
  else match k with
    | 0x8100 => some 1
    | 0x88A8 => some 2
    | 0x9100 => some 3
    | 0x8847 => some 5
    | 0x8848 => some 5
    | 0x8863 => some 7
    | 0x8864 => some 8
    | 0x0806 => some 9
    | 0x0800 => some 10
    | 0x86DD => some 11
    | 0x88F7 => some 28
    | 0x8902 => some 29
    | 0x88E5 => some 30
    | 0x8809 => some 31
    | _ => none

/-- Next node by an IP protocol or next-header value. -/
def byProto (v6 : Bool) (k : Nat) : Option Nat :=
  match k with
  | 1 => if v6 then none else some 21
  | 2 => some 23
  | 4 => some 10
  | 6 => some 18
  | 17 => some 19
  | 41 => some 11
  | 47 => some 24
  | 50 => some 17
  | 51 => some 16
  | 132 => some 20
  | 58 => if v6 then some 22 else none
  | 0 => if v6 then some 12 else none
  | 43 => if v6 then some 13 else none
  | 44 => if v6 then some 14 else none
  | 60 => if v6 then some 15 else none
  | _ => none

/-- The built-in next node of a key (R192). -/
def builtinNext (node k : Nat) : Option Nat :=
  match node with
  | 0 => byType k
  | 1 => byType k
  | 2 => byType k
  | 3 => byType k
  | 4 => byType k
  | 5 => match k with
    | 0 => some 6
    | 4 => some 10
    | 6 => some 11
    | _ => none
  | 6 => some 0
  | 8 => match k with
    | 0x0021 => some 10
    | 0x0057 => some 11
    | _ => none
  | 10 => byProto false k
  | 11 => byProto true k
  | 12 => byProto true k
  | 13 => byProto true k
  | 14 => byProto true k
  | 15 => byProto true k
  | 16 => byProto true k
  | 19 => match k with
    | 319 => some 28
    | 320 => some 28
    | 2152 => some 27
    | 4789 => some 25
    | 6081 => some 26
    | _ => none
  | 24 => tunnelType k
  | 25 => some 0
  | 26 => tunnelType k
  | 27 => match k with
    | 4 => some 10
    | 6 => some 11
    | _ => none
  | _ => none
where
  /-- Next node by the protocol type of GRE and GENEVE. -/
  tunnelType (k : Nat) : Option Nat := match k with
    | 0x0800 => some 10
    | 0x86DD => some 11
    | 0x6558 => some 0
    | 0x8847 => some 5
    | _ => none

/-- Layer of a built-in node (R192). -/
def builtinLayer (node : Nat) : Nat :=
  if node = 0 then 1 else if node = 10 ∨ node = 11 then 2 else if 18 ≤ node ∧ node ≤ 23 then 3 else 0

abbrev isExt (n : Nat) : Bool := decide (12 ≤ n ∧ n ≤ 16)
abbrev isIp (n : Nat) : Bool := n == 10 || n == 11

/-- A programmable node's header (R195). -/
def Hw.progHdr (s : Hw) (i n : Nat) (bs : Bytes) (o : Nat) : Hdr :=
  let off := s.t (PRS_NODE.LEN_OFF i n)
  let computed := s.t (PRS_NODE.LEN_MODE i n) == 1
  let f := rdz bs (o + off) 2
  let len := if computed then
      ((f / 2 ^ s.t (PRS_NODE.LEN_SHIFT i n)) &&& s.t (PRS_NODE.LEN_MASK i n)) * 2 ^ s.t (PRS_NODE.LEN_MULT i n)
        + s.t (PRS_NODE.LEN_ADD i n)
    else s.t (PRS_NODE.FIXED_LEN i n)
  let r := if computed then off + 2 else 0
  match s.t (PRS_NODE.NXT_MODE i n) with
  | 1 =>
    let w := s.t (PRS_NODE.NXT_WIDTH i n) + 1
    let no := s.t (PRS_NODE.NXT_OFF i n)
    ⟨len, some (rdz bs (o + no) w), max r (no + w)⟩
  | 2 => ⟨len, some 0, r⟩
  | _ => ⟨len, none, r⟩

/-- A node is a programmable one that is not in use. -/
def Hw.nodeDead (s : Hw) (i n : Nat) : Bool := decide (32 ≤ n) && s.t (PRS_NODE.VALID i (n - 32)) == 0

/-- The next node (R190). -/
def Hw.nextNode (s : Hw) (i node : Nat) (key : Option Nat) : Option Nat :=
  match key with
  | none => none
  | some k =>
    let link := (s.listed 5 (2 + 4 * i)).find? (fun x => s.t (PRS_LINK.VALID i x) == 1 && s.t (PRS_LINK.PARENT i x) == node
      && (k &&& s.t (PRS_LINK.MASK i x)) == (s.t (PRS_LINK.VALUE i x) &&& s.t (PRS_LINK.MASK i x)))
    let nxt := match link with
      | some x => if s.t (PRS_LINK.CHILD i x) = 63 then none else some (s.t (PRS_LINK.CHILD i x))
      | none =>
        if node < 32 then builtinNext node k
        else if s.t (PRS_NODE.NXT_MODE i (node - 32)) = 2 then some (s.t (PRS_NODE.NXT_NODE i (node - 32)))
        else none
    match nxt with
    | some n => if s.nodeDead i n then none else some n
    | none => none

/-- Checks of a recorded header in ascending code order, `r` the end of its region: the reason, and the end of what the
header declares to hold, which is its region (R197, R198; PPPOE_DISC opens none, but nothing is walked behind it).
`eth` is the offset of the nearest ETH header. ETH_TYPE_GAP is checked for the type/length field of ETH and VLAN headers:
whether the rule's words take in the SNAP type of LLC_SNAP too is not said, and the model leaves that one unchecked
(DESIGN CHOICE, log entry 206). -/
def Hw.hdrCheck (s : Hw) (i node : Nat) (bs : Bytes) (o len r eth : Nat) : Nat × Option Nat :=
  let fail := fun (c : Nat) => ((c, none) : Nat × Option Nat)
  let ok := ((0, none) : Nat × Option Nat)
  if 32 ≤ node then
    if s.t (PRS_NODE.LEN_MODE i (node - 32)) = 1 ∧ (len < s.t (PRS_NODE.MIN_LEN i (node - 32))
        ∨ s.t (PRS_NODE.MAX_LEN i (node - 32)) < len) then fail 0x17
    else ok
  else if node ≤ 3 then
    let t := rdz bs (o + if node = 0 then 12 else 2) 2
    if 1501 ≤ t ∧ t ≤ 1535 then fail 0x04
    else if 1536 ≤ t then ok
    else if r < eth + 14 + t then fail 0x05 else (0, some (eth + 14 + t))
  else if isExt node then (if r < o + len then fail 0x10 else ok)
  else match node with
    | 5 => if (mplsStack bs o 16 0).isNone then fail 0x06 else ok
    | 7 | 8 =>
      let e := o + 6 + rdz bs (o + 4) 2
      if byteAt bs o ≠ 0x11 then fail 0x07 else if r < e then fail 0x08 else (0, some e)
    | 10 =>
      let tot := rdz bs (o + 2) 2
      if byteAt bs o / 16 ≠ 4 then fail 0x09
      else if len < 20 then fail 0x0A
      else if tot < len then fail 0x0B
      else if r < o + tot then fail 0x0C
      else if s.rd (THR_PRS_CFG.IPV4_CSUM_EN i) = 1 ∧ onesSum ((bs.drop o).take len) ≠ 65535 then fail 0x0D
      else (0, some (o + tot))
    | 11 =>
      let e := o + 40 + rdz bs (o + 4) 2
      if byteAt bs o / 16 ≠ 6 then fail 0x0E else if r < e then fail 0x0F else (0, some e)
    | 18 => if len < 20 then fail 0x13 else if r < o + len then fail 0x14 else ok
    | 19 =>
      let u := rdz bs (o + 4) 2
      if u < 8 then fail 0x11 else if r < o + u then fail 0x12 else (0, some (o + u))
    | 24 => if byteAt bs (o + 1) % 8 ≠ 0 then fail 0x15 else ok
    | 27 =>
      let e := o + 8 + rdz bs (o + 2) 2
      if r < e then fail 0x16 else if (gtpEnd bs o).2.2 then fail 0x18 else (0, some e)
    | _ => ok

/-- The walk's state beside the record: open regions, innermost first, as start and end; end of the last IP header's
region; offset of the nearest ETH header; the last header's node, level and tunnel mark. -/
structure Walk where
  regions : List (Nat × Nat) := []
  ip : Option Nat := none
  eth : Nat := 0
  last : Option (Nat × Nat × Bool) := none

/-- LEVEL of a header after another (R191). -/
def levelOf (last : Option (Nat × Nat × Bool)) (node : Nat) : Nat :=
  match last with
  | none => 0
  | some (p, l, tun) => if tun || (isIp node && (isIp p || isExt p)) then min 3 (l + 1) else l

/-- The walk (R189). -/
def Hw.walk (s : Hw) (i : Nat) (bs : Bytes) : Nat → Nat → Nat → Walk → ParseRec → ParseRec
  | 0, _, _, _, r => { r with depthStop := true }
  | n + 1, node, o, w, r =>
    if r.stack.length = 16 then { r with depthStop := true }
    else
      let h := if node < 32 then builtin node bs o else s.progHdr i (node - 32) bs o
      let ext := o + max h.len h.reads
      let level := levelOf w.last node
      let layer := if node < 32 then builtinLayer node else s.t (PRS_NODE.LAYER i (node - 32))
      let tun := if node < 32 then [5, 24, 25, 26, 27].contains node else s.t (PRS_NODE.TUNNEL i (node - 32)) == 1
      let long := decide (bs.length < ext)
      if !long && decide (256 < ext) then { r with depthStop := true }
      else
        let r := { r with
          stack := r.stack ++ [(o, node, level)]
          layers := r.layers ++ [layer]
          ipFrag := r.ipFrag || (node == 10 && rdz bs (o + 6) 2 % 16384 != 0) || node == 14 }
        let r := if 32 ≤ node ∧ s.t (PRS_NODE.EXT_EN i (node - 32)) = 1 then
            let x := rdz bs (o + s.t (PRS_NODE.EXT_OFF i (node - 32))) 4
            { r with user := r.user.set (s.t (PRS_NODE.EXT_SLOT i (node - 32))) x }
          else r
        let bad := fun (c : Nat) => ({ r with chaff := c, chaffHdr := r.stack.length - 1, chaffOff := o } : ParseRec)
        if long then bad 0x03
        else
          let eth := if node = 0 then o else w.eth
          let inner := ((w.regions.find? (fun g => decide (g.1 ≤ o ∧ o < g.2))).map Prod.snd).getD bs.length
          let reg := if isExt node then w.ip.getD inner else inner
          let c := s.hdrCheck i node bs o h.len reg eth
          if c.1 ≠ 0 then bad c.1
          else
            let r := match c.2 with
              | some e => if e < reg then { r with trailer := true } else r
              | none => r
            let w : Walk := {
              regions := c.2.toList.map (fun e => (if node ≤ 3 then eth else o, e)) ++ w.regions
              ip := if isIp node then c.2 else w.ip
              eth := eth
              last := some (node, level, tun) }
            match s.nextNode i node h.key with
            | none => r
            | some m => Hw.walk s i bs n m (o + h.len) w r

/-- Parsing a packet in instance `i` (R187, R188): the checks before the walk are made on the first pass. -/
def Hw.parse (s : Hw) (i : Nat) (p : Pkt) : ParseRec :=
  let start := s.t (PRS_START.START_NODE i p.source)
  let r : ParseRec := { frameLen := p.len, start := start, source := p.source }
  let trunkTwin := decide (520 ≤ p.source) || p.source == 514
  if p.pass = 1 ∧ p.len < 64 ∧ 512 ≤ p.source then { r with chaff := 0x01 }
  else if p.pass = 1 ∧ trunkTwin = true ∧ fcsOk p.bytes = false then { r with chaff := 0x02 }
  else if s.nodeDead i start then r
  else s.walk i (p.bytes.take (p.len - 4)) 18 start 0 {} r

/-! ## The record (R201) -/

/-- Stack index of the first header of a layer at LEVEL 0. -/
def ParseRec.outer (r : ParseRec) (layer : Nat) : Option Nat :=
  (List.range r.stack.length).find? (fun k => r.layers.getD k 0 == layer && (r.stack.getD k (0, 0, 0)).2.2 == 0)

/-- Stack index of the last header of a layer at LEVEL 1 or above. -/
def ParseRec.inner (r : ParseRec) (layer : Nat) : Option Nat :=
  (List.range r.stack.length).reverse.find? (fun k => r.layers.getD k 0 == layer && decide (1 ≤ (r.stack.getD k (0, 0, 0)).2.2))

/-- Offset of stack entry `k`. -/
def ParseRec.offset (r : ParseRec) (k : Nat) : Nat := (r.stack.getD k (0, 0, 0)).1
/-- Node of stack entry `k`. -/
def ParseRec.node (r : ParseRec) (k : Nat) : Nat := (r.stack.getD k (0, 0, 0)).2.1

/-- Word `w` of the record. An entry's OFFSET is 8 bits wide, and neither the record nor THR_PRS_CAPT says what it holds
for a TRUNC_HDR header that starts at byte 256: the model keeps the offset modulo 256 (DESIGN CHOICE, log entry 207). -/
def ParseRec.word (r : ParseRec) (w : Nat) : Nat :=
  let ptr := fun (x : Option Nat) => match x with
    | some k => 16 + k
    | none => 0
  let entry := fun (k : Nat) => match r.stack[k]? with
    | some (o, n, l) => o % 256 + n * 256 + l * 16384
    | none => 0
  match w with
  | 0 => r.stack.length + b2n r.depthStop * 2 ^ 5 + b2n r.trailer * 2 ^ 6 + b2n r.ipFrag * 2 ^ 7 + r.chaff * 2 ^ 8
      + (r.stack.foldl (fun m e => max m e.2.2) 0) * 2 ^ 14 + r.frameLen % 65536 * 2 ^ 16
  | 1 => ptr (r.inner 1) + ptr (r.outer 2) * 2 ^ 5 + ptr (r.outer 3) * 2 ^ 10 + ptr (r.inner 2) * 2 ^ 15
      + ptr (r.inner 3) * 2 ^ 20 + r.start * 2 ^ 25
  | 2 => r.source + r.chaffHdr * 2 ^ 10
  | 3 => (List.range 32).foldl (fun m n => m + b2n (r.stack.any (fun e => e.2.1 == n)) * 2 ^ n) 0
  | 4 => (List.range 16).foldl (fun m n => m + b2n (r.stack.any (fun e => e.2.1 == 32 + n)) * 2 ^ n) 0
  | 13 => r.user.getD 0 0
  | 14 => r.user.getD 1 0
  | 15 => r.user.getD 2 0
  | w => entry (2 * (w - 5)) + entry (2 * (w - 5) + 1) * 65536

/-- The sixteen words of the record. -/
def ParseRec.words (r : ParseRec) : List Word := (List.range 16).map (fun w => BitVec.ofNat 32 (r.word w))

end Sys2Proof.Machine
end

