-- ==== Sys2Proof/Machine/Classifier.lean ====
section
/-!
DEFINITION. Thresher classification (spec/08) and the pipelines (R25, R199): key, TCAM search, action, flow context,
bridging and learning, spreading, tasks, recirculation, and the commands of the classifier.
-/
namespace Sys2Proof.Machine

/-! ## Egress modification (R217) -/

/-- A VLAN tag stands at offset 12. -/
def tagged (bs : Bytes) : Bool := [0x8100, 0x88A8, 0x9100].contains (rdz bs 12 2)

/-- An ACTION takes off the outermost tags. -/
def popTags : Nat → Bytes → Bytes
  | 0, bs => bs
  | n + 1, bs => if tagged bs then popTags n (bs.take 12 ++ bs.drop 16) else bs

/-- An ACTION puts a tag on. -/
def pushTag (tpid vid pcp : Nat) (bs : Bytes) : Bytes :=
  bs.take 12 ++ beBytes 2 tpid ++ beBytes 2 (pcp % 8 * 8192 + vid % 4096) ++ bs.drop 12

/-- `n` octets at offset `i` replaced by a big-endian value. -/
def patch (bs : Bytes) (i n v : Nat) : Bytes := bs.take i ++ beBytes n v ++ bs.drop (i + n)

/-- The IPv4 header checksum at `o` made right. -/
def fixCsum (bs : Bytes) (o : Nat) : Bytes :=
  let len := byteAt bs o % 16 * 4
  let z := patch bs (o + 10) 2 0
  patch z (o + 10) 2 (65535 - onesSum ((z.drop o).take len))

/-- A frame without its FCS after profile `f` with data `d`; none when its TTL ends (R217). -/
def Hw.modify (s : Hw) (f d : Nat) (ip : Option Nat) (bs : Bytes) : Option Bytes :=
  if f = 0 then some bs
  else
    let out := popTags (s.t (MODIFY.POP f)) bs
    let push := s.t (MODIFY.PUSH f)
    let out := if push = 2 then pushTag 0x8100 (bitsOf d 16 12) (bitsOf d 28 3) out else out
    let out := if 1 ≤ push then pushTag (s.t (MODIFY.TPID f)) (bitsOf d 0 12) (bitsOf d 12 3) out else out
    let hasTag := decide (1 ≤ push) || tagged out
    let tci := rdz out 14 2
    let tci := if s.t (MODIFY.SET_VID f) = 1 then putBits tci 0 12 (bitsOf d 0 12) else tci
    let tci := if s.t (MODIFY.SET_PCP f) = 1 then putBits tci 13 3 (bitsOf d 12 3) else tci
    let out := if hasTag then patch out 14 2 tci else out
    match ip with
    | none => some out
    | some o =>
      let o := o + out.length - bs.length
      let v4 := byteAt out o / 16 == 4
      let out := if s.t (MODIFY.SET_DSCP f) = 1 then
          let ds := s.t (MODIFY.DSCP f)
          if v4 then fixCsum (patch out (o + 1) 1 (ds * 4 + byteAt out (o + 1) % 4)) o
          else patch out o 2 (putBits (rdz out o 2) 6 6 ds)
        else out
      if s.t (MODIFY.DEC_TTL f) = 1 then
        let at' := if v4 then o + 8 else o + 7
        if byteAt out at' ≤ 1 then none
        else
          let out := patch out at' 1 (byteAt out at' - 1)
          some (if v4 then fixCsum out o else out)
      else some out

/-! ## Copies (R199, R215, R216) -/

/-- A copy to a delivery ring. -/
def Hw.ringCopy (s : Hw) (r : Nat) (p : Pkt) : Hw := s.ringDeliver r { p with copy := true }

/-- A copy to a mirror session of pipeline `pipe`. -/
def Hw.mirrorCopy (s : Hw) (pipe ses : Nat) (p : Pkt) : Hw :=
  let cut := s.t (MIRROR.TRUNC ses) * 64
  let bytes := if cut ≠ 0 ∧ cut < p.len then p.bytes.take (cut - 4) ++ fcsOf (p.bytes.take (cut - 4)) else p.bytes
  let k : Pkt := { p with bytes := bytes, copy := true, spread := none, modProf := 0, tsReq := none, oneStep := false }
  if s.t (MIRROR.LOOP ses) = 0 then s.enqueue (s.t (MIRROR.DEST_Q ses)) k
  else (s.fifoPush pipe { k with source := 516, pass := 1, recircMeta := 0, chaff := 0 }).1

/-! ## Chaff (R199, R200) -/

/-- The quarantine of a pipeline: its queue takes the packet unclassified, in the class of its source. -/
def Hw.srcClass (s : Hw) (pipe : Nat) (p : Pkt) : Nat :=
  let x := pipe * 524 + p.source
  if s.t (SRC_CLASS.USE_PCP x) = 1 ∧ tagged p.bytes = true then
    bitsOf (s.t (SRC_CLASS.PCP_MAP x)) (3 * (rdz p.bytes 14 2 / 8192)) 3
  else s.t (SRC_CLASS.DEF_TC x)

/-- A Chaff packet of reason `code`: counted, captured, signalled, and its action taken. The Boolean says that the
packet goes on (a parser's reason under COPY or MIRROR). -/
def Hw.chaffAct (s : Hw) (pipe code : Nat) (p : Pkt) (r : ParseRec) : Hw × Bool :=
  let p := { p with chaff := code }
  let s := s.count (THR_CHAFF_CNT.COUNT pipe code)
  let s := s.onlyIf (s.t (CHAFF_ACT.INT_EN pipe code) = 1) (fun s => s.thrRaise (if pipe = 0 then EV_THR.CHAFF_A else EV_THR.CHAFF_B))
  let s := s.onlyIf (s.rd (THR_PRS_CAPT.VALID pipe) = 0) (fun s => s.setWord (THR_PRS_CAPT.A pipe)
    (BitVec.ofNat 32 (code + p.source * 2 ^ 6 + r.chaffHdr * 2 ^ 16 + r.chaffOff % 256 * 2 ^ 20 + 2 ^ 31)))
  let goes := decide (code < 0x30)
  match s.t (CHAFF_ACT.ACTION pipe code) with
  | 1 => (s.enqueue (s.rd (THR_PRS_CFG.QUAR_Q pipe)) { p with tc := s.srcClass pipe p, color := 0, modProf := 0, modData := 0 }, false)
  | 2 => (s.ringCopy (s.rd (THR_PRS_COPY.COPY_RING pipe)) p, goes)
  | 3 => (s.mirrorCopy pipe (s.rd (THR_PRS_COPY.MIRROR_SES pipe)) p, goes)
  | _ => (s, false)

/-! ## Hashes (R230, R231) -/

/-- The first VLAN header after the outer Ethernet header, wherever it stands behind it: its stack index (R226, R230). -/
def ParseRec.vlan (r : ParseRec) : Option Nat :=
  match (List.range r.stack.length).find? (fun k => r.node k == 0) with
  | some e => (List.range r.stack.length).find? (fun k => decide (e < k ∧ 1 ≤ r.node k ∧ r.node k ≤ 3))
  | none => none

/-- The outer IP header: stack index of the outer L3 header, where that is IPv4 or IPv6. -/
def ParseRec.ip (r : ParseRec) : Option Nat := (r.outer 2).filter (fun k => isIp (r.node k))

/-- The L4 header that extension headers alone part from stack entry `k - 1`. -/
def ParseRec.ledTo (r : ParseRec) : Nat → Nat → Option Nat
  | 0, _ => none
  | n + 1, k =>
    if r.stack.length ≤ k then none
    else if r.layers.getD k 0 = 3 then some k
    else if isExt (r.node k) then r.ledTo n (k + 1)
    else none

/-- The fields selected by `sel`, concatenated in bit order; USER0 is the record's word (log entry 33). -/
def hashInput (bs : Bytes) (r : ParseRec) (sel : Nat) (inner : Bool) : Bytes :=
  let l3 := if inner && (r.inner 2).isSome then r.inner 2 else r.outer 2
  let l4 := if inner && (r.inner 3).isSome then r.inner 3 else r.outer 3
  let pick := fun (b : Nat) (x : Bytes) => if bitN sel b = 1 then x else []
  let seg := fun (o n : Nat) => (List.range n).map (fun k => bs.getD (o + k) 0)
  let addr := fun (src : Bool) => match l3 with
    | none => []
    | some k =>
      let o := r.offset k
      if r.node k = 10 then seg (o + if src then 12 else 16) 4
      else if r.node k = 11 then seg (o + if src then 8 else 24) 16 else []
  let proto := match l3 with
    | none => []
    | some k =>
      if r.node k = 10 then seg (r.offset k + 9) 1
      else if r.node k = 11 then match r.ledTo 16 (k + 1) with
        | none => []
        | some j => seg (r.offset (j - 1) + if j = k + 1 then 6 else 0) 1
      else []
  let port := fun (src : Bool) => match l4 with
    | none => []
    | some j => if 18 ≤ r.node j ∧ r.node j ≤ 20 then seg (r.offset j + if src then 0 else 2) 2 else []
  let vid := match r.vlan with
    | some k => beBytes 2 (rdz bs (r.offset k) 2 % 4096)
    | none => []
  pick 0 (addr true) ++ pick 1 (addr false) ++ pick 2 proto ++ pick 3 (port true) ++ pick 4 (port false) ++ pick 5 vid
    ++ pick 6 (beBytes 4 (r.user.getD 0 0))

/-- FLOW_HASH; 0 with nothing selected or present. -/
def flowHash (x : Bytes) : Nat := if x.isEmpty then 0 else crc32c x

/-! ## Key and search (R205-R210) -/

/-- Octets a key may read: before the FCS and below offset 256. -/
def keyBytes (p : Pkt) : Bytes := (p.bytes.take (p.len - 4)).take 256

/-- Filtering identifier of the packet (R226). -/
def Hw.fid (s : Hw) (x : Nat) (p : Pkt) (r : ParseRec) : Nat :=
  match s.t (CLS_SRC.FID_MODE x), r.vlan with
  | 1, some k => rdz p.bytes (r.offset k) 2 % 4096
  | _, _ => s.t (CLS_SRC.FID x)

/-- Metadata word `w` (R206). -/
def Hw.metaWord (s : Hw) (x : Nat) (p : Pkt) (r : ParseRec) (w : Nat) : Nat :=
  match w with
  | 0 => p.source + p.pass * 2 ^ 10 + b2n r.depthStop * 2 ^ 12 + b2n r.trailer * 2 ^ 13 + b2n r.ipFrag * 2 ^ 14
      + r.chaff * 2 ^ 16 + (r.stack.foldl (fun m e => max m e.2.2) 0) * 2 ^ 22
  | 1 => p.recircMeta
  | 2 => s.t (CLS_SRC.SRC_TAG x) + s.fid x p r * 2 ^ 16
  | 3 => p.hash
  | _ => 0

/-- One segment by its descriptor. -/
def Hw.keySegment (s : Hw) (x : Nat) (p : Pkt) (r : ParseRec) (d : Nat) : Nat :=
  let off := bitsOf d 4 8
  let at' := fun (k : Option Nat) => match k with
    | some k => rdz (keyBytes p) (r.offset k + off) 4
    | none => 0
  match d % 16 with
  | 1 => s.metaWord x p r off
  | 2 => rdz (keyBytes p) off 4
  | 3 => at' (r.inner 1)
  | 4 => at' (r.outer 2)
  | 5 => at' (r.outer 3)
  | 6 => at' (r.inner 2)
  | 7 => at' (r.inner 3)
  | 8 => if off < 16 then r.word off else 0
  | _ => 0

/-- The 640-bit key. -/
def Hw.classKey (s : Hw) (pipe x : Nat) (p : Pkt) (r : ParseRec) : Nat :=
  let desc := s.t (KEY_PROFILE.DESC (p.epoch % 2) (pipe * 16 + s.t (CLS_SRC.PROFILE x)))
  (List.range 20).foldl (fun k i => k + s.keySegment x p r (bitsOf desc (16 * i) 16) * 2 ^ (32 * i)) 0

/-- A search of pipeline `pipe` in bank `bank` covers entry `x` of the TCAM. -/
def Hw.tcamCovers (s : Hw) (pipe bank x : Nat) : Bool :=
  let sl := x / 16384
  bitN (s.rd (THR_SLICE_CFG.DIR sl)) pipe == 1 && bitN (s.rd (THR_SLICE_CFG.BANK sl)) bank == 1
    && decide (x % 16384 < 4096 * 2 ^ s.rd (THR_SLICE_CFG.WIDTH sl))

/-- Entry `x` of the TCAM matches the key (R207-R209). -/
def Hw.tcamHit (s : Hw) (pipe bank key x : Nat) : Bool :=
  let sl := x / 16384
  let w := s.rd (THR_SLICE_CFG.WIDTH sl)
  let bits := 640 / 2 ^ w
  let win := if w = 0 then 0 else 160 * s.rd (THR_SLICE_CFG.QUARTER sl)
  let body := s.t (TCAM.BODY x)
  s.tcamCovers pipe bank x && s.t (TCAM.CTRL x) % 2 == 1 && !s.thr.upset.contains x
    && ((bitsOf key win bits ^^^ body % 2 ^ bits) &&& (body / 2 ^ bits % 2 ^ bits)) == 0

/-- The action of the first matching entry. -/
def Hw.tcamSearch (s : Hw) (pipe bank key : Nat) : Option Nat :=
  ((s.listed 5 9).find? (fun x => s.tcamHit pipe bank key x)).map (fun x => s.t (TCAM.CTRL x) / 65536)

/-- A search meets entries whose parity fails (R208). -/
def Hw.tcamParity (s : Hw) (pipe bank : Nat) : Hw :=
  s.onlyIf (s.thr.upset.any (fun x => s.tcamCovers pipe bank x) = true) (·.thrRaise EV.MEM_UNCORR)

/-! ## Bridging (R225-R229) -/

/-- First way of the bucket of a pair. -/
def bridgeBucket (fid mac : Nat) : Nat := crc32c (beBytes 2 fid ++ beBytes 6 mac) % 32768 * 8

/-- Address of a bridging entry. -/
def Hw.bridgeMac (s : Hw) (x : Nat) : Nat := s.t (BRIDGE.MAC_HI x) * 2 ^ 32 + s.t (BRIDGE.MAC_LO x)

/-- The lowest valid way that holds the pair. -/
def Hw.bridgeFind (s : Hw) (fid mac : Nat) : Option Nat :=
  ((List.range 8).map (fun w => bridgeBucket fid mac + w)).find? (fun x =>
    s.t (BRIDGE.VALID x) == 1 && s.t (BRIDGE.FID x) == fid && s.bridgeMac x == mac)

/-- The destination lookup: a group address finds only static entries (R227). -/
def Hw.bridgeDest (s : Hw) (fid mac : Nat) : Option Nat :=
  ((List.range 8).map (fun w => bridgeBucket fid mac + w)).find? (fun x =>
    s.t (BRIDGE.VALID x) == 1 && s.t (BRIDGE.FID x) == fid && s.bridgeMac x == mac
      && (bitN mac 40 == 0 || s.t (BRIDGE.STATIC x) == 1))

/-- The change of a bridging entry goes to the twin (R458). -/
def Hw.bridgeMirror (s : Hw) (x : Nat) : Hw :=
  s.mirrorPush { kind := 0, block := 0, seg := 0, table := 14, index := x
                 data := (List.range 4).map (fun w => s.tabWord (BRIDGE.E x + w)) }

/-- An entry as learning writes it. -/
def bridgeEntry (fid src mac queue : Nat) : Nat :=
  1 + 4 + fid * 2 ^ 4 + src * 2 ^ 16 + mac % 2 ^ 48 * 2 ^ 32 + queue * 2 ^ 96

/-- One more learning write or record in this millisecond; false beyond LEARN_RATE (R228). -/
def Hw.learnRate (s : Hw) : Hw × Bool :=
  let ms := s.clk / 1000000
  let n := if s.thr.learnMs = ms then s.thr.learned else 0
  let rate := s.rd THR_CLS_CFG.LEARN_RATE
  if rate ≠ 0 ∧ rate ≤ n then (s.clsCount 9, false)
  else ({ s with thr := { s.thr with learned := n + 1, learnMs := ms } }, true)

/-- A notify record to the learning ring. -/
def Hw.learnNotify (s : Hw) (x : Nat) (p : Pkt) (entry : Nat) : Hw :=
  let r := s.learnRate
  if r.2 then r.1.ringDeliver (s.t (CLS_SRC.LEARN_RING x)) { bytes := leBytes 16 entry, source := p.source } else r.1

/-- The source lookup (R228). -/
def Hw.learn (s : Hw) (x : Nat) (p : Pkt) (fid : Nat) : Hw :=
  let mac := rdz p.bytes 6 6
  let mode := s.t (CLS_SRC.LEARN x)
  let entry := bridgeEntry fid p.source mac (s.t (CLS_SRC.LEARN_Q x))
  if mode ≠ 1 ∧ mode ≠ 2 then s
  else match s.bridgeFind fid mac with
    | some w =>
      if s.t (BRIDGE.SRC w) = p.source then s.ts (BRIDGE.HIT w) 1
      else if s.t (BRIDGE.STATIC w) = 1 then (s.clsCount 11).thrRaise EV_THR.STATIC_MOVE_EV
      else if mode = 2 then s.learnNotify x p entry
      else
        let r := s.learnRate
        if r.2 then (((r.1.setTabWords (BRIDGE.E w) 4 entry).clsCount 10).bridgeMirror w) else r.1
    | none =>
      if mode = 2 then s.learnNotify x p entry
      else match ((List.range 8).map (fun w => bridgeBucket fid mac + w)).find? (fun w => s.t (BRIDGE.VALID w) == 0) with
        | none => (s.clsCount 8).thrRaise EV_THR.LEARN_FULL
        | some w =>
          let r := s.learnRate
          if r.2 then (((r.1.setTabWords (BRIDGE.E w) 4 entry).clsCount 6).bridgeMirror w) else r.1

/-- The sweep (R229). -/
def Hw.ageSweep (s : Hw) : Hw :=
  if s.rd THR_CLS_CFG.AGE_TIME = 0 then s
  else s.forAll (s.listed 5 14) (fun s x =>
    if s.t (BRIDGE.VALID x) = 0 ∨ s.t (BRIDGE.STATIC x) = 1 then s
    else if s.t (BRIDGE.HIT x) = 1 then s.ts (BRIDGE.HIT x) 0
    else (((s.ts (BRIDGE.VALID x) 0).clsCount 12).bridgeMirror x))

/-! ## Flow contexts (R219-R224) -/

/-- Offset of a flow's record in the external window. -/
def Hw.ctxAddr (s : Hw) (f : Nat) : Nat := s.rd THR_CTX_BASE.BLOCK * 0x4000000 + 64 * f

/-- The cache entry that holds flow `f` (R222). -/
def Hw.ctxFind (s : Hw) (f : Nat) : Option CtxRec := s.thr.cache.find? (fun r => r.flow == f)
def Hw.setCache (s : Hw) (l : List CtxRec) : Hw := { s with thr := { s.thr with cache := l } }

/-- Words 2-4 of a record go back to memory. -/
def Hw.ctxWriteBack (s : Hw) (r : CtxRec) : Hw :=
  s.memWrite (s.ctxAddr r.flow + 16) (((List.range 3).map (fun i => leBytes 8 (r.words.getD (2 + i) 0))).flatten)

/-- A record enters the cache; the least recently used of a full set leaves it. -/
def Hw.ctxInsert (s : Hw) (r : CtxRec) : Hw :=
  let same := s.thr.cache.filter (fun x => Config.ctxSet x.flow == Config.ctxSet r.flow)
  if 16 ≤ same.length then
    match same.getLast? with
    | some v => (s.ctxWriteBack v).setCache (r :: s.thr.cache.erase v)
    | none => s
  else s.setCache (r :: s.thr.cache)

/-- The record of a flow as memory holds it. -/
def Hw.ctxRead (s : Hw) (mem : List Host.Cell) (f : Nat) : List Nat :=
  (List.range 8).map (fun w => leNat (s.memBytes mem (s.ctxAddr f + 8 * w) 8))

/-- A packet uses its record: the hardware-maintained words follow, and it is the most recently used (R221). -/
def Hw.ctxTouch (s : Hw) (r : CtxRec) (len : Nat) : Hw :=
  let w := r.words
  let now := s.tim.now
  let w := ((w.set 2 ((w.getD 2 0 + 1) % 2 ^ 64)).set 3 ((w.getD 3 0 + len) % 2 ^ 64)).set 4
    (now.sec % 2 ^ 32 * 2 ^ 32 + now.ns)
  let rest := s.thr.cache.filter (fun x => x.flow != r.flow)
  s.setCache ((if r.words.getD 0 0 % 2 = 1 then { r with words := w } else r) :: rest)

/-- An action's entry as step 3 of R204 fetches it: its eight words. -/
def Hw.actEntry (s : Hw) (a : Nat) : Nat :=
  (List.range 8).foldl (fun n w => n + (s.tabWord (ACTION.E a + w)).toNat * 2 ^ (32 * w)) 0

/-- A field of a fetched entry, by its place in the table. -/
abbrev actF (e : Nat) (f : TRef) : Nat := bitsOf e f.lo f.width

/-- Flow of a packet under an action; none without one (R219). -/
def Hw.flowOf (s : Hw) (e : Nat) (r : ParseRec) : Option Nat :=
  if s.rd THR_CTX_BASE.CTX_EN = 0 then none
  else match actF e (ACTION.FLOW_MODE 0) with
    | 1 => some (actF e (ACTION.FLOW_ID 0))
    | 2 => some ((actF e (ACTION.FLOW_ID 0) + (r.user.getD 0 0 &&& actF e (ACTION.FLOW_MASK 0))) % 2 ^ 20)
    | _ => none

/-! ## Tasks of the classifier (R218, R231, R232, R364) -/

/-- A classifier task (R363). -/
def mkTask (pipe e : Nat) (p : Pkt) (r : ParseRec) (sw : List Nat) (engine : Nat) (any : Bool)
    (spread : Option (Nat × Nat)) : Task :=
  let n := spread.getD (0, 0)
  let ts := p.rxTs.getD (0, 0)
  let prio := actF e (ACTION.TASK_PRIO 0)
  let words : List Nat := [
    actF e (ACTION.TASK_TYPE 0) + prio * 2 ^ 12 + 2 ^ 17 + b2n p.tainted * 2 ^ 18 + b2n p.rxTs.isSome * 2 ^ 19
      + b2n spread.isSome * 2 ^ 20 + 2 ^ 21,
    actF e (ACTION.TASK_ARG 0), p.flowId + p.source * 2 ^ 20,
    p.len + p.tc * 2 ^ 14 + p.color * 2 ^ 17 + p.pass * 2 ^ 19, n.1 + n.2 * 2 ^ 16, 0, ts.2, ts.1]
    ++ (sw.map (fun w => [w % 2 ^ 32, w / 2 ^ 32])).flatten ++ [0, 0]
  { desc := words.map (fun w => BitVec.ofNat 32 w), parse := r.words, pkt := some { p with spread := spread }
    ds := pipe == 0, engine := engine, any := any, prio := prio }

/-- Cells can be had for a task's packet. -/
def Hw.taskRoom (s : Hw) (pipe : Nat) (p : Pkt) : Bool :=
  let max := if pipe = 0 then s.rd GRN_POOL_DS.SHARED_MAX else s.rd GRN_POOL_US.SHARED_MAX
  decide (p.cells ≤ s.freeCells ∧ s.sharedUsed (pipe == 0) + p.cells ≤ max)

def Hw.hold (s : Hw) (w : Waiting) : Hw := { s with thr := { s.thr with held := s.thr.held ++ [w] } }

/-- A task is offered; a refused one holds its pipeline. -/
def Hw.taskGo (s : Hw) (w : Waiting) : Hw :=
  let r := s.taskOffer w.task
  if r.2 then (match w.task.pkt with
    | some p => r.1.poolUpdate p.source
    | none => r.1) else r.1.hold w

/-- A task verdict. -/
def Hw.taskVerdict (s : Hw) (pipe e : Nat) (p : Pkt) (r : ParseRec) (sw : List Nat) (engine : Nat) (any : Bool) : Hw :=
  if s.taskRoom pipe p then s.taskGo { pipe := pipe, pkt := p, parse := r, entry := e, task := mkTask pipe e p r sw engine any none }
  else s.grnCount GRN_N.POOL_DROP

/-- Valid entries of a spread group. -/
def Hw.spreadEntries (s : Hw) (g : Nat) : List Nat := (List.range 256).filter (fun i => s.t (SPREAD_IND.VALID (g * 256 + i)) == 1)

/-- A number is dealt to the next valid entry, in ascending order, and the task goes; at the window's limit the packet
is held (R232). -/
def Hw.spreadDeal (s : Hw) (w : Waiting) (g : Nat) : Hw :=
  let es := s.spreadEntries g
  if es.isEmpty then s.clsCount 16
  else if s.t (SPREAD.RR_WINDOW g) ≤ (s.spread g).out.length then s.hold { w with deal := some g }
  else
    let i := nextAfter es (s.spread g).turn
    let seq := (s.spread g).next
    let s := s.modSpread g (fun x => { x with
      next := (seq + 1) % 65536, turn := i + 1, out := x.out ++ [{ seq := seq }] })
    let e := g * 256 + i
    let t := w.task
    let desc := ((t.desc.set 0 (setField (t.word 0) 20 1 1)).set 4 (BitVec.ofNat 32 (g + seq * 65536)))
    let t : Task := { t with
      desc := desc, engine := s.t (SPREAD_IND.ENGINE e), any := s.t (SPREAD_IND.ANY e) == 1
      pkt := t.pkt.map (fun p => { p with spread := some (g, seq) }) }
    s.taskGo { w with task := t, deal := none }

/-- Where a spread group sends a packet, judged before it is metered (R204, R231, R232): an entry of its indirection table,
or, `none` within, the next number of its round robin. None: the packet is invalid. -/
def Hw.spreadTarget (s : Hw) (g : Nat) (p : Pkt) (r : ParseRec) : Option (Option Nat) :=
  if s.t (SPREAD.VALID g) = 0 then none
  else if s.t (SPREAD.MODE g) = 1 then
    if s.t (SPREAD.RR_WINDOW g) = 0 ∨ s.t (SPREAD.RR_TIMEOUT g) = 0 ∨ s.spreadEntries g = [] then none else some none
  else
    let input := hashInput (p.bytes.take (p.len - 4)) r (s.t (SPREAD.HASH_SEL g)) (s.t (SPREAD.HASH_INNER g) == 1)
    let h := if s.t (SPREAD.HASH_FN g) = 0 then flowHash input
      else toeplitz (beNat (leBytes 40 (s.t (SPREAD.TOEPLITZ_KEY g)))) 320 (input.take 36)
    let e := g * 256 + h % 256
    if s.t (SPREAD_IND.VALID e) = 0 then none else some (some e)

/-- A spread verdict for a packet that has been classed and metered (R231, R232). -/
def Hw.spreadVerdict (s : Hw) (pipe e g : Nat) (dest : Option Nat) (p : Pkt) (r : ParseRec) (sw : List Nat) : Hw :=
  match dest with
  | none =>
    if s.taskRoom pipe p then
      s.spreadDeal { pipe := pipe, pkt := p, parse := r, entry := e, task := mkTask pipe e p r sw 0 false none } g
    else s.grnCount GRN_N.POOL_DROP
  | some x =>
    if s.t (SPREAD.TARGET g) = 0 then s.enqueue (s.t (SPREAD_IND.QUEUE x)) p
    else s.taskVerdict pipe e p r sw (s.t (SPREAD_IND.ENGINE x)) (s.t (SPREAD_IND.ANY x) == 1)

/-! ## The verdict (R214, R215, R234) -/

/-- FWD = RECIRC: the packet is modified and enters port 517, or is Chaff RECIRC_LIMIT on its third pass. -/
def Hw.recirculate (s : Hw) (pipe e : Nat) (p : Pkt) (r : ParseRec) : Hw :=
  if 3 ≤ p.pass then (s.chaffAct pipe 0x31 p r).1
  else match s.modify p.modProf p.modData p.ipOff (p.bytes.take (p.len - 4)) with
    | none => s
    | some bs =>
      let bytes := if p.modProf = 0 then p.bytes else bs ++ fcsOf bs
      let k : Pkt := { p with bytes := bytes, pass := p.pass + 1, recircMeta := actF e (ACTION.TASK_ARG 0), modProf := 0 }
      let f := s.fifoAdd pipe 517 k
      if f.2 then f.1.clsCount 13 else f.1.clsCount 14

/-- The verdict of the fetched action `e`, with the way and QUEUE that the destination lookup found, and the words of the
flow context that applies, if any (R215, R227). -/
def Hw.resolve (s : Hw) (pipe e : Nat) (bridge : Option (Nat × Nat)) (p : Pkt) (r : ParseRec) (ctx : Option (List Nat)) : Hw :=
  let w0 := match ctx with
    | some w => if w.getD 0 0 % 2 = 1 then w.getD 0 0 else 0
    | none => 0
  let p0 := p
  let sw := match ctx with
    | some w => [w.getD 5 0, w.getD 6 0, w.getD 7 0]
    | none => [0, 0, 0]
  let queue := if bitN w0 1 = 1 then bitsOf w0 8 18 else actF e (ACTION.QUEUE 0)
  let meter := if bitN w0 2 = 1 then some (bitsOf w0 26 17)
    else if actF e (ACTION.METER_EN 0) = 1 then some (actF e (ACTION.METER 0)) else none
  let tc := if bitN w0 5 = 1 then bitsOf w0 51 3
    else if actF e (ACTION.TC_SET 0) = 1 then actF e (ACTION.TC 0) else s.srcClass pipe p
  let p := { p with
    tc := tc, color := 0, ipOff := r.ip.map r.offset
    modProf := if bitN w0 3 = 1 then bitsOf w0 43 8 else actF e (ACTION.MOD_PROF 0)
    modData := if bitN w0 3 = 1 then ((ctx.getD []).getD 1 0) % 2 ^ 32 else actF e (ACTION.MOD_DATA 0) }
  let dei := if tagged p.bytes then some (bitN (rdz p.bytes 14 2) 12) else none
  let dscp := r.ip.map (fun k =>
    let o := r.offset k
    if r.node k = 10 then byteAt p.bytes (o + 1) / 4 else bitsOf (rdz p.bytes o 2) 6 6)
  let metered := fun (s : Hw) (f : Hw → Pkt → Hw) => match meter with
    | none => f s p
    | some m =>
      let x := s.meterPkt m p.len dei dscp
      if x.2.2 then x.1 else f x.1 { p with color := x.2.1 }
  let g := actF e (ACTION.SPREAD 0)
  let s := match if bitN w0 4 = 1 then 0 else actF e (ACTION.FWD 0) with
    | 1 => metered s (fun s p => s.enqueue queue p)
    | 2 => (match bridge with
      | some (x, q) => metered (s.ts (BRIDGE.HIT x) 1) (fun s p => s.enqueue q p)
      | none => metered (s.clsCount 5) (fun s p => s.enqueue queue p))
    | 3 => (match s.spreadTarget g p r with
      | some dest => metered s (fun s p => s.spreadVerdict pipe e g dest p r sw)
      | none => s.clsCount 16)
    | 4 => metered s (fun s p => s.taskVerdict pipe e p r sw (actF e (ACTION.TASK_ENGINE 0)) (actF e (ACTION.TASK_ANY 0) == 1))
    | 5 => s.recirculate pipe e p r
    | _ => s
  let s := s.onlyIf (actF e (ACTION.COPY_EN 0) = 1) (fun s => s.ringCopy (actF e (ACTION.COPY_RING 0)) { p0 with tc := tc })
  s.onlyIf (actF e (ACTION.MIRROR_EN 0) = 1) (fun s => s.mirrorCopy pipe (actF e (ACTION.MIRROR_SES 0)) { p0 with tc := tc })

/-! ### Order of the packets of a source (R33) -/

/-- The packet may reach a queue straight from its verdict, not by way of an engine or another pass. -/
def Hw.toQueue (s : Hw) (w : Waiting) : Bool :=
  match actF w.entry (ACTION.FWD 0) with
  | 1 => true
  | 2 => true
  | 3 => s.t (SPREAD.TARGET (actF w.entry (ACTION.SPREAD 0))) == 0
  | _ => false

/-- The packet has a flow context: waited for or at hand (R221). -/
def Waiting.hasFlow (w : Waiting) : Bool := w.needs || w.ctx.isSome

/-- Two packets of one flow (R222). -/
def Waiting.sameFlow (w x : Waiting) : Bool := w.hasFlow && x.hasFlow && x.flow == w.flow

/-- Packet `w` may not pass `x`, which entered before it: they are of one flow (R222), or they share a pipeline and a source
and may share a queue (R33). Of the latter a packet on a later pass may be overtaken. -/
def Hw.behind (s : Hw) (w x : Waiting) : Bool :=
  w.sameFlow x || (x.pipe == w.pipe && x.pkt.source == w.pkt.source && decide (x.pkt.pass ≤ w.pkt.pass)
    && s.toQueue w && s.toQueue x)

def Hw.park (s : Hw) (w : Waiting) : Hw := { s with thr := { s.thr with parked := s.thr.parked ++ [w] } }

def Hw.verdictOf (s : Hw) (w : Waiting) : Hw := s.resolve w.pipe w.entry w.bridge w.pkt w.parse w.ctx

/-- A packet whose context, if any, is at hand: its verdict, or the park behind one that entered before it. -/
def Hw.inOrder (s : Hw) (w : Waiting) : Hw := if s.thr.parked.any (fun x => s.behind w x) then s.park w else s.verdictOf w

/-- The packet takes its context from the cache. -/
def Hw.withCtx (s : Hw) (c : CtxRec) (w : Waiting) : Hw × Waiting :=
  let s := s.onlyIf (c.words.getD 0 0 % 2 = 0) (fun s => s.clsCount 3)
  (s.ctxTouch c w.pkt.len, { w with needs := false, ctx := some c.words })

/-- A packet with its fetched action: the verdict, or the wait for a flow context (R221, R222). -/
def Hw.actOn (s : Hw) (pipe e : Nat) (bridge : Option (Nat × Nat)) (p : Pkt) (r : ParseRec) : Hw :=
  let w : Waiting := { pipe := pipe, pkt := { p with flowId := (s.flowOf e r).getD 0 }, parse := r, entry := e, bridge := bridge }
  match s.flowOf e r with
  | none => s.inOrder w
  | some f =>
    let w := { w with flow := f, needs := true }
    let others := s.thr.parked.any (fun x => x.needs && x.flow == f)
    match s.ctxFind f with
    | some c =>
      if others then s.park w
      else
        let u := s.withCtx c w
        u.1.inOrder u.2
    | none => (s.onlyIf (others = false) (fun s => s.clsCount 2)).park w

/-- The first parked packet that waits for nothing any more gets its verdict, and so on: at most `n` of them. -/
def Hw.release (s : Hw) : Nat → Hw
  | 0 => s
  | n + 1 =>
    let l := s.thr.parked
    match (List.range l.length).find? (fun i => match l[i]? with
        | some w => !w.needs && !(l.take i).any (fun x => s.behind w x)
        | none => false) with
    | none => s
    | some i => match l[i]? with
      | some w => (({ s with thr := { s.thr with parked := l.eraseIdx i } } : Hw).verdictOf w).release n
      | none => s

/-- Classification of a parsed packet (R204). -/
def Hw.classify (s : Hw) (pipe : Nat) (p : Pkt) (r : ParseRec) : Hw :=
  let x := pipe * 524 + p.source
  let body := p.bytes.take (p.len - 4)
  let p := { p with
    epoch := if p.pass = 1 then s.rd THR_EPOCH_STATUS.CUR_EPOCH else p.epoch
    hash := flowHash (hashInput body r (s.t (CLS_SRC.HASH_SEL x)) (s.t (CLS_SRC.HASH_INNER x) == 1))
    chaff := r.chaff }
  let key := s.classKey pipe x p r
  let bridge := (s.bridgeDest (s.fid x p r) (rdz p.bytes 0 6)).map (fun w => (w, s.t (BRIDGE.QUEUE w)))
  let s := (s.tcamParity pipe (p.epoch % 2)).learn x p (s.fid x p r)
  match s.tcamSearch pipe (p.epoch % 2) key with
  | some a => s.actOn pipe (s.actEntry a) bridge p r
  | none =>
    let s := s.clsCount pipe
    if r.depthStop then (s.chaffAct pipe 0x30 p r).1 else s.actOn pipe (s.actEntry (s.t (CLS_SRC.DEFAULT_ACT x))) bridge p r

/-- A packet goes through its pipeline. -/
def Hw.pipeline (s : Hw) (pipe : Nat) (p : Pkt) : Hw :=
  let s := s.count64 (THR_PRS_PARSED.A pipe)
  let r := s.parse pipe p
  let s := s.onlyIf (r.depthStop = true) (fun s => s.count (THR_PRS_DEPTH_CNT.COUNT pipe))
  if r.chaff = 0 then s.classify pipe p r
  else
    let c := s.chaffAct pipe r.chaff p r
    if c.2 then c.1.classify pipe p r else c.1

/-- The source granted: recirculation, the mirror loop, then the others in turn (R25). -/
def Hw.grantSource (s : Hw) (pipe : Nat) : Option Nat :=
  if !(s.fifo pipe 517).isEmpty then some 517
  else if !(s.fifo pipe 516).isEmpty then some 516
  else
    let l := (s.thr.fifos.filter (fun f => f.1 / 1024 == pipe && !f.2.isEmpty)).map (fun f => f.1 % 1024)
    if l.isEmpty then none else some (nextAfter l (s.thr.rr.get 0 pipe))

/-- The pipeline takes no packet: one is held, or the park is full (R218, R222, R232). -/
def Hw.pipeBusy (s : Hw) (pipe : Nat) : Bool :=
  s.thr.held.any (fun w => w.pipe == pipe) || decide (1024 ≤ (s.thr.parked.filter (fun w => w.pipe == pipe)).length)

/-- One grant: the packet leaves its input FIFO and is processed. -/
def Hw.pipeGrant (s : Hw) (pipe : Nat) : Hw :=
  if s.pipeBusy pipe then s
  else match s.grantSource pipe with
    | none => s
    | some src =>
      match s.fifo pipe src with
      | [] => s
      | p :: t =>
        let s := s.setFifo pipe src t
        let s := if 516 ≤ src ∧ src ≤ 517 then s
          else { s with thr := { s.thr with rr := s.thr.rr.set 0 pipe (src + 1) } }
        s.pipeline pipe p

/-- A packet arrives at a pipeline input. No other source than those of R22 has a way there. -/
def Hw.inputArrive (s : Hw) (pipe : Nat) (p : Pkt) : Hw :=
  if feeds pipe p.source then
    let r := s.fifoPush pipe p
    if r.2 = false ∧ p.source < 512 then r.1.count (SUB_PORT_CNT.COUNT p.source 4) else r.1
  else s

/-- INPUT_FIFO_ARRIVAL (R26). -/
def execInputFifoArrival (pipe : Fin 2) (p : Pkt) (s : State) : Host.Outcome State Fault Refusal :=
  s.on (·.inputArrive pipe p)

/-- A grant. `upset` are the TCAM entries that have been changed from outside, by radiation say, since the last: their
parity fails until software writes them (R208; log entry 176). -/
def execPipelineInputGrant (pipe : Fin 2) (s : State) (upset : List (Fin 262144) := []) : Host.Outcome State Fault Refusal :=
  s.on (fun s => ({ s with thr := { s.thr with upset := (s.thr.upset ++ upset.map Fin.val).eraseDups } } : Hw).pipeGrant pipe)

/-! ## Waiting packets -/

/-- The packets parked on flow `f` take its cached record in arrival order: at most `n` of them. -/
def Hw.ctxTake (s : Hw) (f : Nat) : Nat → Hw
  | 0 => s
  | n + 1 =>
    match s.ctxFind f, s.thr.parked.find? (fun w => w.needs && w.flow == f) with
    | some c, some w =>
      let u := s.withCtx c w
      let l := replaceFirst (fun x => x.needs && x.flow == f) (fun _ => u.2) u.1.thr.parked
      ({ u.1 with thr := { u.1.thr with parked := l } } : Hw).ctxTake f n
    | _, _ => s

/-- A context read returns: its corrected errors are counted (R257), the record is cached and its packets resolved in
arrival order, or all are discarded. Packets that waited behind them follow (R33). -/
def Hw.ctxReturn (s : Hw) (mem : List Host.Cell) (f : Nat) (err : Bool) (corr : Nat) : Hw :=
  let n := s.thr.parked.length
  if s.thr.parked.any (fun w => w.needs && w.flow == f) = false then s
  else
    let s := s.count (GRN_CNT.COUNT GRN_N.DRAM_CORR) corr
    if err || s.poisoned (s.ctxAddr f) 64 then
      let s := { s with thr := { s.thr with parked := s.thr.parked.filter (fun w => !(w.needs && w.flow == f)) } }
      (((s.clsCount 4).thrRaise EV_THR.CTX_ERR).grnRaise EV_GRN.DRAM_UNCORR_EV).release n
    else ((s.ctxInsert { flow := f, words := s.ctxRead mem f }).ctxTake f n).release n

/-- CONTEXT_READ_RETURN (R222). -/
def execContextReadReturn (flow : Fin 1048576) (err : Bool) (s : State) (corr : Nat := 0) : Host.Outcome State Fault Refusal :=
  s.onMem (fun mem s => s.ctxReturn mem flow err corr)

/-- The packet a pipeline holds is offered again (R218, R232). -/
def Hw.heldAgain (s : Hw) (pipe : Nat) : Hw :=
  match s.thr.held.find? (fun w => w.pipe == pipe) with
  | none => s
  | some w =>
    let s := { s with thr := { s.thr with held := s.thr.held.erase w } }
    match w.deal with
    | some g => s.spreadDeal w g
    | none => s.taskGo w

/-- TASK_ACCEPTED (R218). -/
def execTaskAccepted (pipe : Fin 2) (s : State) : Host.Outcome State Fault Refusal := s.on (·.heldAgain pipe)

/-! ## Epochs (R211-R213) -/

/-- Packets in flight with an epoch: parked, held, or in a recirculation FIFO. -/
def Hw.inFlight (s : Hw) (e : Nat) : Nat :=
  let of := fun (l : List Pkt) => (l.filter (fun p => p.epoch == e)).length
  of (s.thr.parked.map Waiting.pkt) + of (s.thr.held.map Waiting.pkt) + of (s.fifo 0 517) + of (s.fifo 1 517)

/-- The epoch is swapped (R212). -/
def Hw.epochSwap (s : Hw) (v : Word) : Hw :=
  if getField v 0 1 = 0 then s
  else if s.rd THR_EPOCH_STATUS.SWAP_COMPLETE = 0 then s.clsCount 15
  else
    let e := s.rd THR_EPOCH_STATUS.CUR_EPOCH
    ((s.wr THR_EPOCH_STATUS.CUR_EPOCH (e + 1)).wr THR_EPOCH_STATUS.OLD_EPOCH e).wr THR_EPOCH_STATUS.SWAP_COMPLETE 0

/-- EPOCH_SWAP (R212). -/
def execEpochSwap (m : Master) (v : Word) (s : State) : Host.Outcome State Fault Refusal :=
  s.on (fun s => s.onAccess m THR_EPOCH_CTRL.A true (·.epochSwap v))

/-- EPOCH_DRAIN_COMPLETE (R212). -/
def execEpochDrainComplete (s : State) : Host.Outcome State Fault Refusal :=
  s.on (fun s => s.onlyIf (s.rd THR_EPOCH_STATUS.SWAP_COMPLETE = 0 ∧ s.inFlight (s.rd THR_EPOCH_STATUS.OLD_EPOCH) = 0)
    (fun s => (s.wr THR_EPOCH_STATUS.SWAP_COMPLETE 1).thrRaise EV_THR.EPOCH_DONE))

/-! ## Context commands (R223, R224) -/

/-- The running command completes. -/
def Hw.ctxDone (s : Hw) : Hw :=
  match s.thr.ctxCmd with
  | none => s
  | some c =>
    let s := { s with thr := { s.thr with ctxCmd := none } }
    ((s.wr THR_CTX_STATUS.BUSY 0).wr THR_CTX_STATUS.ERR c.err).thrRaise EV_THR.CTX_DONE

/-- A command begins; one still running completes first, as its write has stalled until then. -/
def Hw.ctxBegin (s : Hw) (c : CtxCmd) : Hw :=
  ({ s with thr := { s.thr with ctxCmd := some c } }).wr THR_CTX_STATUS.BUSY 1

/-- Word `n` of a context command's data. -/
def Hw.ctxData (s : Hw) (n : Nat) : Nat := (s.word (THR_CTX_DATA.A (2 * n))).toNat + 2 ^ 32 * (s.word (THR_CTX_DATA.A (2 * n + 1))).toNat

/-- The words of flow `f` that `mask` selects take `data` in memory and in a cached copy, as one update (R223). -/
def Hw.ctxApply (s : Hw) (f mask : Nat) (data : Nat → Nat) : Hw :=
  let sel := (List.range 8).filter (fun n => bitN mask n == 1)
  let new := fun (w : List Nat) => sel.foldl (fun w n => w.set n (data n)) w
  let s := s.forAll sel (fun x n => x.memWrite (s.ctxAddr f + 8 * n) (leBytes 8 (data n)))
  s.setCache (s.thr.cache.map (fun r => if r.flow = f then { r with words := new r.words } else r))

/-- WMASK ≠ 0: the selected words of memory and of a cached copy. -/
def Hw.ctxUpdate (s : Hw) (f mask : Nat) : Hw :=
  if s.rd THR_CTX_BASE.CTX_EN = 0 then s.ctxBegin { flow := f, mask := mask, err := 1 }
  else
    let s' := s.ctxApply f mask s.ctxData
    (s'.mirrorPush { kind := 1, block := 0, table := mask, index := f
                     data := (List.range 16).map (fun n => s.word (THR_CTX_DATA.A n)) }).ctxBegin { flow := f, mask := mask }

/-- WMASK = 0: the current record into THR_CTX_DATA0-15. -/
def Hw.ctxFetch (s : Hw) (mem : List Host.Cell) (f : Nat) : Hw :=
  let show' := fun (s : Hw) (l : List Nat) => s.forAll (List.range 8) (fun s n =>
    (s.setWord (THR_CTX_DATA.A (2 * n)) (BitVec.ofNat 32 (l.getD n 0))).setWord (THR_CTX_DATA.A (2 * n + 1))
      (BitVec.ofNat 32 (l.getD n 0 / 2 ^ 32)))
  if s.rd THR_CTX_BASE.CTX_EN = 0 then s.ctxBegin { flow := f, err := 1 }
  else match s.ctxFind f with
    | some r => (show' s r.words).ctxBegin { flow := f }
    | none => if s.poisoned (s.ctxAddr f) 64 then (s.ctxBegin { flow := f, err := 2 }).grnRaise EV_GRN.DRAM_UNCORR_EV
      else (show' s.dramRead (s.ctxRead mem f)).ctxBegin { flow := f }

/-- A cached record is written back and dropped. -/
def Hw.ctxInval (s : Hw) (f : Nat) : Hw :=
  if s.rd THR_CTX_BASE.CTX_EN = 0 then s.ctxBegin { inval := true, flow := f, err := 1 }
  else match s.ctxFind f with
    | some r => ((s.ctxWriteBack r).setCache (s.thr.cache.filter (fun x => x.flow != f))).ctxBegin { inval := true, flow := f }
    | none => s.ctxBegin { inval := true, flow := f }

/-- A write of THR_CTX_UPDATE: update or read as its WMASK says. -/
def Hw.ctxUpdateWrite (s : Hw) (mem : List Host.Cell) (v : Word) : Hw :=
  let s := s.ctxDone.fullWrite THR_CTX_UPDATE.A v
  if getField v 31 1 = 0 then s
  else if getField v 20 8 = 0 then s.ctxFetch mem (getField v 0 20) else s.ctxUpdate (getField v 0 20) (getField v 20 8)

/-- CTX_UPDATE (R223). -/
def execCtxUpdate (m : Master) (v : Word) (s : State) : Host.Outcome State Fault Refusal :=
  s.onMem (fun mem s => s.onAccess m THR_CTX_UPDATE.A true (·.ctxUpdateWrite mem v))

/-- CTX_READ (R223). -/
def execCtxRead (m : Master) (v : Word) (s : State) : Host.Outcome State Fault Refusal :=
  s.onMem (fun mem s => s.onAccess m THR_CTX_UPDATE.A true (·.ctxUpdateWrite mem v))

/-- CTX_INVAL (R224). -/
def execCtxInval (m : Master) (v : Word) (s : State) : Host.Outcome State Fault Refusal :=
  s.on (fun s => s.onAccess m THR_CTX_INVAL.A true (fun s =>
    let s := s.ctxDone.fullWrite THR_CTX_INVAL.A v
    if getField v 31 1 = 0 then s else s.ctxInval (getField v 0 20)))

/-- CTX_CMD_DONE (R223). -/
def execCtxCmdDone (s : State) : Host.Outcome State Fault Refusal := s.on (·.ctxDone)

/-- AGE_SWEEP (R229). -/
def execAgeSweep (s : State) : Host.Outcome State Fault Refusal := s.on (·.ageSweep)

/-- The oldest outstanding number of a group is skipped (R233). -/
def execSpreadRrTimeout (g : Fin 64) (s : State) : Host.Outcome State Fault Refusal :=
  s.on (fun s =>
    match (s.spread g).out with
    | [] => s
    | h :: t => if h.done then s else
      (((s.modSpread g (fun x => { x with out := t })).clsCount 17).thrRaise EV_THR.RR_SKIP_EV).spreadGo g)

end Sys2Proof.Machine
end

