-- ==== Sys2Proof/Machine/Engines.lean ====
section
/-!
DEFINITION. Packet engines, the Tiller and the Gleaner (spec/14): data accesses, the engine commands, delay lists and
ticks, dispatch, faults, draining, throttling, counters and sampling.
-/
namespace Sys2Proof.Machine

/-- A program runs on engine `e`: a task, or its init program. -/
def Hw.executing (s : Hw) (e : Nat) : Bool := (s.eng e).run.isSome || (s.eng e).init

/-! ## Lifecycle (R377) -/

/-- Engine `e` has entered STARTING: its program runs from INIT_PC with no task. -/
def Hw.engineStarting (s : Hw) (e : Nat) : Hw := s.modEng e (fun x => { x with init := true, run := none, pre := none })

/-- Engine `e` has entered STOPPING: the tasks of its own lists join the cluster lists under R372. -/
def Hw.engineStopping (s : Hw) (e : Nat) : Hw :=
  let s := s.modEng e (fun x => { x with init := false })
  let own := s.til.ready.filter (fun t => !t.any && t.engine == e)
  let s := { s with til := { s.til with ready := s.til.ready.filter (fun t => t.any || t.engine != e) } }
  s.forAll own (fun s t => match s.taskRoute t with
    | none => s.taskNoEngine t
    | some (t, _) => (s.tilCount 1).taskEnter t)

/-- The running task and any preempted task of engine `e` have ended. -/
def Hw.engineFlushed (s : Hw) (e : Nat) : Bool := (s.eng e).run.isNone && (s.eng e).pre.isNone

/-- Engine `e` loses its effective enable. -/
def Hw.engineDown (s : Hw) (e : Nat) : Hw :=
  let was := s.st (engFn e)
  let s := s.lcDown (engFn e)
  s.onlyIf (was = 1 ∨ was = 2) (·.engineStopping e)

/-! ## Faults (R378) -/

/-- A fault of the program on engine `e`. -/
def Hw.engineFault (s : Hw) (e code pc addr : Nat) : Hw :=
  let b := 0x6000000 + e * 0x10000
  let s := (s.count (ENG_CNT.COUNT e 1)).raise b EV_ENG.ENG_FAULT_EV
  let s := s.onlyIf (code = 3 ∨ code = 4) (fun s => s.raise b EV.MEM_UNCORR)
  let s := if s.rd (ENG_FAULT_ADDR_HI.FAULT_VALID e) = 1 then s
    else
      let s := (s.wr (ENG_FAULT.CODE e) code).wr (ENG_FAULT.PC e) pc
      let s := (s.wr (ENG_FAULT_ADDR_HI.ADDR e) (addr / 2 ^ 32)).wr (ENG_FAULT_ADDR.ADDR e) addr
      s.wr (ENG_FAULT_ADDR_HI.FAULT_VALID e) 1
  let s := s.modEng e (fun x => { x with init := false })
  let s := if code = 3 ∨ s.rd (ENG_CTRL.FAULT_STOP e) = 1 then (s.wr (ENG_CTRL.ENABLE e) 0).engineDown e else s
  s.engineFree e

/-- The condition of a fault that hangs on a register (R378). -/
def Hw.faultMay (s : Hw) (e code : Nat) : Bool :=
  s.executing e && (match code with
    | 0 => false
    | 5 => s.rd (ENG_RUN_LIMIT.LIMIT e) != 0
    | 6 => s.capRd (ENG_TRAP.TRAP_PC e) == 0
    | 7 => false
    | _ => true)

/-- ENGINE_FAULT (R378). -/
def execEngineFault (e : Fin 64) (code : Fin 8) (pc : Fin 65536) (addr : Fin 1099511627776) (s : State) :
    Host.Outcome State Fault Refusal :=
  s.on (fun s => s.onlyIf (s.faultMay e code = true) (fun s => s.engineFault e code pc addr))

/-! ## Data accesses (R360-R362) -/

/-- Octets of cluster memory: it is kept behind the gate of the cluster's first engine. -/
def Hw.cmemBytes (s : Hw) (e off n : Nat) : Bytes :=
  (List.range n).map (fun i => BitVec.ofNat 8 (s.t ⟨CMEM.E (e / 8 * 8) ((off + i) / 64), 8 * ((off + i) % 64), 8⟩))

/-- A store to cluster memory (R360). -/
def Hw.cmemStore (s : Hw) (e off : Nat) : Bytes → Hw
  | [] => s
  | b :: t => Hw.cmemStore (s.ts ⟨CMEM.E (e / 8 * 8) (off / 64), 8 * (off % 64), 8⟩ b.toNat) e (off + 1) t

/-- An access to external memory by a program: beyond the capacity an access error; a poisoned line is an
uncorrectable error that reads 0 (R45, R46, R257, R259). -/
def Hw.engineExt (s : Hw) (mem : List Host.Cell) (e pc a n : Nat) (w : Option Bytes) : Hw :=
  let m : Master := .engine ⟨e % 64, Nat.mod_lt _ (by decide)⟩
  let s := s.perf e 0x0A
  if s.extBytes < a - extBase + n then
    ({ s.busError m a w.isSome 5 with edata := List.replicate n 0 }).engineFault e 2 pc a
  else
    let s := s.wakeByAccess 14
    match w with
    | some bs => s.memWrite (a - extBase) bs
    | none =>
      let r := s.extRead mem (a - extBase) n
      { r.1 with edata := r.2 }

/-- An access to the packet window. -/
def Hw.engineWindow (s : Hw) (e pc a off n : Nat) (w : Option Bytes) : Hw :=
  match (s.eng e).run with
  | none => s.engineFault e 2 pc a
  | some t => match t.pkt with
    | none => s.engineFault e 2 pc a
    | some p =>
      match w with
      | none => { s.perf e 8 with edata := (List.range n).map (fun i => p.bytes.getD (off + i) 0) }
      | some bs =>
        let new := (List.range p.len).map (fun i =>
          if off ≤ i ∧ i < off + bs.length then bs.getD (i - off) 0 else p.bytes.getD i 0)
        s.modEng e (fun x => { x with run := some { t with pkt := some { p with bytes := new } } })

/-- A program on engine `e` reads `n` octets at local address `a`, or writes octets there. What a read returns stands
in `edata`. An access outside the regions is logged with reason 0x2 RESERVED under its local address, both the model's
choice (DESIGN CHOICE, log entry 178). -/
def Hw.engineData (s : Hw) (mem : List Host.Cell) (e pc a n : Nat) (w : Option Bytes) : Hw :=
  let n := (w.map List.length).getD n
  let within := fun (lo hi : Nat) => decide (lo ≤ a ∧ a + n ≤ hi)
  if !s.executing e || n = 0 then s
  else if within 0x10000 0x30000 then
    (match w with
      | some bs => s.dmemStore e (a - 0x10000) bs
      | none => { s with edata := s.dmemBytes e (a - 0x10000) n })
  else if within 0x100000 0x200000 then
    let s := s.perf e 6
    (match w with
      | some bs => s.cmemStore e (a - 0x100000) bs
      | none => { s with edata := s.cmemBytes e (a - 0x100000) n })
  else if within 0x300000 0x303000 then s.engineWindow e pc a (a - 0x300000) n w
  else if within extBase (extBase + 0x800000000) then s.engineExt mem e pc a n w
  else
    ({ s.busError (.engine ⟨e % 64, Nat.mod_lt _ (by decide)⟩) a w.isSome 2 with edata := List.replicate n 0 }).engineFault
      e 2 pc a

/-! ## Engine commands (R365-R367, R371) -/

abbrev STATUS_OK := 0
abbrev STATUS_NO_PKT := 1
abbrev STATUS_BAD_ARG := 2
abbrev STATUS_DROPPED := 3
abbrev STATUS_FULL := 4
abbrev STATUS_NOT_FOUND := 5
abbrev STATUS_NO_CELLS := 6

/-- Argument register `i` of engine `e`. -/
abbrev Hw.arg (s : Hw) (e i : Nat) : Word := s.word (ENG_CMD_ARG.A e i)

/-- A command written to ENG_CMD by the program on engine `e`, with the status it leaves. -/
def Hw.engineCmd (s : Hw) (e : Fin 64) (v : Word) (f : Hw → Hw × Nat) : Hw :=
  if s.executing e then
    s.onAccess (.engine e) (ENG_CMD.A e) true (fun s =>
      let r := f ((s.plainWrite (ENG_CMD.A e) v).perf e 0x0E)
      r.1.wr (ENG_CMD.STATUS e) r.2)
  else s

/-- The task runs on a packet that failed its integrity check (R367). -/
def Task.untrusted (t : Task) : Bool := getField (t.word 0) 18 1 == 1 || (t.pkt.map Pkt.tainted).getD false

/-- The running task of engine `e` holds `p`. -/
def Hw.setTaskPkt (s : Hw) (e : Nat) (p : Option Pkt) : Hw :=
  s.modEng e (fun x => { x with run := x.run.map (fun t => { t with pkt := p }) })

/-- Class and colour that descriptor word 3 of the current frame holds; colour 3 counts as red. -/
def Hw.frameWord3 (s : Hw) (e : Nat) : Word := BitVec.ofNat 32 (leNat (s.dmemBytes e (frameBase (s.eng e).frame + 12) 4))

/-- The octets EMIT sends (R366); none where a limit is broken. -/
def Hw.emitBytes (s : Hw) (e : Nat) (p : Pkt) : Option Bytes :=
  let start := getField (s.arg e 1) 0 9
  let len := getField (s.arg e 1) 9 9
  let bs := s.dmemBytes e (frameBase (s.eng e).frame + start) len ++ p.bytes.drop (getField (s.arg e 2) 0 14)
  if 0x80 ≤ start ∧ start ≤ 0x1BF ∧ start + len ≤ 0x1C0 ∧ 18 ≤ bs.length ∧ bs.length ≤ 12288 then some bs else none

/-- The packet EMIT and EMIT_COPY send. -/
def Hw.emitPkt (s : Hw) (e : Nat) (t : Task) (p : Pkt) (bs : Bytes) : Pkt :=
  let w := s.frameWord3 e
  { p with
    bytes := bs, source := 513, tc := getField w 14 3, color := min 2 (getField w 17 2), untrusted := t.untrusted
    spread := none, oneStep := getField (s.arg e 0) 18 1 == 1
    tsReq := if getField (s.arg e 0) 19 1 = 1 then some (getField (s.arg e 2) 16 16) else none
    modProf := 0, modData := 0, ipOff := none }

/-- An engine enqueue; packets of a task with a spread number go through its group's reorder (R232, R367). -/
def Hw.engineSend (s : Hw) (t : Task) (q : Nat) (p : Pkt) : Hw × Nat :=
  match t.spread with
  | some n => (s.spreadReturn n.1 n.2 q p, STATUS_OK)
  | none =>
    let r := s.enqueueAt q p
    (r.1, if r.2 then STATUS_OK else STATUS_DROPPED)

/-- EMIT, or EMIT_COPY when `copy`. -/
def Hw.emitCmd (s : Hw) (e : Nat) (copy : Bool) : Hw × Nat :=
  match (s.eng e).run with
  | none => (s, STATUS_NO_PKT)
  | some t => match t.pkt with
    | none => (s, STATUS_NO_PKT)
    | some p => match s.emitBytes e p with
      | none => (s, STATUS_BAD_ARG)
      | some bs =>
        let new := s.emitPkt e t p bs
        if copy then
          if s.freeCells < new.cells then (s, STATUS_NO_CELLS) else s.engineSend t (getField (s.arg e 0) 0 18) new
        else ((s.setTaskPkt e none).poolUpdate p.source).engineSend t (getField (s.arg e 0) 0 18) new

/-- EMIT (R366). -/
def execEmit (e : Fin 64) (v : Word) (s : State) : Host.Outcome State Fault Refusal :=
  s.on (fun s => s.engineCmd e v (·.emitCmd e false))

/-- EMIT_COPY (R366). -/
def execEmitCopy (e : Fin 64) (v : Word) (s : State) : Host.Outcome State Fault Refusal :=
  s.on (fun s => s.engineCmd e v (·.emitCmd e true))

/-- DROP: the task's packet is discarded. -/
def Hw.dropCmd (s : Hw) (e : Nat) : Hw × Nat :=
  match ((s.eng e).run.map Task.pkt).getD none with
  | none => (s, STATUS_NO_PKT)
  | some p => ((s.setTaskPkt e none).poolUpdate p.source, STATUS_OK)

/-- DROP (R365). -/
def execDrop (e : Fin 64) (v : Word) (s : State) : Host.Outcome State Fault Refusal :=
  s.on (fun s => s.engineCmd e v (·.dropCmd e))

/-- NEW: a packet from data memory. -/
def Hw.newCmd (s : Hw) (e : Nat) : Hw × Nat :=
  let off := getField (s.arg e 1) 0 17
  let len := getField (s.arg e 2) 0 14
  let t : Task := (s.eng e).run.getD {}
  if len < 18 ∨ 12288 < len ∨ 0x20000 < off + len then (s, STATUS_BAD_ARG)
  else
    let p : Pkt := { bytes := s.dmemBytes e off len, source := 513, tc := getField (s.arg e 3) 0 3
                     color := min 2 (getField (s.arg e 3) 3 2), untrusted := t.untrusted }
    if s.freeCells < p.cells then (s, STATUS_NO_CELLS) else s.engineSend t (getField (s.arg e 0) 0 18) p

/-- NEW (R365). -/
def execNew (e : Fin 64) (v : Word) (s : State) : Host.Outcome State Fault Refusal :=
  s.on (fun s => s.engineCmd e v (·.newCmd e))

/-- Entries of delay list `l`. -/
def Hw.delayList (s : Hw) (l : Nat) : List Delayed := s.til.delay.filter (fun d => d.list == l)

/-- The task POST creates (R371); `p` is the packet it is given. -/
def Hw.postTask (s : Hw) (e : Nat) (p : Option Pkt) (ds : Bool) : Hw × Task :=
  let bs := s.dmemBytes e (s.arg e 0).toNat 64
  let a := s.arg e 1
  let desc := (List.range 16).map (fun i => BitVec.ofNat 32 (leNat ((bs.drop (4 * i)).take 4)))
  let w0 := setField (desc.getD 0 0) 16 3 (1 + 2 * b2n p.isSome + 4 * b2n ((p.map Pkt.tainted).getD false))
  let desc := (desc.set 0 w0).set 14 (setField (desc.getD 14 0) 0 8 (0x10 + e))
  -- the parse record of a posted task with PARSE_VALID = 1 is a free value (log entry 3)
  let has := getField w0 21 1 = 1
  let parse := if has then (List.range 16).map (fun i => BitVec.ofNat 32 (Config.free 15 (s.freeCtr + i))) else []
  let s := s.onlyIf has (fun s => { s with freeCtr := s.freeCtr + 16 })
  (s, { desc := desc, parse := parse, pkt := p, ds := ds, engine := getField a 0 6, any := getField a 6 1 == 1
        prio := getField a 7 3 })

/-- A refused POST. -/
def Hw.postFull (s : Hw) : Hw × Nat := (s.tilCount 3, STATUS_FULL)

/-- POST with DELAY 0: into a ready list (R371, R372). -/
def Hw.postNow (s : Hw) (t : Task) (keep : Hw) : Hw × Nat :=
  match s.taskRoute t with
  | none => (s.taskNoEngine t, STATUS_OK)
  | some (t, moved) =>
    if s.freeDescs = 0 ∨ s.rd (TIL_CL_CFG.CL_QUOTA (t.engine / 8)) ≤ s.readyCount (t.engine / 8) then keep.postFull
    else ((s.onlyIf (moved = true) (·.tilCount 1)).taskEnter t, STATUS_OK)

/-- POST with a delay: into a delay list, under the lowest entry number not in use. -/
def Hw.postLater (s : Hw) (e l d : Nat) (t : Task) (keep : Hw) : Hw × Nat :=
  let used := (s.delayList l).map Delayed.entry
  if 16384 ≤ used.length then
    let r := keep.postFull
    (r.1.tilRaise EV_TIL.DELAY_FULL_EV, r.2)
  else if s.freeDescs = 0 then keep.postFull
  else
    let h := (firstFrom (fun i => !used.contains i) 16384 0).getD 0
    let due := (s.rd (TIL_TICK_COUNT.COUNT l) + d) % 2 ^ 32
    let s := { s with til := { s.til with delay := s.til.delay ++ [Delayed.mk l h due t] } }
    (s.setWord (ENG_CMD_ARG.A e 3) (BitVec.ofNat 32 (h + l * 65536)), STATUS_OK)

/-- POST. -/
def Hw.postCmd (s : Hw) (e : Nat) : Hw × Nat :=
  let a := s.arg e 1
  let off := (s.arg e 0).toNat
  let d := getField (s.arg e 2) 0 24
  let run := (s.eng e).run
  let give := if getField a 12 1 = 1 then (run.map Task.pkt).getD none else none
  if off % 64 ≠ 0 ∨ 0x20000 ≤ off then (s, STATUS_BAD_ARG)
  else
    let r := s.postTask e give ((run.map Task.ds).getD false)
    let given := if give.isSome then r.1.setTaskPkt e none else r.1
    if d = 0 then given.postNow r.2 s else given.postLater e (getField a 10 2) d r.2 s

/-- POST (R371). -/
def execPost (e : Fin 64) (v : Word) (s : State) : Host.Outcome State Fault Refusal :=
  s.on (fun s => s.engineCmd e v (·.postCmd e))

/-- CANCEL (R374). -/
def Hw.cancelCmd (s : Hw) (e : Nat) : Hw × Nat :=
  let a := s.arg e 3
  match s.til.delay.find? (fun d => d.list == getField a 16 2 && d.entry == getField a 0 14) with
  | none => (s.tilCount 5, STATUS_NOT_FOUND)
  | some d => (({ s with til := { s.til with delay := s.til.delay.erase d } }).taskOver d.task, STATUS_OK)

/-- CANCEL (R374). -/
def execCancel (e : Fin 64) (v : Word) (s : State) : Host.Outcome State Fault Refusal :=
  s.on (fun s => s.engineCmd e v (·.cancelCmd e))

/-- END: of the init program, the start condition; of a task, its end (R367, R375, R377). -/
def Hw.endCmd (s : Hw) (e : Nat) : Hw :=
  match (s.eng e).run with
  | none =>
    let s := (s.modEng e (fun x => { x with init := false })).lcOn (engFn e)
    s.onlyIf (s.engOn e = true) (fun s => s.wr (TIL_CL_STATUS.DRAINING (e / 8)) 0)
  | some t =>
    let s := (s.perf e 4).onlyIf (t.pkt.isSome = true) (fun s => s.count (ENG_CNT.COUNT e 2))
    s.engineFree e

/-- END (R367). -/
def execEnd (e : Fin 64) (v : Word) (s : State) : Host.Outcome State Fault Refusal :=
  s.on (fun s => s.engineCmd e v (fun s => (s.endCmd e, s.rd (ENG_CMD.STATUS e))))

/-! ## Dispatch (R369) -/

/-- Engine `e` is ON and holds no task. -/
def Hw.engIdle (s : Hw) (e : Nat) : Bool := s.engOn e && (s.eng e).run.isNone && (s.eng e).pre.isNone

/-- Engine `e` takes the best task it may; a cluster-list task goes to the lowest-numbered idle engine. A busy engine is
preempted by the best ready task whose victim it is (R376). -/
def Hw.dispatch (s : Hw) (e : Nat) : Hw :=
  if s.engIdle e then
    let first := (List.range (e % 8)).all (fun j => !s.engIdle (e / 8 * 8 + j))
    match s.bestReady (fun t => t.fits e && (first || !t.any)) with
    | none => s
    | some t => (s.unready t).taskStart e 0 t
  else match s.bestReady (fun t => s.victim t == some e) with
    | none => s
    | some t => (s.unready t).preempt e t

/-- TASK_DISPATCH (R369). -/
def execTaskDispatch (e : Fin 64) (s : State) : Host.Outcome State Fault Refusal := s.on (·.dispatch e)

/-! ## Delay lists and ticks (R373, R374) -/

/-- Tick instants of period `p` ns from the start of the seconds to local time `t` ns (R339, R373). -/
def tickIndex (p t : Nat) : Nat := t / 1000000000 * ceilDiv 1000000000 p + t % 1000000000 / p

/-- List `i` is ticked. With the local clock the tick carries every instant since the last one delivered, by the PERIOD that
this one took up (R373); what a forward step has passed over counts as skipped. Without it, ticks come from the cycle
count. -/
def Hw.tillerTick (s : Hw) (i : Nat) : Hw :=
  let p := s.til.tickPer.get 10 i * 100
  let c := s.rd (TIL_TICK_COUNT.COUNT i)
  let next := { s with til := { s.til with tickPer := s.til.tickPer.set 10 i (s.rd (TIL_TICK.PERIOD i)) } }
  if s.timRuns then
    let now := s.tim.now.abs
    let n := if s.rd (TIL_TICK.FALLBACK i) = 1 then 1 else tickIndex p now - tickIndex p (s.til.tickAt.get 0 i)
    if n = 0 then s
    else
      let skipped := if s.til.stepped.contains i then n - 1 else 0
      let s := { next with til := { next.til with
        tickAt := s.til.tickAt.set 0 i now, stepped := s.til.stepped.filter (· != i) } }
      ((s.wr (TIL_TICK.FALLBACK i) 0).tilCount 7 skipped).wr (TIL_TICK_COUNT.COUNT i) (c + n)
  else next.ticksFallBack.wr (TIL_TICK_COUNT.COUNT i) (c + 1)

/-- TILLER_TICK (R373). -/
def execTillerTick (i : Fin 4) (s : State) : Host.Outcome State Fault Refusal := s.on (·.tillerTick i)

/-- Ticks since an entry fell due; none while it is not due. -/
def Hw.lateness (s : Hw) (d : Delayed) : Option Nat :=
  let x := (s.rd (TIL_TICK_COUNT.COUNT d.list) + 2 ^ 32 - d.due) % 2 ^ 32
  if x < 2 ^ 31 then some x else none

/-- The due entry of list `l` that fell due first. -/
def Hw.firstDue (s : Hw) (l : Nat) : Option (Delayed × Nat) :=
  (s.delayList l).foldl (fun (b : Option (Delayed × Nat)) d => match s.lateness d with
    | none => b
    | some x => match b with
      | some y => if y.2 < x then some (d, x) else b
      | none => some (d, x)) none

/-- Head of list `l` that has fallen due and meets its cluster's quota: it and the entries behind it wait (R374). -/
def Hw.delayBlocked (s : Hw) (l : Nat) : Bool :=
  match s.firstDue l with
  | none => false
  | some (d, _) => match s.taskRoute d.task with
    | none => false
    | some (t, _) => decide (s.rd (TIL_CL_CFG.CL_QUOTA (t.engine / 8)) ≤ s.readyCount (t.engine / 8))

/-- One entry moves to its ready list, or waits at the head of its list; the cycles it waits are counted as they pass. -/
def Hw.delayDue (s : Hw) (l : Nat) : Hw :=
  match s.firstDue l with
  | none => s
  | some (d, late) =>
    let gone := { s with til := { s.til with delay := s.til.delay.erase d } }
    match s.taskRoute d.task with
    | none => gone.taskNoEngine d.task
    | some (t, moved) =>
      if s.rd (TIL_CL_CFG.CL_QUOTA (t.engine / 8)) ≤ s.readyCount (t.engine / 8) then s
      else
        let t := { t with desc := t.desc.set 5 (setField (t.word 5) 0 8 (min 255 late)) }
        (gone.onlyIf (moved = true) (·.tilCount 1)).taskEnter t

/-- DELAY_DUE (R374). -/
def execDelayDue (i : Fin 4) (s : State) : Host.Outcome State Fault Refusal := s.on (·.delayDue i)

/-! ## Draining (R375) -/

/-- Cluster `k` is marked draining by the power controller. -/
def Hw.drainStart (s : Hw) (k : Nat) : Hw := s.wr (TIL_CL_STATUS.DRAINING k) 1

/-- The cluster's lists are empty and no engine holds a task. -/
def Hw.drained (s : Hw) (k : Nat) : Bool :=
  s.readyCount k == 0 && (List.range 8).all (fun j => s.engineFlushed (8 * k + j))

/-- DRAIN_DONE; then the engines are held and stop. -/
def Hw.drainDone (s : Hw) (k : Nat) : Hw :=
  let held := (List.range 8).all (fun j => s.rd (engFn (8 * k + j)).HELD == 1)
  if s.rd (TIL_CL_STATUS.DRAINING k) = 1 ∧ s.drained k = true ∧ held = false then
    (s.tilRaise EV_TIL.DRAIN_DONE).forAll (List.range 8) (fun s j =>
      (s.wr (engFn (8 * k + j)).HELD 1).engineDown (8 * k + j))
  else s

/-- CLUSTER_DRAIN_DONE (R375). -/
def execClusterDrainDone (k : Fin 8) (s : State) : Host.Outcome State Fault Refusal := s.on (·.drainDone k)

/-! ## Throttling (R380, R482) -/

/-- One step of cluster `k`'s loop at junction temperature `temp`. -/
def Hw.throttle (s : Hw) (k : Nat) (temp : Int) : Hw :=
  let lo := s.rd (TIL_CL_THROT.THROT_MIN k)
  let hi := s.rd (TIL_CL_THROT.THROT_MAX k)
  let th := Int.ofNat (s.rd (TIL_CL_THROT.THROT_TH k))
  let g := s.rd (TIL_CL_THROT.GATED k)
  let s := s.wr (TIL_CL_THROT.TEMP k) (unsigned 8 temp)
  let want : Int := if th < temp then Int.ofNat g + 1 else if temp < th - 5 then Int.ofNat g - 1 else Int.ofNat g
  let new := max (min want (Int.ofNat hi)) (Int.ofNat lo)
  let s := s.onlyIf (new ≠ want ∨ g < lo ∨ hi < g) (fun s => s.count (TIL_CL_CLAMP.POLICY_CLAMP_COUNT k))
  (s.wr (TIL_CL_THROT.GATED k) new.toNat).onlyIf (new.toNat ≠ g) (·.tilRaise EV_TIL.THROT_CHANGE)

/-- THROTTLE_STEP (R380). -/
def execThrottleStep (k : Fin 8) (temp : BitVec 8) (s : State) : Host.Outcome State Fault Refusal :=
  s.on (fun s => s.throttle k temp.toInt)

/-! ## Counters and the Gleaner (R381, R383) -/

/-- Counter `n` of engine `e`, full, wraps. -/
def Hw.perfWrap (s : Hw) (e n : Nat) : Hw :=
  if s.rd (ENG_PERF_SEL.EVENT e n) = 0 ∨ s.val64 (ENG_PERF_CNT.A e n) ≠ 2 ^ 48 - 1 then s
  else
    let s := (s.setWord (ENG_PERF_CNT.A e n) 0#32).setWord (ENG_PERF_CNT_HI.A e n) 0#32
    s.onlyIf (s.capRd (ENG_PERF_SEL.OVF_INT e n) = 1) (fun s => s.raise (0x6000000 + e * 0x10000) EV_ENG.PERF_OVF)

/-- PERF_COUNTER_WRAP (R381). -/
def execPerfCounterWrap (e : Fin 64) (n : Fin 8) (s : State) : Host.Outcome State Fault Refusal := s.on (·.perfWrap e n)

/-- The record of a sample (R383). -/
def Hw.gleanRecord (s : Hw) (e pc addr lat : Nat) : Nat :=
  let k := e / 8
  let t : Task := (s.eng e).run.getD {}
  let ev := s.rd (TIL_GLN_CFG.EVENT k)
  let w : List Nat := [pc % 65536 + e % 8 * 2 ^ 16 + ev * 2 ^ 19 + t.prio * 2 ^ 24, addr % 2 ^ 32,
    addr / 2 ^ 32 % 256 + getField (t.word 0) 0 12 * 256, if ev = 1 ∨ ev = 0x11 then 0 else lat % 2 ^ 32,
    (s.word (ENG_CYCLES.A e)).toNat, (s.word (ENG_CYCLES_HI.A e)).toNat, getField (t.word 2) 0 20,
    s.til.gleanSeq.get 0 k]
  w.foldr (fun x n => x + 2 ^ 32 * n) 0

/-- A selected event of engine `e`: every PERIOD-th is sampled (R383). -/
def Hw.glean (s : Hw) (e pc addr lat : Nat) : Hw :=
  let k := e / 8
  if s.rd (TIL_GLN_CFG.EN k) = 0 ∨ bitN (s.rd (TIL_GLN_CFG.ENG_MASK k)) (e % 8) = 0 ∨ s.executing e = false then s
  else if s.til.gleanCnt.get 0 e + 1 < s.rd (TIL_GLN_CFG.PERIOD k) then
    { s with til := { s.til with gleanCnt := s.til.gleanCnt.set 0 e (s.til.gleanCnt.get 0 e + 1) } }
  else
  let s := { s with til := { s.til with gleanCnt := s.til.gleanCnt.set 0 e 0 } }
  if s.rd (TIL_GLN_STATUS.HELD k) = 4096 ∧ s.rd (TIL_GLN_CFG.WRAP k) = 0 then
    (s.count (TIL_GLN_LOST.LOST k)).tilRaise EV_TIL.GLEAN_FULL
  else
    let i := s.rd (TIL_GLN_STATUS.WR_IDX k)
    let s := s.ts (GLEANER.REC (k * 4096 + i)) (s.gleanRecord e pc addr lat)
    let s := { s with til := { s.til with gleanSeq := s.til.gleanSeq.set 0 k ((s.til.gleanSeq.get 0 k + 1) % 2 ^ 32) } }
    (s.wr (TIL_GLN_STATUS.WR_IDX k) (i + 1)).wr (TIL_GLN_STATUS.HELD k) (min 4096 (s.rd (TIL_GLN_STATUS.HELD k) + 1))

/-- GLEANER_SAMPLE (R383). -/
def execGleanerSample (e : Fin 64) (pc : Fin 65536) (addr : Fin 1099511627776) (latency : Word) (s : State) :
    Host.Outcome State Fault Refusal :=
  s.on (fun s => s.glean e pc addr latency.toNat)

end Sys2Proof.Machine
end

