-- ==== Sys2Proof/Machine/GranaryCmd.lean ====
section
/-!
DEFINITION. The commands of the Granary and of the shapers (spec/09, spec/10): flush, the mover, the external
memory channels (R254-R260), CLEAR_DEBT (R278).
-/
namespace Sys2Proof.Machine

/-! ## Flushing (R250) -/

/-- A flush in progress completes. -/
def Hw.flushFinish (s : Hw) : Hw := (s.flushRelease).flushDone

/-- GO while a flush runs stalls until that is done. The flushed queue leaves its rounds (R272). -/
def Hw.queueFlush (s : Hw) (v : Word) : Hw :=
  let s := s.flushFinish.fullWrite GRN_Q_FLUSH.A v
  if getField v 31 1 = 1 then (s.flushStart (s.rd GRN_Q_FLUSH.QUEUE)).schedLeave (s.rd GRN_Q_FLUSH.QUEUE) else s

/-- QUEUE_FLUSH (R250). -/
def execQueueFlush (m : Master) (v : Word) (s : State) : Host.Outcome State Fault Refusal :=
  s.on (fun s => s.onAccess m GRN_Q_FLUSH.A true (·.queueFlush v))
/-- FLUSH_ONCHIP_RELEASE (R250). -/
def execFlushOnchipRelease (s : State) : Host.Outcome State Fault Refusal := s.on (·.flushRelease)
/-- QUEUE_FLUSH_DONE (R250). -/
def execQueueFlushDone (s : State) : Host.Outcome State Fault Refusal := s.on (·.flushFinish)

/-! ## The mover (R252, R253) -/

/-- SPILL_MOVE (R252). -/
def execSpillMove (q : Fin 262144) (s : State) : Host.Outcome State Fault Refusal := s.on (·.spillMove q)
/-- REFILL_MOVE (R253). -/
def execRefillMove (q : Fin 262144) (s : State) (corr : Nat := 0) : Host.Outcome State Fault Refusal := s.on (·.refillMove q corr)

/-! ## Channels (R254-R260) -/

/-- The shared and spare parts leave a bulk part. -/
def Hw.bulkLeft (s : Hw) : Bool :=
  let shared := s.rd GRN_DRAM_CFG.SHARED
  decide (shared + ceilDiv shared 3 < 2 ^ s.rd GRN_DRAM_CFG.CH_SIZE * 16)

/-- INIT: every channel trains; ignored while the channels train or run, or without a bulk part. -/
def Hw.dramInit (s : Hw) (v : Word) : Hw :=
  let s := s.plainWrite GRN_DRAM_CFG.A v
  if getField v 16 1 = 1 ∧ s.bulkLeft = true ∧ s.rd GRN_DRAM_CFG.DRAM_UP = 0 then
    { s with grn := { s.grn with training := true } }
  else s

/-- STATE of DRAM channel `r` (R258). -/
abbrev Hw.chState (s : Hw) (r : Nat) : Nat := s.rd (GRN_DRAM_CH_STATUS.CH_STATE r)

/-- Training ends: every channel is ACTIVE but one retired since PORN (R258). -/
def Hw.dramUp (s : Hw) : Hw :=
  if s.grn.training then
    let s := { s with grn := { s.grn with training := false } }
    (s.forAll (List.range 4) (fun s r => s.onlyIf (s.chState r ≠ 3) (fun s => s.wr (GRN_DRAM_CH_STATUS.CH_STATE r) 0))).wr
      GRN_DRAM_CFG.DRAM_UP 1
  else s

/-- Blocks of channel `r` are gone: packets on them are lost, those at a head at once (R259). -/
def Hw.blocksLost (s : Hw) (r : Nat) : Hw :=
  let hit := fun (p : Stored) => p.blocks.any (fun b => b.1 == r)
  let qs := s.grn.queues.filterMap (fun e => if e.2.pkts.any hit || (e.2.blk.map Prod.fst) == some r then some e.1 else none)
  s.forAll qs (fun s q =>
    let s := s.modQueue q (fun x => { x with
      pkts := x.pkts.map (fun p => if hit p then { p with lost := true } else p)
      blk := if (x.blk.map Prod.fst) = some r then none else x.blk })
    (s.purgeLost q).schedLeave q)

/-- Channel `r` fails (R258, R259). -/
def Hw.dramFail (s : Hw) (r : Nat) : Hw :=
  let second := (List.range 4).any (fun q => q != r && s.chState q == 3)
  let s := (s.wr (GRN_DRAM_CH_STATUS.CH_STATE r) 3).wr (GRN_DRAM_CH_STATUS.FAILED r) 1
  let s := s.modDram r (fun d => { d with
    lossFrom := if second then d.lossFrom else some d.copied
    lost := d.lost || second, errs := [] })
  (s.grnRaise EV_GRN.DRAM_FAIL).blocksLost r

/-- DRAM_INIT (R254). -/
def execDramInit (m : Master) (v : Word) (s : State) : Host.Outcome State Fault Refusal :=
  s.on (fun s => s.onAccess m GRN_DRAM_CFG.A true (·.dramInit v))
/-- DRAM_UP (R254). -/
def execDramUp (s : State) : Host.Outcome State Fault Refusal := s.on (·.dramUp)

/-- DRAM_RETRAIN (R258). -/
def execDramRetrain (m : Master) (r : Fin 4) (v : Word) (s : State) : Host.Outcome State Fault Refusal :=
  s.on (fun s => s.onAccess m (GRN_DRAM_CH_CTRL.A r) true (fun s =>
    s.onlyIf (getField v 0 1 = 1 ∧ s.dramActive r = true) (fun s => s.wr (GRN_DRAM_CH_STATUS.CH_STATE r) 1)))

/-- DRAM_RETRAIN_COMPLETE (R258). -/
def execDramRetrainComplete (r : Fin 4) (pass : Bool) (s : State) : Host.Outcome State Fault Refusal :=
  s.on (fun s => s.onlyIf (s.chState r = 1) (fun s =>
    if pass then (s.wr (GRN_DRAM_CH_STATUS.CH_STATE r) 0).grnRaise EV_GRN.RETRAIN_DONE else s.dramFail r))

/-- DRAM_RETIRE (R258). -/
def execDramRetire (m : Master) (r : Fin 4) (v : Word) (s : State) : Host.Outcome State Fault Refusal :=
  s.on (fun s => s.onAccess m (GRN_DRAM_CH_CTRL.A r) true (fun s =>
    s.onlyIf (getField v 1 1 = 1 ∧ s.dramActive r = true ∧ (List.range 4).all (fun q => s.chState q != 3) = true)
      (fun s => s.wr (GRN_DRAM_CH_STATUS.CH_STATE r) 2)))

/-- Shared pages of a channel. -/
def Hw.sharedPages (s : Hw) : Nat := s.rd GRN_DRAM_CFG.SHARED * 16384

/-- DRAM_PAGE_COPY_DONE (R258). -/
def execDramPageCopyDone (r : Fin 4) (s : State) : Host.Outcome State Fault Refusal :=
  s.on (fun s => s.onlyIf (s.chState r = 2 ∧ (s.dramCh r).copied < s.sharedPages)
    (fun s => s.modDram r (fun d => { d with copied := d.copied + 1 })))

/-- Every occupied block of channel `r` moves to a block of another channel, in place in its queue's chain; the Boolean
says that room was found for all. -/
def Hw.relocate (s : Hw) (r : Nat) : List Nat → Hw × Bool
  | [] => (s, true)
  | b :: t =>
    match s.newBlock [] with
    | none => (s, false)
    | some n =>
      let sub := fun (x : Nat × Nat) => if x = (r, b) then n else x
      let s := { s with grn := { s.grn with
        rot := (n.1 + 1) % 4
        queues := s.grn.queues.map (fun e => (e.1, { e.2 with
          pkts := e.2.pkts.map (fun p => match p.loc with
            | .ext bs => { p with loc := .ext (bs.map sub) }
            | _ => p)
          blk := e.2.blk.map (fun k => let y := sub (k.1, k.2.1); (y.1, y.2, k.2.2)) })) } }
      Hw.relocate s r t

/-- Relocation of a retiring channel completes once its pages are copied and its blocks have found room elsewhere. -/
def Hw.relocationDone (s : Hw) (r : Nat) : Hw :=
  if s.chState r = 2 ∧ (s.dramCh r).copied = s.sharedPages then
    let x := s.relocate r (s.blocksUsed r)
    if x.2 then (x.1.wr (GRN_DRAM_CH_STATUS.CH_STATE r) 3).grnRaise EV_GRN.RETIRE_DONE else x.1
  else s

/-- DRAM_RELOCATION_DONE (R258). -/
def execDramRelocationDone (r : Fin 4) (s : State) : Host.Outcome State Fault Refusal := s.on (·.relocationDone r)

/-- The oldest external packet of a queue is discarded. -/
def Hw.uncorrPacket (s : Hw) (q : Nat) : Hw :=
  match (s.queue q).pkts.find? Stored.readable with
  | none => s
  | some p =>
    let s := (s.modQueue q (fun x => { x with pkts := x.pkts.eraseP Stored.readable })).limitTaken q p.pkt.len
    ((((s.grnCount GRN_N.DRAM_UNCORR).spillEnd q).poolUpdate p.pkt.source).purgeLost q).schedLeave q

/-- An uncorrectable error on channel `r` at what was read (R257), counted toward FAIL_LIMIT within 1 s (R258). -/
def Hw.dramUncorr (s : Hw) (mem : List Host.Cell) (r : Nat) (w : UncorrAt) : Hw :=
  let s := match w with
    | .packet q => s.uncorrPacket q
    | .context f => s.ctxReturn mem f true 0
    | .window => (s.answer 0#32).grnRaise EV.MEM_UNCORR
  let s := s.grnRaise EV_GRN.DRAM_UNCORR_EV
  let now := s.clk
  let s := s.modDram r (fun d => { d with errs := d.errs.filter (fun t => decide (now - t < 1000000000)) ++ [now] })
  if s.rd GRN_DRAM_LOOP.FAIL_LIMIT ≤ (s.dramCh r).errs.length ∧ s.rd GRN_DRAM_CFG.DRAM_UP = 1
      ∧ (s.chState r = 0 ∨ s.chState r = 2) then s.dramFail r
  else s

/-- DRAM_UNCORR_ERROR (R257). -/
def execDramUncorrError (r : Fin 4) (w : UncorrAt) (s : State) : Host.Outcome State Fault Refusal :=
  s.onMem (fun mem s => s.dramUncorr mem r w)

/-- The refresh loop sets channel `r` to the interval code `want` within its bounds (R260). A code in force that new bounds
exclude makes this step the one that moves it to the nearest bound, whatever the loop wants (R482). Without GRN's clock
the channels refresh themselves and the loop takes no step (R260, R475). -/
def Hw.refreshAdjust (s : Hw) (r want : Nat) : Hw :=
  let into := fun k => min (max k (s.rd GRN_DRAM_LOOP.REF_MIN)) (s.rd GRN_DRAM_LOOP.REF_MAX)
  let cur := s.rd (GRN_DRAM_CH_STATUS.REF_CODE r)
  let aim := if into cur = cur then want else cur
  if s.domRuns 14 then
    (s.onlyIf (into aim ≠ aim) (fun s => s.count GRN_DRAM_CLAMP_COUNT.POLICY_CLAMP_COUNT)).wr
      (GRN_DRAM_CH_STATUS.REF_CODE r) (into aim)
  else s

/-- REFRESH_ADJUST (R260). -/
def execRefreshAdjust (r : Fin 4) (want : Fin 5) (s : State) : Host.Outcome State Fault Refusal :=
  s.on (·.refreshAdjust r want)

/-! ## CLEAR_DEBT (R278) -/

/-- A write of TMS_SHP_CMD; the command completes within it. -/
def Hw.shpCmd (s : Hw) (v : Word) : Hw :=
  let s := s.fullWrite TMS_SHP_CMD.A v
  if getField v 31 1 = 0 then s
  else match shaperLevel (getField v 0 3) with
    | some (t, n) =>
      if getField v 4 16 < n then
        ((s.clearDebt t (getField v 4 16) (getField v 20 2)).count (TMS_SCH_CNT.COUNT 1)).raise 0x3000000 EV_TMS.CMD_DONE
      else (s.count (TMS_SCH_CNT.COUNT 2)).raise 0x3000000 EV_TMS.CMD_ERR
    | none => (s.count (TMS_SCH_CNT.COUNT 2)).raise 0x3000000 EV_TMS.CMD_ERR

/-- CLEAR_DEBT (R278). -/
def execClearDebt (m : Master) (v : Word) (s : State) : Host.Outcome State Fault Refusal :=
  s.on (fun s => s.onAccess m TMS_SHP_CMD.A true (·.shpCmd v))

end Sys2Proof.Machine
end

