-- ==== Sys2Proof/Machine/Macsec.lean ====
section
/-!
DEFINITION. MACsec (R427-R432, spec/16): the receive and transmit handling of a secure entity. The cipher is GCM-AES as
IEEE 802.1AE frames it (log entry 31).
-/
namespace Sys2Proof.Machine

abbrev MS_N.RX_OK := 0
abbrev MS_N.RX_UNTAGGED := 1
abbrev MS_N.RX_NO_SA := 2
abbrev MS_N.RX_LATE := 3
abbrev MS_N.RX_ICV_FAIL := 4
abbrev MS_N.TX_PROTECTED := 5
abbrev MS_N.TX_PN_EXHAUSTED := 6
abbrev MS_N.TX_NO_SA := 7

def Hw.cipRaise (s : Hw) (bit : Nat) : Hw := s.raise 0x8000000 bit
def Hw.msCount (s : Hw) (e n : Nat) : Hw := s.count (CIP_MACSEC_CNT.COUNT e n)

/-- The suite of an entity has 64-bit packet numbers; its key length. -/
def Hw.msXpn (s : Hw) (e : Nat) : Bool := decide (2 ≤ s.t (SECY.CIPHER e))
def Hw.msBits (s : Hw) (e : Nat) : Nat := if s.t (SECY.CIPHER e) % 2 = 0 then 128 else 256

/-- Nonce of a frame under association `a`: the SCI and PN, or the salt over SSCI and PN. -/
def Hw.msNonce (s : Hw) (e a sci pn : Nat) : Nat :=
  if s.msXpn e then s.t (MACSEC_SA.SALT a) ^^^ (s.t (MACSEC_SA.SSCI a) * 2 ^ 64 + pn) else sci * 2 ^ 32 + pn % 2 ^ 32

/-- The 64-bit packet number a received PN field stands for, against the lowest acceptable one. -/
def recoverPn (lowest pn : Nat) : Nat :=
  let hi := lowest / 2 ^ 32
  if 2 ^ 31 ≤ lowest % 2 ^ 32 ∧ pn < 2 ^ 31 then (hi + 1) * 2 ^ 32 + pn else hi * 2 ^ 32 + pn

/-- A SecTAG follows the addresses. -/
def hasSecTag (bs : Bytes) : Bool := beAt bs 12 2 == 0x88E5

/-- Octets of a SecTAG, 8 or 16. -/
def secTagLen (tag : Bytes) : Nat := if bitN (byteAt tag 2) 5 = 1 then 16 else 8

/-- The receive channel a frame with this SecTAG and AN belongs to: with an SCI the one that it names, without one the
lowest with a valid SA of that AN (R428; log entry 34). -/
def Hw.msRxCh (s : Hw) (e an : Nat) (tag : Bytes) : Option Nat :=
  let v := s.t (SECY.RX_SC_VALID e)
  (List.range 2).find? (fun i => bitN v i == 1
    && (if secTagLen tag = 8 then s.t (MACSEC_SA.VALID (e * 16 + 4 + 4 * i + an)) == 1
      else beAt tag 8 8 == s.t (if i = 0 then SECY.RX_SCI0 e else SECY.RX_SCI1 e)))

/-- Cases 3 to 5 of R428: `rest` begins with the SecTAG and ends with the ICV, `pre` is what is authenticated before it.
The deciphered octets and whether the integrity check failed; none for a frame discarded. A frame that passes moves the
lowest acceptable PN. -/
def Hw.msOpen (s : Hw) (e : Nat) (pre rest : Bytes) : Hw × Option (Bytes × Bool) :=
  let an := byteAt rest 2 % 4
  match s.msRxCh e an rest with
  | none => (s.msCount e MS_N.RX_NO_SA, none)
  | some ch =>
    let a := e * 16 + 4 + 4 * ch + an
    if s.t (MACSEC_SA.VALID a) = 0 then (s.msCount e MS_N.RX_NO_SA, none)
    else
      let low := s.t (MACSEC_SA.PN a)
      let pn := if s.msXpn e then recoverPn low (beAt rest 4 4) else beAt rest 4 4
      if s.t (SECY.REPLAY_PROTECT e) = 1 ∧ pn < low then (s.msCount e MS_N.RX_LATE, none)
      else
        let n := secTagLen rest
        let sl := byteAt rest 3 % 64
        let body := rest.drop n
        let body := if sl = 0 then body else body.take (sl + 16)
        let data := body.take (body.length - 16)
        let sci := s.t (if ch = 0 then SECY.RX_SCI0 e else SECY.RX_SCI1 e)
        let key := s.t (MACSEC_SA.KEY a)
        let nonce := s.msNonce e a sci pn
        let aad := pre ++ rest.take n
        let enc := bitN (byteAt rest 2) 3 == 1
        let plain := if enc then gcmOpen (s.msBits e) key nonce data else data
        let ok := if enc then gcmSeal (s.msBits e) key nonce aad plain == body
          else gcmSeal (s.msBits e) key nonce (aad ++ data) [] == body.drop (body.length - 16)
        if ok then
          let s := s.ts (MACSEC_SA.PN a) (max low (pn + 1 - s.t (SECY.REPLAY_WINDOW e)))
          (s.msCount e MS_N.RX_OK, some (plain, false))
        else (s, some (plain, true))

/-- What became of a received frame. -/
inductive MsRx
  | pass (bytes : Bytes)
  | drop
  /-- deciphered; whether the integrity check failed -/
  | plain (bytes : Bytes) (failed : Bool)
  deriving DecidableEq, Repr

/-- A frame with its FCS received by entity `e` (R428). The octets after the SecTAG end with the ICV before the FCS. -/
def Hw.msReceive (s : Hw) (e : Nat) (bs : Bytes) : Hw × MsRx :=
  let mode := s.t (SECY.VALIDATE e)
  if mode = 0 ∨ beAt bs 12 2 = 0x888E then (s, .pass bs)
  else if !hasSecTag bs then (s.msCount e MS_N.RX_UNTAGGED, if mode = 2 then .drop else .pass bs)
  else
    let r := s.msOpen e (bs.take 12) ((bs.take (bs.length - 4)).drop 12)
    match r.2 with
    | none => (r.1, .drop)
    | some p => (r.1, .plain (bs.take 12 ++ p.1 ++ fcsOf (bs.take 12 ++ p.1)) p.2)

/-- A frame of entity `e` whose check failed is on its way (R308). -/
def Hw.icvOwed (s : Hw) (e : Nat) : Hw :=
  { s with cip := { s.cip with icvDue := s.cip.icvDue.set 0 e (s.cip.icvDue.get 0 e + 1) } }

/-- Octets a protected frame has more than a plain one (R431). -/
def Hw.msOverhead (s : Hw) (e : Nat) : Nat := if s.t (SECY.INCLUDE_SCI e) = 1 then 32 else 24

/-- Entity `e` protects `data` behind `pre`, with its SCI when `sc` is 1: the SecTAG, the cipher octets and the ICV; none
when the frame is discarded (R429). -/
def Hw.msSeal (s : Hw) (e sc : Nat) (pre data : Bytes) : Hw × Option Bytes :=
  let an := s.t (SECY.CUR_AN e)
  let a := e * 16 + an
  if s.t (MACSEC_SA.VALID a) = 0 then (s.msCount e MS_N.TX_NO_SA, none)
  else if s.cip.spent.contains a then ((s.msCount e MS_N.TX_PN_EXHAUSTED).cipRaise EV_CIP.SA_PN_EXHAUSTED, none)
  else
    let pn := s.t (MACSEC_SA.PN a)
    let sci := s.t (SECY.TX_SCI e)
    let tag := beBytes 2 0x88E5 ++ beBytes 1 (sc * 32 + 12 + an)
      ++ beBytes 1 (if data.length < 48 then data.length else 0) ++ beBytes 4 (pn % 2 ^ 32)
      ++ (if sc = 1 then beBytes 8 sci else [])
    let out := tag ++ gcmSeal (s.msBits e) (s.t (MACSEC_SA.KEY a)) (s.msNonce e a sci pn) (pre ++ tag) data
    let last := if s.msXpn e then 2 ^ 64 - 1 else 2 ^ 32 - 1
    let soft := if s.msXpn e then 2 ^ 62 else 0xC0000000
    let s := s.onlyIf (soft ≤ pn ∧ s.cip.soft.contains a = false) (fun s =>
      ({ s with cip := { s.cip with soft := a :: s.cip.soft } }).cipRaise EV_CIP.SA_PN_SOFT)
    let s := s.onlyIf (pn = last) (fun s =>
      ({ s with cip := { s.cip with spent := a :: s.cip.spent } }).cipRaise EV_CIP.SA_PN_EXHAUSTED)
    ((s.ts (MACSEC_SA.PN a) (if pn = last then pn else pn + 1)).msCount e MS_N.TX_PROTECTED, some out)

/-- Entity `e` protects a frame without its FCS (R429); none when it is discarded. -/
def Hw.msProtect (s : Hw) (e : Nat) (bs : Bytes) : Hw × Option Bytes :=
  if s.t (SECY.PROTECT e) = 0 ∨ beAt bs 12 2 = 0x888E then (s, some bs)
  else
    let r := s.msSeal e (s.t (SECY.INCLUDE_SCI e)) (bs.take 12) (bs.drop 12)
    (r.1, r.2.map (fun b => bs.take 12 ++ b))

/-- Every packet the terminal holds. -/
def Hw.eachPkt (s : Hw) (f : Pkt → Pkt) : Hw :=
  let task := fun (t : Task) => { t with pkt := t.pkt.map f }
  let wait := fun (w : Waiting) => { w with pkt := f w.pkt, task := task w.task }
  { s with
    thr := { s.thr with
      fifos := s.thr.fifos.map (fun e => (e.1, e.2.map f)), parked := s.thr.parked.map wait, held := s.thr.held.map wait
      spreads := s.thr.spreads.map (fun e => (e.1, { e.2 with
        out := e.2.out.map (fun n => { n with pkts := n.pkts.map (fun k => (k.1, f k.2)) }) })) }
    grn := { s.grn with
      queues := s.grn.queues.map (fun e => (e.1, { e.2 with pkts := e.2.pkts.map (fun k => { k with pkt := f k.pkt }) })) }
    til := { s.til with
      ready := s.til.ready.map task, delay := s.til.delay.map (fun d => { d with task := task d.task })
      engs := s.til.engs.map (fun e => (e.1, { e.2 with
        run := e.2.run.map task, pre := e.2.pre.map (fun p => (task p.1, p.2)) })) } }

/-- The integrity check of a frame of entity `e` is found to have failed (R308): its packet, and every copy of it, is
UNTRUSTED from here on. -/
def Hw.icvFail (s : Hw) (e : Nat) : Hw :=
  let n := s.cip.icvDue.get 0 e
  if n = 0 then s
  else
    let s := { s with cip := { s.cip with icvDue := s.cip.icvDue.set 0 e (n - 1) } }
    let s := s.msCount e MS_N.RX_ICV_FAIL
    let s := s.onlyIf (e < 64) (fun s => s.raise (0x4000000 + 8 * e * 0x1000) EV_SUB.MACSEC_UNTRUSTED_EV)
    if n = 1 then s.eachPkt (fun p => if p.icv = some e then { p with untrusted := true, icv := none } else p) else s

/-- MACSEC_ICV_FAIL (R308). -/
def execMacsecIcvFail (e : Fin 65) (s : State) : Host.Outcome State Fault Refusal := s.on (·.icvFail e)

/-- CUR_AN takes ENC_AN at the firing of time-event slot `x` (R429). -/
def Hw.anSwitch (s : Hw) (x : Nat) : Hw :=
  s.forAll (s.listed 12 2) (fun s e =>
    s.onlyIf (s.t (SECY.ACT_EN e) = 1 ∧ s.t (SECY.ACT_SLOT e) = x) (fun s => s.ts (SECY.CUR_AN e) (s.t (SECY.ENC_AN e))))

end Sys2Proof.Machine
end

