-- ==== Sys2Proof/Machine/Ports.lean ====
section
/-!
DEFINITION. Subscriber lanes and ports (spec/11): lock and link, MDIO, receive and transmit at the MAC, timestamps
(R341-R345), pause, low-power idle, rate-down, recalibration, and the downstream selection that feeds the MACs (R270).
-/
namespace Sys2Proof.Machine

abbrev SUB_N.RX_CODE_ERR := 0
abbrev SUB_N.RX_FCS_ERR := 1
abbrev SUB_N.RX_RUNT := 2
abbrev SUB_N.RX_OVERSIZE := 3
abbrev SUB_N.RX_FIFO_OVF := 4
abbrev SUB_N.RX_STOPPED_DROP := 5
abbrev SUB_N.RX_PFC := 6
abbrev SUB_N.RX_PAUSE_DROP := 7
abbrev SUB_N.TX_LPI_ENTRIES := 9
abbrev SUB_N.EGRESS_FLUSH_DISCARD := 10
abbrev SUB_N.LINK_DOWN_DROP := 11
abbrev SUB_N.EGRESS_TTL_DROP := 12
abbrev SUB_N.EGRESS_OVERSIZE_DROP := 13
abbrev SUB_N.MACSEC_UNTRUSTED_DROP := 14

def Hw.subCount (s : Hw) (p n : Nat) : Hw := s.count (SUB_PORT_CNT.COUNT p n)
def Hw.subRaise (s : Hw) (p bit : Nat) : Hw := s.raise (0x4000000 + p * 0x1000) bit
def Hw.laneRaise (s : Hw) (l bit : Nat) : Hw := s.raise (0x210000 + l * 0x10000) bit

/-- Port numbers of lane `l`. -/
def lanePorts (l : Nat) : List Nat := (List.range 8).map (fun i => 8 * l + i)

/-! ## Lock and link (R289, R290, R294) -/

/-- LINK of port `p` as R294 gives it. -/
def Hw.linkOf (s : Hw) (p : Nat) : Bool :=
  let l := p / 8
  let single := s.singleLane l
  s.portExists p && s.laneOn l && s.rd (SRD_LANE_STATUS.LOCK l) == 1
    && (s.rd (SUB_PORT_STATUS.PHY_LINK p) == 1 || (single && !(s.mdio (p / 128)).polled.contains p))
    && (!(s.capRd (SRD_LANE_CTRL.MODE l) == 0 && s.capRd (SRD_LANE_CTRL.AN_EN l) == 1) || (s.lane l).anDone)

/-- Slot packets that waited on a port that no longer transmits are dropped (R324). -/
def Hw.slotqDrop (s : Hw) (p : Nat) : Hw :=
  let l := (s.port p).slotq
  (s.modPort p (fun x => { x with slotq := [] })).forAll l (fun s e => s.circCount (CIRCUIT_STATE.DS_PORT_DROP e.1))

/-- LINK follows its conditions; it stays 1 throughout a rate-down step (R306). -/
def Hw.linkUpdate (s : Hw) (p : Nat) : Hw :=
  let v := b2n (s.linkOf p)
  if s.rd (SUB_PORT_STATUS.LINK p) = v ∨ (s.lane (p / 8)).stepWritten = true then s
  else
    let s := s.onlyIf (v = 0 ∧ s.rd (SUB_PORT_CTRL.ENABLE p) = 1) (fun s => s.note (1028 + p) 23)
    ((s.wr (SUB_PORT_STATUS.LINK p) v).onlyIf (v = 0) (·.slotqDrop p)).subRaise p EV_SUB.LINK_CHANGE

/-- LINK of a lane's ports (R289). -/
def Hw.laneLinks (s : Hw) (l : Nat) : Hw := s.forAll (lanePorts l) (fun s p => s.linkUpdate p)

/-- LOCK of a lane is lost. -/
def Hw.lockLost (s : Hw) (l : Nat) : Hw :=
  if s.rd (SRD_LANE_STATUS.LOCK l) = 0 then s
  else
    let s := (s.wr (SRD_LANE_STATUS.LOCK l) 0).laneRaise l EV_LANE.LOCK_CHANGE
    let s := (s.count (SRD_LANE_CNT.COUNT l 3)).modLane l (fun x => { x with anDone := false })
    s.laneLinks l

/-- The PCS of a lane has locked (R289). -/
def Hw.lockGained (s : Hw) (l : Nat) : Hw :=
  if s.laneOn l = false ∨ s.rd (SRD_LANE_STATUS.LOCK l) = 1 then s
  else ((s.wr (SRD_LANE_STATUS.LOCK l) 1).laneRaise l EV_LANE.LOCK_CHANGE).laneLinks l

/-- PCS_LOCK_ACQUIRE (R289). -/
def execPcsLockAcquire (l : Fin 64) (s : State) : Host.Outcome State Fault Refusal :=
  s.on (fun s => s.onlyIf ((s.lane l).step = none) (fun s => s.lockGained l))
/-- PCS_LOCK_LOSS (R289). -/
def execPcsLockLoss (l : Fin 64) (s : State) : Host.Outcome State Fault Refusal := s.on (·.lockLost l)

/-- The effective receive polarity is inverted; the PCS acquires anew. -/
def Hw.polarityFlip (s : Hw) (l : Nat) : Hw :=
  if s.laneOn l = true ∧ s.rd (SRD_LANE_CTRL.POL_AUTO l) = 1 then
    let s := (s.wr (SRD_LANE_STATUS.POL_STATE l) (1 - s.rd (SRD_LANE_STATUS.POL_STATE l))).lockLost l
    (s.count (SRD_LANE_CNT.COUNT l 2)).laneRaise l EV_LANE.POL_FLIP
  else s

/-- POLARITY_FLIP (R290). -/
def execPolarityFlip (l : Fin 64) (s : State) : Host.Outcome State Fault Refusal := s.on (·.polarityFlip l)

/-- Autonegotiation of a lane is complete (R294). -/
def Hw.anComplete (s : Hw) (l : Nat) : Hw :=
  if s.laneOn l = true ∧ s.capRd (SRD_LANE_CTRL.MODE l) = 0 ∧ s.capRd (SRD_LANE_CTRL.AN_EN l) = 1 then
    (s.modLane l (fun x => { x with anDone := true })).laneLinks l
  else s

/-- AUTONEG_COMPLETE (R294). -/
def execAutonegComplete (l : Fin 64) (s : State) : Host.Outcome State Fault Refusal := s.on (·.anComplete l)

/-! ## MDIO masters (R292, R293, R306, R465) -/

/-- Ports of master `m` with a valid MDIO_POLL entry, ascending. -/
def Hw.polled (s : Hw) (m : Nat) : List Nat :=
  (s.listed 8 1).filter (fun p => p / 128 == m && s.t (MDIO_POLL.VALID p) == 1)

/-- One frame on the bus of master `m`; PRE_SUP omits its 32-bit preamble (R292). -/
def Hw.mdioFrame (s : Hw) (m op prtad devad data : Nat) (cl45 : Bool) : Hw :=
  s.emit (.mdio m op prtad devad data cl45 (s.rd (SRD_MDIO_CFG.PRE_SUP m) == 0))

/-- A write of REG with VALUE through an entry of RD_PHY or PHY_SEL: clause 45 sends an address frame first. -/
def Hw.mdioWrite (s : Hw) (m prtad devad reg value : Nat) (cl45 : Bool) : Hw :=
  if cl45 then (s.mdioFrame m 2 prtad devad reg true).mdioFrame m 0 prtad devad value true
  else s.mdioFrame m 0 prtad (reg % 32) value false

/-- Item `w` of the waiting writes begins: RD_PHY of lane `w`, or PHY_SEL of lane `w - 64`. -/
def Hw.mdioWriteItem (s : Hw) (m w : Nat) : Hw :=
  if w < 64 then
    let e := w * 4 + ((s.lane w).step.getD 0)
    s.mdioWrite m (s.t (RD_PHY.PRTAD e)) (s.t (RD_PHY.DEVAD e)) (s.t (RD_PHY.REG e)) (s.t (RD_PHY.VALUE e)) (s.t (RD_PHY.CL45 e) == 1)
  else
    let e := w - 64
    s.mdioWrite m (s.t (PHY_SEL.PRTAD e)) (s.t (PHY_SEL.DEVAD e)) (s.t (PHY_SEL.REG e)) (s.t (PHY_SEL.VALUE e)) (s.t (PHY_SEL.CL45 e) == 1)

/-- A field of a MDIO_POLL entry taken as its round began (R313). -/
def pollField (w : Word) (f : TRef) : Nat := getField w f.lo f.width

/-- A poll frame begins, by the entry its round began with. -/
def Hw.mdioPollFrame (s : Hw) (m : Nat) (w : Word) : Hw :=
  let a := pollField w (MDIO_POLL.PRTAD 0)
  let d := pollField w (MDIO_POLL.DEVAD 0)
  let r := pollField w (MDIO_POLL.REG 0)
  if pollField w (MDIO_POLL.CL45 0) = 1 then (s.mdioFrame m 2 a d r true).mdioFrame m 1 a d 0 true
  else s.mdioFrame m 1 a (r % 32) 0 false

/-- A poll round begins: the entries as they stand are in force until the next, and LINK follows them. -/
def Hw.roundBegin (s : Hw) (m : Nat) : Hw :=
  let l := s.polled m
  let s := s.modMdio m (fun x => { x with
    roundWaits := false, polled := l, left := l.map (fun p => (p, s.tabWord (MDIO_POLL.VALID p).base)) })
  s.forAll ((List.range 128).map (fun i => 128 * m + i)) (fun s p => s.linkUpdate p)

/-- The command held in SRD_MDIO_CMD begins. -/
def Hw.mdioCommandFrame (s : Hw) (m : Nat) : Hw :=
  s.mdioFrame m (s.rd (SRD_MDIO_CMD.OP m)) (s.rd (SRD_MDIO_CMD.PRTAD m)) (s.rd (SRD_MDIO_CMD.DEVAD m))
    (s.rd (SRD_MDIO_CMD.DATA m)) (s.rd (SRD_MDIO_CMD.CL45 m) == 1)

/-- The next poll of the round in progress, if one is left. -/
def Hw.mdioPoll (s : Hw) (m : Nat) : Hw :=
  match (s.mdio m).left with
  | (p, w) :: t => (s.modMdio m (fun x => { x with run := .poll p w, left := t })).mdioPollFrame m w
  | [] => s.modMdio m (fun x => { x with run := .idle })

/-- The bus of master `m` is free: a takeover write goes first, then a command, a rate-down write, the round's next
poll, or a round that waited. The last write frame but a takeover's belongs to its own row; takeover writes follow one
another at once. -/
def Hw.mdioNext (s : Hw) (m : Nat) : Hw :=
  let x := s.mdio m
  let sel := x.writes.filter (fun w => decide (64 ≤ w))
  let s := s.forAll sel (fun s w => s.mdioWriteItem m w)
  let s := s.modMdio m (fun x => { x with writes := x.writes.filter (fun w => decide (w < 64)) })
  let x := s.mdio m
  if x.cmdWaits then (s.modMdio m (fun x => { x with run := .cmd, cmdWaits := false })).mdioCommandFrame m
  else match x.writes with
    | w :: t => (s.modMdio m (fun x => { x with run := .write w, writes := t })).mdioWriteItem m w
    | [] => if x.left.isEmpty && x.roundWaits then (s.roundBegin m).mdioPoll m else s.mdioPoll m

/-- Something new waits for the bus. -/
def Hw.mdioKick (s : Hw) (m : Nat) : Hw := if (s.mdio m).run = .idle then s.mdioNext m else s

/-- A command of operation `op` is written; it starts, or waits for a poll frame to end. -/
def Hw.mdioCommand (s : Hw) (m op : Nat) (v : Word) : Hw :=
  let v := setField v 10 2 op
  let busy := s.rd (SRD_MDIO_CMD.BUSY m)
  let s := s.plainWrite (SRD_MDIO_CMD.A m) v
  if getField v 13 1 = 0 ∨ busy = 1 then s
  else ((s.wr (SRD_MDIO_CMD.BUSY m) 1).modMdio m (fun x => { x with cmdWaits := true })).mdioKick m

/-- MDIO_WRITE (R292). -/
def execMdioWrite (m : Master) (i : Fin 4) (v : Word) (s : State) : Host.Outcome State Fault Refusal :=
  s.on (fun s => s.onAccess m (SRD_MDIO_CMD.A i) true (fun s => s.mdioCommand i 0 v))
/-- MDIO_READ (R292). -/
def execMdioRead (m : Master) (i : Fin 4) (v : Word) (s : State) : Host.Outcome State Fault Refusal :=
  s.on (fun s => s.onAccess m (SRD_MDIO_CMD.A i) true (fun s => s.mdioCommand i 1 v))
/-- MDIO_ADDRESS (R292). -/
def execMdioAddress (m : Master) (i : Fin 4) (v : Word) (s : State) : Host.Outcome State Fault Refusal :=
  s.on (fun s => s.onAccess m (SRD_MDIO_CMD.A i) true (fun s => s.mdioCommand i 2 v))
/-- MDIO_READ_INCREMENT (R292). -/
def execMdioReadIncrement (m : Master) (i : Fin 4) (v : Word) (s : State) : Host.Outcome State Fault Refusal :=
  s.on (fun s => s.onAccess m (SRD_MDIO_CMD.A i) true (fun s => s.mdioCommand i 3 v))

/-- The running command ends; `undriven` says that the PHY left a read's turnaround bit high. -/
def Hw.mdioDone (s : Hw) (m : Nat) (undriven : Bool) (data : Nat) : Hw :=
  if (s.mdio m).run = .cmd then
    let op := s.rd (SRD_MDIO_CMD.OP m)
    let read := decide (op = 1 ∨ op = 3)
    let err := read && undriven
    let s := (s.wr (SRD_MDIO_CMD.BUSY m) 0).wr (SRD_MDIO_CMD.ERR m) (b2n err)
    let s := s.onlyIf read (fun s => s.wr (SRD_MDIO_CMD.DATA m) (if err then 0xFFFF else data))
    let s := s.raise 0x200000 EV_SRD.MDIO_DONE
    let s := s.onlyIf err (fun s => s.raise 0x200000 EV_SRD.MDIO_ERR)
    s.mdioNext m
  else s

/-- MDIO_DONE (R292). -/
def execMdioDone (i : Fin 4) (undriven : Bool) (data : Fin 65536) (s : State) : Host.Outcome State Fault Refusal :=
  s.on (·.mdioDone i undriven data)

/-- A poll round falls due. -/
def Hw.pollRound (s : Hw) (m : Nat) : Hw :=
  if s.rd (SRD_MDIO_CFG.POLL_MS m) = 0 then s
  else (s.modMdio m (fun x => { x with roundWaits := true })).mdioKick m

/-- MDIO_POLL_ROUND (R293). -/
def execMdioPollRound (i : Fin 4) (s : State) : Host.Outcome State Fault Refusal := s.on (·.pollRound i)

/-- The poll frame on the bus ends. -/
def Hw.pollDone (s : Hw) (m : Nat) (undriven : Bool) (data : Nat) : Hw :=
  match (s.mdio m).run with
  | .poll p w =>
    let s := if undriven then s.count (SRD_MDIO_CFG.POLL_ERR m)
      else (s.wr (SUB_PORT_STATUS.PHY_LINK p) (bitN data (pollField w (MDIO_POLL.BIT 0)))).linkUpdate p
    s.mdioNext m
  | _ => s

/-- MDIO_POLL_FRAME_DONE (R293). -/
def execMdioPollFrameDone (i : Fin 4) (undriven : Bool) (data : Fin 65536) (s : State) : Host.Outcome State Fault Refusal :=
  s.on (·.pollDone i undriven data)

/-! ## Timestamps (R341-R345) -/

/-- A local time moved by a signed number of picoseconds. -/
def LTime.addPs (t : LTime) (ps : Int) : LTime :=
  let n := (Int.ofNat (t.abs * 2 ^ 32 + t.frac) + ps * 2 ^ 32 / 1000).toNat
  { sec := n / (1000000000 * 2 ^ 32) % 2 ^ 48, ns := n / 2 ^ 32 % 1000000000, frac := n % 2 ^ 32 }

/-- An entry for timestamp queue TS_Q of port `p`; one that finds it full is lost (R344, R345). -/
def Hw.tsPush (s : Hw) (p id : Nat) (at' : Option LTime) : Hw :=
  if 512 ≤ p ∨ s.cond 31 ≠ 0 then s
  else
    let q := s.rd (SUB_TS_CFG.TS_Q p)
    let t := at'.getD {}
    let e : TsEntry := { id := id, port := p, sec := t.sec % 2 ^ 32, ns := t.ns, frac := t.frac / 65536, notSent := at'.isNone }
    let l := s.tim.tsq.get [] q
    if 128 ≤ l.length then
      let s := (s.count (TIM_TSQ_OVF.TS_OVERFLOW_COUNT q)).wr (TIM_TSQ_FRAC.LAST_LOST_ID q) id
      (s.wr (TIM_TSQ.OVF_STICKY q) 1).raise 0x5000000 EV_TIM.TS_OVERFLOW
    else { s with tim := { s.tim with tsq := s.tim.tsq.set [] q (l ++ [e]) } }

/-- A requested frame that is discarded at egress leaves an entry with NOT_SENT. -/
def Hw.notSent (s : Hw) (p : Nat) (k : Pkt) : Hw := match k.tsReq with
  | some id => s.tsPush p id none
  | none => s

/-- Offset of a PTP Sync message's header: type 0x88F7 after no VLAN tag or one (R343). -/
def syncAt (bs : Bytes) : Option Nat :=
  let at' := fun (o : Nat) => if beAt bs o 2 = 0x88F7 ∧ byteAt bs (o + 2) % 16 = 0 then some (o + 2) else none
  match at' 12 with
  | some o => some o
  | none => if tagged bs then at' 16 else none

/-- The predicted departure time written into a Sync message. -/
def oneStep (t : LTime) (bs : Bytes) : Bytes :=
  match syncAt bs with
  | none => bs
  | some o =>
    let out := patch (patch bs (o + 34) 6 t.sec) (o + 40) 4 t.ns
    patch out (o + 8) 8 ((beAt bs (o + 8) 8 + t.frac / 65536) % 2 ^ 64)

/-! ## Receive (R287, R296, R298, R299, R302, R307, R325, R342) -/

/-- A received PFC frame loads the timers of the priorities it names (R302). -/
def Hw.pfcRx (s : Hw) (p : Nat) (bs : Bytes) : Hw :=
  if s.portState p ≠ 2 then s
  else
    let en := beAt bs 16 2
    let time := fun i => beAt bs (18 + 2 * i) 2
    let s := s.subCount p SUB_N.RX_PFC
    let s := s.forAll ((List.range 8).filter (fun i => bitN en i == 1)) (fun s i =>
      let t := time i
      let ends := s.clk + ceilDiv (t * 512000) (s.portRate p)
      let s := s.modPort p (fun x => { x with pause := x.pause.set 0 i (if t = 0 then 0 else ends) })
      s.wr ⟨SUB_PORT_STATUS.A p, 8 + i, 1⟩ (b2n (decide (t ≠ 0))))
    s.onlyIf ((List.range 8).any (fun i => bitN en i == 1 && time i != 0) = true) (fun s => s.subRaise p EV_SUB.PFC_RX_EV)

/-- PFC_FRAME_RX (R302). -/
def execPfcFrameRx (p : Fin 512) (bs : Bytes) (s : State) : Host.Outcome State Fault Refusal := s.on (·.pfcRx p bs)

/-- A pause timer runs out; one loaded anew since still runs. -/
def Hw.pauseExpire (s : Hw) (p i : Nat) : Hw :=
  if s.clk < (s.port p).pause.get 0 i then s
  else (s.modPort p (fun x => { x with pause := x.pause.set 0 i 0 })).wr ⟨SUB_PORT_STATUS.A p, 8 + i, 1⟩ 0

/-- PFC_PAUSE_EXPIRE (R302). -/
def execPfcPauseExpire (p : Fin 512) (i : Fin 8) (s : State) : Host.Outcome State Fault Refusal := s.on (·.pauseExpire p i)

/-- PFC_REFRESH (R301). -/
def execPfcRefresh (p : Fin 512) (s : State) : Host.Outcome State Fault Refusal :=
  s.on (fun s => s.onlyIf (s.rd (SUB_PORT_STATUS.PFC_TX_XOFF p) ≠ 0) (fun s => s.pfcWant p true 0))

/-- A frame that passed the MAC's checks goes into pipeline B's FIFO; the fifth check is its room. -/
def Hw.rxFifo (s : Hw) (p wire : Nat) (k : Pkt) : Hw × Bool :=
  let f := s.fifoAdd pipeB p k
  if f.2 then ((f.1.count64 (SUB_RX_FRAMES.A p)).count64 (SUB_RX_BYTES.A p) wire, true)
  else (f.1.subCount p SUB_N.RX_FIFO_OVF, false)

/-- MACsec works on port `p`: MACSEC_EN, on a single-port lane (R427). -/
def Hw.securePort (s : Hw) (p : Nat) : Bool := s.capRd (SUB_PORT_CTRL.MACSEC_EN p) == 1 && s.singleLane (p / 8)

/-- A frame has been received whole on port `p` (R298). The secure entity stands between the MAC and what takes the frame,
the parser (R307) or the slot service (R325; log entry 98). -/
def Hw.macRx (s : Hw) (p : Nat) (bs : Bytes) (codeErr : Bool) : Hw :=
  let counted := fun (s : Hw) => (s.count64 (SUB_RX_FRAMES.A p)).count64 (SUB_RX_BYTES.A p) bs.length
  if s.portState p ≠ 2 then s.onlyIf (s.portState p = 3) (fun s => s.subCount p SUB_N.RX_STOPPED_DROP)
  else if (s.lane (p / 8)).stepWritten then s.count (SRD_LANE_CNT.COUNT (p / 8) 1)
  else if codeErr then s.subCount p SUB_N.RX_CODE_ERR
  else if !fcsOk bs then s.subCount p SUB_N.RX_FCS_ERR
  else if bs.length < 64 then s.subCount p SUB_N.RX_RUNT
  else if s.capRd (SUB_PORT_CTRL.MAX_LEN p) < bs.length then s.subCount p SUB_N.RX_OVERSIZE
  else if beAt bs 12 2 = 0x8808 then
    let s := counted s
    if beAt bs 14 2 = 0x0101 then s.pfcRx p bs else s.subCount p SUB_N.RX_PAUSE_DROP
  else
    let t := s.tim.now.addPs (s.rdS (SUB_TS_ADJ.RX_ADJ p))
    let ts := if s.rd (SUB_TS_CFG.TS_RX_EN p) = 1 then some (t.sec % 2 ^ 32, t.ns) else none
    let k : Pkt := { bytes := bs, source := p, rxTs := ts }
    let enter := fun (s : Hw) (k : Pkt) => match s.slotAt k.bytes with
      | some o => (counted s).slotRx p o k.bytes
      | none => (s.rxFifo p bs.length k).1
    if s.securePort p then
      let e := p / 8
      let r := s.msReceive e bs
      match r.2 with
      | .drop => counted r.1
      | .pass b => enter r.1 { k with bytes := b }
      | .plain b false => enter r.1 { k with bytes := b }
      | .plain b true => (r.1.rxFifo p bs.length { k with bytes := b, icv := some e }).1.icvOwed e
    else enter s k

/-- MAC_FRAME_RX (R298). -/
def execMacFrameRx (p : Fin 512) (bs : Bytes) (codeErr : Bool) (s : State) : Host.Outcome State Fault Refusal :=
  s.on (fun s => s.onlyIf (s.portExists p = true
      ∧ (s.rd (SRD_LANE_STATUS.LOCK (p / 8)) = 1 ∨ (s.lane (p / 8)).stepWritten = true))
    (fun s => s.macRx p bs codeErr))

/-- A frame with its port tag on a Spikelet lane (R286, R287). -/
def Hw.spikeletRx (s : Hw) (l t0 t1 : Nat) (bs : Bytes) (codeErr : Bool) : Hw :=
  let mode := s.capRd (SRD_LANE_CTRL.MODE l)
  if s.laneOn l = false ∨ mode < 4 ∨ s.rd (SRD_LANE_STATUS.LOCK l) = 0 then s
  else if t0 / 16 ≠ 0xA ∨ t0 % 2 ≠ 0 ∨ t1 ≠ crc8 [BitVec.ofNat 8 t0] then
    (s.count (SRD_LANE_CNT.COUNT l 0)).laneRaise l EV_LANE.TAG_ERR_EV
  else
    let slot := t0 / 2 % 8
    if modePorts mode ≤ slot then s.count (SRD_LANE_CNT.COUNT l 0)
    else if s.portState (8 * l + slot) ≠ 2 then s.subCount (8 * l + slot) SUB_N.RX_STOPPED_DROP
    else s.macRx (8 * l + slot) bs codeErr

/-- SPIKELET_FRAME_RX (R287). -/
def execSpikeletFrameRx (l : Fin 64) (t0 t1 : Byte) (bs : Bytes) (codeErr : Bool) (s : State) :
    Host.Outcome State Fault Refusal :=
  s.on (·.spikeletRx l t0.toNat t1.toNat bs codeErr)

/-! ## Transmit (R216, R217, R288, R297, R300, R308, R343, R344, R429-R431, R454) -/

/-- Octets waiting in the twin's transmit FIFO. -/
def TwinData.pkt : TwinData → Pkt
  | .port p => p
  | .dsPort _ p => p
  | .usQueue _ p => p
def Hw.twinUsed (s : Hw) : Nat := sumBy (fun d => (TwinData.pkt d).len) s.twn.data

/-- The transmit FIFO of 256 KiB has room (R452). -/
def Hw.twinRoom (s : Hw) (n : Nat) : Bool := decide (s.twinUsed + n ≤ 262144)
def Hw.twinPut (s : Hw) (d : TwinData) : Hw :=
  if (TwinData.pkt d).tainted then s.twnCount 15 else { s with twn := { s.twn with data := s.twn.data ++ [d] } }

/-- The twin link is UP. -/
def Hw.linkUp (s : Hw) : Bool := s.rd TWN_STATUS.LINK_STATE == 2

/-- Port nodes 0-511 forward to the peer: the twin is not ACTIVE, and a yielding one has its HANDOVER_ACK (R454,
R467). -/
def Hw.forwards (s : Hw) : Bool :=
  s.rd GLB_STRAP.TWIN_EN == 1 && (match s.rd TWN_STATUS.ROLE_STATE with
    | 1 => true
    | 2 => true
    | 4 => s.twn.forward
    | _ => false)

/-- A frame as modified at egress, without its FCS; none when its TTL has ended. -/
def Hw.egressBody (s : Hw) (k : Pkt) : Option Bytes := s.modify k.modProf k.modData k.ipOff (k.bytes.take (k.len - 4))

/-- A frame discarded at the egress of port `p`, counted in `n`. -/
def Hw.egressDrop (s : Hw) (p n : Nat) (k : Pkt) : Hw := (s.subCount p n).notSent p k

/-- Zero padding to 64 octets, FCS included (R300). -/
def padFcs (bs : Bytes) : Bytes :=
  let b := bs ++ List.replicate (60 - bs.length) 0
  b ++ fcsOf b

/-- Length of the frame that port `p` sends for the egress octets `body`: with SecTAG and ICV, padding and FCS. -/
def Hw.sentLen (s : Hw) (p : Nat) (body : Bytes) : Nat :=
  let extra := if s.securePort p && s.t (SECY.PROTECT (p / 8)) == 1 && beAt body 12 2 != 0x888E then s.msOverhead (p / 8) else 0
  max 64 (body.length + extra + 4)

/-- The MAC of port `p` takes a packet (R300). -/
def Hw.macSend (s : Hw) (p : Nat) (k : Pkt) : Hw :=
  if k.tainted then s.egressDrop p SUB_N.MACSEC_UNTRUSTED_DROP k
  else match s.egressBody k with
    | none => s.egressDrop p SUB_N.EGRESS_TTL_DROP k
    | some body =>
      let ms := s.securePort p
      let e := p / 8
      let t := s.tim.now.addPs (s.rdS (SUB_TS_ADJ.TX_ADJ p))
      let body := if k.oneStep then oneStep t body else body
      let len := s.sentLen p body
      let held := s.modPort p (fun x => { x with nextStart := s.clk + s.portNs p (len + 20) })
      if min 12288 (s.capRd (SUB_PORT_CTRL.MAX_LEN p)) < len then s.egressDrop p SUB_N.EGRESS_OVERSIZE_DROP k
      else if s.rd (SUB_PORT_STATUS.LINK p) = 0 then held.egressDrop p SUB_N.LINK_DOWN_DROP k
      else
        let r := if ms then s.msProtect e body else (s, some body)
        match r.2 with
        | none => r.1.notSent p k
        | some out =>
          let f := padFcs out
          let s := r.1.modPort p (fun x => { x with nextStart := s.clk + s.portNs p (f.length + 20), idle := false })
          let s := s.putFrame p f
          match k.tsReq with
          | some id => s.tsPush p id (some t)
          | none => s

/-- A packet leaves by the twin link as port `p`'s (R454). -/
def Hw.twinSend (s : Hw) (p : Nat) (k : Pkt) (mk : Pkt → TwinData) : Hw :=
  if k.tainted then s.twnCount 15
  else match s.egressBody k with
    | none => s.egressDrop p SUB_N.EGRESS_TTL_DROP k
    | some body =>
      let f := if k.modProf = 0 then k.bytes else padFcs body
      if 12288 < f.length then s.egressDrop p SUB_N.EGRESS_OVERSIZE_DROP k
      else s.twinPut (mk { k with bytes := f, modProf := 0 })

/-- A packet that port node 512 sends: to the ring of its subscriber node (R392), modified as at any port. -/
def Hw.hostSend (s : Hw) (sub : Nat) (k : Pkt) : Hw :=
  if k.tainted then s.subCount 512 SUB_N.MACSEC_UNTRUSTED_DROP
  else match s.egressBody k with
    | none => s.subCount 512 SUB_N.EGRESS_TTL_DROP
    | some body =>
      let f := if k.modProf = 0 then k.bytes else padFcs body
      if 12288 < f.length then s.subCount 512 SUB_N.EGRESS_OVERSIZE_DROP
      else s.hostDeliver sub { k with bytes := f }

/-! ## Downstream selection (R269, R270) -/

/-- Port node `p` is eligible apart from its shaper. -/
def Hw.nodeReady (s : Hw) (p : Nat) : Bool :=
  if p < 512 then
    if s.forwards then s.linkUp
    else s.portState p == 2 && decide ((s.port p).nextStart ≤ s.clk) && s.laneFree p && !(s.port p).waking
      && (s.lane (p / 8)).step.isNone && (s.rd (SUB_PORT_STATUS.LINK p) == 1 || s.rd (SUB_PORT_CTRL.DOWN_ACTION p) == 1)
  else if p = 512 then s.cond 12 == 0
  else p == 514 && s.linkUp

/-- The class of a packet may leave port `p` now, with the frame it is sent as (R354), and the port's transmitter takes
it. -/
def Hw.nodeTakes (s : Hw) (p : Nat) (k : Pkt) : Bool :=
  (if p < 512 then bitN (s.rd (SUB_PORT_STATUS.PFC_RX_MASK p)) k.tc == 0
      && s.gateOpen p k.tc (s.portNs p (((s.egressBody k).map (s.sentLen p)).getD k.len + 20)) else true)
    && (!(p == 514 || (decide (p < 512) && s.forwards)) || s.twinRoom k.len) && (p != 512 || s.dmaRoom k.len)

/-- Candidates at port node `p`. -/
def Hw.nodeCands (s : Hw) (p : Nat) : List Cand := if s.nodeReady p then s.dsCands p (fun k => s.nodeTakes p k) else []

/-- Port nodes with something to send in low-power idle: it ends (R303). -/
def Hw.lpiWake (s : Hw) (nodes : List Nat) : Hw :=
  s.forAll nodes (fun s p =>
    if p < 512 ∧ s.rd (SRD_LANE_STATUS.LPI_TX (p / 8)) = 1 ∧ s.forwards = false ∧ s.nodeCands p ≠ [] then s.lpiEnd (p / 8) else s)

/-- In the rounds under each node, children that have had their quantum and are no longer eligible move to the tail
(R272). -/
def Hw.dsTrim (s : Hw) (nodes : List Nat) : Hw :=
  s.forAll nodes (fun s p => s.trimTree true p (s.dsCands p (fun k => s.nodeTakes p k)))

/-- The node served next of those in `ok`: the ports of one lane take turns (R288); the order among lanes, which send side
by side, and the other nodes is the model's (log entry 210). -/
def Hw.nodeTurn (s : Hw) (ok : List Nat) : Nat :=
  let p := nextAfter ok s.tms.portRr
  if p < 512 then nextAfter (ok.filter (fun q => q / 8 == p / 8)) (s.lane (p / 8)).rr else p

/-- Node `p` has been served. -/
def Hw.nodeServed (s : Hw) (p : Nat) : Hw :=
  if p < 512 then
    { s.modLane (p / 8) (fun x => { x with rr := p + 1 }) with tms := { s.tms with portRr := p / 8 * 8 + 8 } }
  else { s with tms := { s.tms with portRr := p + 1 } }

/-- One cycle of the downstream scheduler; frames that go ahead of data start first. -/
def Hw.dsSelect (s : Hw) : Hw :=
  let nodes := ((s.backlog true).map (fun q => (s.pathOf true q 0).top)).eraseDups
  let s := ((s.pumpAll).lpiWake nodes).dsTrim nodes
  let ok := nodes.filter (fun p => !(s.nodeCands p).isEmpty)
  if ok.isEmpty then s
  else
    let p := s.nodeTurn ok
    match s.selectTree true p (s.nodeCands p) with
    | none => s
    | some (s, c) =>
      match s.headPkt c.q with
      | none => s
      | some k =>
        let s := (s.take c.q).nodeServed p
        let s := if p = 512 then s.hostSend c.sub k
          else if p = 514 then s.twinSend 514 k .port
          else if s.forwards then s.twinSend p k (.dsPort p)
          else s.macSend p k
        s.dsTrim [p]

/-- DS_SELECT (R270). -/
def execDsSelect (s : State) : Host.Outcome State Fault Refusal := s.on (·.dsSelect)

/-! ## Low-power idle (R303, R304) -/

/-- Ports of lane `l` that are ON. -/
def Hw.onPorts (s : Hw) (l : Nat) : List Nat := (lanePorts l).filter (fun q => s.portState q == 2)

/-- Lane `l` may transmit LPI: some port is ON, and every such port has LPI_EN (R303). -/
def Hw.lpiAllowed (s : Hw) (l : Nat) : Bool :=
  s.laneOn l && !(s.onPorts l).isEmpty && (s.onPorts l).all (fun q => s.rd (SUB_PORT_CTRL.LPI_EN q) == 1)

/-- LPI ends where it is no longer allowed, and begins once every port that is ON has been idle for its LPI_IDLE. -/
def Hw.lpiSync (s : Hw) (l : Nat) : Hw :=
  if s.lpiAllowed l = false then s.lpiEnd l
  else if s.rd (SRD_LANE_STATUS.LPI_TX l) = 0 ∧ (s.onPorts l).all (fun q => (s.port q).idle && !(s.port q).waking) = true then
    ((s.wr (SRD_LANE_STATUS.LPI_TX l) 1).laneSync l).forAll (s.onPorts l) (fun s q => s.subCount q SUB_N.TX_LPI_ENTRIES)
  else s

/-- Port `p` has been idle for LPI_IDLE. -/
def Hw.lpiEnter (s : Hw) (p : Nat) : Hw :=
  if s.portState p = 2 then (s.modPort p (fun x => { x with idle := true })).lpiSync (p / 8) else s

/-- A port has come ON: LPI of its lane ends until the port has been idle too. -/
def Hw.portOn (s : Hw) (p : Nat) : Hw := (s.modPort p (fun x => { x with idle := false })).lpiEnd (p / 8)

/-- LPI_ENTER (R303). -/
def execLpiEnter (p : Fin 512) (s : State) : Host.Outcome State Fault Refusal := s.on (·.lpiEnter p)
/-- LPI_WAKE_DONE (R303). -/
def execLpiWakeDone (p : Fin 512) (s : State) : Host.Outcome State Fault Refusal :=
  s.on (fun s => (s.modPort p (fun x => { x with waking := false })).lpiSync (p / 8))
/-- LPI_RX_CHANGE (R304). -/
def execLpiRxChange (l : Fin 64) (v : Bool) (s : State) : Host.Outcome State Fault Refusal :=
  s.on (fun s => s.onlyIf (s.laneOn l = true) (fun s => s.wr (SRD_LANE_STATUS.LPI_RX l) (b2n v)))

/-! ## Recalibration (R309) -/

/-- A lane begins a recalibration (R309). -/
def Hw.recalStart (s : Hw) (l : Nat) : Hw :=
  if !s.laneOn l then s
  else if s.rd (SRD_LANE_STATUS.RECAL_BUSY l) = 1 ∨ (s.lane l).step.isSome = true then s.modLane l (fun x => { x with recalWaits := true })
  else s.wr (SRD_LANE_STATUS.RECAL_BUSY l) 1

/-- A recalibration that waited starts. -/
def Hw.recalNext (s : Hw) (l : Nat) : Hw :=
  if (s.lane l).recalWaits then (s.modLane l (fun x => { x with recalWaits := false })).recalStart l else s

/-- The new values are switched in; the equaliser code within its bounds, a clamp counted (R72, R291, R309). -/
def Hw.recalDone (s : Hw) (l ctle : Nat) (dfe : List Int) (offset : Int) : Hw :=
  if s.rd (SRD_LANE_STATUS.RECAL_BUSY l) = 0 then s
  else
    let k := min (s.rd (SRD_LANE_EQ.CTLE_MAX l)) (max (s.rd (SRD_LANE_EQ.CTLE_MIN l)) ctle)
    let s := s.modLane l (fun x => { x with dfe := dfe, offset := offset })
    let s := (s.wr (SRD_LANE_EQ.CTLE l) k).onlyIf (k ≠ ctle) (fun s => s.count (SRD_LANE_CLAMP_COUNT.POLICY_CLAMP_COUNT l))
    ((s.wr (SRD_LANE_STATUS.RECAL_BUSY l) 0).laneRaise l EV_LANE.RECAL_DONE).recalNext l

/-- RECAL_GO (R309). -/
def execRecalGo (m : Master) (l : Fin 72) (v : Word) (s : State) : Host.Outcome State Fault Refusal :=
  s.on (fun s => s.onAccess m (SRD_RECAL.A l) true (fun s =>
    (s.plainWrite (SRD_RECAL.A l) v).onlyIf (getField v 0 1 = 1) (fun s => s.recalStart l)))
/-- RECAL_PERIOD_EXPIRE (R309). -/
def execRecalPeriodExpire (l : Fin 72) (s : State) : Host.Outcome State Fault Refusal :=
  s.on (fun s => s.onlyIf (s.rd (SRD_RECAL.RECAL_PERIOD l) ≠ 0) (fun s => s.recalStart l))
/-- RECAL_DONE (R309). -/
def execRecalDone (l : Fin 72) (s : State) (ctle : Fin 16 := 0) (dfe : List Int := [0, 0, 0, 0]) (offset : Int := 0) :
    Host.Outcome State Fault Refusal :=
  s.on (·.recalDone l ctle dfe offset)

/-! ## Rate-down (R305, R306) -/

/-- A step of lane `l` ends. -/
def Hw.stepEnd (s : Hw) (l : Nat) : Hw := (s.modLane l (fun x => { x with step := none, stepWritten := false })).recalNext l

/-- The lane returns to MODE (R306). -/
def Hw.stepFail (s : Hw) (l : Nat) : Hw :=
  if (s.lane l).step.isNone then s
  else
    let s := s.wr (SRD_LANE_STATUS.CUR_MODE l) (s.capRd (SRD_LANE_CTRL.MODE l))
    let s := s.modMdio (l / 16) (fun x => { x with writes := x.writes.filter (· != l) })
    (s.stepEnd l).laneLinks l

/-- A step to mode `k` begins: the node is ineligible, the PHY's write waits for the bus. -/
def Hw.stepStart (s : Hw) (l k : Nat) : Hw :=
  let s := s.modLane l (fun x => { x with step := some k, stepWritten := false, lows := 0 })
  if s.t (RD_PHY.VALID (l * 4 + k)) = 0 then s
  else (s.modMdio (l / 16) (fun x => { x with writes := x.writes ++ [l] })).mdioKick (l / 16)

/-- The larger of the octets received and transmitted since the last evaluation, which the counters then become the start
of the next interval. -/
def Hw.rateOctets (s : Hw) (l : Nat) : Nat × Hw :=
  let rx := s.val64 (SUB_RX_BYTES.A (8 * l))
  let tx := s.val64 (SUB_TX_BYTES.A (8 * l))
  let x := s.lane l
  (max ((rx + 2 ^ 64 - x.rdRx) % 2 ^ 64) ((tx + 2 ^ 64 - x.rdTx) % 2 ^ 64), s.modLane l (fun x => { x with rdRx := rx, rdTx := tx }))

/-- `octets` over RD_EVAL ms in Mb/s against `pct` per cent of a rate, exactly: below, or above (R305). -/
def Hw.rateBelow (s : Hw) (l octets rate pct : Nat) : Bool :=
  decide (octets * 800 < rate * pct * (s.capRd (SRD_RD_CFG.RD_EVAL l) * 1000))
/-- The load of a lane is above its limit (R305). -/
def Hw.rateAbove (s : Hw) (l octets rate pct : Nat) : Bool :=
  decide (rate * pct * (s.capRd (SRD_RD_CFG.RD_EVAL l) * 1000) < octets * 800)

/-- One evaluation (R305). RD_HOLD, the thresholds and RD_EVAL are not live: the lane captured them (R61). -/
def Hw.rateEval (s : Hw) (l : Nat) : Hw :=
  let octets := (s.rateOctets l).1
  let s := (s.rateOctets l).2
  let k := s.rd (SRD_LANE_STATUS.CUR_MODE l)
  let lo := s.rd (SRD_RD_CFG.RD_FLOOR l)
  let hi := s.rd (SRD_RD_CFG.RD_CEIL l)
  let clamp := fun (s : Hw) => s.count (SRD_LANE_CLAMP_COUNT.POLICY_CLAMP_COUNT l)
  if s.laneOn l = false ∨ s.capRd (SRD_LANE_CTRL.MODE l) > 3 ∨ s.rd (SRD_LANE_CTRL.RD_EN l) = 0
      ∨ s.portState (8 * l) ≠ 2 ∨ (s.lane l).step.isSome = true then s
  else if k < lo then (clamp s).stepStart l (k + 1)
  else if hi < k then (clamp s).stepStart l (k - 1)
  else if k < 3 ∧ s.rateAbove l octets (modeRate k) (s.capRd (SRD_RD_CFG.RD_HI_PCT l)) = true then
    let s := s.modLane l (fun x => { x with lows := 0 })
    if k < hi then s.stepStart l (k + 1) else clamp s
  else if 0 < k ∧ s.rateBelow l octets (modeRate (k - 1)) (s.capRd (SRD_RD_CFG.RD_LO_PCT l)) = true then
    let s := s.modLane l (fun x => { x with lows := x.lows + 1 })
    if (s.lane l).lows < s.capRd (SRD_RD_CFG.RD_HOLD l) then s
    else if lo < k then s.stepStart l (k - 1) else clamp s
  else s.modLane l (fun x => { x with lows := 0 })

/-- L is what the lane has carried, not an operand (R305). -/
def execRateDownEval (l : Fin 64) (_load : Nat) (s : State) : Host.Outcome State Fault Refusal := s.on (·.rateEval l)

/-- The write of the step's RD_PHY entry ends and the lane retrains; with no valid entry the step is abandoned. -/
def Hw.stepPhyWritten (s : Hw) (l : Nat) : Hw :=
  match (s.lane l).step with
  | none => s.onlyIf ((s.mdio (l / 16)).run = .write l) (fun s => s.mdioNext (l / 16))
  | some k =>
    if (s.lane l).stepWritten then s
    else if (s.mdio (l / 16)).run = .write l then
      let s := s.modLane l (fun x => { x with stepWritten := true })
      let s := (s.wr (SRD_LANE_STATUS.CUR_MODE l) k).lockLost l
      s.mdioNext (l / 16)
    else if (s.mdio (l / 16)).writes.contains l then s
    else (s.count (SRD_MDIO_CFG.POLL_ERR (l / 16))).stepEnd l

/-- Lock at the new rate. -/
def Hw.stepLocked (s : Hw) (l : Nat) : Hw :=
  if (s.lane l).stepWritten then
    let s := (s.wr (SRD_LANE_STATUS.LOCK l) 1).laneRaise l EV_LANE.LOCK_CHANGE
    ((s.stepEnd l).laneRaise l EV_LANE.RATE_CHANGE).laneLinks l
  else s

/-- RATE_STEP_PHY_WRITTEN (R306). -/
def execRateStepPhyWritten (l : Fin 64) (s : State) : Host.Outcome State Fault Refusal := s.on (·.stepPhyWritten l)
/-- RATE_STEP_LOCKED (R306). -/
def execRateStepLocked (l : Fin 64) (s : State) : Host.Outcome State Fault Refusal := s.on (·.stepLocked l)
/-- RATE_STEP_TIMEOUT (R306). -/
def execRateStepTimeout (l : Fin 64) (s : State) : Host.Outcome State Fault Refusal :=
  s.on (·.stepFail l)

/-! ## Energy (R311) -/

/-- A stopped lane sees energy (R311). -/
def Hw.energy (s : Hw) (l : Nat) : Hw :=
  if s.pwr.held.contains (19 + l / 8) = true ∧ s.rd (SRD_LANE_CTRL.ED_EN l) = 1 then
    (s.wr (SRD_LANE_STATUS.ENERGY l) 1).laneRaise l EV_LANE.ENERGY_EV
  else s

/-! ## Lifecycle of lanes and ports (R289, R295, R296, R297, R310) -/

/-- Lane `l` transmits on the DPLL clock, by the bit it captured (R346). -/
def Hw.synce (s : Hw) (l : Nat) : Bool := bitN (s.capOwn l (TIM_SYNCE_LANES.LANES (l / 32))) (l % 32) == 1

/-- Entry of a lane to STARTING. -/
def Hw.laneStarting (s : Hw) (l : Nat) : Hw :=
  let s := s.wr (SRD_LANE_STATUS.POL_STATE l) (s.rd (SRD_LANE_CTRL.RX_INVERT l))
  let s := s.emit (.laneClock l (s.synce l))
  let s := (s.wr (SRD_LANE_STATUS.CUR_MODE l) (s.capRd (SRD_LANE_CTRL.MODE l))).wr (SRD_LANE_STATUS.ENERGY l) 0
  s.modLane l (fun _ => { rdRx := s.val64 (SUB_RX_BYTES.A (8 * l)), rdTx := s.val64 (SUB_TX_BYTES.A (8 * l)) })

/-- The lane leaves ON: links go down, a step or a recalibration ends. -/
def Hw.laneStopping (s : Hw) (l : Nat) : Hw :=
  let s := s.modMdio (l / 16) (fun x => { x with writes := x.writes.filter (· != l) })
  let s := s.modLane l (fun x => { x with step := none, stepWritten := false, recalWaits := false, anDone := false })
  let s := (s.wr (SRD_LANE_STATUS.RECAL_BUSY l) 0).wr (SRD_LANE_STATUS.LPI_TX l) 0
  (((s.wr (SRD_LANE_STATUS.LPI_RX l) 0).laneSync l).lockLost l).laneLinks l

/-- Entry of a port to STARTING. -/
def Hw.portStarting (s : Hw) (p : Nat) : Hw :=
  s.modPort p (fun x => { x with nextStart := 0, waking := false, idle := false, pfcDue := false, pfcOwed := 0 })

/-- The start condition of a port (R295, R310). -/
def Hw.portCanStart (s : Hw) (p : Nat) : Bool := s.rd (SUB_PORT_STATUS.LINK p) == 1 && s.capRd (SRD_LANE_CTRL.TEST (p / 8)) == 0

/-- Entry of a port to STOPPING: the packets queued on its paths are to be flushed; a rate-down step ends. -/
def Hw.portStopping (s : Hw) (p : Nat) : Hw :=
  let l := (s.backlog true).filter (fun q => (s.pathOf true q 0).top == p)
  let s := s.forAll l (fun s q => s.modQueue q (fun x => { x with pkts := x.pkts.map (fun k => { k with doomed := true }) }))
  let s := (s.modPort p (fun x => { x with flush := l, waking := false, idle := false, pfcDue := false, pfcOwed := 0 })).slotqDrop p
  (s.lpiSync (p / 8)).stepFail (p / 8)

/-- The packets to flush leave through the egress path and are discarded (R296). -/
def Hw.portFlushQueue (s : Hw) (p q : Nat) : Nat → Hw
  | 0 => s
  | n + 1 => match (if (s.queue q).pkts.head?.any Stored.doomed then s.headPkt q else none) with
    | none => s
    | some k => Hw.portFlushQueue ((s.take q).egressDrop p SUB_N.EGRESS_FLUSH_DISCARD k) p q n

/-- The flush of a stopping port is complete (R296). -/
def Hw.portFlushed (s : Hw) (p : Nat) : Hw :=
  let l := (s.port p).flush
  (s.forAll l (fun s q => s.portFlushQueue p q (s.queue q).pkts.length)).modPort p (fun x => { x with flush := [] })

end Sys2Proof.Machine
end

