-- ==== Sys2Proof/Machine/Slot.lean ====
section
/-!
DEFINITION. Commands of the slot service (spec/12): containers, slot frame boundaries, playout, pages, selector commands.
-/
namespace Sys2Proof.Machine

/-- The oldest container waiting on channel `c` is checked and demapped; with the block off it is lost. -/
def Hw.containerRx (s : Hw) (c : Nat) : Hw :=
  match s.slt.inbox.get [] c with
  | [] => s
  | b :: t =>
    let s := { s with slt := { s.slt with inbox := s.slt.inbox.set [] c t } }
    if s.sltOn then s.container c b else s

/-- CONTAINER_RX (R317). -/
def execContainerRx (c : Fin 4) (s : State) : Host.Outcome State Fault Refusal := s.on (·.containerRx c)

/-! ## Slot frame boundaries (R315, R317, R318, R325, R457) -/

/-- The circuits that page `p` maps upstream on a trunk channel. -/
def Hw.usCircuits (s : Hw) (p : Nat) : List Nat :=
  ((List.range 4).map (fun c => (s.mapped true p c).map (fun e => e.2.1))).flatten.eraseDups

/-- The octets of the slot frame that has ended are lost for the mapped circuits that no cutoff has taken them for: the
oldest frame of a buffer that has started goes (R318, R325). An empty one counts no underrun, for want of a cutoff. -/
def Hw.loseFrames (s : Hw) (ended : Nat) : Hw :=
  match s.pageFor ended with
  | none => s
  | some p => s.forAll (s.usCircuits p) (fun s x =>
    let k := s.circ x
    if s.cf x (CIRCUIT.VALID x) = 1 ∧ s.cf x (CIRCUIT.US_EN x) = 1 ∧ k.running = true ∧ k.taken.any (fun t => t.1 == ended) = false then
      s.modCirc x (fun q => { q with jitter := q.jitter.drop 1 })
    else s)

/-- Channels named as PROT_CH by a circuit protected by the twin. -/
def Hw.twinChans (s : Hw) : List Nat :=
  (List.range 4).filter (fun c => s.circList.any (fun x =>
    s.cf x (CIRCUIT.VALID x) == 1 && s.cf x (CIRCUIT.PROT x) == 2 && s.cf x (CIRCUIT.PROT_CH x) == c))

/-- F_loc has changed: the slot frame that has ended is judged, commits of it come into force (R322). -/
def Hw.slotBoundary (s : Hw) : Hw :=
  if !s.sltOn then s
  else
    let f := s.fLoc
    let s := s.forAll (List.range 8) (fun s k =>
      let h := s.slotCh k
      let miss := !h.got
      let s := s.onlyIf (miss = true ∧ k < 4) (fun s => s.count (SLT_CH_CNT.COUNT k 4))
      let s := s.onlyIf (k < 4 ∧ s.rd (SLT_CH_CFG.US_EN k) = 1 ∧ h.granted = false)
        (fun s => s.count (SLT_CH_CNT.COUNT k 5))
      s.modSlotCh k (fun h => { h with got := false, granted := false, missing := if miss then min 15 (h.missing + 1) else 0 }))
    let s := s.loseFrames ((f + 65535) % 65536)
    let s := ({ s with slt := { s.slt with old := [] } } : Hw).slotDefects
    match s.pageFor f with
    | none => s
    | some p =>
      if s.linkUp && s.rd GLB_STRAP.TWIN_EN == 1 then
        s.forAll s.twinChans (fun s c =>
          let r := s.buildContainer p c f
          { r.1 with twn := { r.1.twn with slots := r.1.twn.slots ++ [(false, c, r.2)] } })
      else s

/-- SLOT_FRAME_BOUNDARY (R315). -/
def execSlotFrameBoundary (s : State) : Host.Outcome State Fault Refusal := s.on (·.slotBoundary)

/-! ## Playout (R323, R324, R326, R328) -/

/-- The slot packet of circuit `x` toward `port`, its frames gathered. -/
def Hw.slotPacket (s : Hw) (x port : Nat) (frames : List Bytes) (defect : Bool) : Bytes :=
  let k := s.circ x
  let da := beBytes 2 (s.cf x (CIRCUIT.DA_HI x)) ++ beBytes 4 (s.cf x (CIRCUIT.DA_LO x))
  let sa := beBytes 2 (s.rd (SUB_MAC_ADDR_HI.ADDR port)) ++ beBytes 4 (s.rd (SUB_MAC_ADDR_LO.ADDR port))
  let tag := if s.cf x (CIRCUIT.TAGGED x) = 1 then beBytes 2 0x8100 ++ beBytes 2 (s.cf x (CIRCUIT.TCI x)) else []
  let head := x * 2 ^ 22 + s.cf x (CIRCUIT.TX_LABEL x) * 2 ^ 14 + b2n defect * 2 ^ 13 + k.seqTx
  padFcs (da ++ sa ++ tag ++ beBytes 2 (s.rd SLT_CFG.ETYPE) ++ beBytes 4 head ++ frames.flatten)

/-- A complete slot packet enters the port's MAC, or is dropped. -/
def Hw.slotSend (s : Hw) (x port : Nat) (f : Bytes) : Hw :=
  let s := s.modCirc x (fun k => { k with gather := [], defect := false, seqTx := (k.seqTx + 1) % 4096 })
  if s.portState port ≠ 2 ∨ s.rd (SUB_PORT_STATUS.LINK port) = 0 then s.circCount (CIRCUIT_STATE.DS_PORT_DROP x)
  else if min 12288 (s.capRd (SUB_PORT_CTRL.MAX_LEN port)) < f.length then s.subCount port SUB_N.EGRESS_OVERSIZE_DROP
  else (s.modPort port (fun k => { k with slotq := k.slotq ++ [(x, f)] })).macPump port

/-- The octets of a circuit in a stored frame; the higher position wins. -/
def SlotFrame.circuit (f : SlotFrame) (x n : Nat) : Bytes :=
  (List.range n).map (fun i => match f.octets.reverse.find? (fun o => o.1 == x && o.2.1 == i) with
    | some o => o.2.2
    | none => Config.slotGap x i)

/-- The next frame of a circuit is due: PLAYOUT and the frames played before it after its reference, in local time. -/
def Hw.playoutDue (s : Hw) (x : Nat) : Bool :=
  (s.circ x).start.any (fun t => decide (t.2 + (s.cf x (CIRCUIT.PLAYOUT x) + (s.circ x).played) * 125000 ≤ s.tim.now.abs))

/-- The next frame of a circuit is played. -/
def Hw.playout (s : Hw) (x : Nat) : Hw :=
  match (s.circ x).start with
  | none => s
  | some (f0, _) =>
    let f := (f0 + (s.circ x).played) % 65536
    match s.pageNear f with
    | none => s.modCirc x (fun k => { k with played := k.played + 1 })
    | some pg =>
      let cap := s.circCap pg x
      let path := s.t (CIRCUIT_STATE.ACTIVE_PATH x)
      let ch := s.pathCh x path
      let fail := (if path = 0 then s.t (CIRCUIT_STATE.SF_W x) else s.t (CIRCUIT_STATE.SF_P x)) == 1
        || s.t (CIRCUIT_STATE.PLM x) == 1
      let frame := if fail then none else (match (s.slotCh ch).store.get none (f % 32) with
        | some g => if g.no = f then some (g.circuit x cap.1) else none
        | none => none)
      let s := s.modCirc x (fun k => { k with played := k.played + 1 })
      if s.cf x (CIRCUIT.VALID x) = 0 ∨ s.cf x (CIRCUIT.DS_EN x) = 0 then s
      else
        let s := s.onlyIf (frame = none) (fun s => (s.circCount (CIRCUIT_STATE.DS_MISSING x) (some (x, 2))).note (4 + x) 22)
        let s := s.modCirc x (fun k => { k with
          gather := k.gather ++ [frame.getD (List.replicate cap.1 (0xFF#8))], defect := k.defect || fail })
        let k := s.circ x
        if k.gather.length < cap.2.1 then s
        else s.slotSend x cap.2.2 (s.slotPacket x cap.2.2 k.gather k.defect)

/-- FRAME_PLAYOUT (R326). -/
def execFramePlayout (x : Fin 1024) (s : State) : Host.Outcome State Fault Refusal :=
  s.on (fun s => s.onlyIf (s.sltOn = true ∧ s.playoutDue x = true) (fun s => s.playout x))

/-- A slot packet received on port `p` (R325): a frame whose type field is ETYPE. -/
def execSlotPacketRx (p : Fin 512) (bs : Bytes) (s : State) : Host.Outcome State Fault Refusal :=
  s.on (fun s => match s.slotAt bs with
    | some o => s.slotRx p o bs
    | none => s)

/-! ## Pages (R319-R321) -/

/-- Entry of a page to STARTING: N, K and PORT of every circuit are captured, and the scan begins (R320, R321). -/
def Hw.pageStarting (s : Hw) (p : Nat) : Hw :=
  let caps := (s.listed 9 3).foldl (fun (m : Sparse (Nat × Nat × Nat)) x =>
    m.set (0, 0, 0) x (s.t (CIRCUIT.N x), s.t (CIRCUIT.K x), s.t (CIRCUIT.PORT x))) []
  (s.modSlotPage p (fun _ => { caps := caps })).wr (SLT_PAGE_STATUS.BAD_ENTRIES p) 0

/-- A valid entry the scan rejects (R320). -/
def Hw.badEntry (s : Hw) (p c x octet : Nat) : Bool :=
  s.t (CIRCUIT.VALID x) == 0 || decide ((s.circCap p x).1 ≤ octet)
    || !(s.t (CIRCUIT.WORK_CH x) == c || (s.t (CIRCUIT.PROT x) == 1 && s.t (CIRCUIT.PROT_CH x) == c))

/-- A page becomes ON from the next slot frame (R321). -/
def Hw.pageGoOn (s : Hw) (p : Nat) : Hw :=
  let s := s.wr (SLT_PAGE_STATUS.SWAP_FRAME p) (s.fLoc + 1)
  let s := s.modSlotPage 2 (fun _ => { caps := (s.slotPage p).caps, armed := true })
  (s.modSlotPage p (fun x => { x with armed := false, swapAt := s.slotFrame + 1 })).lcOn (.page ⟨p % 2, Nat.mod_lt _ (by decide)⟩)

/-- An armed page whose other page is not ON becomes ON (R321). -/
def Hw.pageTry (s : Hw) (p : Nat) : Hw :=
  if s.pageState p = 1 ∧ (s.slotPage p).armed = true ∧ s.pageState (1 - p) ≠ 2 then s.pageGoOn p else s

/-- The scan of page `p` is complete: bad entries are counted and taken as unmapped, and the page is armed; it becomes ON where the other page is not (R320, R321). -/
def Hw.pageScanned (s : Hw) (p : Nat) : Hw :=
  if s.pageState p ≠ 1 ∨ (s.slotPage p).armed = true then s
  else
    let in' := fun (i : Nat) => decide (i / 16384 = p)
    let ds := (s.listed 9 1).filter (fun i => in' i && s.t (CMEM_DS.VALID i) == 1
      && s.badEntry p (i % 16384 / 4096) (s.t (CMEM_DS.CIRCUIT i)) (s.t (CMEM_DS.OCTET i)))
    let us := (s.listed 9 2).filter (fun i => in' i && s.t (CMEM_US.VALID i) == 1
      && s.badEntry p (i % 16384 / 4096) (s.t (CMEM_US.CIRCUIT i)) (s.t (CMEM_US.OCTET i)))
    let s := s.modSlotPage p (fun x => { x with badDs := ds, badUs := us, armed := true })
    (s.wr (SLT_PAGE_STATUS.BAD_ENTRIES p) (min 4095 (ds.length + us.length))).pageTry p

/-- PAGE_SCAN_DONE (R320). -/
def execPageScanDone (p : Fin 2) (s : State) : Host.Outcome State Fault Refusal :=
  s.on (fun s => s.onlyIf (s.sltOn = true) (fun s => s.pageScanned p))

/-- 32 slot frames after the swap, or after a stop: the page is OFF, or starts again; an armed page may go ON (R321). -/
def Hw.pageRetire (s : Hw) (p : Nat) : Hw :=
  if s.pageState p ≠ 3 then s
  else
    let s := s.lcOff (.page ⟨p % 2, Nat.mod_lt _ (by decide)⟩)
    let s := s.onlyIf (s.pageState p = 1) (fun s => s.pageStarting p)
    s.pageTry (1 - p)

/-- PAGE_RETIRE (R321). -/
def execPageRetire (p : Fin 2) (s : State) : Host.Outcome State Fault Refusal := s.on (·.pageRetire p)

/-- A swap event (R321). -/
def Hw.swapEvent (s : Hw) : Hw :=
  match (List.range 2).find? (fun p => s.pageState p == 1 && (s.slotPage p).armed) with
  | none => s.sltRaise EV_SLT.SWAP_NOT_ARMED_EV
  | some p =>
    let o := 1 - p
    let s := s.onlyIf (s.pageState o = 2) (fun s => (s.wr (SLT_PAGE_CTRL.ENABLE o) 0).lcDown (.page ⟨o % 2, Nat.mod_lt _ (by decide)⟩))
    (s.pageGoOn p).sltRaise EV_SLT.PAGE_SWAPPED

/-! ## The selector (R329) -/

/-- A word with GO written to SLT_PSW_CMD applies command `cmd` to the circuit it names; without GO it is a plain
write. -/
def Hw.selectorCommand (s : Hw) (cmd : Nat) (v : Word) : Hw :=
  let v := setField v 10 3 cmd
  let s := s.plainWrite SLT_PSW_CMD.A v
  let x := s.rd SLT_PSW_CMD.CIRCUIT
  if getField v 31 1 = 0 then s
  else if (cmd = 4 ∧ s.t (CIRCUIT_STATE.SF_W x) = 1) ∨ (cmd = 5 ∧ s.t (CIRCUIT_STATE.SF_P x) = 1) then s
  else ((s.ts (CIRCUIT_STATE.CMD_IN_FORCE x) cmd).select1p1 x).circDefects x

/-- PSW_CLEAR (R329). -/
def execPswClear (m : Master) (v : Word) (s : State) : Host.Outcome State Fault Refusal :=
  s.on (fun s => s.onAccess m SLT_PSW_CMD.A true (fun s => s.selectorCommand 0 v))
/-- PSW_LOCKOUT (R329). -/
def execPswLockout (m : Master) (v : Word) (s : State) : Host.Outcome State Fault Refusal :=
  s.on (fun s => s.onAccess m SLT_PSW_CMD.A true (fun s => s.selectorCommand 1 v))
/-- PSW_FORCE_WORK (R329). -/
def execPswForceWork (m : Master) (v : Word) (s : State) : Host.Outcome State Fault Refusal :=
  s.on (fun s => s.onAccess m SLT_PSW_CMD.A true (fun s => s.selectorCommand 2 v))
/-- PSW_FORCE_PROT (R329). -/
def execPswForceProt (m : Master) (v : Word) (s : State) : Host.Outcome State Fault Refusal :=
  s.on (fun s => s.onAccess m SLT_PSW_CMD.A true (fun s => s.selectorCommand 3 v))
/-- PSW_MANUAL_WORK (R329). -/
def execPswManualWork (m : Master) (v : Word) (s : State) : Host.Outcome State Fault Refusal :=
  s.on (fun s => s.onAccess m SLT_PSW_CMD.A true (fun s => s.selectorCommand 4 v))
/-- PSW_MANUAL_PROT (R329). -/
def execPswManualProt (m : Master) (v : Word) (s : State) : Host.Outcome State Fault Refusal :=
  s.on (fun s => s.onAccess m SLT_PSW_CMD.A true (fun s => s.selectorCommand 5 v))

/-- SF on one path only has lasted HOLDOFF. -/
def Hw.holdoffExpire (s : Hw) (x : Nat) : Hw :=
  let w := s.t (CIRCUIT_STATE.SF_W x)
  let p := s.t (CIRCUIT_STATE.SF_P x)
  let alone := if w = 1 ∧ p = 0 then some 0 else if w = 0 ∧ p = 1 then some 1 else none
  ((s.modCirc x (fun k => { k with heldOff := alone })).select1p1 x).circDefects x

/-- PSW_HOLDOFF_EXPIRE (R329). -/
def execPswHoldoffExpire (x : Fin 1024) (s : State) : Host.Outcome State Fault Refusal := s.on (·.holdoffExpire x)

/-- Wait-to-restore ends: the selector returns to path 0 unless a higher request keeps it. -/
def Hw.wtrExpire (s : Hw) (x : Nat) : Hw :=
  if s.t (CIRCUIT_STATE.WTR_RUN x) = 0 then s
  else
    let s := s.ts (CIRCUIT_STATE.WTR_RUN x) 0
    let cmd := s.t (CIRCUIT_STATE.CMD_IN_FORCE x)
    if cmd = 3 ∨ cmd = 5 ∨ s.t (CIRCUIT_STATE.ACTIVE_PATH x) = 0 then s
    else
      let s := (s.ts (CIRCUIT_STATE.ACTIVE_PATH x) 0).circCount (CIRCUIT_STATE.SWITCH_COUNT x) (some (x, 6))
      (s.sltRaise EV_SLT.PATH_SWITCH).circDefects x

/-- PSW_WTR_EXPIRE (R329). -/
def execPswWtrExpire (x : Fin 1024) (s : State) : Host.Outcome State Fault Refusal := s.on (·.wtrExpire x)

/-- A circuit's VALID goes from 0 to 1: its counters are cleared and it starts anew (R332), from the next slot frame. -/
def Hw.circuitStart (s : Hw) (x : Nat) : Hw :=
  let s := { s with slt := { s.slt with circs := s.slt.circs.set {} x {} } }
  (s.setTabWords (CIRCUIT_STATE.E x + 1) 7 0).ts (CIRCUIT_STATE.ACTIVE_PATH x) 0

end Sys2Proof.Machine
end

