-- ==== Sys2Proof/Machine/Husk.lean ====
section
/-!
DEFINITION. Husk's commands, its random generator, the check-value engine and zeroisation (spec/16), and the judging of
a Choell image (R415, R416, R489-R492).
-/
namespace Sys2Proof.Machine

def Hw.hskRaise (s : Hw) (bit : Nat) : Hw := s.raise 0x7800000 bit
def Hw.modHsk (s : Hw) (f : HskSt → HskSt) : Hw := { s with hsk := f s.hsk }
def Hw.modFuses (s : Hw) (f : Fuses → Fuses) : Hw := s.modHsk (fun h => { h with fuses := f h.fuses })

/-- HSK_STATUS shows the fuses (R414). -/
def Hw.showFuses (s : Hw) : Hw :=
  let f := s.hsk.fuses
  ((s.wr HSK_STATUS.LIFECYCLE f.lifecycle).wr HSK_STATUS.OTP_SVN f.svn).wr HSK_STATUS.DEBUG_SECURE (b2n (decide (f.lifecycle < 2)))

def zeros (n : Nat) : Bytes := List.replicate n 0
/-- A digest slot; an empty one is all zero. -/
def digestAt (l : Sparse Bytes) (i : Nat) : Bytes := l.get (zeros 48) i
def Fuses.rsa (f : Fuses) (i : Nat) : Bytes := digestAt f.rsaDigest i
def Fuses.slh (f : Fuses) (i : Nat) : Bytes := digestAt f.slhDigest i
/-- Measurement register `i`. -/
def Hw.meas (s : Hw) (i : Nat) : Bytes := s.hsk.meas.get (zeros 48) i

/-! ## Commands (R418-R422) -/

/-- `n` of the SVN bits that the running command still has to program are blown (R414). -/
def Hw.svnBlow (s : Hw) (n : Nat) : Hw :=
  let k := min n s.hsk.svnLeft
  if k = 0 then s
  else (s.modHsk (fun h => { h with svnLeft := h.svnLeft - k, fuses := { h.fuses with svn := h.fuses.svn + k } })).showFuses

/-- A command completes: STATUS and CMD_DONE (R419). -/
def Hw.hskDone (s : Hw) : Hw :=
  match s.hsk.cmd with
  | none => s
  | some st =>
    let s := s.svnBlow s.hsk.svnLeft
    let s := s.modHsk (fun h => { h with cmd := none })
    ((s.wr HSK_CMD.BUSY 0).wr HSK_CMD.STATUS st).hskRaise EV_HSK.CMD_DONE

/-- A write of HSK_CMD. It stalls until a running command has ended (R418), and Husk acts on it from HANDOFF on
(R417). -/
def Hw.hskCmd (s : Hw) (m : Master) (v : Word) (f : Hw → Hw × Nat) : Hw :=
  s.onAccess m HSK_CMD.A true (fun s =>
    let s := (s.hskDone).fullWrite HSK_CMD.A v
    if s.rd HSK_STATUS.HANDOFF = 0 then s
    else
      let r := f s
      (r.1.modHsk (fun h => { h with cmd := some r.2 })).wr HSK_CMD.BUSY 1)

abbrev HUSK_OK := 0
abbrev HUSK_BAD_ARG := 1
abbrev HUSK_REFUSED := 2
abbrev HUSK_RNG_FAIL := 3
abbrev HUSK_OTP_FAIL := 4
abbrev HUSK_MEM_ERR := 5

/-- Address in HSK_ARG `i` (low) and `i + 1`. -/
def Hw.hskAddr (s : Hw) (i : Nat) : Nat := (s.word (HSK_ARG.A i)).toNat + 2 ^ 32 * (s.word (HSK_ARG.A (i + 1))).toNat

/-- `n` octets from address `a` lie within the backed shared part of the window. -/
def Hw.backed (s : Hw) (a n : Nat) : Bool := decide (extBase ≤ a ∧ a + n ≤ extBase + s.extBytes)

/-- UDS and ID_RSA_WRAP; in lifecycle RETURNED Husk has erased them (R416). -/
def Fuses.udsBytes (f : Fuses) : Bytes := (List.range 32).map (fun i => if f.lifecycle = 3 then 0#8 else f.uds.get 0#8 i)
def Fuses.wrapBytes (f : Fuses) : Bytes := (List.range 1756).map (fun i => if f.lifecycle = 3 then 0#8 else f.rsaWrap.get 0#8 i)

/-- Seed `i` of the device's SLH-DSA key (R421). -/
def Fuses.slhSeed (f : Fuses) (i : Nat) : Bytes :=
  (hmac sha384 128 f.udsBytes (Config.slhLabel i)).take 24

/-- The device's SLH-DSA public key. -/
def Fuses.slhKey (f : Fuses) : Bytes := f.slhSeed 2 ++ slh192f.root (f.slhSeed 0) (f.slhSeed 2)

/-- Modulus, public and private exponent of the device's RSA key. -/
def Fuses.rsaId (f : Fuses) : Nat × Nat × Nat :=
  Config.idRsa f.udsBytes f.wrapBytes

/-- The identity block (R421). -/
def Hw.identity (s : Hw) : Bytes :=
  let f := s.hsk.fuses
  f.serial ++ beBytes 384 f.rsaId.1 ++ beBytes 4 f.rsaId.2.1 ++ f.slhKey
    ++ ((List.range 4).map f.rsa).flatten ++ ((List.range 4).map f.slh).flatten ++ beBytes 1 f.revoked ++ zeros 55

/-- GET_ID. -/
def Hw.getId (s : Hw) : Hw × Nat :=
  let a := s.hskAddr 0
  if s.hsk.fuses.lifecycle = 3 then (s, HUSK_REFUSED)
  else if s.backed a 884 then (s.memWrite (a - extBase) s.identity, HUSK_OK)
  else (s, HUSK_MEM_ERR)

/-- GET_ID (R421). -/
def execGetId (m : Master) (v : Word) (s : State) : Host.Outcome State Fault Refusal :=
  s.on (fun s => s.hskCmd m v (·.getId))

/-- Octets of the running image's digest M. -/
def Hw.imageM (s : Hw) : Bytes :=
  let img := s.hsk.image
  sha384 (img.take (leNat ((img.drop 0x0C).take 4)))

/-- The body of the evidence over a nonce (R422). -/
def Hw.evidence (s : Hw) (nonce : Bytes) : Bytes :=
  let f := s.hsk.fuses
  let t := s.localTime
  beBytes 4 1 ++ beBytes 4 (s.word GLB_CHIP_ID.A).toNat ++ f.serial ++ nonce ++ beBytes 4 t.sec ++ beBytes 4 t.ns
    ++ beBytes 1 f.lifecycle ++ beBytes 1 (s.rd HSK_STATUS.BOOT_SLOT) ++ beBytes 1 (s.rd HSK_STATUS.DEBUG_SECURE)
    ++ beBytes 1 (s.rd HSK_STATUS.RSA_SLOT) ++ beBytes 1 (s.rd HSK_STATUS.SLH_SLOT) ++ zeros 3
    ++ beBytes 4 (s.rd HSK_STATUS.IMAGE_SVN) ++ beBytes 4 f.svn ++ zeros 8 ++ s.imageM
    ++ ((List.range 4).map s.meas).flatten

/-- ATTEST. -/
def Hw.attest (s : Hw) (mem : List Host.Cell) : Hw × Nat :=
  let a := s.hskAddr 0
  if s.hsk.fuses.lifecycle = 3 then (s, HUSK_REFUSED)
  else if s.rd HSK_STATUS.RNG_OK = 0 then (s, HUSK_RNG_FAIL)
  else if s.backed a 36384 then
    let nonce := s.extRead mem (a - extBase + 16) 48
    let body := s.evidence nonce.2
    let f := s.hsk.fuses
    let salt := (List.range 48).map (fun i => BitVec.ofNat 8 (s.draw 422 / 2 ^ (8 * i)))
    let sigs := rsaSign f.rsaId.1 f.rsaId.2.2 body salt ++ slh192f.sign (f.slhSeed 0) (f.slhSeed 1) (f.slhSeed 2) body
    (nonce.1.drawn.memWrite (a - extBase) (body ++ sigs), HUSK_OK)
  else (s, HUSK_MEM_ERR)

/-- ATTEST (R422). -/
def execAttest (m : Master) (v : Word) (s : State) : Host.Outcome State Fault Refusal :=
  s.onMem (fun mem s => s.hskCmd m v (fun s => s.attest mem))

/-- MEAS_EXTEND. -/
def Hw.measExtend (s : Hw) (mem : List Host.Cell) : Hw × Nat :=
  let i := getField (s.word (HSK_ARG.A 0)) 0 2
  let a := s.hskAddr 1
  if s.backed a 48 then
    let data := s.extRead mem (a - extBase) 48
    let d := sha384 (s.meas i ++ data.2)
    (data.1.modHsk (fun h => { h with meas := h.meas.set (zeros 48) i d }), HUSK_OK)
  else (s, HUSK_MEM_ERR)

/-- MEAS_EXTEND (R419). -/
def execMeasExtend (m : Master) (v : Word) (s : State) : Host.Outcome State Fault Refusal :=
  s.onMem (fun mem s => s.hskCmd m v (fun s => s.measExtend mem))

/-- A bit fails verification after programming (R414). -/
def Hw.otpFail (s : Hw) : Hw × Nat := (s.hskRaise EV_HSK.OTP_ERR, HUSK_OTP_FAIL)

/-- REVOKE; `fail` says that the bit did not verify (R420). -/
def Hw.revoke (s : Hw) (fail : Bool) : Hw × Nat :=
  let a := s.word (HSK_ARG.A 0)
  let alg := getField a 0 1
  let slot := getField a 1 2
  let f := s.hsk.fuses
  let running := s.hsk.signed && slot == (if alg = 0 then s.rd HSK_STATUS.RSA_SLOT else s.rd HSK_STATUS.SLH_SLOT)
  let others := (List.range 4).any (fun i => i != slot && bitN f.revoked (4 * alg + i) == 0
    && (if alg = 0 then f.rsa i else f.slh i) != zeros 48)
  if running || !others then (s, HUSK_REFUSED)
  else if fail then s.otpFail
  else (s.modFuses (fun f => { f with revoked := f.revoked ||| 2 ^ (4 * alg + slot) }), HUSK_OK)

/-- REVOKE (R420). -/
def execRevoke (m : Master) (v : Word) (fail : Bool) (s : State) : Host.Outcome State Fault Refusal :=
  s.on (fun s => s.hskCmd m v (·.revoke fail))

/-- ADVANCE_SVN; `fail` is the number of bits that programmed before one did not verify. The bits are blown one at a time
until the command ends (R414). -/
def Hw.advanceSvn (s : Hw) (fail : Option Nat) : Hw × Nat :=
  let t := getField (s.word (HSK_ARG.A 0)) 0 7
  let svn := s.hsk.fuses.svn
  let put := fun (s : Hw) (n : Nat) => s.modHsk (fun h => { h with svnLeft := n })
  if 64 < t then (s, HUSK_BAD_ARG)
  else if t ≤ svn then (s, HUSK_OK)
  else if s.rd HSK_STATUS.IMAGE_SVN < t then (s, HUSK_REFUSED)
  else match fail with
    | some k => if svn + k < t then (put s k).otpFail else (put s (t - svn), HUSK_OK)
    | none => (put s (t - svn), HUSK_OK)

/-- ADVANCE_SVN (R420). -/
def execAdvanceSvn (m : Master) (v : Word) (fail : Option (Fin 64)) (s : State) : Host.Outcome State Fault Refusal :=
  s.on (fun s => s.hskCmd m v (·.advanceSvn (fail.map Fin.val)))

/-- SET_PRODUCTION; `fail` says that the bit did not verify. -/
def Hw.setProduction (s : Hw) (fail : Bool) : Hw × Nat :=
  if s.word (HSK_ARG.A 0) ≠ 0x4512#32 then (s, HUSK_BAD_ARG)
  else if s.hsk.fuses.lifecycle ≠ 1 then (s, HUSK_REFUSED)
  else if fail then s.otpFail
  else ((s.modFuses (fun f => { f with lifecycle := 2 })).showFuses, HUSK_OK)

/-- SET_PRODUCTION (R419). -/
def execSetProduction (m : Master) (v : Word) (fail : Bool) (s : State) : Host.Outcome State Fault Refusal :=
  s.on (fun s => s.hskCmd m v (·.setProduction fail))

/-- HSK_CMD_DONE (R419). -/
def execHskCmdDone (s : State) : Host.Outcome State Fault Refusal := s.on (·.hskDone)

/-! ## Random generator (R424) -/

/-- A read of HSK_RNG: a free value while RNG_OK = 1. -/
def Hw.rngRead (s : Hw) : Hw :=
  if s.rd HSK_STATUS.RNG_OK = 1 then s.drawn.answer (BitVec.ofNat 32 (s.draw 2)) else s.answer 0#32

/-- HSK_RNG_READ (R424). -/
def execHskRngRead (m : Master) (s : State) : Host.Outcome State Fault Refusal :=
  s.on (fun s => s.onAccess m HSK_RNG.A false (·.rngRead))

/-- RNG_HEALTH_FAIL (R424). -/
def execRngHealthFail (s : State) : Host.Outcome State Fault Refusal :=
  s.on (fun s => (s.wr HSK_STATUS.RNG_OK 0).hskRaise EV_HSK.RNG_FAIL)

/-- RNG_RECOVER (R424). -/
def execRngRecover (s : State) : Host.Outcome State Fault Refusal := s.on (fun s => s.wr HSK_STATUS.RNG_OK 1)

/-! ## Check-value engine (R433-R435) -/

/-- Master `m` holds LOCK_CVE. -/
def Hw.cveOwner (s : Hw) (m : Master) : Bool :=
  s.rd ⟨HW_LOCK.A 0, 1, 1⟩ == 1 && s.rd ⟨HW_LOCK.A 0, 8, 8⟩ == m.id

/-- Octets of MAC an algorithm gives, and whether it takes a key of `n` octets. -/
def macLen (alg : Nat) : Nat := if alg < 2 then 16 else if alg = 2 then 32 else 48
def keyFits (alg n : Nat) : Bool :=
  if alg = 0 then n == 16 else if alg = 1 then n == 32 else decide (16 ≤ n ∧ n ≤ 48)

/-- Words of the registers from address `a` on as octets. -/
def Hw.regBytes (s : Hw) (a n : Nat) : Bytes := ((List.range n).map (fun i => leBytes 4 (s.word (a + 4 * i)).toNat)).flatten

/-- What refuses an operation: its RESULT, none where it may run. -/
def Hw.cveRefusal (s : Hw) (m : Master) (op : Nat) : Option Nat :=
  let rd := fun (f : FRef) => s.rd f
  let k := rd CVE_CTRL.SLOT
  let dst := rd CVE_CTRL.DST_SLOT
  let tag := rd CVE_CTRL.TAG_LEN
  let len := rd CVE_LEN.BYTES
  let secureOnly := s.t (CVE_KEY.SECURE_ONLY k) == 1 || (op == 3 && s.t (CVE_KEY.SECURE_ONLY dst) == 1)
  let a := (s.word CVE_SRC_LO.A).toNat + 2 ^ 32 * (s.word CVE_SRC_HI.A).toNat
  if s.t (CVE_KEY.VALID k) = 0 then some 3
  else if secureOnly && !s.secure m then some 5
  else if !keyFits (rd CVE_CTRL.ALG) (s.t (CVE_KEY.KEY_LEN k)) || decide (tag < 4 ∨ macLen (rd CVE_CTRL.ALG) < tag)
      || (op == 3 && decide (tag ≠ 16 ∧ tag ≠ 32 ∧ tag ≠ 48)) || decide (16777216 < len)
      || (rd CVE_CTRL.SRC_BUF == 1 && decide (64 < len)) then some 6
  else if s.t (CVE_KEY.MAX_USES k) ≠ 0 ∧ s.t (CVE_KEY.MAX_USES k) ≤ s.t (CVE_KEY.USES k) then some 4
  else if rd CVE_CTRL.SRC_BUF = 0 ∧ (s.backed a len = false ∨ s.poisoned (a - extBase) len = true) then some 7
  else none

/-- The operation in progress ends: its result, what it writes, USES, CVE_DONE (R434, R435). -/
def Hw.cveDone (s : Hw) : Hw :=
  match s.cip.cve with
  | none => s
  | some r =>
    let s := { s with cip := { s.cip with cve := none } }
    let s := ((s.wr CVE_STATUS.BUSY 0).wr CVE_STATUS.RESULT r.result).cipRaise EV_CIP.CVE_DONE
    if 3 ≤ r.result then s.count (CIP_CNT.COUNT 1)
    else
      let uses := s.t (CVE_KEY.USES r.slot) + 1
      let s := s.ts (CVE_KEY.USES r.slot) (min uses (2 ^ 32 - 1))
      let s := s.onlyIf (s.t (CVE_KEY.SOFT_USES r.slot) ≠ 0 ∧ uses = s.t (CVE_KEY.SOFT_USES r.slot))
        (·.cipRaise EV_CIP.CVE_KEY_SOFT)
      let tag := leNat (r.mac.take r.tagLen)
      let setTag := fun (s : Hw) (v : Nat) => s.forAll (List.range 12) (fun s i =>
        s.setWord (CVE_TAG.A i) (BitVec.ofNat 32 (v / 2 ^ (32 * i))))
      match r.op with
      | 1 =>
        let old := leNat (s.regBytes (CVE_TAG.A 0) 12)
        setTag s (old / 256 ^ r.tagLen * 256 ^ r.tagLen + tag)
      | 2 => setTag s 0
      | _ =>
        let s := (s.ts (CVE_KEY.KEY r.dst) tag).ts (CVE_KEY.KEY_LEN r.dst) r.tagLen
        let s := (s.ts (CVE_KEY.VALID r.dst) 1).ts (CVE_KEY.USES r.dst) 0
        s.onlyIf (r.secureOnly = true) (fun s => s.ts (CVE_KEY.SECURE_ONLY r.dst) 1)

/-- GO with operation `op` (1 GENERATE, 2 VERIFY, 3 DERIVE). A write by a master that does not hold the lock is
discarded and counted. -/
def Hw.cveGo (s : Hw) (mem : List Host.Cell) (m : Master) (op : Nat) (v : Word) : Hw :=
  s.onAccess m CVE_CTRL.A true (fun s =>
    if !s.cveOwner m then s.count (CIP_CNT.COUNT 0)
    else
      let s := (s.cveDone).fullWrite CVE_CTRL.A (setField v 0 2 op)
      let k := s.rd CVE_CTRL.SLOT
      let dst := s.rd CVE_CTRL.DST_SLOT
      let tag := s.rd CVE_CTRL.TAG_LEN
      let len := s.rd CVE_LEN.BYTES
      let a := (s.word CVE_SRC_LO.A).toNat + 2 ^ 32 * (s.word CVE_SRC_HI.A).toNat
      let run : CveRun := match s.cveRefusal m op with
        | some e => { op := op, slot := k, result := e }
        | none =>
          let msg := if s.rd CVE_CTRL.SRC_BUF = 1 then (s.regBytes (CVE_BUF.A 0) 16).take len
            else s.memBytes mem (a - extBase) len
          let mac := macOf (s.rd CVE_CTRL.ALG) (s.t (CVE_KEY.KEY k)) (s.t (CVE_KEY.KEY_LEN k)) msg
          let same := (List.range tag).all (fun i => byteAt mac i == byteAt (s.regBytes (CVE_TAG.A 0) 12) i)
          { op := op, slot := k, dst := dst, tagLen := tag, result := if op = 2 then (if same then 1 else 2) else 0
            mac := (List.range 48).map (fun i => BitVec.ofNat 8 (byteAt mac i))
            secureOnly := s.t (CVE_KEY.SECURE_ONLY k) == 1 || s.t (CVE_KEY.SECURE_ONLY dst) == 1 }
      let lost := run.result == 7 && s.poisoned (a - extBase) len
      (({ s with cip := { s.cip with cve := some run } }).wr CVE_STATUS.BUSY 1).onlyIf lost (·.grnRaise EV_GRN.DRAM_UNCORR_EV))

/-- CVE_GENERATE (R434). -/
def execCveGenerate (m : Master) (v : Word) (s : State) : Host.Outcome State Fault Refusal :=
  s.onMem (fun mem s => s.cveGo mem m 1 v)
/-- CVE_VERIFY (R434). -/
def execCveVerify (m : Master) (v : Word) (s : State) : Host.Outcome State Fault Refusal :=
  s.onMem (fun mem s => s.cveGo mem m 2 v)
/-- CVE_DERIVE (R434). -/
def execCveDerive (m : Master) (v : Word) (s : State) : Host.Outcome State Fault Refusal :=
  s.onMem (fun mem s => s.cveGo mem m 3 v)
/-- CVE_DONE (R434). -/
def execCveDone (s : State) : Host.Outcome State Fault Refusal := s.on (·.cveDone)

/-- A COMMIT with TIMED = 1 stores the entry as the slot's shadow (R435). -/
def Hw.cveShadow (s : Hw) (k v : Nat) : Hw :=
  ({ s with cip := { s.cip with shadows := s.cip.shadows.set 0 k v } }).ts (CVE_KEY.SHADOW_PENDING k) 1

/-- CVE_ACT_SLOT fires: every pending shadow becomes active at once (R435). -/
def Hw.cveActivate (s : Hw) (x : Nat) : Hw :=
  let pend := (List.range 32).filter (fun k => s.t (CVE_KEY.SHADOW_PENDING k) == 1)
  if s.rd CIP_CFG.CVE_ACT_EN = 1 ∧ s.rd CIP_CFG.CVE_ACT_SLOT = x ∧ pend ≠ [] then
    (s.forAll pend (fun s k =>
      let s := s.setTabWords (CVE_KEY.E k) 16 (s.cip.shadows.get 0 k)
      let s := (s.ts (CVE_KEY.USES k) 0).ts (CVE_KEY.SHADOW_PENDING k) 0
      { s with cip := { s.cip with shadows := s.cip.shadows.set 0 k 0 } })).cipRaise EV_CIP.CVE_KEY_ACTIVATED
  else s

/-! ## Zeroisation (R436) -/

/-- Every key, shadow and PN of tables 1-4 is 0 and every VALID clear. -/
def Hw.zeroiseTables (s : Hw) : Hw :=
  let s := s.forAll (s.listed 12 1) (fun s x => (s.ts (LINE_KEY.KEY x) 0).ts (LINE_KEY.VALID x) 0)
  let s := s.forAll (s.listed 12 3) (fun s x => ((s.ts (MACSEC_SA.KEY x) 0).ts (MACSEC_SA.PN x) 0).ts (MACSEC_SA.VALID x) 0)
  let s := s.forAll (s.listed 12 4) (fun s x =>
    ((s.ts (CVE_KEY.KEY x) 0).ts (CVE_KEY.VALID x) 0).ts (CVE_KEY.SHADOW_PENDING x) 0)
  { s with cip := { s.cip with shadows := [], spent := [], soft := [] } }

/-- Line and MACsec frames in flight are discarded: frames whose integrity check has not ended, GEM frames received or
sent in part, and encrypted ones waiting in a burst, whose place goes idle. -/
def Hw.zeroiseFlight (s : Hw) : Hw :=
  let s := s.eachPkt (fun p => { p with untrusted := p.untrusted || p.icv.isSome, icv := none })
  let blank := fun (i : BurstItem) => match i with
    | .gem _ k _ bs => if k = 0 then i else .idle (8 + bs.length)
    | _ => i
  s.forAll (List.range 4) (fun s c =>
    let s := (s.fragDiscard c).sentFragsDiscard c
    s.modAct c (fun a => { a with bursts := a.bursts.map (fun b => { b with
      items := b.items.map blank, grants := b.grants.map (fun g => { g with items := g.items.map blank }) }) }))

/-- A write of ZEROISE. -/
def Hw.zeroise (s : Hw) (v : Word) : Hw :=
  let s := s.plainWrite CIP_CFG.A v
  if getField v 31 1 = 0 then s
  else
    let s := s.zeroiseTables.zeroiseFlight
    { s with cip := { s.cip with zeroising := true } }

/-- ZEROISE (R436). -/
def execZeroise (m : Master) (v : Word) (s : State) : Host.Outcome State Fault Refusal :=
  s.on (fun s => s.onAccess m CIP_CFG.A true (fun s => s.zeroise v))

/-- Zeroisation completes. -/
def Hw.zeroiseDone (s : Hw) : Hw :=
  if s.cip.zeroising then ({ s with cip := { s.cip with zeroising := false } }).cipRaise EV_CIP.ZEROISED else s

/-- ZEROISE_DONE (R436). -/
def execZeroiseDone (s : State) : Host.Outcome State Fault Refusal := s.on (·.zeroiseDone)

/-! ## The Choell image (R415, R416, R489-R492) -/

/-- Little-endian field of an image. -/
def leAt (img : Bytes) (off n : Nat) : Nat := leNat ((img.drop off).take n)

abbrev imgLen (img : Bytes) : Nat := leAt img 0x08 4
abbrev imgSigOff (img : Bytes) : Nat := leAt img 0x0C 4
abbrev imgGen (img : Bytes) : Nat := leAt img 0x10 4
abbrev imgSvn (img : Bytes) : Nat := leAt img 0x14 1
abbrev imgRsaSlot (img : Bytes) : Nat := leAt img 0x15 1 % 4
abbrev imgSlhSlot (img : Bytes) : Nat := leAt img 0x15 1 / 4 % 4
abbrev imgEntry (img : Bytes) : Nat := leAt img 0x18 8
abbrev imgSecs (img : Bytes) : Nat := leAt img 0x24 4
abbrev imgRecs (img : Bytes) : Nat := leAt img 0x2C 4

/-- A section entry (R491). -/
structure Section where
  type : Nat
  cluster : Nat
  len : Nat
  dest : Nat
  mask : Nat
  src : Nat
  /-- the octets that the layout gives as 0 -/
  zero : Nat
  deriving DecidableEq, Repr

/-- Section `i` of an image. -/
def sectionAt (img : Bytes) (i : Nat) : Section :=
  let o := leAt img 0x20 4 + 32 * i
  { type := leAt img o 1, cluster := leAt img (o + 1) 1, len := leAt img (o + 4) 4, dest := leAt img (o + 8) 8
    mask := leAt img (o + 16) 8, src := leAt img (o + 24) 4, zero := leAt img (o + 2) 2 + leAt img (o + 28) 4 }

/-- Word `w` of record `i` of an image (R492). -/
def recordWord (img : Bytes) (i w : Nat) : Nat := leAt img (leAt img 0x28 4 + 32 * i + 4 * w) 4
/-- OP and ARG of record `i`. -/
def recordOp (img : Bytes) (i : Nat) : Nat := recordWord img i 0 % 16
def recordArg (img : Bytes) (i : Nat) : Nat := recordWord img i 0 / 256

/-- A CORE_TEXT section holds CORE_ENTRY. -/
def entryInText (img : Bytes) : Bool :=
  ((List.range (imgSecs img)).map (sectionAt img)).any (fun x => x.type == 1 && decide (x.dest ≤ imgEntry img ∧ imgEntry img < x.dest + x.len))

/-- The header holds what it must (R489). -/
def headerOk (img : Bytes) : Bool :=
  let n := imgLen img
  let sig := imgSigOff img
  decide (leAt img 0 4 = 0x314C4843 ∧ leAt img 4 2 = 1 ∧ leAt img 6 2 = 256 ∧ n % 64 = 0 ∧ 17344 ≤ n ∧ n ≤ 50331648
    ∧ sig + 17088 = n ∧ imgSvn img ≤ 64 ∧ leAt img 0x15 1 < 16 ∧ leAt img 0x16 2 = 0
    ∧ 256 ≤ leAt img 0x20 4 ∧ 1 ≤ imgSecs img ∧ imgSecs img ≤ 512 ∧ leAt img 0x20 4 + 32 * imgSecs img ≤ sig
    ∧ 256 ≤ leAt img 0x28 4 ∧ 1 ≤ imgRecs img ∧ imgRecs img ≤ 65536 ∧ leAt img 0x28 4 + 32 * imgRecs img ≤ sig
    ∧ leAt img 0x38 200 = 0) && entryInText img

/-- SHARED of GRN_DRAM_CFG as the WRITE records of an image leave it, starting from word `w`. -/
def imgShared (img : Bytes) (w : Word) : Nat :=
  let last := (List.range (imgRecs img)).foldl (fun (w : Word) i =>
    if recordOp img i = 1 ∧ recordWord img i 1 = GRN_DRAM_CFG.A then
      let k := BitVec.ofNat 32 (recordWord img i 2)
      (w &&& ~~~k) ||| (BitVec.ofNat 32 (recordWord img i 3) &&& k)
    else w) w
  getField last GRN_DRAM_CFG.SHARED.lo GRN_DRAM_CFG.SHARED.width

/-- A section has a type, is 0 where its layout says so and fits its destination (R491; log entry 53); `ext` is the capacity of the window in octets. -/
def Section.ok (x : Section) (sig ext : Nat) : Bool :=
  let fits : Bool := match x.type with
    | 1 => decide (extBase ≤ x.dest ∧ x.dest + x.len ≤ extBase + ext)
    | 2 => decide (extBase ≤ x.dest ∧ x.dest + x.len ≤ extBase + ext)
    | 3 => decide (x.dest + x.len ≤ 0x10000)
    | 4 => decide (x.dest + x.len ≤ 0x20000)
    | 5 => decide (x.dest + x.len ≤ 0x100000 ∧ x.cluster < 8)
    | _ => false
  fits && decide (x.zero = 0 ∧ x.len % 64 = 0 ∧ 64 ≤ x.len ∧ x.dest % 64 = 0 ∧ x.src + x.len ≤ sig)

/-- A record has an operation and an argument, and is 0 where its layout says so (R492; log entry 53). -/
def recordOk (img : Bytes) (i : Nat) : Bool :=
  let arg := recordArg img i
  let from_ : Nat := match recordOp img i with
    | 1 => 4
    | 2 => 4
    | 4 => 5
    | _ => 1
  decide (recordWord img i 0 / 16 % 16 = 0) && (List.range 8).all (fun w => decide (w < from_) || recordWord img i w == 0) && (match recordOp img i with
    | 1 => arg == 0
    | 2 => arg != 0
    | 3 => arg != 0
    | 4 => arg != 0
    | 5 => arg == 0
    | _ => false)

/-- The image is well-formed (check 1 of R415). `w` is the word of GRN_DRAM_CFG as it stands. -/
def imageOk (img : Bytes) (w : Word) : Bool :=
  let ext := 4 * imgShared img w * 0x4000000
  let secs := (List.range (imgSecs img)).map (sectionAt img)
  headerOk img && decide (imgLen img ≤ img.length) && secs.all (fun x => x.ok (imgSigOff img) ext)
    && (List.range (imgRecs img)).all (recordOk img)
    && ((List.range (imgRecs img)).filter (fun i => recordOp img i == 5)).length == 1

/-- BOOT_RESULT of an image on boot path `path`: 0 accepted, 8 accepted unsigned, else the first check that failed
(R415, R416). -/
def Hw.judge (s : Hw) (path : Nat) (img : Bytes) (readErr : Bool) : Nat :=
  let f := s.hsk.fuses
  let blk := imgSigOff img
  let m := sha384 (img.take blk)
  let rsaKey := (img.drop blk).take 388
  let slhKey := (img.drop (blk + 400)).take 48
  let r := imgRsaSlot img
  let l := imgSlhSlot img
  if readErr then 7
  else if !imageOk img (s.word GRN_DRAM_CFG.A) then 1
  else if f.lifecycle = 0 ∧ 2 ≤ path then 8
  else if f.lifecycle = 0 || f.rsa r == zeros 48 || f.slh l == zeros 48 || sha384 rsaKey != f.rsa r
      || sha384 slhKey != f.slh l then 2
  else if bitN f.revoked r = 1 ∨ bitN f.revoked (4 + l) = 1 then 3
  else if !rsaVerify rsaKey m ((img.drop (blk + 448)).take 384) then 4
  else if !slh192s.verify slhKey m ((img.drop (blk + 832)).take 16224) then 5
  else if imgSvn img < f.svn then 6
  else 0

end Sys2Proof.Machine
end

