-- ==== Sys2Proof/Machine/Alarms.lean ====
section
/-!
DEFINITION. Alarms, the seconds and intervals of the performance bins, their history, bandwidth windows (spec/20). The
log and the current bins are in Machine/PmCore.
-/
namespace Sys2Proof.Machine

/-! ## Alarms (R505-R508) -/

/-- Instances of each alarm type. -/
def alarmInstances (t : Nat) : Nat :=
  ([0, 4, 4, 4, 4, 4, 4, 4, 16, 1024, 1024, 1024, 512, 4, 1, 1, 1, 1, 1, 1, 1, 16, 65, 1, 1] : List Nat).getD t 0

/-- The defect of an alarm, inhibition apart (R505). -/
def Hw.rawDefect (s : Hw) (t i : Nat) : Bool :=
  let flag := fun (f : FRef) => s.rd f == 1
  match t with
  | 1 => s.trkOn i && flag (TRK_PMA_STATUS.LOS i)
  | 2 => s.trkOn i && flag (TRK_DLN_STATUS.LOF i)
  | 3 => s.trkOn i && s.rd (TRK_ACT_STATUS.ACT_STATE i) != 5
  | 4 => flag (TRK_PMA_CTRL.ENABLE i) && flag (TRK_PMA_STATUS.MOD_ABS i)
  | 5 => flag (TRK_GUARD_STATUS.ROGUE_LATCH i)
  | 6 => flag (TRK_GUARD_STATUS.STRIKE_LOCK i)
  | 7 => bitN s.aon.heDisable i == 1
  | 8 => (List.range 4).any (fun c => flag (SHF_MBR_CTRL.ENABLE i c))
      && (List.range 4).all (fun c => s.rd (SHF_MBR_STATUS.MEMBER_PHASE i c) != 2)
  | 9 => s.t (CIRCUIT.VALID i) == 1
      && (if s.t (CIRCUIT_STATE.ACTIVE_PATH i) = 0 then s.t (CIRCUIT_STATE.SF_W i) else s.t (CIRCUIT_STATE.SF_P i)) == 1
  | 10 => s.t (CIRCUIT_STATE.UNEQ i) == 1
  | 11 => s.t (CIRCUIT_STATE.PLM i) == 1
  | 12 => flag (SUB_PORT_CTRL.ENABLE i) && !flag (SUB_PORT_STATUS.HELD i) && !flag (SUB_PORT_STATUS.LINK i)
  | 13 => flag (GRN_DRAM_CH_STATUS.FAILED i)
  | 14 => flag TWN_CTRL.ENABLE && s.rd TWN_STATUS.LINK_STATE != 2
  | 15 => flag TWN_STATUS.ROLE_CONFLICT || flag TWN_STATUS.WIRE_FAULT
  | 16 => flag TWN_STATUS.TRUNK_FAIL
  | 17 => flag TIM_CTRL.SRC_EN && s.rd TIM_STATUS.STATE != 1
  | 18 => (List.range 2).any (fun k => s.rd (TIM_SYNCE_LANES.LANES k) != 0) && s.rd TIM_STATUS.DPLL_STATE != 1
  | 19 => s.pwr.alert && !s.pwr.trip
  | 20 => flag HSK_STATUS.HANDOFF && !flag HSK_STATUS.RNG_OK
  | 21 => s.t (LINE_KEY.VALID i) == 1 && s.t (LINE_KEY.HARD_HIT i) == 1
  | 22 => s.cip.spent.contains (i * 16 + s.t (SECY.CUR_AN i))
  | 23 => s.grn.forced
  | 24 => flag HSK_BOOT_INFO.FELL_BACK
  | _ => false

/-- Index of an alarm's entry. -/
abbrev alarmIdx (t i : Nat) : Nat := t * 1024 + i
/-- The alarm is raised (R506). -/
def Hw.alarmActive (s : Hw) (t i : Nat) : Bool := s.t (ALARM_STATE.ACTIVE (alarmIdx t i)) == 1
/-- The alarm is masked (R508). -/
def Hw.alarmMasked (s : Hw) (t i : Nat) : Bool :=
  s.t (ALARM_STATE.MASK (alarmIdx t i)) == 1 || s.t (ALARM_TYPE.TYPE_MASK t) == 1

/-- The defect as it is sampled: TRK_LOF and TRK_NOT_O5 give way to TRK_LOS and TRK_MOD_ABS (R507). -/
def Hw.defect (s : Hw) (t i : Nat) : Bool :=
  s.rawDefect t i && !((t == 2 || t == 3) && (s.alarmActive 1 i || s.alarmActive 4 i))

/-- A log entry of an alarm, raised or cleared (R509). -/
def Hw.alarmLog (s : Hw) (t i : Nat) (up : Bool) : Hw :=
  (s.logWrite (t + i * 2 ^ 5 + b2n up * 2 ^ 15 + s.t (ALARM_TYPE.SEV t) * 2 ^ 16) 0).pmRaise EV_PM.ALARM_EV

/-- One alarm is sampled: it is raised or cleared when the samples that contradict it have lasted its soak (R506). -/
def Hw.alarmSample (s : Hw) (t i : Nat) : Hw :=
  let x := alarmIdx t i
  let d := s.defect t i
  let up := s.alarmActive t i
  let n := if d = up then 0 else s.pm.soak.get 0 x + 1
  let soak := 10 * (if up then s.t (ALARM_TYPE.CLEAR_SOAK t) else s.t (ALARM_TYPE.RAISE_SOAK t))
  let s := s.ts (ALARM_STATE.DEFECT x) (b2n d)
  let keep := fun (s : Hw) (n : Nat) => { s with pm := { s.pm with soak := s.pm.soak.set 0 x n } }
  if d = up then keep s 0
  else if n ≤ soak then keep s n
  else
    let s := (keep s 0).ts (ALARM_STATE.ACTIVE x) (b2n d)
    let s := s.onlyIf (d = true) (fun s => s.ts (ALARM_STATE.RAISE_SEC x) s.localTime.sec)
    s.onlyIf (s.alarmMasked t i = false) (fun s => s.alarmLog t i d)

/-- Every alarm is sampled. -/
def Hw.alarmsSample (s : Hw) : Hw :=
  s.forAll ((List.range 25).map (fun t => (List.range (alarmInstances t)).map (fun i => (t, i)))).flatten
    (fun s a => s.alarmSample a.1 a.2)

/-- ALARM_SAMPLE (R506). -/
def execAlarmSample (s : State) : Host.Outcome State Fault Refusal :=
  s.on (fun s => s.onlyIf (s.domRuns 2 = true) (·.alarmsSample))

/-- Masking changed (`before` says which were masked): raised alarms are logged as cleared or raised (R508). -/
def Hw.maskChanged (s : Hw) (before : Hw) (t : Nat) : Hw :=
  s.forAll (List.range (alarmInstances t)) (fun s i =>
    if s.alarmActive t i && s.alarmMasked t i != before.alarmMasked t i then s.alarmLog t i (!s.alarmMasked t i) else s)

/-- Raised unmasked alarms of severity `v` (R508). -/
def Hw.alarmsRaised (s : Hw) (v : Nat) : Nat :=
  ((s.listed 14 2).filter (fun x => s.t (ALARM_STATE.ACTIVE x) == 1 && !s.alarmMasked (x / 1024) (x % 1024)
    && s.t (ALARM_TYPE.SEV (x / 1024)) == v)).length

/-- A write of PM_LOG. -/
def Hw.logPop (s : Hw) (v : Word) : Hw :=
  let s := s.plainWrite PM_LOG.A v
  if getField v 9 1 = 1 then s.setLog (s.pm.log.drop 1) else s

/-- LOG_POP (R509). -/
def execLogPop (m : Master) (v : Word) (s : State) : Host.Outcome State Fault Refusal :=
  s.on (fun s => s.onAccess m PM_LOG.A true (fun s => s.logPop v))

/-! ## Seconds and intervals (R510-R513) -/

/-- Objects that keep bins. -/
def Hw.pmObjects (s : Hw) : List Nat := (s.listed 14 3).filter (fun o => decide (o < 1540) && s.t (PM_OBJ.EN o) == 1)

/-- An object is in service. -/
def Hw.inService (s : Hw) (o : Nat) : Bool :=
  if o < 4 then s.trkOn o else if o < 1028 then s.t (CIRCUIT.VALID (o - 4)) == 1 else s.portState (o - 1028) == 2

/-- The conditions that hold now begin the next second. -/
def Hw.secondOpen (s : Hw) (o : Nat) : Hw :=
  let lof := decide (o < 4) && s.rd (TRK_DLN_STATUS.LOF o) == 1
  let away := if o < 4 then s.rd (TRK_DLN_STATUS.LODS o) == 1 else if o < 1028 then s.rawDefect 9 (o - 4) else false
  let down := decide (1028 ≤ o) && s.rd (SUB_PORT_CTRL.ENABLE (o - 1028)) == 1 && s.rd (SUB_PORT_STATUS.LINK (o - 1028)) == 0
  s.modObj o (fun x => { x with uncorr := 0, ff := 0, lof := lof, unavail := away, err := false, down := down })

/-- The second of object `o` closes: its errored, severely errored and unavailable seconds. -/
def Hw.secondClose (s : Hw) (o : Nat) : Hw :=
  let x := s.pmObj o
  let s := if o < 4 then
      if x.unavail || (s.trkOn o && s.rd (TRK_ACT_STATUS.ACT_STATE o) != 5) then s.pmAdd o 15
      else (s.onlyIf (x.uncorr ≠ 0 ∨ x.lof = true) (fun s => s.pmAdd o 13)).onlyIf (s.rd PM_CFG.SES_TH ≤ x.uncorr)
        (fun s => s.pmAdd o 14)
    else if o < 1028 then
      if x.unavail then s.pmAdd o 9
      else (s.onlyIf (x.ff ≠ 0) (fun s => s.pmAdd o 7)).onlyIf (800 ≤ x.ff) (fun s => s.pmAdd o 8)
    else (s.onlyIf (x.down = true) (fun s => s.pmAdd o 14)).onlyIf (x.err = true) (fun s => s.pmAdd o 15)
  s.secondOpen o

/-- Interval and day of second `S` (R511, R512). Days are counted from 65,536 × 7 days before the epoch, so that a day
before it has a number too; that changes neither SEQ nor the slot. -/
def Hw.interval (s : Hw) (k sec : Nat) : Nat :=
  if k = 0 then sec / 900 else (sec + 86400 * 458752 - s.rd PM_CFG.DAY_OFFSET * 900) / 86400

/-- Last second of an interval or day, plus one. -/
def Hw.intervalEnd (s : Hw) (k n : Nat) : Nat := if k = 0 then (n + 1) * 900 else (n + 1) * 86400 + s.rd PM_CFG.DAY_OFFSET * 900 - 86400 * 458752

/-- The record of object `o` that closes: where it goes and its words (R511, R514). -/
def Hw.pmRecord (s : Hw) (k n o : Nat) : Nat × List Word :=
  let x := s.pmObj o
  let sus := if k = 0 then x.suspect15 else x.suspect24
  let w0 := 1 + b2n sus * 2 + s.rd TIM_STATUS.STATE * 4 + n % 65536 * 65536
  let words := (List.range 14).map (fun i => s.tabWord (CUR.E (o * 2 + k) + 2 + i))
  let slot := if k = 0 then n % 96 else 96 + n % 7
  ((o * 103 + slot) * 64, BitVec.ofNat 32 w0 :: BitVec.ofNat 32 (s.intervalEnd k n) :: words)

/-- New bins open. -/
def Hw.binOpen (s : Hw) (k o : Nat) : Hw :=
  let s := s.setTabWords (CUR.E (o * 2 + k)) 16 0
  let sus := !s.inService o
  s.modObj o (fun x => if k = 0 then { x with suspect15 := sus } else { x with suspect24 := sus })

/-- Crossings of the bins that `q` names have their clear entries written (R513). -/
def Hw.tcaClear (s : Hw) (q : Nat × Nat × Nat → Bool) : Hw :=
  let s := s.forAll (s.pm.tca.filter q) (fun s c => s.logTca c.1 c.2.1 c.2.2 false)
  { s with pm := { s.pm with tca := s.pm.tca.filter (fun c => !q c) } }

/-- An object begins to keep bins (R510): both bins and the second open, with the conditions that hold. Crossings of the
bins it kept before are over with them (log entry 215). -/
def Hw.objOpen (s : Hw) (o : Nat) : Hw :=
  (((s.tcaClear (fun c => c.1 == o)).binOpen 0 o).binOpen 1 o).secondOpen o

/-- The bins of interval or day `n` close (R512, R513, R515). -/
def Hw.binsClose (s : Hw) (k n : Nat) : Hw :=
  let objs := s.pmObjects
  let s := s.tcaClear (fun c => c.2.1 == k)
  let off := s.rd PM_REGION.REGION_EN == 0
  let c : PmClose := { seq := n % 65536, records := if off then [] else objs.map (s.pmRecord k n) }
  let lost := fun (s : Hw) => (s.count (PM_CNT.COUNT 1)).pmRaise EV_PM.HIST_ERR
  let s := (s.onlyIf (off = true) lost).onlyIf ((if k = 0 then s.pm.close15 else s.pm.close24).isSome = true) lost
  let s := if k = 0 then ({ s with pm := { s.pm with close15 := some c } }).wr PM_CLOSE15.BUSY 1
    else ({ s with pm := { s.pm with close24 := some c } }).wr PM_CLOSE24.BUSY 1
  s.forAll objs (fun s o => s.binOpen k o)

/-- The bins of kind `k` close when second `S` lies in another interval. -/
def Hw.binsStep (s : Hw) (k sec : Nat) : Hw :=
  let n := s.interval k sec
  let cur := if k = 0 then s.pm.cur15 else s.pm.cur24
  let s := match cur with
    | some c => if c = n then s else s.binsClose k c
    | none => s
  if k = 0 then { s with pm := { s.pm with cur15 := some n } } else { s with pm := { s.pm with cur24 := some n } }

/-- Time-event slot `x` fires: as BIN_SLOT it closes the second and any ended bins. -/
def Hw.binSecond (s : Hw) (x : Nat) : Hw :=
  if s.rd PM_CFG.BIN_EN = 1 ∧ s.rd PM_CFG.BIN_SLOT = x then
    let sec := s.localTime.sec
    ((s.forAll s.pmObjects (fun s o => s.secondClose o)).binsStep 0 sec).binsStep 1 sec
  else s

/-- A step of the clock falls in the current bins and, where bins close in its tick, in those that open then: all are
SUSPECT (R511). -/
def Hw.binsSuspect (s : Hw) : Hw :=
  s.forAll s.pmObjects (fun s o => (s.modObj o (fun x => { x with suspect15 := true, suspect24 := true })).note o 24)

/-! ## History (R514, R515) -/

/-- The records of a close are written, those of `lost` objects apart; word 0 of each goes last. -/
def Hw.historyWrite (s : Hw) (c : PmClose) (lost : List Nat) : Hw :=
  let base := s.rd PM_REGION.PM_BLOCK * 0x4000000
  let fits := decide (base + 10152320 ≤ s.extBytes)
  let ok := c.records.filter (fun r => fits && !lost.contains (r.1 / 64 / 103))
  let s := s.forAll ok (fun s r =>
    (s.memWrite (base + r.1 + 4) ((r.2.drop 1).map (fun w => leBytes 4 w.toNat)).flatten).memWrite (base + r.1)
      (leBytes 4 (r.2.headD 0#32).toNat))
  s.onlyIf (ok.length ≠ c.records.length) (fun s => (s.count (PM_CNT.COUNT 1)).pmRaise EV_PM.HIST_ERR)

/-- The write-out of the closed bins ends: SEQ, then BUSY. -/
def Hw.historyDone (s : Hw) (daily : Bool) (lost : List Nat) : Hw :=
  if daily then match s.pm.close24 with
    | none => s
    | some c =>
      let s := (s.historyWrite c lost).wr PM_CLOSE24.SEQ c.seq
      let s := { s with pm := { s.pm with close24 := none } }
      ((s.wr PM_CLOSE24.VALID 1).wr PM_CLOSE24.BUSY 0).pmRaise EV_PM.BIN24_DONE
  else match s.pm.close15 with
    | none => s
    | some c =>
      let s := (s.historyWrite c lost).wr PM_CLOSE15.SEQ c.seq
      let s := { s with pm := { s.pm with close15 := none } }
      ((s.wr PM_CLOSE15.VALID 1).wr PM_CLOSE15.BUSY 0).pmRaise EV_PM.BIN15_DONE

/-- HISTORY_WRITE_DONE (R515). -/
def execHistoryWriteDone (daily : Bool) (lost : List (Fin 1540)) (s : State) : Host.Outcome State Fault Refusal :=
  s.on (fun s => s.historyDone daily (lost.map Fin.val))

/-! ## Bandwidth windows (R517) -/

/-- The window of object `o` ends and its buffer becomes readable. -/
def Hw.windowEnd (s : Hw) (o : Nat) (stepped : Bool) : Hw :=
  if s.t (PM_OBJ.WIN_EN o) = 0 then s
  else
    let x := s.pmObj o
    let t := s.localTime
    let s := (s.ts (BW.END_SEC o) t.sec).ts (BW.END_NS o) t.ns
    let s := ((s.ts (BW.STEPPED o) (b2n stepped)).ts (BW.RX_BYTES o) x.rxBytes).ts (BW.TX_BYTES o) x.txBytes
    let s := (s.ts (BW.RX_FRAMES o) x.rxFrames).ts (BW.TX_FRAMES o) x.txFrames
    s.modObj o (fun x => { x with rxBytes := 0, txBytes := 0, rxFrames := 0, txFrames := 0 })

/-- BW_WINDOW_END (R517). -/
def execBwWindowEnd (o : Fin 1540) (s : State) : Host.Outcome State Fault Refusal := s.on (fun s => s.windowEnd o false)

/-- A step of the clock (R339): bins are suspect, bins behind the new time take its interval, open windows end. -/
def Hw.pmTimeStep (s : Hw) (back : Bool) : Hw :=
  let s := (s.binsSuspect).forAll ((s.listed 14 3).filter (fun o => s.t (PM_OBJ.WIN_EN o) == 1)) (fun s o => s.windowEnd o true)
  if back then
    let sec := s.localTime.sec
    { s with pm := { s.pm with cur15 := s.pm.cur15.map (fun _ => s.interval 0 sec), cur24 := s.pm.cur24.map (fun _ => s.interval 1 sec) } }
  else s

end Sys2Proof.Machine
end

