-- ==== Sys2Proof/Machine/Time.lean ====
section
/-!
DEFINITION. Time and time-triggered events (spec/13): steps of the local clock, the time of day from the head end, the
source, captures, timestamp queues, time-event slots and gate lists.
-/
namespace Sys2Proof.Machine

def Hw.timRaise (s : Hw) (bit : Nat) : Hw := s.raise 0x5000000 bit
def Hw.timCount (s : Hw) (n : Nat) (k : Nat := 1) : Hw := s.count (TIM_CNT.COUNT n) k

/-- 2^32 parts of a nanosecond since second 0. -/
def LTime.parts (t : LTime) : Nat := t.abs * 2 ^ 32 + t.frac
/-- The local time `n` parts after second 0; seconds wrap at 2^48 (R333). -/
def LTime.ofParts (n : Nat) : LTime :=
  { sec := n / (1000000000 * 2 ^ 32) % 2 ^ 48, ns := n / 2 ^ 32 % 1000000000, frac := n % 2 ^ 32 }

/-- The local time that `n` parts stand for, as seconds wrap at 2^48 in either direction. -/
def LTime.ofInt (n : Int) : LTime := LTime.ofParts (n % (2 ^ 48 * 1000000000 * 2 ^ 32)).toNat

/-! ## Gate lists (R354-R356) -/

/-- A list's entry at position `pos` of its cycle, and where the entry ends in the cycle. The last entry lasts until the
cycle ends; an interval that crosses the end is cut. -/
def Hw.gatePos (s : Hw) (p l len cycle pos : Nat) : Nat → Nat → Nat → Nat × Nat
  | 0, i, _ => (i, cycle)
  | fuel + 1, i, at' =>
    let e := at' + ceilDiv (s.t (GCL.INTERVAL p (gclIdx l i))) 4 * 4
    if len ≤ i + 1 ∨ cycle ≤ e then (i, cycle)
    else if pos < e then (i, e)
    else Hw.gatePos s p l len cycle pos fuel (i + 1) e

/-- The active list of port `p` stands where time `t` (ns) puts it. -/
def Hw.gateAt (s : Hw) (p t : Nat) : Hw :=
  let g := (s.port p).gate
  if !g.running then s
  else
    let c := max g.cycle 1
    let pos := ((Int.ofNat t - g.start) % Int.ofNat c).toNat
    let l := s.rd (SUB_GATE_STATUS.ACTIVE_LIST p)
    let r := s.gatePos p l g.len c pos 256 0 0
    let s := s.modPort p (fun x => { x with gate := { g with start := Int.ofNat t - Int.ofNat pos, entryEnd := t + r.2 - pos } })
    (s.wr (SUB_GATE_STATUS.ENTRY p) r.1).wr (SUB_GATE_STATUS.GATES p) (s.t (GCL.GATES p (gclIdx l r.1)))

/-- When a scheduled list starts (R355): at BASE when that is 2 µs ahead, else at a later boundary, which is late. -/
def Hw.gateSchedule (s : Hw) (p : Nat) : Hw :=
  let g := (s.port p).gate
  let soon := s.tim.now.abs + 2000
  let set := fun (s : Hw) (t : Option Nat) => s.modPort p (fun x => { x with gate := { g with pend := t } })
  if !s.timRuns || s.rd TIM_STATUS.STATE == 0 then set s none
  else if soon ≤ g.base then set s (some g.base)
  else
    let s := set s (some (g.base + ceilDiv (soon - g.base) g.newCycle * g.newCycle))
    (s.count (SUB_GATE_CNT.GATE_LATE_COUNT p)).raise (0x4000000 + p * 0x1000) EV_SUB.GATE_LATE

/-- A write of SUB_GATE_CTRL. -/
def Hw.gateChange (s : Hw) (p : Nat) (v : Word) : Hw :=
  let s := s.fullWrite (SUB_GATE_CTRL.A p) v
  let len := s.rd (SUB_GATE_LEN.LEN p)
  if getField v 1 1 = 0 ∨ len = 0 then s
  else
    let base := (s.rd (SUB_GATE_BASE_SEC_HI.SEC p) * 2 ^ 32 + s.rd (SUB_GATE_BASE_SEC_LO.SEC p)) * 1000000000
      + s.rd (SUB_GATE_BASE_NS.NS p)
    let s := s.modPort p (fun x => { x with gate := { x.gate with
      base := base, newCycle := s.rd (SUB_GATE_CYCLE.CYCLE p), newLen := len } })
    (s.wr (SUB_GATE_STATUS.CHANGE_PENDING p) 1).gateSchedule p

/-- GATE_CONFIG_CHANGE (R355). -/
def execGateConfigChange (m : Master) (p : Fin 512) (v : Word) (s : State) : Host.Outcome State Fault Refusal :=
  s.on (fun s => s.onAccess m (SUB_GATE_CTRL.A p) true (fun s => s.gateChange p v))

/-- The pending list of port `p` becomes active. -/
def Hw.gateStart (s : Hw) (p : Nat) : Hw :=
  match (s.port p).gate.pend with
  | none => s
  | some t =>
    if !s.timRuns || s.rd TIM_STATUS.STATE == 0 || decide (s.tim.now.abs < t) then s
    else
      let s := s.modPort p (fun x => { x with gate := { x.gate with
        running := true, start := Int.ofNat t, cycle := x.gate.newCycle, len := x.gate.newLen, pend := none } })
      let s := (s.wr (SUB_GATE_STATUS.ACTIVE_LIST p) (1 - s.rd (SUB_GATE_STATUS.ACTIVE_LIST p))).wr
        (SUB_GATE_STATUS.CHANGE_PENDING p) 0
      let s := (s.count (SUB_GATE_CNT.GATE_SWITCH_COUNT p)).raise (0x4000000 + p * 0x1000) EV_SUB.GATE_SWITCHED
      s.gateAt p t

/-- GATE_LIST_START (R355). -/
def execGateListStart (p : Fin 512) (s : State) : Host.Outcome State Fault Refusal := s.on (·.gateStart p)

/-- The entry in force of port `p` ends and the next one applies. -/
def Hw.gateAdvance (s : Hw) (p : Nat) : Hw :=
  let g := (s.port p).gate
  if s.timRuns && g.running && decide (g.entryEnd ≤ s.tim.now.abs) then s.gateAt p g.entryEnd else s

/-- GATE_ENTRY_ADVANCE (R354). -/
def execGateEntryAdvance (p : Fin 512) (s : State) : Host.Outcome State Fault Refusal := s.on (·.gateAdvance p)

/-! ## Time-event slots (R350-R353) -/

/-- TIME of slot `x` in nanoseconds. -/
def Hw.slotTime (s : Hw) (x : Nat) : Nat := (s.t (SLOT.SEC_HI x) * 2 ^ 32 + s.t (SLOT.SEC_LO x)) * 1000000000 + s.t (SLOT.NS x)
/-- TIME of a slot becomes `t` (R350). -/
def Hw.setSlotTime (s : Hw) (x t : Nat) : Hw :=
  let sec := t / 1000000000
  ((s.ts (SLOT.NS x) (t % 1000000000)).ts (SLOT.SEC_LO x) sec).ts (SLOT.SEC_HI x) (sec / 2 ^ 32)

/-- A slot with a lower number than `x` has acted on the pin in this tick: it decides (R351). -/
def Hw.pinDecided (s : Hw) (x pin : Nat) : Bool :=
  let by' := s.tim.evtBy.get (0, 64) pin
  by'.1 == s.clk && decide (by'.2 < x)

/-- Slot `x` acts on its pin. -/
def Hw.slotPin (s : Hw) (x : Nat) : Hw :=
  let pin := s.t (SLOT.PIN x)
  let level := fun (s : Hw) (b : Nat) => { s with tim := { s.tim with evtOut := putBits s.tim.evtOut pin 1 b } }
  if s.t (SLOT.PIN_ACT x) = 0 ∨ s.pinDecided x pin then s
  else
    let s := { s with tim := { s.tim with evtBy := s.tim.evtBy.set (0, 64) pin (s.clk, x) } }
    match s.t (SLOT.PIN_ACT x) with
    | 1 => level s 1
    | 2 => level s 0
    | _ => (level s 0).emit (.evtPulse pin (s.t (SLOT.PULSE x)))

/-- What a firing of slot `x` does beside its time: pin, event, count, consumers. -/
def Hw.slotAct (s : Hw) (x : Nat) : Hw :=
  let s := s.slotPin x
  let s := s.onlyIf (s.t (SLOT.INT_EN x) = 1) (·.timRaise EV_TIM.SLOT_FIRED)
  let s := s.ts (SLOT.FIRE_COUNT x) (s.t (SLOT.FIRE_COUNT x) + 1)
  let s := s.onlyIf (s.rd SLT_CFG.SWAP_EVT_EN = 1 ∧ s.rd SLT_CFG.SWAP_EVT = x ∧ s.sltOn = true) (·.swapEvent)
  ((s.anSwitch x).cveActivate x).binSecond x

/-- The first TIME + k × PERIOD after time `now`, and how many firings that passes over. -/
def nextSlot (t period now : Nat) : Nat × Nat :=
  let k := (now - t) / period + 1
  (t + k * period, k - 1)

/-- A slot fires at its time. One committed late counts itself and what it skipped (R351). -/
def Hw.slotFire (s : Hw) (x : Nat) : Hw :=
  let t := s.slotTime x
  let period := s.t (SLOT.PERIOD x)
  let now := s.tim.now.abs
  if s.t (SLOT.VALID x) = 0 ∨ s.timRuns = false ∨ now < t then s
  else
    let was := s.tim.late.contains x
    let s := { s with tim := { s.tim with late := s.tim.late.filter (· != x) } }
    let s := if period = 0 then s.ts (SLOT.VALID x) 0
      else if was then s.setSlotTime x (nextSlot t period now).1 else s.setSlotTime x (t + period)
    let s := s.onlyIf (was = true) (fun s => s.timCount 5 (1 + if period = 0 then 0 else (nextSlot t period now).2))
    s.slotAct x

/-- SLOT_FIRE (R350). -/
def execSlotFire (x : Fin 64) (s : State) : Host.Outcome State Fault Refusal := s.on (·.slotFire x)

/-- A commit of a slot: one whose TIME is past fires late (R351). -/
def Hw.slotCommitted (s : Hw) (x : Nat) : Hw :=
  let late := s.t (SLOT.VALID x) == 1 && s.timRuns && decide (s.slotTime x < s.tim.now.abs)
  { s with tim := { s.tim with late := (if late then [x] else []) ++ s.tim.late.filter (· != x) } }

/-- A forward step from `old` fires every slot whose time it skips, once each, in ascending order (R351, R352). -/
def Hw.slotsStep (s : Hw) (old : Nat) : Hw :=
  let now := s.tim.now.abs
  let due := (List.range 64).filter (fun x => s.t (SLOT.VALID x) == 1 && decide (old < s.slotTime x ∧ s.slotTime x ≤ now))
  s.forAll due (fun s x =>
    let period := s.t (SLOT.PERIOD x)
    let s := if period = 0 then s.ts (SLOT.VALID x) 0 else s.setSlotTime x (nextSlot (s.slotTime x) period now).1
    (s.timCount 5).slotAct x)

/-! ## The clock (R333-R339) -/

/-- PPS_OUT rises at a second boundary, where it is enabled (R348). -/
def Hw.ppsPulse (s : Hw) : Hw :=
  s.onlyIf (s.rd TIM_CTRL.PPS_OUT_EN = 1 ∧ s.timRuns = true) (fun s => s.emit (.pps (s.rd TIM_CTRL.PPS_WIDTH)))

/-- A step of the local clock to `t`, with what each consumer does (R339). -/
def Hw.timStep (s : Hw) (t : LTime) : Hw :=
  let old := s.tim.now
  let back := decide (t.parts < old.parts)
  let s := { s with tim := { s.tim with now := t, pps := t.sec } }
  let s := (s.timCount 4).timRaise EV_TIM.TIME_STEP
  let s := s.pmTimeStep back
  let s := s.onlyIf (old.sec < t.sec) (·.ppsPulse)
  let s := s.forAll (s.sub.ports.map Prod.fst) (fun s p => s.gateAt p t.abs)
  if back then s else ({ s with til := { s.til with stepped := List.range 4 } }).slotsStep old.abs

/-- TIM_SET_CMD. -/
def Hw.timSetCmd (s : Hw) (op : Nat) : Hw :=
  let ns := s.rd TIM_SET_NS.NS
  if !s.timRuns then s
  else match op with
    | 1 =>
      if 1000000000 ≤ ns then s
      else s.timStep { sec := s.rd TIM_SET_SEC_HI.SEC * 2 ^ 32 + s.rd TIM_SET_SEC_LO.SEC, ns := ns, frac := 0 }
    | 2 => s.timStep (LTime.ofInt (Int.ofNat s.tim.now.parts + s.rdS TIM_SET_NS.NS * 2 ^ 32))
    | _ => s

/-- TIME_SET (R334). -/
def execTimeSet (m : Master) (s : State) : Host.Outcome State Fault Refusal :=
  s.on (fun s => s.onAccess m TIM_SET_CMD.A true (·.timSetCmd 1))
/-- TIME_ADD (R334). -/
def execTimeAdd (m : Master) (s : State) : Host.Outcome State Fault Refusal :=
  s.on (fun s => s.onAccess m TIM_SET_CMD.A true (·.timSetCmd 2))

/-- A read of TIM_NOW_NS latches the rest of the same tick's time (R334). -/
def Hw.nowRead (s : Hw) (m : Master) : Hw :=
  let s := { s with tim := { s.tim with latched := s.tim.latched.set {} m.latch s.tim.now } }
  s.answer (BitVec.ofNat 32 s.tim.now.ns)

/-- TIME_READ_LATCH (R334). -/
def execTimeReadLatch (m : Master) (s : State) : Host.Outcome State Fault Refusal :=
  s.on (fun s => s.onAccess m TIM_NOW_NS.A false (·.nowRead m))

/-! ## Time of day (R335, R337, R338) -/

/-- TOD_SFC. -/
def Hw.todSfc (s : Hw) : Nat := s.rd TIM_TOD_SFC_HI.SFC_HI * 2 ^ 32 + s.rd TIM_TOD_SFC.SFC_LO

/-- A write of TIM_TOD_ARM: an update whose count has passed ends as late. -/
def Hw.todArm (s : Hw) (v : Word) : Hw :=
  let s := s.plainWrite TIM_TOD_ARM.A v
  let s := s.wr TIM_TOD_ARM.FORCE (getField v 1 1)
  if getField v 0 1 = 0 then s
  else if 2 ^ 50 ≤ (s.todSfc + 2 ^ 51 - s.sfc (s.rd TIM_CTRL.SRC_CH)) % 2 ^ 51 then
    ((s.wr TIM_TOD_ARM.ARM 0).timCount 2).timRaise EV_TIM.TOD_LATE_EV
  else s.wr TIM_TOD_ARM.ARM 1

/-- TOD_ARM (R337). -/
def execTodArm (m : Master) (v : Word) (s : State) : Host.Outcome State Fault Refusal :=
  s.on (fun s => s.onAccess m TIM_TOD_ARM.A true (fun s => s.todArm v))

/-- D of R337 in 2^-32 ns: bit periods are 10,000 / 497,664 ns. -/
def Hw.todDelay (s : Hw) : Int :=
  let bits := Int.ofNat (s.rd TIM_TEQD.TEQD) - Int.ofNat (s.rd (TRK_EQD_ACTIVE.EQD (s.rd TIM_CTRL.SRC_CH)))
  (bits * 10000 - 35000 * 497664) * Int.ofNat (s.rd TIM_RATIO.RATIO) * 65536 / 497664 + s.rdS TIM_ASYM.ASYM * 2 ^ 32 / 1000

/-- The clock leaves FREE: scheduled gate lists get their starts (R355). -/
def Hw.leaveFree (s : Hw) : Hw :=
  s.forAll ((s.sub.ports.map Prod.fst).filter (fun p => s.rd (SUB_GATE_STATUS.CHANGE_PENDING p) == 1)) (fun s p => s.gateSchedule p)

/-- An update is judged: stepped in, or refused (R335). -/
def Hw.todJudge (s : Hw) (off : Int) : Hw :=
  let was := s.rd TIM_STATUS.STATE
  let ns := off.tdiv (2 ^ 32)
  let s := s.wr TIM_LAST_OFFSET.OFFSET (unsigned 32 (max (min ns (2 ^ 31 - 1)) (-(2 ^ 31 - 1))))
  let ok := was == 0 || s.rd TIM_TOD_ARM.FORCE == 1 || decide (off.natAbs ≤ s.rd TIM_JUMP_LIMIT.LIMIT * 2 ^ 32)
  let s := s.wr TIM_TOD_ARM.FORCE 0
  if ok then
    let s := s.timStep (LTime.ofInt (Int.ofNat s.tim.now.parts + off))
    let s := (s.timCount 1).timRaise EV_TIM.TOD_APPLIED
    let s := if was = 1 then s else ((s.wr TIM_STATUS.STATE 1).timRaise EV_TIM.STATE_CHANGE).timSource
    if was = 0 then s.leaveFree else s
  else (s.timCount 0).timRaise EV_TIM.JUMP_EV

/-- A frame in SYNC has another count than TOD_SFC under R104: it is not the frame that the update waits for. -/
def Hw.todOther (s : Hw) : Bool :=
  let c := s.rd TIM_CTRL.SRC_CH
  s.inSync c && s.sfc c != s.todSfc

/-- The frame carrying TOD_SFC arrives on the source channel at the local time now (R104, R337). -/
def Hw.todUpdate (s : Hw) : Hw :=
  if s.rd TIM_TOD_ARM.ARM = 0 ∨ s.timRuns = false ∨ s.rd TIM_CTRL.SRC_EN = 0 ∨ s.todOther then s
  else
    let s := s.wr TIM_TOD_ARM.ARM 0
    if s.inSync (s.rd TIM_CTRL.SRC_CH) then
      let tod : LTime := { sec := s.rd TIM_TOD_SEC_HI.SEC * 2 ^ 32 + s.rd TIM_TOD_SEC.SEC, ns := s.rd TIM_TOD_NS.NS, frac := 0 }
      s.todJudge (Int.ofNat tod.parts + s.todDelay - Int.ofNat s.tim.now.parts)
    else s.timCount 3

/-- TOD_UPDATE (R335). -/
def execTodUpdate (s : State) : Host.Outcome State Fault Refusal := s.on (·.todUpdate)

/-! ## Source, frequency memory, captures, timestamp queues -/

/-- A write of TIM_CTRL that reaches SRC_CH and SRC_EN (R335, R338, R340). -/
def Hw.sourceWrite (s : Hw) (v : Word) : Hw :=
  let s := s.fullWrite TIM_CTRL.A v
  let s := s.onlyIf (s.rd TIM_TOD_ARM.ARM = 1) (fun s => (s.wr TIM_TOD_ARM.ARM 0).timCount 3)
  (if s.srcSync then s.timSource else (s.clockHoldover).timSource).clkSync

/-- TIM_SOURCE_WRITE (R340). -/
def execTimSourceWrite (m : Master) (v : Word) (s : State) : Host.Outcome State Fault Refusal :=
  s.on (fun s => s.onAccess m TIM_CTRL.A true (fun s => s.sourceWrite v))

/-- A measurement of 1 s completes: `inc` is the INC_FRAC that corrects the CLK_SYS rate (R340); `off` says that the
source was more than 50 ppm from nominal (R346). -/
def Hw.freqMeasured (s : Hw) (inc : Word) (off : Bool) : Hw :=
  if s.timRuns = true ∧ s.srcSync = true then
    (({ s with tim := { s.tim with freqMem := some inc.toNat, offRate := off } }).wr TIM_STATUS.FREQ_MEM_VALID 1).timSource
  else s

/-- FREQ_MEASUREMENT (R340). -/
def execFreqMeasurement (inc : Word) (s : State) (off : Bool := false) : Host.Outcome State Fault Refusal :=
  s.on (·.freqMeasured inc off)

/-- The local clock has reached a second boundary: each pulses PPS_OUT once (R348). -/
def Hw.ppsBoundary (s : Hw) : Hw :=
  if s.timRuns ∧ s.tim.pps < s.tim.now.sec then
    ({ s with tim := { s.tim with pps := s.tim.now.sec } }).ppsPulse
  else s

/-- PPS_PULSE (R348). -/
def execPpsPulse (s : State) : Host.Outcome State Fault Refusal := s.on (·.ppsBoundary)

/-- A filtered edge on EVT_IN0-3 or PPS_IN (4) (R349). -/
def Hw.edgeCapture (s : Hw) (i : Nat) (falling : Bool) : Hw :=
  if s.timRuns = false ∨ s.rd (TIM_CAP.CAP_EN i) = 0 ∨ s.rd (TIM_CAP.EDGE i) ≠ b2n falling then s
  else
    let s := s.onlyIf (i = 4) (·.timCount 7)
    let l := s.tim.caps.get [] i
    if 8 ≤ l.length then s.timCount 6
    else
      let e : CapEntry := { ns := s.tim.now.ns, sec := s.tim.now.sec % 2 ^ 32, state := s.rd TIM_STATUS.STATE }
      ({ s with tim := { s.tim with caps := s.tim.caps.set [] i (l ++ [e]) } }).timRaise EV_TIM.CAPTURE

/-- EDGE_CAPTURE (R349). -/
def execEdgeCapture (i : Fin 5) (falling : Bool) (s : State) : Host.Outcome State Fault Refusal :=
  s.on (fun s => s.edgeCapture i falling)

/-- The oldest entry of capture `i` is removed (R349). -/
def Hw.capturePop (s : Hw) (i : Nat) (v : Word) : Hw :=
  let s := s.plainWrite (TIM_CAP.A i) v
  if getField v 2 1 = 1 then { s with tim := { s.tim with caps := s.tim.caps.set [] i ((s.tim.caps.get [] i).drop 1) } } else s

/-- CAPTURE_POP (R349). -/
def execCapturePop (m : Master) (i : Fin 5) (v : Word) (s : State) : Host.Outcome State Fault Refusal :=
  s.on (fun s => s.onAccess m (TIM_CAP.A i) true (fun s => s.capturePop i v))

/-- The oldest entry of timestamp queue `q` is removed (R344). -/
def Hw.tsqPop (s : Hw) (q : Nat) (v : Word) : Hw :=
  let s := s.plainWrite (TIM_TSQ.A q) v
  if getField v 8 1 = 1 then { s with tim := { s.tim with tsq := s.tim.tsq.set [] q ((s.tim.tsq.get [] q).drop 1) } } else s

/-- TS_QUEUE_POP (R344). -/
def execTsQueuePop (m : Master) (q : Fin 16) (v : Word) (s : State) : Host.Outcome State Fault Refusal :=
  s.on (fun s => s.onAccess m (TIM_TSQ.A q) true (fun s => s.tsqPop q v))

end Sys2Proof.Machine
end

