-- ==== Sys2Proof/Machine/Lifecycle.lean ====
section
/-!
DEFINITION. The lifecycle of every startable function with what each does at its transitions (R60), HELD (R444, R475),
and the twin link's fall (R448, R452, R456, R463).
-/
namespace Sys2Proof.Machine

/-! ## The twin link leaves UP (R443, R448, R452, R456, R460, R463) -/

/-- MIRROR_SYNC takes a value, with its event. -/
def Hw.setMirrorSync (s : Hw) (v : Nat) : Hw :=
  if s.rd TWN_STATUS.MIRROR_SYNC = v then s else (s.wr TWN_STATUS.MIRROR_SYNC v).twnRaise EV_TWN.MIRROR_SYNC_EV

/-- A handover is given up: the twin is ACTIVE again (R443). -/
def Hw.yieldAbort (s : Hw) : Hw :=
  if s.rd TWN_STATUS.ROLE_STATE = 4 then
    let s := { s with twn := { s.twn with forward := false, drained := false, cmd := 0 } }
    ((s.wr TWN_STATUS.ROLE_STATE 3).twnCount 4).twnRaise EV_TWN.HANDOVER_REFUSED_EV
  else s

/-- The link is no longer UP: its queues are emptied, REDIRECT ends, forwarded messages are lost. -/
def Hw.linkLost (s : Hw) : Hw :=
  if s.rd TWN_STATUS.LINK_STATE = 2 then
    let s := (s.wr TWN_STATUS.LINK_STATE 0).twnCount 6 s.twn.data.length
    let s := { s with twn := { s.twn with data := [], slots := [], mbx := [], sent := [], full := [], idle := false, clean := false, misses := 0, sweep := none, sweepBegun := false } }
    let s := s.wr TWN_MIRROR_STATUS.SWEEP_BUSY 0
    let s := ((s.setRedirect 0).setMirrorSync 0).mbxDomainDown 28
    s.yieldAbort.slotDefects.twinLaneSync
  else (s.wr TWN_STATUS.LINK_STATE 0).twinLaneSync

/-- UP to DOWN by a fault of the link. -/
def Hw.linkFault (s : Hw) : Hw :=
  if s.rd TWN_STATUS.LINK_STATE = 2 then (s.linkLost.twnCount 0).twnRaise EV_TWN.LINK_CHANGE else s

/-! ## The functions of a domain -/

/-- The domain of a function. Rings belong to CTL; those in host memory are also PCIE's (R390). -/
def Fn.dom : Fn → Nat
  | .trk c => 15 + c.val
  | .member _ _ => 11
  | .lane l => 19 + l.val / 8
  | .port p => 19 + p.val / 64
  | .page _ => 27
  | .engine e => 3 + e.val / 8
  | .ring _ _ => 2
  | .twinLink => 28

/-- The function whose control or status register is at `a`. -/
def fnAt (a : Nat) : Option Fn :=
  let cands : List Fn :=
    if a < 0x1000000 then [.lane ⟨(a - 0x210000) / 0x10000 % 64, Nat.mod_lt _ (by decide)⟩]
    else if a < 0x1800000 then [.trk ⟨(a - 0x1000000) / 0x100000 % 4, Nat.mod_lt _ (by decide)⟩]
    else if a < 0x2000000 then
      ((List.range 4).map (fun c => Fn.member ⟨(a - SHF_MBR_CTRL.A 0 0) / (SHF_MBR_CTRL.A 1 0 - SHF_MBR_CTRL.A 0 0) % 16, Nat.mod_lt _ (by decide)⟩
        ⟨c % 4, Nat.mod_lt _ (by decide)⟩))
      ++ ((List.range 4).map (fun c => Fn.member ⟨(a - SHF_MBR_STATUS.A 0 0) / (SHF_MBR_STATUS.A 1 0 - SHF_MBR_STATUS.A 0 0) % 16, Nat.mod_lt _ (by decide)⟩
        ⟨c % 4, Nat.mod_lt _ (by decide)⟩))
    else if a < 0x4000000 then []
    else if a < 0x4800000 then [.port ⟨(a - 0x4000000) / 0x1000 % 512, Nat.mod_lt _ (by decide)⟩]
    else if a < 0x5000000 then [.page 0, .page 1]
    else if a < 0x6000000 then []
    else if a < 0x7000000 then [.engine ⟨(a - 0x6000000) / 0x10000 % 64, Nat.mod_lt _ (by decide)⟩]
    else if a < 0x7400000 then []
    else if a < 0x7800000 then
      [.ring ⟨(a - 0x7400000) / 0x10000 % 2, Nat.mod_lt _ (by decide)⟩ ⟨(a - 0x7400000) / 0x40 % 1024, Nat.mod_lt _ (by decide)⟩]
    else [.twinLink]
  cands.find? (fun f => f.ctl == a || f.sts == a)

/-- Every function that is enabled or not OFF. A function that is neither has nothing to hold. -/
def Hw.liveFns (s : Hw) : List Fn :=
  ((s.regs.filterMap (fun p => fnAt p.1)).eraseDups).filter (fun f => s.rd f.ENABLE == 1 || s.st f != 0)

/-- A ring's descriptors lie in host memory, as it was captured or, while it is OFF, as it is set. -/
def Hw.ringInHost (s : Hw) (d r : Nat) : Bool :=
  (if s.ringState d r = 0 then s.rd (RING_CTRL.LOC d r) else s.capRd (RING_CTRL.LOC d r)) == 0

/-- A function is among those of domain `d`. -/
def Hw.fnIn (s : Hw) (d : Nat) (f : Fn) : Bool :=
  f.dom == d || (match f with
    | .ring k r => d == 29 && s.ringInHost k r
    | _ => false)

/-- Functions of domain `d` that are enabled or not OFF. -/
def Hw.domFns (s : Hw) (d : Nat) : List Fn := s.liveFns.filter (s.fnIn d)

/-- Every function of domain `d` is OFF (R62). -/
def Hw.domIdle (s : Hw) (d : Nat) : Bool := (s.domFns d).all (fun f => s.st f == 0)

/-! ## HELD -/

/-- The role machine holds the subscriber ports (R444). -/
def Hw.portsHeld (s : Hw) : Bool :=
  s.rd GLB_STRAP.TWIN_EN == 1 && (match s.rd TWN_STATUS.ROLE_STATE with
    | 3 => false
    | 4 => s.twn.drained
    | _ => true)

/-- The function is HELD (R60). -/
def Hw.holds (s : Hw) (d : Nat) : Bool := s.pwr.held.contains d

/-- What holds a function now (R444, R473, R475, R311, and Sheaf a member it has shed, R181): lanes of a group are held once its ports are OFF, a channel shed
by the Trim mask once its members are OFF, engines once their cluster has drained. -/
def Hw.heldNow (s : Hw) (f : Fn) : Bool :=
  match f with
  | .port _ => s.holds f.dom || s.portsHeld
  | .lane l => s.holds f.dom && (s.rd f.HELD == 1
      || (List.range 64).all (fun i => s.rd (SUB_PORT_STATUS.STATE (64 * (l.val / 8) + i)) == 0))
  | .trk c => s.holds f.dom && (s.rd f.HELD == 1 || (List.range 16).all (fun g => s.rd (SHF_MBR_STATUS.STATE g c) == 0))
  | .member g c => s.holds 11 || s.holds (15 + c.val) || (s.grp g).shedOff.contains c.val
  | .engine e => s.holds f.dom && (s.rd f.HELD == 1 || s.rd (TIL_CL_STATUS.DRAINING (e.val / 8)) == 0)
  | .ring d r => s.holds 2 || (s.holds 29 && s.ringInHost d r)
  | _ => s.holds f.dom

/-! ## Transitions -/

/-- What entry to STARTING does. -/
def Hw.fnStarting (s : Hw) : Fn → Hw
  | .trk c => s.trkStarting c
  | .member g c => s.joinStart g c
  | .lane l => s.laneStarting l
  | .port p => s.portStarting p
  | .page p => s.pageStarting p
  | .engine e => s.engineStarting e
  | .ring _ _ => s
  | .twinLink => s

/-- What entry to STOPPING does. -/
def Hw.fnStopping (s : Hw) : Fn → Hw
  | .trk c => s.trkStopping c
  | .member g c => s.memberStopping g c
  | .lane l => s.laneStopping l
  | .port p => s.portStopping p
  | .page p => s.pageTry (1 - p)
  | .engine e => s.engineStopping e
  | .ring _ _ => s
  | .twinLink => (List.range 8).foldl (fun s i =>
      let s := s.modLane (64 + i) (fun x => { x with recalWaits := false })
      (s.wr (SRD_LANE_STATUS.RECAL_BUSY (64 + i)) 0).laneSync (64 + i)) s.linkLost

/-- The effective enable becomes 1. -/
def Hw.fnUp (s : Hw) (f : Fn) : Hw :=
  let was := s.st f
  let s := s.lcUp f
  s.onlyIf (was = 0) (fun s => s.fnStarting f)

/-- The effective enable becomes 0. -/
def Hw.fnDown (s : Hw) (f : Fn) : Hw :=
  let was := s.st f
  let s := s.lcDown f
  s.onlyIf (was = 1 ∨ was = 2) (fun s => s.fnStopping f)

/-- A change `g` of ENABLE or HELD, with the lifecycle that follows the effective enable. -/
def Hw.follow (s : Hw) (f : Fn) (g : Hw → Hw) : Hw :=
  let s' := g s
  if s.effEnable f = s'.effEnable f then s' else if s'.effEnable f then s'.fnUp f else s'.fnDown f

/-- HELD of a function follows what holds it. -/
def Hw.holdSync (s : Hw) (f : Fn) : Hw :=
  if s.rd f.HELD = b2n (s.heldNow f) then s else s.follow f (fun s => s.wr f.HELD (b2n (s.heldNow f)))

/-- HELD of every live function follows; ports and members stop before the lanes and channels that wait for them, and
are released after them (R311). -/
def Hw.holdAll (s : Hw) : Hw :=
  let first := fun (f : Fn) => match f with
    | .lane _ => false
    | .trk _ => false
    | _ => true
  let s := s.forAll (s.liveFns.filter (fun f => !first f && !s.heldNow f)) (fun s f => s.holdSync f)
  (s.forAll (s.liveFns.filter first) (fun s f => s.holdSync f)).forAll (s.liveFns.filter (fun f => !first f)) (fun s f => s.holdSync f)

/-- The start condition of a function in STARTING, as far as the state shows it. -/
def Hw.fnCanStart (s : Hw) : Fn → Bool
  | .trk c => s.trkCanStart c
  | .member g c => s.memberActive g c
  | .lane _ => true
  | .port p => s.portExists p && s.portCanStart p
  | .page p => (s.slotPage p).armed && s.pageState (1 - p.val) != 2
  | .engine _ => false
  | .ring d r => s.capRd (RING_CTRL.LOC d r) == 1 || s.ctl.link
  | .twinLink => s.rd GLB_CLK_STATUS.TWIN_OK == 1

/-- STARTING to ON. -/
def Hw.fnOn (s : Hw) (f : Fn) : Hw :=
  match f with
  | .page p => s.pageTry p
  | .trk c => (s.lcOn f).trkEnterOn c
  | .lane l => ((s.lcOn f).laneLinks l).laneSync l
  | .port p => (s.lcOn f).portOn p
  | .twinLink => ((s.lcOn f).wr TWN_STATUS.LINK_STATE 1).twinLaneSync
  | _ => s.lcOn f

/-- Stop and flush of a function in STOPPING are complete, as far as the state shows it. -/
def Hw.fnFlushed (s : Hw) : Fn → Bool
  | .trk c => (s.act c).bursts.all (fun b => !b.launched) && !(s.dln c).tail
  | .member g c => s.phase g c == 0
  | .engine e => s.engineFlushed e
  | _ => true

/-- What STOPPING ends with beside the lifecycle: a channel that is to start again does not pass through OFF (R60, R83). -/
def Hw.fnEnded (s : Hw) : Fn → Hw
  | .trk c => s.onlyIf (s.rd (TRK_PMA_STATUS.RESTART_PENDING c) = 0) (fun s => s.trkOff c)
  | .port p => s.portFlushed p
  | _ => s

/-- STOPPING to OFF, or to STARTING under RESTART_PENDING. -/
def Hw.fnOff (s : Hw) (f : Fn) : Hw :=
  match f with
  | .page p => s.pageRetire p
  | _ =>
    let s := (s.fnEnded f).lcOff f
    s.onlyIf (s.st f = 1) (fun s => s.fnStarting f)

/-! ## The commands -/

/-- A member ENABLE write that would break R157 or R183 is discarded. -/
def Hw.memberRefused (s : Hw) (g c : Nat) (v : Word) : Bool :=
  let others := (List.range 16).filter (fun h => h != g)
  let idx := getField v 4 10
  others.any (fun h => s.rd (SHF_MBR_STATUS.STATE h c) != 0 && s.capRd (SHF_MBR_CTRL.ALLOC_IDX h c) == idx)
    || others.any (fun h => s.rd (SHF_MBR_CTRL.ENABLE h c) == 1
      && (s.rd (SHF_SHED_CFG.SHED_EN h) == 1 || s.rd (SHF_SHED_CFG.SHED_EN g) == 1))

/-- What follows a write of a control register beside the lifecycle: live fields (R303, R304, R393), a
port enabled while its link is down (R510), and the role that a
twin returns to as its link leaves ON, which lets go of the ports (R443, R444). -/
def Hw.fnLive (s : Hw) : Fn → Hw
  | .port p => (s.lpiSync (p.val / 8)).onlyIf
      (s.rd (SUB_PORT_CTRL.ENABLE p) = 1 ∧ s.rd (SUB_PORT_STATUS.LINK p) = 0) (fun s => s.note (1028 + p) 23)
  | .lane l => s.laneSync l
  | .ring d r => s.onlyIf (d = 0) (fun s => s.ringFreed r)
  | .twinLink => s.holdAll
  | _ => s

/-- The control register of a function is written with ENABLE `en`. -/
def Hw.fnWrite (s : Hw) (f : Fn) (en : Nat) (v : Word) : Hw :=
  let v := setField v 0 1 en
  let refused := match f with
    | .member g c => en == 1 && s.rd f.ENABLE == 0 && s.memberRefused g c v
    | _ => false
  if refused then s.plainWrite f.ctl v
  else ((s.wr f.HELD (if s.st f = 0 then b2n (s.heldNow f) else s.rd f.HELD)).follow f (fun s => s.fullWrite f.ctl v)).fnLive f

/-- FUNCTION_ENABLE: by a write of the control register, or as what held the function lets go of it. -/
def execFunctionEnable (m : Master) (f : Fn) (v : Option Word) (s : State) : Host.Outcome State Fault Refusal :=
  s.on (fun s => match v with
    | some v => s.onAccess m f.ctl true (fun s => s.onlyIf (aliasCloses m f.ctl = false) (fun s => s.fnWrite f 1 v))
    | none => s.holdSync f)

/-- FUNCTION_DISABLE: by a write of the control register, or as the function comes to be held. -/
def execFunctionDisable (m : Master) (f : Fn) (v : Option Word) (s : State) : Host.Outcome State Fault Refusal :=
  s.on (fun s => match v with
    | some v => s.onAccess m f.ctl true (fun s => s.onlyIf (aliasCloses m f.ctl = false) (fun s => s.fnWrite f 0 v))
    | none => s.holdSync f)

/-- START_CONDITION_MET: what the state does not show of the start condition (calibrations, captures) has completed. -/
def execStartConditionMet (f : Fn) (s : State) : Host.Outcome State Fault Refusal :=
  s.on (fun s => s.onlyIf (s.st f = 1 ∧ s.fnCanStart f = true) (fun s => s.fnOn f))

/-- Domains that PWR_DOM_OFF asks off and whose functions are all OFF. -/
def Hw.offDue (s : Hw) : List Nat :=
  (List.range 32).filter (fun d => bitN (s.word PWR_DOM_OFF.A).toNat d == 1 && s.cond d != 2 && s.domIdle d)

end Sys2Proof.Machine
end

