-- ==== Sys2Proof/Machine/Twin.lean ====
section
/-!
DEFINITION. Commands of twin pairing (spec/17): the role machine and the activity wires, heartbeats, the twin link and
its frames, redirection. Receipt of mirror records is in Machine/Common, beside the gates they are applied through.
-/
namespace Sys2Proof.Machine

abbrev SOLO : Nat := 0
abbrev STANDBY : Nat := 1
abbrev CLAIMING : Nat := 2
abbrev ACTIVE : Nat := 3
abbrev YIELDING : Nat := 4

/-- ROLE_STATE (R443). -/
abbrev Hw.role (s : Hw) : Nat := s.rd TWN_STATUS.ROLE_STATE
/-- Twin B. -/
def Hw.isB (s : Hw) : Bool := s.rd TWN_STATUS.ROLE == 1
/-- TWN_ACT_IN, filtered (R441). -/
def Hw.actIn (s : Hw) : Bool := s.rd TWN_STATUS.ACT_IN == 1
/-- The terminal is paired: TWIN_EN is 1 (R440). -/
def Hw.paired (s : Hw) : Bool := s.rd GLB_STRAP.TWIN_EN == 1

/-! ## Roles (R440-R445, R465) -/

/-- ROLE_STATE takes a value, ACT_OUT and the ports' HELD follow (R441, R444). -/
def Hw.setRole (s : Hw) (v : Nat) : Hw :=
  let s := (s.wr TWN_STATUS.ROLE_STATE v).wr TWN_STATUS.ACT_OUT (b2n (decide (2 ≤ v)))
  ({ s with twn := { s.twn with forward := false, drained := false, handover := false, windowOver := false } }).holdAll

/-- A claim begins when CLAIM_EN and ROLE_CONFLICT allow it (R442). -/
def Hw.claim (s : Hw) (handover : Bool) : Hw :=
  if s.paired = true ∧ s.role = STANDBY ∧ s.rd TWN_CTRL.CLAIM_EN = 1 ∧ s.rd TWN_STATUS.ROLE_CONFLICT = 0 then
    let s := s.setRole CLAIMING
    { s with twn := { s.twn with handover := handover } }
  else s

/-- Takeover actions of every MDIO master (R465). -/
def Hw.takeover (s : Hw) : Hw :=
  s.forAll (List.range 4) (fun s m =>
    let l := ((List.range 16).map (fun i => 16 * m + i)).filter (fun l => s.t (PHY_SEL.VALID l) == 1)
    let s := s.modMdio m (fun x => { x with writes := l.map (64 + ·) ++ x.writes })
    (s.mdioKick m).pollRound m)

/-- CLAIMING to ACTIVE. -/
def Hw.becomeActive (s : Hw) : Hw := ((s.setRole ACTIVE).twnRaise EV_TWN.ROLE_CHANGE).takeover

/-- Both twins are active outside a contention window: B withdraws, A stays (R443). -/
def Hw.roleSplit (s : Hw) : Hw :=
  if s.role = ACTIVE then
    if s.isB then (s.setRole STANDBY).twnCount 3 else s.twnRaise EV_TWN.SPLIT_EV
  else s

/-- Start-up negotiation (R442). -/
def Hw.negotiate (s : Hw) : Hw :=
  if s.linkUp = true ∧ s.rd TWN_STATUS.PEER_STATE = STANDBY ∧ s.actIn = false
      ∧ (s.isB = false ∨ s.rd TWN_STATUS.PEER_CLAIM_EN = 0) then s.claim false else s

/-- The filtered TWN_ACT_IN takes a level. -/
def Hw.actInChange (s : Hw) (v : Bool) : Hw :=
  let was := s.actIn
  let s := s.wr TWN_STATUS.ACT_IN (b2n v)
  if was = v ∨ s.paired = false then s
  else if v then
    if s.role = CLAIMING then
      if s.isB = true ∧ s.twn.handover = false ∧ s.twn.windowOver = false then
        ((s.setRole STANDBY).twnCount 2).twnRaise EV_TWN.CONTEND_LOST_EV
      else s
    else s.roleSplit
  else if s.role = CLAIMING ∧ s.twn.windowOver = true then s.becomeActive
  else s.negotiate

/-- TWN_ACT_IN_CHANGE (R443). -/
def execTwnActInChange (v : Bool) (s : State) : Host.Outcome State Fault Refusal := s.on (·.actInChange v)

/-- TWN_ACT_IN has been low for CLAIM_HOLD µs. -/
def execClaimHoldExpire (s : State) : Host.Outcome State Fault Refusal :=
  s.on (fun s => s.onlyIf (s.rd TWN_CTRL.AUTO_TAKEOVER = 1 ∧ s.linkUp = false ∧ s.actIn = false) (fun s => s.claim false))

/-- The contention window ends (R443). -/
def Hw.claimWindowEnd (s : Hw) : Hw :=
  if s.role ≠ CLAIMING then s
  else if s.actIn = false ∨ s.twn.handover = true then s.becomeActive
  else { s with twn := { s.twn with windowOver := true } }

/-- CONTENTION_WINDOW_END (R443). -/
def execContentionWindowEnd (s : State) : Host.Outcome State Fault Refusal := s.on (·.claimWindowEnd)

/-- A handover claim still sees TWN_ACT_IN high 20 µs after YIELD. -/
def execHandoverClaimTimeout (s : State) : Host.Outcome State Fault Refusal :=
  s.on (fun s => s.onlyIf (s.role = CLAIMING ∧ s.twn.handover = true ∧ s.actIn = true) (fun s =>
    ((s.setRole STANDBY).wr TWN_STATUS.WIRE_FAULT 1).twnRaise EV_TWN.WIRE_FAULT_EV))

/-! ## Planned handover (R467) -/

/-- A 1 is written to HANDOVER. -/
def Hw.handoverStart (s : Hw) : Hw :=
  if s.role ≠ ACTIVE then s
  else if s.linkUp = true ∧ s.rd TWN_STATUS.PEER_STATE = STANDBY ∧ s.rd TWN_STATUS.PEER_CLAIM_EN = 1
      ∧ s.rd TWN_STATUS.PEER_MIRROR_SYNC = 1 then
    let s := s.setRole YIELDING
    { s with twn := { s.twn with cmd := 1 } }
  else (s.twnCount 4).twnRaise EV_TWN.HANDOVER_REFUSED_EV

/-- HANDOVER (R467). -/
def execHandover (m : Master) (v : Word) (s : State) : Host.Outcome State Fault Refusal :=
  s.on (fun s => s.onAccess m TWN_CTRL.A true (fun s => (s.plainWrite TWN_CTRL.A v).handoverStart))

/-- The peer asks for a handover: the next heartbeat answers. -/
def Hw.handoverReq (s : Hw) : Hw := if s.linkUp = true ∧ s.paired = true then { s with twn := { s.twn with cmd := 2 } } else s

/-- The peer has agreed: port nodes forward to it. -/
def Hw.handoverAck (s : Hw) : Hw :=
  if s.linkUp = true ∧ s.role = YIELDING then { s with twn := { s.twn with forward := true } } else s

/-- The peer has yielded. -/
def Hw.yieldRx (s : Hw) : Hw := if s.linkUp then s.claim true else s

/-- HANDOVER_REQ_RX (R467). -/
def execHandoverReqRx (s : State) : Host.Outcome State Fault Refusal := s.on (·.handoverReq)
/-- HANDOVER_ACK_RX (R467). -/
def execHandoverAckRx (s : State) : Host.Outcome State Fault Refusal := s.on (·.handoverAck)
/-- YIELD_RX (R442). -/
def execYieldRx (s : State) : Host.Outcome State Fault Refusal := s.on (·.yieldRx)

/-- No HANDOVER_ACK within 1 ms. -/
def execHandoverAckTimeout (s : State) : Host.Outcome State Fault Refusal :=
  s.on (fun s => s.onlyIf (s.role = YIELDING ∧ s.twn.forward = false) (fun s => s.yieldAbort.holdAll))

/-- DRAIN µs have passed since the acknowledgement. -/
def execHandoverDrainExpire (s : State) : Host.Outcome State Fault Refusal :=
  s.on (fun s => s.onlyIf (s.role = YIELDING ∧ s.twn.forward = true) (fun s =>
    ({ s with twn := { s.twn with drained := true } }).holdAll))

/-! ## Heartbeats (R449) -/

/-- Bytes 2-7 of a BEAT row that carries command `cmd`. -/
def Hw.beatBytes (s : Hw) (cmd : Nat) : Bytes :=
  let o5 := (List.range 4).foldl (fun n c => n + b2n (s.trkOn c && s.rd (TRK_ACT_STATUS.ACT_STATE c) == 5) * 2 ^ c) 0
  let b2 := s.role * 32 + s.rd TWN_STATUS.ROLE * 16 + s.rd TWN_CTRL.CLAIM_EN * 8 + s.rd TWN_STATUS.TRUNK_FAIL * 4
    + s.rd TWN_STATUS.REDIRECT * 2 + s.rd TWN_STATUS.MIRROR_SYNC
  beBytes 1 b2 ++ beBytes 1 (o5 * 16 + cmd) ++ beBytes 1 (s.twn.genDom * 8) ++ beBytes 1 (s.gen s.twn.genDom)
    ++ beBytes 2 s.twn.seq

/-- A transmitter whose lanes are in electrical idle sends a 200 ns TRAIN burst and leaves idle (R450). -/
def Hw.twinWake (s : Hw) : Hw :=
  if s.twn.idle then ({ s with twn := { s.twn with idle := false } }.twinLaneSync).emit (.twinTrain 200) else s

/-- A BEAT row is sent, one block on every lane (R449). -/
def Hw.beat (s : Hw) (cmd : Nat) : Hw :=
  let s := s.twinWake
  let s := s.emit (.twin ((List.range 8).map (fun l => (l, .beat l (s.beatBytes cmd)))))
  { s with twn := { s.twn with seq := (s.twn.seq + 1) % 65536, genDom := (s.twn.genDom + 1) % 32, cmd := 0 } }

/-- The link sends: it is ON and out of DOWN. -/
def Hw.linkSends (s : Hw) : Bool := s.st .twinLink == 2 && s.rd TWN_STATUS.LINK_STATE != 0

/-- HEARTBEAT_TX (R449). -/
def execHeartbeatTx (s : State) : Host.Outcome State Fault Refusal :=
  s.on (fun s => s.onlyIf (s.linkSends = true) (fun s => s.beat s.twn.cmd))

/-- Every port is OFF: YIELD is sent and activity released (R443, R467). -/
def Hw.yieldSend (s : Hw) : Hw :=
  if s.role = YIELDING ∧ s.twn.drained = true ∧ (List.range 512).all (fun p => s.portState p == 0) = true then
    ((s.beat 3).setRole STANDBY).twnRaise EV_TWN.HANDOVER_DONE
  else s

/-- HANDOVER_PORTS_OFF (R467). -/
def execHandoverPortsOff (s : State) : Host.Outcome State Fault Refusal := s.on (·.yieldSend)

/-- The command of a heartbeat. -/
def Hw.beatCommand (s : Hw) (cmd : Nat) : Hw :=
  match cmd with
  | 1 => s.handoverReq
  | 2 => s.handoverAck
  | 3 => s.yieldRx
  | _ => s

/-- A valid BEAT row: bytes 2-7 of lane 0's copy, how many lanes' copies differ, and how many blocks of no kind of R447
came since the row before, which are discarded. -/
def Hw.beatRx (s : Hw) (bs : Bytes) (differ bad : Nat) : Hw :=
  if !s.linkUp then s
  else
    let b := byteAt bs 0
    let peer := b / 32
    let fail := b / 4 % 2
    let s := (s.twnCount 14 (differ + bad)).onlyIf (fail = 1 ∧ s.rd TWN_STATUS.PEER_TRUNK_FAIL = 0) (fun s => s.twnRaise EV_TWN.PEER_TRUNK_EV)
    let s := ((s.wr TWN_STATUS.PEER_STATE peer).wr TWN_STATUS.PEER_CLAIM_EN (b / 8 % 2)).wr TWN_STATUS.PEER_TRUNK_FAIL fail
    let s := (s.wr TWN_STATUS.PEER_MIRROR_SYNC (b % 2)).wr TWN_STATUS.PEER_CH_O5 (byteAt bs 1 / 16)
    let s := { s with twn := { s.twn with misses := 0, peerGen := s.twn.peerGen.set 0 (byteAt bs 2 / 8) (byteAt bs 3) } }
    let s := s.onlyIf (peer ≠ STANDBY) (fun s => s.setRedirect 0)
    if !s.paired then s
    else
      let s := s.onlyIf (b / 16 % 2 = s.rd TWN_STATUS.ROLE) (fun s =>
        (s.wr TWN_STATUS.ROLE_CONFLICT 1).twnRaise EV_TWN.ROLE_CONFLICT_EV)
      let s := s.onlyIf (peer = CLAIMING ∨ peer = ACTIVE) (·.roleSplit)
      (s.beatCommand (byteAt bs 1 % 16)).negotiate

/-- HEARTBEAT_RX (R449). -/
def execHeartbeatRx (bs : Vector Byte 6) (differ : Fin 8) (s : State) (bad : Nat := 0) : Host.Outcome State Fault Refusal :=
  s.on (·.beatRx bs.toList differ bad)

/-- 10 µs without a valid BEAT row; the fifth in a row takes the link DOWN. -/
def Hw.beatMiss (s : Hw) : Hw :=
  if !s.linkUp then s
  else
    let n := s.twn.misses + 1
    let s := { s.twnCount 1 with twn := { s.twn with misses := n } }
    if 5 ≤ n then s.linkFault.holdAll else s

/-- HEARTBEAT_MISS (R449). -/
def execHeartbeatMiss (s : State) : Host.Outcome State Fault Refusal := s.on (·.beatMiss)

/-! ## The link (R446-R450) -/

/-- The sweep starts: records of every entry follow one another as the link takes them (R460). -/
def Hw.sweepStart (s : Hw) : Hw :=
  if s.role = ACTIVE ∧ s.rd TWN_CTRL.MIRROR_EN = 1 ∧ s.linkUp = true then
    ({ s with twn := { s.twn with sweep := some (0, 0, 0), sweepBegun := false, octets := 0, sweepOctets := 0 } }).wr
      TWN_MIRROR_STATUS.SWEEP_BUSY 1
  else s

/-- Training has ended: polarity per lane, the lane order found (reversed or not; none when it is neither), the worst
skew in blocks. A lane that sends a test pattern trains nothing (R310, R446). -/
def Hw.trained (s : Hw) (invert : Nat) (order : Option Bool) (skew : Nat) : Hw :=
  if s.st .twinLink ≠ 2 ∨ s.rd TWN_STATUS.LINK_STATE ≠ 1 then s
  else if (List.range 8).any (fun i => s.capRd (SRD_LANE_CTRL.TEST (64 + i)) == 1) then s
  else match order with
    | none => s.twnRaise EV_TWN.LANE_ORDER_ERR
    | some r =>
      if 16 < skew then s
      else
        let s := (s.wr TWN_LANE_STATUS.LOCK 255).wr TWN_LANE_STATUS.INVERT invert
        let s := (s.wr TWN_LANE_STATUS.REVERSED (b2n r)).wr TWN_LANE_STATUS.SKEW skew
        let s := ((s.wr TWN_STATUS.LINK_STATE 2).twinLaneSync).twnRaise EV_TWN.LINK_CHANGE
        ({ s with twn := { s.twn with misses := 0, lane := 0 } }).sweepStart.slotDefects

/-- TWIN_TRAIN_COMPLETE (R448). -/
def execTwinTrainComplete (invert : Fin 256) (order : Option Bool) (skew : Fin 32) (s : State) : Host.Outcome State Fault Refusal :=
  s.on (·.trained invert order skew)

/-- TWIN_LINK_RETRAIN (R448). -/
def execTwinLinkRetrain (s : State) : Host.Outcome State Fault Refusal :=
  s.on (fun s => s.onlyIf (s.st .twinLink = 2 ∧ s.rd TWN_STATUS.LINK_STATE = 0) (fun s => (s.wr TWN_STATUS.LINK_STATE 1).twinLaneSync))

/-- The lanes' block lock, one bit each, and the worst skew in blocks. -/
def Hw.twinLanes (s : Hw) (lock skew : Nat) : Hw :=
  let s := (s.wr TWN_LANE_STATUS.LOCK lock).wr TWN_LANE_STATUS.SKEW (min skew 31)
  if lock ≠ 255 ∨ 16 < skew then s.linkFault.holdAll else s

/-- TWIN_LANE_FAULT (R448). -/
def execTwinLaneFault (lock : Fin 256) (skew : Nat) (s : State) : Host.Outcome State Fault Refusal :=
  s.on (fun s => s.onlyIf (s.linkUp = true) (fun s => s.twinLanes lock skew))

/-- Nothing waits for the link. -/
def Hw.twinQuiet (s : Hw) : Bool :=
  s.twn.data.isEmpty && s.twn.slots.isEmpty && s.twn.mbx.isEmpty && s.twn.mirror.isEmpty && s.twn.sweep.isNone

/-- TWIN_IDLE_ENTRY (R450). -/
def execTwinIdleEntry (s : State) : Host.Outcome State Fault Refusal :=
  s.on (fun s => s.onlyIf (s.rd TWN_CTRL.IDLE_EN = 1 ∧ s.linkUp = true ∧ s.twinQuiet = true)
    (fun s => ({ s with twn := { s.twn with idle := true } }).twinLaneSync))

/-! ## Frames received (R451, R453-R457) -/

/-- LEN fits the type of a frame (R451, R456-R458). -/
def twinLenOk (type len : Nat) : Bool :=
  match type with
  | 3 => len == 72
  | 4 => len == 32
  | 5 => len == 0
  | 6 => decide (42 ≤ len ∧ len ≤ 4137)
  | 7 => decide (42 ≤ len ∧ len ≤ 4137)
  | _ => len != 0

/-- The header block as it is authenticated (R453). -/
abbrev twinAad (hdr : Bytes) : Bytes := 0x78#8 :: hdr

/-- A frame of type `type` from the link: its header and data, and whether its integrity check has failed. `bs` runs
from the 56-bit header through the last octet carried or the ICV. A frame of another type is not this command's; with
TWIN_EN = 0 no type but PORT applies (R440). -/
def Hw.twinOpen (s : Hw) (type : Nat) (bs : Bytes) : Hw × Option (Nat × Bytes × Bool) :=
  let h := beAt bs 0 7
  let t := bitsOf h 52 4
  let len := bitsOf h 37 14
  let n := if bitN h 51 = 1 then len + 24 else len
  if !s.linkUp then (s, none)
  else if 8 ≤ t ∨ 12288 < len ∨ twinLenOk t len = false ∨ bs.length ≠ 7 + n then (s.twnCount 11, none)
  else if t ≠ type || (!s.paired && t != 0) then (s, none)
  else
    let mode := s.t (SECY.VALIDATE 64)
    if bitN h 51 = 0 then
      if mode = 0 then (s, some (h, bs.drop 7, false))
      else if mode = 2 then (s.msCount 64 MS_N.RX_UNTAGGED, none)
      else (s.msCount 64 MS_N.RX_UNTAGGED, some (h, bs.drop 7, false))
    else if mode = 0 then (s, some (h, (bs.drop 15).take len, false))
    else
      let r := s.msOpen 64 (twinAad (bs.take 7)) (bs.drop 7)
      match r.2 with
      | none => (r.1, none)
      | some p =>
        if p.2 && decide (3 ≤ t) then (r.1.msCount 64 MS_N.RX_ICV_FAIL, none)
        else if p.2 then (r.1.icvOwed 64, some (h, p.1, true))
        else (r.1, some (h, p.1, false))

/-- The packet a data frame carries. -/
def twinPkt (d : Bytes × Bool) : Pkt := { bytes := d.1, source := 514, icv := if d.2 then some 64 else none }

/-- What a frame's type does with it, when it is delivered. -/
def Hw.twinRx (s : Hw) (type : Nat) (bs : Bytes) (f : Hw → Nat → Bytes × Bool → Hw) : Hw :=
  let r := s.twinOpen type bs
  match r.2 with
  | none => r.1
  | some d => f r.1 d.1 d.2

/-- PORT_FRAME_RX (R454). -/
def execPortFrameRx (bs : Bytes) (s : State) : Host.Outcome State Fault Refusal :=
  s.on (fun s => s.twinRx 0 bs (fun s _ d => (s.fifoPush pipeA (twinPkt d)).1))

/-- A DS_PORT frame (R454). -/
def Hw.dsPortRx (s : Hw) (h : Nat) (d : Bytes × Bool) : Hw :=
  let p := bitsOf h 22 10
  if p < 512 ∧ s.t (DS_Q.VALID p) = 1 then
    s.enqueue (s.t (DS_Q.QUEUE p)) { twinPkt d with tc := bitsOf h 34 3, color := bitsOf h 32 2 }
  else s.twnCount 12

/-- DS_PORT_RX (R454). -/
def execDsPortRx (bs : Bytes) (s : State) : Host.Outcome State Fault Refusal := s.on (fun s => s.twinRx 1 bs Hw.dsPortRx)

/-- A US_QUEUE frame (R455). -/
def Hw.usQueueRx (s : Hw) (h : Nat) (d : Bytes × Bool) : Hw :=
  let q := bitsOf h 14 18
  if q < 65536 then s.enqueue q { twinPkt d with tc := bitsOf h 34 3, color := bitsOf h 32 2 } else s.twnCount 12

/-- US_QUEUE_RX (R455). -/
def execUsQueueRx (bs : Bytes) (s : State) : Host.Outcome State Fault Refusal := s.on (fun s => s.twinRx 2 bs Hw.usQueueRx)

/-- A frame waits among the mailbox frames. -/
def Hw.twinMbx (s : Hw) (f : TwinMbx) : Hw := { s with twn := { s.twn with mbx := s.twn.mbx ++ [f] } }

/-- A message from the twin is posted as master 0x70 and answered. -/
def Hw.mailboxRx (s : Hw) (h : Nat) (d : Bytes) : Hw :=
  let ch := bitsOf h 29 8
  let words := (List.range 8).map (fun i => BitVec.ofNat 32 (beAt d (4 * i) 4))
  if s.t (MBX_CFG.RX_DOM ch) = 28 then s.twinMbx (.result ch 3)
  else if 128 ≤ ch ∧ s.secure .twin = false then (s.busError .twin (MBX_SEND.A ch) true 4).twinMbx (.result ch 3)
  else
    let st := s.postStatus 0x70 ch
    let s := match st with
      | 0 => s.mbxStoreAs ch { words := words, master := 0x70, mode := bitsOf h 10 3, gen := bitsOf h 13 8, seq := 0, orig := bitsOf h 21 8 }
      | 2 => s.count MBX_POST_ERR.COUNT
      | _ => s
    s.twinMbx (.result ch st)

/-- MAILBOX_RX (R456). -/
def execMailboxRx (bs : Bytes) (s : State) : Host.Outcome State Fault Refusal :=
  s.on (fun s => s.twinRx 4 bs (fun s h d => s.mailboxRx h d.1))

/-- The answer to a forwarded message. -/
def Hw.mbxResult (s : Hw) (h : Nat) : Hw :=
  let ch := bitsOf h 29 8
  if s.twn.sent.contains ch = false ∨ s.twn.full.contains ch = true then s
  else match bitsOf h 27 2 with
    | 1 => { s with twn := { s.twn with full := ch :: s.twn.full } }
    | n =>
      let s := { s with twn := { s.twn with sent := s.twn.sent.erase ch } }
      ((s.twnCount (if n = 0 then 9 else 10)).mbxRemove ch).mbxForward ch

/-- MBX_RESULT_RX (R456). -/
def execMbxResultRx (bs : Bytes) (s : State) : Host.Outcome State Fault Refusal :=
  s.on (fun s => s.twinRx 5 bs (fun s h _ => s.mbxResult h))

/-- 10 µs after a FULL answer the message is sent again. -/
def Hw.mbxResend (s : Hw) (ch : Nat) : Hw :=
  if s.twn.full.contains ch then
    ({ s with twn := { s.twn with full := s.twn.full.erase ch, sent := s.twn.sent.erase ch } }).mbxForward ch
  else s

/-- MBX_RESEND_TIMER (R456). -/
def execMbxResendTimer (ch : Fin 256) (s : State) : Host.Outcome State Fault Refusal := s.on (·.mbxResend ch)

/-- A container of the peer's channel: checks 1 and 4 of R317 on the store of the twin channel. -/
def Hw.slotDsRx (s : Hw) (h : Nat) (bs : Bytes) : Hw :=
  let k := 4 + bitsOf h 35 2
  let f := beAt bs 2 2
  if s.sltOn = true ∧ s.pageOn.isSome = true ∧ s.contFresh k f = true then (s.contSeen k f).demap k bs else s

/-- SLOT_DS_RX (R457). -/
def execSlotDsRx (bs : Bytes) (s : State) : Host.Outcome State Fault Refusal :=
  s.on (fun s => s.twinRx 6 bs (fun s h d => s.slotDsRx h d.1))

/-- The latest SLOT_US of a channel replaces one not yet sent. -/
def Hw.slotUsRx (s : Hw) (h : Nat) (bs : Bytes) : Hw :=
  let c := bitsOf h 35 2
  if !s.sltOn then s.twnCount 13
  else
    let s := s.onlyIf ((s.slotCh c).twinUs.isSome = true) (fun s => s.twnCount 13)
    let now := s.clk
    s.modSlotCh c (fun x => { x with twinUs := some (now, bs) })

/-- SLOT_US_RX (R457). -/
def execSlotUsRx (bs : Bytes) (s : State) : Host.Outcome State Fault Refusal :=
  s.on (fun s => s.twinRx 7 bs (fun s h d => s.slotUsRx h d.1))

/-! ## Frames sent (R452, R453, R458, R460) -/

/-- Octets of a MIRROR record (R458). -/
def MirRec.bytes (r : MirRec) : Bytes :=
  beBytes 4 (r.block % 8 + r.seg % 16 * 2 ^ 3 + r.table % 256 * 2 ^ 8 + r.inst % 1024 * 2 ^ 16 + r.kind % 8 * 2 ^ 29)
    ++ beBytes 4 r.index ++ ((List.range 16).map (fun i => beBytes 4 (r.data.getD i 0#32).toNat)).flatten

/-- Blocks of a frame are dealt to the logical lanes in rotation (R447). A BEAT row stands between two rows and moves no
lane's turn (log entry 213). -/
def Hw.twinDeal (s : Hw) (l : List TwinBlock) : Hw :=
  let at' := fun (i : Nat) (b : TwinBlock) => ((s.twn.lane + i) % 8, b)
  ({ s with twn := { s.twn with lane := (s.twn.lane + l.length) % 8 } }).emit (.twin (l.mapIdx at'))

/-- A frame leaves with its header: `low` holds bits [36:0]. -/
def Hw.twinFrame (s : Hw) (type low : Nat) (data : Bytes) : Hw :=
  let prot := s.t (SECY.PROTECT 64)
  let hdr := beBytes 7 (type * 2 ^ 52 + prot * 2 ^ 51 + data.length * 2 ^ 37 + low)
  let r := if prot = 1 then s.msSeal 64 0 (twinAad hdr) data else (s, some data)
  let s := match r.2 with
    | some b => r.1.twinWake.twinDeal (.frame hdr :: dataBlocks b)
    | none => r.1
  { s with twn := { s.twn with octets := s.twn.octets + data.length + 8 } }

/-- The tables a sweep reads: MIRROR_BLOCKS bit, gate, instance, table. Tables without a field software writes are not
among them. -/
def sweepTables : List (Nat × Nat × Nat × TabRow) :=
  let sel := fun (bit g inst : Nat) =>
    ((tables g).filter (fun r => decide (r.wr ≠ .never) && r.fields.any (fun f => f.acc != .ro))).map (fun r => (bit, g, inst, r))
  sel 0 5 0 ++ sel 1 6 0 ++ sel 2 7 0 ++ sel 3 9 0 ++ ((List.range 520).map (fun p => sel 4 (16 + p) p)).flatten
    ++ sel 5 10 0 ++ sel 6 11 0 ++ ((List.range 8).map (fun k => (sel 7 (600 + 8 * k) k).filter (fun e => e.2.2.2.id == 3))).flatten

/-- Flows at or above `f` with a valid context, in cache or in memory; the least. -/
def Hw.nextFlow (s : Hw) (mem : List Host.Cell) (f : Nat) : Option Nat :=
  let base := s.ctxAddr 0
  let inMem := mem.filterMap (fun (c : Nat × Byte) =>
    let x := (c.1 - base) / 64
    if base ≤ c.1 ∧ (c.1 - base) % 64 = 0 ∧ x < 2 ^ 20 ∧ c.2.toNat % 2 = 1 ∧ (s.ctxFind x).isNone = true then some x else none)
  let inCache := s.thr.cache.filterMap (fun r => if r.words.getD 0 0 % 2 = 1 then some r.flow else none)
  let l := (inMem ++ inCache).filter (fun x => decide (f ≤ x))
  if l.isEmpty then none else some (least l)

/-- The words of a flow's record, each in two halves. -/
def Hw.ctxWords (s : Hw) (mem : List Host.Cell) (f : Nat) : List Word :=
  let w := match s.ctxFind f with
    | some r => r.words
    | none => s.ctxRead mem f
  (w.map (fun x => [BitVec.ofNat 32 x, BitVec.ofNat 32 (x / 2 ^ 32)])).flatten

/-- The next record of a sweep. -/
def Hw.sweepNext (s : Hw) (mem : List Host.Cell) : Option (Hw × MirRec) :=
  match s.twn.sweep with
  | none => none
  | some (t, x, seg) =>
    if !s.twn.sweepBegun then some ({ s with twn := { s.twn with sweepBegun := true } }, { kind := 2 })
    else
      let mask := s.rd TWN_MIRROR_CFG.MIRROR_BLOCKS
      let n := sweepTables.length
      match (List.range n).find? (fun i => decide (t ≤ i) && bitN mask ((sweepTables.getD i (0, 0, 0, ⟨"", 0, 0, 0, .any, []⟩)).1) == 1) with
      | some i =>
        let e := sweepTables.getD i (0, 0, 0, ⟨"", 0, 0, 0, .any, []⟩)
        let r := e.2.2.2
        let x := if i = t then x else 0
        let seg := if i = t then seg else 0
        let data := (List.range (min 16 (r.words - 16 * seg))).map (fun w => s.tabWord (tabKey e.2.1 r.id x (16 * seg + w)))
        let next := if 16 * (seg + 1) < r.words then (i, x, seg + 1) else if x + 1 < r.entries then (i, x + 1, 0) else (i + 1, 0, 0)
        some ({ s with twn := { s.twn with sweep := some next } },
          { kind := 0, block := e.1, seg := seg, table := r.id, inst := e.2.2.1, index := x, data := data })
      | none =>
        let f := if t = n then x else 0
        match (if bitN mask 0 = 1 ∧ s.rd THR_CTX_BASE.CTX_EN = 1 then s.nextFlow mem f else none) with
        | some f => some ({ s with twn := { s.twn with sweep := some (n, f + 1, 0) } },
            { kind := 1, block := 0, table := 0xE3, index := f, data := s.ctxWords mem f })
        | none => some (({ s with twn := { s.twn with sweep := none } }).wr TWN_MIRROR_STATUS.SWEEP_BUSY 0, { kind := 3 })

/-- Once room has returned after a loss: LOST, and a sweep (R460). -/
def Hw.mirrorRecover (s : Hw) : Hw :=
  if s.twn.mirrorLost = true ∧ s.twn.mirror.length < 4096 then
    let s := { s with twn := { s.twn with mirrorLost := false } }
    (s.setMirror (s.twn.mirror ++ [{ kind := 4 }])).sweepStart
  else s

/-- A sweep may take the link now: within its share, or nothing else waits. -/
def Hw.sweepTurn (s : Hw) : Bool :=
  s.rd TWN_STATUS.PEER_STATE == STANDBY && (s.twn.data.isEmpty
    || decide (s.twn.sweepOctets * 100 ≤ s.rd TWN_MIRROR_CFG.SWEEP_PCT * s.twn.octets))

def TwinData.type : TwinData → Nat
  | .port _ => 0
  | .dsPort _ _ => 1
  | .usQueue _ _ => 2

/-- The next data frame, in round robin by type; UNTRUSTED ones are dropped on the way. -/
def Hw.twinDataTx (s : Hw) : Hw :=
  let bad := s.twn.data.filter (fun d => (TwinData.pkt d).tainted)
  let s := s.twnCount 15 bad.length
  let l := s.twn.data.filter (fun d => !(TwinData.pkt d).tainted)
  let s := { s with twn := { s.twn with data := l } }
  if l.isEmpty then s
  else
    let t := nextAfter ((l.map TwinData.type).eraseDups) s.twn.turn
    match l.find? (fun d => d.type == t) with
    | none => s
    | some d =>
      let s := { s with twn := { s.twn with data := l.erase d, turn := t + 1 } }
      match d with
      | .port p => s.twinFrame 0 0 p.bytes
      | .dsPort i p => s.twinFrame 1 (p.tc % 8 * 2 ^ 34 + p.color % 4 * 2 ^ 32 + i * 2 ^ 22) p.bytes
      | .usQueue q p => s.twinFrame 2 (p.tc % 8 * 2 ^ 34 + p.color % 4 * 2 ^ 32 + q * 2 ^ 14) p.bytes

/-- The transmitter picks the next frame (R452). -/
def Hw.twinTx (s : Hw) (mem : List Host.Cell) : Hw :=
  if !s.linkUp then s
  else match s.twn.slots with
    | (ds, c, bs) :: t => ({ s with twn := { s.twn with slots := t } }).twinFrame (if ds then 6 else 7) (c * 2 ^ 35) bs
    | [] => match s.twn.mbx with
      | .message ch m :: t =>
        ({ s with twn := { s.twn with mbx := t } }).twinFrame 4
          (ch * 2 ^ 29 + m.master % 256 * 2 ^ 21 + m.gen % 256 * 2 ^ 13 + m.mode % 8 * 2 ^ 10)
          ((m.words.map (fun (w : Word) => beBytes 4 w.toNat)).flatten)
      | .result ch st :: t => ({ s with twn := { s.twn with mbx := t } }).twinFrame 5 (ch * 2 ^ 29 + st * 2 ^ 27) []
      | [] =>
        let s := s.mirrorRecover
        match s.twn.mirror with
        | r :: t => (s.setMirror t).twinFrame 3 0 r.bytes
        | [] => match (if s.sweepTurn then s.sweepNext mem else none) with
          | some (s, r) =>
            let s := s.twinFrame 3 0 r.bytes
            { s with twn := { s.twn with sweepOctets := s.twn.sweepOctets + 80 } }
          | none => s.twinDataTx

/-- TWIN_FRAME_TX (R452). -/
def execTwinFrameTx (s : State) : Host.Outcome State Fault Refusal := s.onMem (fun mem s => s.twinTx mem)

/-! ## Redirection (R462, R463) -/

/-- Partly sent frames of queue `q`: channel and frame. -/
def Hw.fragsOf (s : Hw) (q : Nat) : Option (Nat × SentFrag) :=
  (List.range 4).findSome? (fun c => ((s.act c).frags.find? (fun f => f.q == q)).map (fun f => (c, f)))

/-- One packet of a mapped upstream queue goes to the twin. -/
def Hw.redirect (s : Hw) : Hw :=
  let parts := ((List.range 4).map (fun c => (s.act c).frags.map (fun f => f.q))).flatten
  let l := ((s.backlog false ++ parts).eraseDups).filter (fun q => s.t (QMAP.VALID q) == 1)
  if s.rd TWN_STATUS.REDIRECT = 0 ∨ l = [] then s
  else
    let q := nextAfter l s.twn.redirRr
    let peer := s.t (QMAP.QUEUE q)
    let go := fun (s : Hw) (k : Pkt) =>
      let s := s.twinPut (.usQueue peer { k with sent := 0 })
      { s with twn := { s.twn with redirRr := q + 1 } }
    match s.fragsOf q with
    | some (c, f) =>
      if s.twinRoom f.pkt.len then go (s.modAct c (fun a => { a with frags := a.frags.erase f })) f.pkt
      else s
    | none => match s.headPkt q with
      | some k => if s.twinRoom k.len then go (s.take q) k else s
      | none => s

/-- REDIRECT_SERVE (R462). -/
def execRedirectServe (s : State) : Host.Outcome State Fault Refusal := s.on (·.redirect)

/-- A covered channel has been in O5 for REVERT_HOLD ms. -/
def execRevertHoldExpire (s : State) : Host.Outcome State Fault Refusal :=
  s.on (fun s => s.onlyIf (s.rd TWN_CTRL.REVERT_EN = 1 ∧ s.coveredO5 = true) (fun s => s.setRedirect 0))

/-- CLEAR_REDIRECT (R463). -/
def execClearRedirect (m : Master) (v : Word) (s : State) : Host.Outcome State Fault Refusal :=
  s.on (fun s => s.onAccess m TWN_CTRL.A true (fun s =>
    (s.plainWrite TWN_CTRL.A v).onlyIf (s.coveredO5 = true) (fun s => s.setRedirect 0)))

end Sys2Proof.Machine
end

