-- ==== Sys2Proof/Machine/Reset.lean ====
section
/-!
DEFINITION. Resets: soft resets of domains (R64) with what each chapter keeps and clears, power-off and power-on of
domains (R471), resets of the whole terminal (R65, R388, R440, R542, R543, R547), and the PCIe link (R390, R391, R527).
-/
namespace Sys2Proof.Machine

/-! ## What a domain holds -/

/-- The domain of a gate; the gate of THR belongs to two (R557). -/
def gateDoms (g : Nat) : List Nat :=
  if g < 4 then [15 + g]
  else if 600 ≤ g then [3 + (g - 600) / 8]
  else if g = 590 then [12]
  else if 16 ≤ g then [if g - 16 < 512 then 19 + (g - 16) / 64 else 12]
  else match g with
    | 4 => [11]
    | 5 => [11, 12]
    | 6 => [14]
    | 7 => [13]
    | 8 => [12]
    | 9 => [27]
    | 10 => [31]
    | 11 => [2]
    | 12 => [30]
    | 13 => [28]
    | 14 => [2]
    | _ => []

/-- Registers that a reset of domain `d` keeps: the mailbox store, pending doorbells and locks (R405, R409). -/
def keptReg (d a : Nat) : Bool :=
  (d == 2 && (decide (MBX_RX_STATUS.A 0 ≤ a ∧ a < MBX_RX_STATUS.A 256) || decide (MBX_DB_PEND.A 0 ≤ a ∧ a < MBX_DB_PEND.A 32)
      || decide (HW_LOCK.A 0 ≤ a ∧ a < HW_LOCK.A 64)))

/-- The domains a captured copy goes with: its register's, or, of a copy a function keeps for itself, the function's: a
member's in DPD, a lane's in its SUB (R61). -/
def capDoms (k : Nat) : List Nat :=
  let a := k % 2 ^ 32
  if k < 2 ^ 32 then domsOf k
  else if a = SHF_JOIN_CFG.A then [11]
  else [19 + (k / 2 ^ 32 - 1) / 8]

/-- The registers, captured configuration and running gate commands of domain `d` are gone. -/
def Hw.clearRegs (s : Hw) (d : Nat) : Hw :=
  { s with
    regs := s.regs.drop (fun a => (domsOf a).contains d && !keptReg d a)
    cap := s.cap.drop (fun k => (capDoms k).contains d)
    gates := s.gates.drop (fun g => (gateDoms g).contains d) }

/-- Flow contexts: dirty words go back to memory and the cache is emptied (R237). -/
def Hw.ctxFlush (s : Hw) : Hw := (s.forAll s.thr.cache (fun s r => s.ctxWriteBack r)).setCache []

/-- Learned bridging entries are removed (R237). -/
def Hw.bridgeForget (s : Hw) : Hw :=
  s.forAll ((s.listed 5 14).filter (fun x => s.t (BRIDGE.STATIC x) == 0)) (fun s x => s.setTabWords (BRIDGE.E x) 4 0)

/-- The classifier's part of a reset of pipeline `pipe`: what it held is discarded. -/
def Hw.pipeClear (s : Hw) (pipe : Nat) : Hw :=
  let s := s.bridgeForget
  let s := { s with thr := { s.thr with
    fifos := s.thr.fifos.drop (fun k => k / 1024 == pipe)
    rr := s.thr.rr.drop (fun k => k == pipe)
    parked := s.thr.parked.filter (fun w => w.pipe != pipe)
    held := s.thr.held.filter (fun w => w.pipe != pipe)
    ctxCmd := none } }
  s

/-! ## Domain by domain -/

/-- TRK `c` before its registers go: a burst in progress is cut off, frames partly sent are lost. -/
def Hw.trkLeaves (s : Hw) (c : Nat) : Hw := (s.cutBurst c).sentFragsDiscard c

/-- TRK `c` afterwards: pin levels stay, the module is judged anew (R85), and what hung on the channel follows. -/
def Hw.trkCleared (s : Hw) (c : Nat) : Hw :=
  let o := s.opt c
  let s := s.modOpt c (fun _ => { losPin := o.losPin, ampMv := o.ampMv })
  let s := (s.modDln c (fun _ => {})).modAct c (fun _ => {})
  let s := s.memberUpdate c
  let s := s.onlyIf (s.rd TIM_CTRL.SRC_EN = 1 ∧ s.rd TIM_CTRL.SRC_CH = c) (fun s => s.clockHoldover.timSource)
  s.slotDefects

/-- DPD: pipeline A and Sheaf; every member is IDLE without a marker sent (R171). -/
def Hw.dpdCleared (s : Hw) : Hw :=
  let s := { (s.pipeClear 0) with shf := {} }
  (s.forAll (List.range 16) (fun s g => s.mapRecompute g)).poolUpdate 512

/-- DPU: pipeline B, the Tiller's lists (R386), MDIO. -/
def Hw.dpuCleared (s : Hw) : Hw :=
  let s := s.pipeClear 1
  let lost := s.til.ready ++ s.til.delay.map Delayed.task
  let s := { s with
    til := { s.til with ready := [], delay := [], gleanSeq := [], tickAt := [], tickPer := [], stepped := [], gleanCnt := [] }
    thr := { s.thr with spreads := [] }
    sub := { s.sub with mdio := [] } }
  s.forAll lost (fun s t => s.taskNoEngine t)

/-- GRN: every queue is emptied and its table's average kept (R264), with the cells go the frames of tasks and of
reordering, and a retired channel stays retired (R258). -/
def Hw.grnCleared (s : Hw) : Hw :=
  let noPkt := fun (t : Task) => { t with pkt := none }
  let s := { s with
    grn := { dram := s.grn.dram, queues := (s.grn.queues.map (fun (e : Nat × Queue) => (e.1, ({ avg := e.2.avg } : Queue)))).filter (fun e => e.2 != ({} : Queue)) }
    tms := { s.tms with rounds := [], deficit := [] }
    shf := { s.shf with groups := s.shf.groups.map (fun (e : Nat × Group) => (e.1, { e.2 with held := [] })) }
    sub := { s.sub with ports := s.sub.ports.map (fun (e : Nat × Port) => (e.1, { e.2 with flush := [] })) }
    thr := { s.thr with held := s.thr.held.map (fun (w : Waiting) => { w with task := noPkt w.task }) }
    til := { s.til with
      ready := s.til.ready.map noPkt, delay := s.til.delay.map (fun (x : Delayed) => { x with task := noPkt x.task })
      engs := s.til.engs.map (fun (e : Nat × Eng) => (e.1, { e.2 with
        run := e.2.run.map noPkt, pre := e.2.pre.map (fun (p : Task × Nat) => (noPkt p.1, p.2)) })) } }
  s.forAll s.pfcPorts (fun s p => s.pfcPort p)

/-- TM: every credit and DEFICIT is 0, staging in progress is discarded: bursts not yet launched go, a launched one is
filled no further; packets stay (spec/10). -/
def Hw.tmCleared (s : Hw) : Hw :=
  let s := { s with tms := { s.tms with
    deficit := [], last := [], portRr := 0, arrived := []
    rounds := s.tms.rounds.map (fun (e : Nat × Round) => (e.1, { e.2 with fed := [] })) } }
  let zero : Bucket := { last := s.tmClk }
  let s := s.forAll (s.tms.buckets.map Prod.fst) (fun s k => s.setBucket k zero)
  let s := s.forAll [4, 5, 6, 8, 9, 10] (fun s t => s.forAll (s.listed 7 t) (fun s x =>
    let s := s.setBucket (bucketKey t x true) zero
    s.onlyIf (isDual t = true) (fun s => s.setBucket (bucketKey t x false) zero)))
  s.forAll (List.range 4) (fun s c => s.modAct c (fun a => { a with
    bursts := (a.bursts.filter (fun b => b.launched || !b.staged)).map (fun b => { b with cur := b.grants.length * b2n b.launched }) }))

/-- ENG `k`: the tasks its engines run are over, those queued for one engine alone are redirected. -/
def Hw.engCleared (s : Hw) (k : Nat) : Hw :=
  s.forAll (List.range 8) (fun s j =>
    let e := 8 * k + j
    let x := s.eng e
    let s := s.modEng e (fun _ => {})
    let s := s.forAll (x.run.toList ++ (x.pre.map Prod.fst).toList) (fun s t => s.taskOver t)
    s.engineStopping e)

/-- SUB `i`: lanes and ports; the mask of R261 is the Granary's and is asserted again. -/
def Hw.subCleared (s : Hw) (i : Nat) : Hw :=
  let mine := fun (m : Mdio) => { m with writes := m.writes.filter (fun w => decide (64 ≤ w) || w / 8 != i) }
  let s := { s with sub := {
    ports := s.sub.ports.drop (fun p => p / 64 == i)
    lanes := s.sub.lanes.drop (fun l => l / 8 == i)
    mdio := s.sub.mdio.map (fun (e : Nat × Mdio) => (e.1, mine e.2)) } }
  s.forAll (s.pfcPorts.filter (fun p => p / 64 == i)) (fun s p => s.wr (SUB_PORT_STATUS.PFC_TX_XOFF p) (s.xoffMask p))

/-- CTL: rings, console and staged messages; the current bins and the alarm log (R511, R519). -/
def Hw.ctlCleared (s : Hw) : Hw :=
  { s with
    ctl := { s.ctl with kick := s.clk, haltNs := 0, dma := 0, rings := [], stage := [], uartTx := [], uartRx := [], uartWait := [] }
    pm := {}
    tabs := s.tabs.drop (fun k => k / 64 / 1048576 == 14 * 32 + 5) }

/-- The host's rings go to OFF, and the endpoint's MSI-X table is as after reset (R389, R390). -/
def Hw.hostRingsOff (s : Hw) : Hw :=
  let l := s.liveFns.filterMap (fun f => match f with
    | .ring d r => if s.ringInHost d r then some (d, r) else none
    | _ => none)
  let s := s.forAll l (fun s x =>
    let f : Fn := .ring x.1 x.2
    let s := ((s.wr f.ENABLE 0).wr f.STATE 0).wr f.RP 0
    s.modRing x.1 x.2 (fun _ => {}))
  { s with ctl := { s.ctl with link := false, msix := [], msixPend := [] } }

/-- The role bits of TWN_STATUS, which sit in AON (spec/17). -/
abbrev roleBits : Word := BitVec.ofNat 32 (0xFC0 + 2 ^ 25 + 2 ^ 26)

/-- TWN: what the link held; the role machine stays. -/
def Hw.twnCleared (s : Hw) (status : Word) : Hw :=
  let t := s.twn
  let s := { s with twn := { handover := t.handover, windowOver := t.windowOver, drained := t.drained } }
  (s.setWord TWN_STATUS.A (status &&& roleBits)).holdAll

/-- Frames whose integrity check had not ended are not to be trusted. -/
def Hw.cipCleared (s : Hw) : Hw :=
  let s := { s with cip := { s.cip with cve := none, icvDue := [], zeroising := false } }
  s.eachPkt (fun p => { p with untrusted := p.untrusted || p.icv.isSome, icv := none })

/-- SLT: containers of the twin's that have not been sent never will be (R457). -/
def Hw.sltCleared (s : Hw) : Hw :=
  let n := ((List.range 4).filter (fun c => (s.slotCh c).twinUs.isSome)).length
  { s.count (TWN_CNT.COUNT 13) n with slt := {} }

/-- TIM: its queues; the frequency memory and the DPLL's having locked count since PORN and stay (R340, R346); slots are
not valid any more (R358). -/
def Hw.timCleared (s : Hw) : Hw :=
  let s := { s with tim := { freqMem := s.tim.freqMem, dpllLocked := s.tim.dpllLocked } }
  let s := (s.wr TIM_STATUS.FREQ_MEM_VALID (b2n s.tim.freqMem.isSome)).wr TIM_STATUS.DPLL_STATE (2 * b2n s.tim.dpllLocked)
  s.forAll (s.listed 10 1) (fun s x => s.ts (SLOT.VALID x) 0)

/-- Channels that were RETIRED are so still (R258). -/
def Hw.stayRetired (s : Hw) (l : List (Bool × Nat)) : Hw :=
  s.forAll (List.range 4) (fun s r =>
    let x := l.getD r (false, 0)
    s.onlyIf (x.1 = true) (fun s => (s.wr (GRN_DRAM_CH_STATUS.CH_STATE r) 3).wr (GRN_DRAM_CH_STATUS.FAILED r) x.2))

/-- The channel and ports of domain `d` that are in service leave it: their bins are suspect (R511). -/
def Hw.domainLeaves (s : Hw) (d : Nat) : Hw :=
  if 15 ≤ d ∧ d < 19 then s.onlyIf (s.trkOn (d - 15) = true) (fun s => s.note (d - 15) 24)
  else if 19 ≤ d ∧ d < 27 then
    s.forAll (((List.range 64).map (64 * (d - 19) + ·)).filter (fun p => s.portState p == 2)) (fun s p => s.note (1028 + p) 24)
  else s

/-- Domain `d` loses what it holds, by a soft reset or at power-off (R60, R64). -/
def Hw.clearDomain (s : Hw) (d : Nat) : Hw :=
  let trk := decide (15 ≤ d ∧ d < 19)
  let c := d - 15
  let s := s.domainLeaves d
  let s := s.onlyIf (trk = true) (fun s => s.trkLeaves c)
  let s := s.onlyIf (d = 28) (·.linkLost)
  let s := s.onlyIf (d = 31) (·.timStops)
  let s := s.onlyIf (d = 11 ∨ d = 12) (·.ctxFlush)
  let s := s.onlyIf (d = 29) (·.hostRingsOff)
  let status := s.word TWN_STATUS.A
  let retired := (List.range 4).map (fun r => (s.chState r == 3, s.rd (GRN_DRAM_CH_STATUS.FAILED r)))
  let s := s.clearRegs d
  if trk then s.trkCleared c
  else if 3 ≤ d ∧ d < 11 then s.engCleared (d - 3)
  else if 19 ≤ d ∧ d < 27 then s.subCleared (d - 19)
  else match d with
    | 2 => s.ctlCleared
    | 11 => s.dpdCleared
    | 12 => s.dpuCleared
    | 13 => s.tmCleared
    | 14 => (s.stayRetired retired).grnCleared
    | 27 => s.sltCleared
    | 28 => s.twnCleared status
    | 30 => s.cipCleared
    | 31 => s.timCleared
    | _ => s

/-- Masters and receivers of domain `d` are gone: messages and locks (R404, R409). -/
def Hw.partiesDown (s : Hw) (d : Nat) : Hw := (s.mbxDomainDown d).locksDomainDown d

/-! ## Soft reset (R64) -/

/-- GEM frames staged in bursts that a reset of TM discards. -/
def Hw.stagedFrames (s : Hw) : Nat :=
  let gems := fun (l : List BurstItem) => (l.filter (fun i => match i with
    | .gem .. => true
    | _ => false)).length
  sumBy (fun c => sumBy (fun (b : Burst) => if b.staged && !b.launched then sumBy (fun (g : Grant) => gems g.items) b.grants else 0)
    (s.act c).bursts) (List.range 4)

/-- Tasks of the Tiller, in lists and on engines, that hold a packet. -/
def Hw.taskPkts (s : Hw) : Nat :=
  ((s.til.ready ++ s.til.delay.map Delayed.task ++ s.til.engs.flatMap (fun e => e.2.run.toList ++ (e.2.pre.map Prod.fst).toList)).filter
    (fun t => t.pkt.isSome)).length

/-- Packets, messages and descriptors held in domain `d` (R64). Mailbox messages have a counter of their own (R404). -/
def Hw.heldIn (s : Hw) (d : Nat) : Nat :=
  let pipe := fun (i : Nat) =>
    sumBy (fun (e : Nat × List Pkt) => if e.1 / 1024 = i then e.2.length else 0) s.thr.fifos
      + (s.thr.parked.filter (fun w => w.pipe == i)).length + (s.thr.held.filter (fun w => w.pipe == i)).length
  if 15 ≤ d ∧ d < 19 then 
    s.rd (TRK_PLOAM_RX.LEVEL (d - 15)) + (s.act (d - 15)).ploamTx.length + (s.act (d - 15)).frags.length
      + b2n (s.dln (d - 15)).frag.isSome
  else match d with
    | 11 => pipe 0 + sumBy (fun (e : Nat × List Bonded) => e.2.length) s.shf.inbox
        + sumBy (fun (e : Nat × Group) => e.2.held.length) s.shf.groups
    | 12 => pipe 1 + s.til.ready.length + s.til.delay.length
        + sumBy (fun (e : Nat × SpreadRun) => sumBy (fun (x : SpreadNum) => x.pkts.length) e.2.out) s.thr.spreads
    | 13 => s.stagedFrames
    | 14 => sumBy (fun (e : Nat × Queue) => e.2.pkts.length) s.grn.queues + s.taskPkts
        + sumBy (fun (e : Nat × Group) => e.2.held.length) s.shf.groups
    | 27 => sumBy (fun (e : Nat × List Bytes) => e.2.length) s.slt.inbox
    | 28 => s.twn.data.length
    | _ => if 19 ≤ d ∧ d < 27 then
        sumBy (fun (e : Nat × Port) => if e.1 / 64 = d - 19 then e.2.slotq.length else 0) s.sub.ports
      else 0

/-- A soft reset of domain `d` begins; what it discards is counted. -/
def Hw.softReset (s : Hw) (d : Nat) : Hw :=
  if d < 2 ∨ 31 < d ∨ s.cond d = 2 then s
  else
    let lost := s.resetLost.get 0 d + s.heldIn d
    let s := { (s.onlyIf (d = 31) (·.timStops)) with resetLost := s.resetLost.set 0 d lost }
    (((s.wr ⟨GLB_SOFT_RESET.A, d, 1⟩ 1).clearDomain d).nextGen d).partiesDown d

/-! ## Power-off of a domain (R471) -/

/-- Domain `d` is turned off: nothing of it is kept. -/
def Hw.domainOff (s : Hw) (d : Nat) : Hw :=
  let was := s.cond d
  let s := if was = 1 then s.setCond d 2 else (s.clearDomain d).setCond d 2
  let s := s.onlyIf (was = 1) (fun s => s.clearDomain d)
  let s := { s with tabs := s.tabs.drop (fun k => (gateDoms (k / 64 / 1048576 / 32)).contains d) }
  let s := { s with pwr := { s.pwr with woken := s.pwr.woken.erase d } }
  s.partiesDown d

/-- Every domain asked off whose functions are all OFF is turned off. -/
def Hw.offAll (s : Hw) : Hw := s.forAll s.offDue (fun s d => s.domainOff d)

/-! ## The commands of R64 and R471 -/

/-- DOMAIN_SOFT_RESET (R64). -/
def execDomainSoftReset (m : Master) (v : Word) (s : State) : Host.Outcome State Fault Refusal :=
  s.on (fun s => s.onAccess m GLB_SOFT_RESET.A true (fun s =>
    (s.forAll ((List.range 32).filter (fun d => decide (2 ≤ d) && bitN v.toNat d == 1)) (fun s d => s.softReset d)).offAll))

/-- SOFT_RESET_COMPLETE (R64). -/
def execSoftResetComplete (d : Fin 32) (s : State) : Host.Outcome State Fault Refusal := s.on (·.endReset d)

/-- Domain `d` is turned on. -/
def Hw.domainOn (s : Hw) (d : Nat) : Hw := if s.cond d = 2 then ((s.setCond d 0).nextGen d).domainBegins d else s

/-- A write of PWR_DOM_OFF. -/
def Hw.domOffWrite (s : Hw) (v : Word) : Hw :=
  let s := (s.fullWrite PWR_DOM_OFF.A v).offAll
  let w := (s.word PWR_DOM_OFF.A).toNat
  s.forAll ((List.range 32).filter (fun d => s.cond d == 2 && bitN w d == 0)) (fun s d => s.domainOn d)

/-- DOM_OFF_WRITE (R471). -/
def execDomOffWrite (m : Master) (v : Word) (s : State) : Host.Outcome State Fault Refusal :=
  s.on (fun s => s.onAccess m PWR_DOM_OFF.A true (·.domOffWrite v))

/-- STOP_FLUSH_COMPLETE: stop and flushes of a function are over; a domain that waited for it is turned off. -/
def execStopFlushComplete (f : Fn) (s : State) : Host.Outcome State Fault Refusal :=
  s.on (fun s => s.onlyIf (s.st f = 3 ∧ s.fnFlushed f = true) (fun s => (s.fnOff f).holdAll.offAll))

/-! ## Resets of the whole terminal -/

/-- Bits of TWN_STATUS that outlast a reset other than PORN: ROLE, ACT_IN, ROLE_CONFLICT and WIRE_FAULT. -/
abbrev roleKept : Word := BitVec.ofNat 32 (2 ^ 9 + 2 ^ 10 + 2 ^ 25 + 2 ^ 26)

/-- SPI_RESET_N is high from its first rise on (R528). -/
def Hw.spiRelease (s : Hw) : Hw :=
  match s.pins.spi with
  | .low _ => ({ s with pins := { s.pins with spi := .high } }).emit (.spiReset (some true))
  | _ => s

/-- While Husk is in reset the pin floats. -/
def Hw.spiFloat (s : Hw) : Hw :=
  if s.pins.spi = .hiz then s else ({ s with pins := { s.pins with spi := .hiz } }).emit (.spiReset none)

/-- What every domain but AON holds is lost; the registers whose address satisfies `keep` stay. The role machine is in
STANDBY (R440). -/
def Hw.blank (s : Hw) (keep : Nat → Bool) (twin : Word) : Hw :=
  let s := s.forAll (List.range 4) (fun s c =>
    s.onlyIf ((s.act c).bursts.any (fun b => b.launched) = true) (fun s => s.emit (.burstCut c)))
  let s := s.timToAon
  let pins := (List.range 4).map (fun c => ((s.opt c).losPin, (s.opt c).ampMv))
  let role := b2n s.paired
  let status := s.word TWN_STATUS.A &&& twin
  let s : Hw := { s with
    regs := s.regs.filter (fun p => keep p.1), tabs := [], cap := [], latch := [], gates := []
    trk := {}, shf := {}, grn := {}, tms := {}, thr := {}, sub := {}, slt := {}, tim := {}, til := {}, ctl := {}
    cip := {}, twn := {}, pm := {}, clean := []
    hsk := { fuses := s.hsk.fuses, phase := .held, start := s.clk } }
  let s := s.wdogRestart
  let s := s.forAll (List.range 4) (fun s c =>
    let p := pins.getD c (false, 0)
    s.modOpt c (fun o => { o with losPin := p.1, ampMv := p.2 }))
  let s := (s.setWord TWN_STATUS.A status).wr TWN_STATUS.ROLE_STATE role
  s.setWord GLB_SOFT_RESET.A (if s.pins.perst then 0#32 else BitVec.ofNat 32 (2 ^ 29))

/-- Registers held in AON: the GLB and PWR windows and Husk's trial registers (R495). -/
def inAon (a : Nat) : Bool := decide (a < 0x200000) || a == HSK_BOOT_CTRL.A || a == HSK_CONF_GEN.A || a == HSK_TRIAL_GEN.A

/-- Characters on the console (R496, R498). -/
def Hw.consolePrint (s : Hw) (text : String) : Hw := s.forAll text.toList (fun s c => s.emit (.uart (BitVec.ofNat 8 c.toNat)))

/-- Husk waits for a recovery image: the prompt is printed, and the `C` with which an XMODEM receiver asks for blocks with
CRC-16 (R498; log entry 44). -/
def Hw.recoveryPrompt (s : Hw) : Hw :=
  ((s.modHsk (fun h => { h with xmodem := [], load := none })).consolePrint "JN-4512 RECOVERY").emit (.uart 0x43#8)

/-- After a reset the local clock starts from AON's time, if TIM runs (R65, R336). -/
def Hw.timRestart (s : Hw) : Hw := if s.timRuns then s.timStart else s

/-- Husk starts the boot ROM on the path BOOT_SEL selects, with the flash's reset driven low for 10 µs (R487, R528); with
TEST_MODE it does not (R63). -/
def Hw.bootStart (s : Hw) : Hw :=
  let s := (s.showFuses.modHsk (fun h => { h with phase := .boot, start := s.clk })).wr HSK_BOOT_INFO.PATH (s.rd GLB_STRAP.BOOT_SEL)
  let s := s.timRestart
  let s := if s.rd GLB_STRAP.TEST_MODE = 1 then s
    else ({ s with pins := { s.pins with spi := .low (s.clk + 10000) } }).emit (.spiReset (some false))
  if s.rd GLB_STRAP.BOOT_SEL = 3 ∧ s.rd GLB_STRAP.TEST_MODE = 0 then s.recoveryPrompt else s

/-- A reset of all but AON (R65). -/
def Hw.aonKeptReset (s : Hw) : Hw := (s.blank inAon roleKept).spiFloat

/-- A reset as GLB_CHIP_RESET, the watchdog or Husk orders it, with its cause; during a thermal trip the trip governs
(R554). -/
def Hw.chipReset (s : Hw) (cause : FRef) : Hw :=
  if s.pwr.trip then s else ((s.aonKeptReset).wr cause 1).bootStart

/-- CHIP_RESET (R65). -/
def execChipReset (m : Master) (v : Word) (s : State) : Host.Outcome State Fault Refusal :=
  s.on (fun s => s.onAccess m GLB_CHIP_RESET.A true (fun s =>
    if v = 0x4512#32 then (s.chipReset GLB_RESET_CAUSE.CHIP).wr GLB_RESET_CAUSE.MASTER m.id else s))

/-- The watchdog's TIMEOUT ends (R388). -/
def execWdogExpire (s : State) (halted : Nat := 0) : Host.Outcome State Fault Refusal :=
  s.on (fun s =>
    let s := s.wdogHalted halted
    s.onlyIf (s.wdogPast 100 = true ∧ s.cond 2 = 0 ∧ s.inReset 2 = false) (fun s => s.chipReset GLB_RESET_CAUSE.WATCHDOG))

/-- The effective PORN (R542). -/
def Hw.effPorn (s : Hw) : Bool := s.pins.porn && s.pins.vin

/-- The effective PORN rises: straps are captured and Husk starts (R63, R440); with TEST_MODE it does not. -/
def Hw.pornEdge (s : Hw) (straps : Nat) : Hw :=
  let s := (s.setWord GLB_STRAP.A (BitVec.ofNat 32 straps)).wr GLB_RESET_CAUSE.PORN 1
  let s := (s.wr TWN_STATUS.ROLE (s.rd GLB_STRAP.TWIN_ROLE)).wr TWN_STATUS.ROLE_STATE (s.rd GLB_STRAP.TWIN_EN)
  s.bootStart

/-- PORN is low: everything is reset but what AON keeps of R543. -/
def Hw.pornReset (s : Hw) : Hw :=
  let cause := s.word GLB_RESET_CAUSE.A
  let safety := s.word PWR_SAFETY_CNT.A
  let gpio := s.rd GLB_GPIO_IN.IN
  let strap := s.word GLB_STRAP.A
  let s := s.blank (fun a => a == HSK_BOOT_CTRL.A || a == HSK_CONF_GEN.A || a == HSK_TRIAL_GEN.A) (BitVec.ofNat 32 (2 ^ 9 + 2 ^ 10))
  let s := { s.spiFloat with pwr := {}, aon := { s.aon with writes := [], arrived := [] } }
  let s := (s.setWord GLB_RESET_CAUSE.A cause).setWord PWR_SAFETY_CNT.A safety
  (s.wr GLB_GPIO_IN.IN gpio).setWord GLB_STRAP.A strap

/-- Nothing that AON keeps is left (R543). -/
def Hw.aonLost (s : Hw) : Hw :=
  let gpio := s.rd GLB_GPIO_IN.IN
  let s := { s with regs := s.regs.filter (fun p => !inAon p.1), aon := {}, pwr := {} }
  (s.setWord GLB_RESET_CAUSE.A 0#32).wr GLB_GPIO_IN.IN gpio

/-- PORN_ASSERT (R547). -/
def execPornAssert (s : State) : Host.Outcome State Fault Refusal :=
  s.on (fun s => { (s.onlyIf (s.effPorn = true) (·.pornReset)) with pins := { s.pins with porn := false } })

/-- PORN_RELEASE (R63). -/
def execPornRelease (straps : Fin 64) (s : State) : Host.Outcome State Fault Refusal :=
  s.on (fun s => if s.pins.porn then s
    else
      let s := { s with pins := { s.pins with porn := true } }
      if s.effPorn then s.pornEdge straps else s)

/-- VIN has been too low for 10 µs. -/
def Hw.uvlo (s : Hw) : Hw :=
  if !s.pins.vin then s
  else
    let s := if s.effPorn then s.aonKeptReset else s
    let s := { s with pins := { s.pins with vin := false }, pwr := { s.pwr with trip := false } }
    if s.pins.vkeep then s else s.aonLost

/-- VIN_UVLO_FALL (R542). -/
def execVinUvloFall (s : State) : Host.Outcome State Fault Refusal := s.on (·.uvlo)

/-- VIN_GOOD (R542). -/
def execVinGood (straps : Fin 64) (s : State) : Host.Outcome State Fault Refusal :=
  s.on (fun s => if s.pins.vin then s
    else
      let s := { s with pins := { s.pins with vin := true } }
      if s.effPorn then s.pornEdge straps else s)

/-- VKEEP_LOSS (R543). -/
def execVkeepLoss (s : State) : Host.Outcome State Fault Refusal :=
  s.on (fun s =>
    let s := { s with pins := { s.pins with vkeep := false } }
    if s.pins.vin then s else s.aonLost)

/-- VKEEP_RETURN (R543). -/
def execVkeepReturn (s : State) : Host.Outcome State Fault Refusal :=
  s.on (fun s => { s with pins := { s.pins with vkeep := true } })

/-! ## PCIe (R390, R391, R527) -/

/-- A function-level or hot reset. -/
def execPcieFunctionReset (s : State) : Host.Outcome State Fault Refusal := s.on (fun s => (s.softReset 29).offAll)

/-- PERST_ASSERT (R527). -/
def execPerstAssert (s : State) : Host.Outcome State Fault Refusal :=
  s.on (fun s => { ((s.softReset 29).offAll) with pins := { s.pins with perst := false } })

/-- PERST_RELEASE (R527). -/
def execPerstRelease (s : State) : Host.Outcome State Fault Refusal :=
  s.on (fun s => ({ s with pins := { s.pins with perst := true } }).endReset 29)

/-- PCIE_LINK_UP (R391). -/
def execPcieLinkUp (s : State) : Host.Outcome State Fault Refusal :=
  s.on (fun s => s.onlyIf (s.cond 29 = 0 ∧ s.inReset 29 = false ∧ s.pins.perst = true ∧ s.rd GLB_CLK_STATUS.PCIE_OK = 1)
    (fun s => { s with ctl := { s.ctl with link := true } }))

/-- PCIE_LINK_DOWN (R390). -/
def execPcieLinkDown (s : State) : Host.Outcome State Fault Refusal :=
  s.on (fun s => { s with ctl := { s.ctl with link := false } })

end Sys2Proof.Machine
end

