-- ==== Sys2Proof/Machine/Power.lean ====
section
/-!
DEFINITION. The power controller (spec/18): changes of state domain by domain (R473-R480), wake sources, accesses that wake
a domain (R481), the voltage loop (R483), temperature and the thermal trip (R484), energy detection (R311).
-/
namespace Sys2Proof.Machine

def Hw.pwrRaise (s : Hw) (bit : Nat) : Hw := s.raise 0x100000 bit
def Hw.modPwr (s : Hw) (f : PwrSt → PwrSt) : Hw := { s with pwr := f s.pwr }
/-- The state in force: 0 Run, 1 Trim, 2 Watch, 3 Rest. -/
abbrev Hw.powerState (s : Hw) : Nat := s.rd PWR_STATE_STATUS.CUR_STATE
/-- Domain `d` is in the mask of Trim (R473). -/
def Hw.trimmed (s : Hw) (d : Nat) : Bool := bitN (s.word PWR_TRIM_MASK.A).toNat d == 1

/-- The stop order of R475, to the end of the Watch order. -/
def watchOrder : List Nat :=
  [19, 20, 21, 22, 23, 24, 25, 26, 29, 28, 27, 3, 4, 5, 6, 7, 8, 9, 10, 12, 11, 13, 14, 30, 15, 16, 17, 18]
/-- The whole stop order. -/
def stopOrder : List Nat := watchOrder ++ [31, 2, 1]

/-- Domain `d` is a trunk channel's. -/
def isTrk (d : Nat) : Bool := decide (15 ≤ d ∧ d < 19)

/-- The channel of TRK domain `d` may watch in state `target`: any in Watch, REST_CH's in Rest (R476). -/
def Hw.mayWatch (s : Hw) (target d : Nat) : Bool :=
  isTrk d && (target == 2 || (target == 3 && s.aonRd PWR_REST_CFG.REST_CH == d - 15))

/-- It is asked to sleep for state `target` (R475); with REST_CH_EN = 0 none is for Rest (log entry 203). -/
def Hw.watches (s : Hw) (target d : Nat) : Bool :=
  s.mayWatch target d && (target == 2 || s.aonRd PWR_REST_CFG.REST_CH_EN == 1)

/-- The channel of TRK domain `d` is OFF; it is in WATCH. -/
def Hw.trkIsOff (s : Hw) (d : Nat) : Bool := s.rd (TRK_PMA_STATUS.STATE (d - 15)) == 0
/-- The channel of TRK domain `d` is in WATCH (R153). -/
def Hw.trkWatching (s : Hw) (d : Nat) : Bool := s.rd (TRK_ACT_STATUS.PM_STATE (d - 15)) == 3

/-- Domain `d` need not be stopped for `target`: it is OFF or already in the target condition. -/
def Hw.stopSkips (s : Hw) (target d : Nat) : Bool :=
  s.cond d == 2 || s.cond d == 1 || (s.mayWatch target d && !s.trkIsOff d && s.trkWatching d)

/-! ## Agreement and refusal (R476) -/

/-- A doorbell or message that would wake domain `d` is pending. -/
def Hw.wakePending (s : Hw) (d : Nat) : Bool :=
  s.ctl.mbx.any (fun e => !e.2.msgs.isEmpty && s.t (MBX_CFG.WAKE e.1) == 1 && s.t (MBX_CFG.RX_DOM e.1) == d)
    || (List.range 1024).any (fun n => s.rd ⟨MBX_DB_PEND.A (n / 32), n % 32, 1⟩ == 1 && s.t (DB_CFG.WAKE n) == 1
        && s.t (DB_CFG.TGT_DOM n) == d)

/-- The reason for which domain `d` refuses at once to stop for `target`. -/
def Hw.refusal (s : Hw) (target d : Nat) : Option Nat :=
  if bitN (s.aonWord PWR_KEEP_MASK.A).toNat d = 1 then some 2
  else if s.wakePending d then some 7
  else if d = 28 ∧ 2 ≤ s.role then some 6
  else if isTrk d = true ∧ 2 ≤ target ∧ s.trkIsOff d = false then
    if !s.mayWatch target d then some 4
    else if s.trkWatching d = false ∧ s.rd (TRK_ACT_CTRL.WS_ALLOWED (d - 15)) = 0 then some 3
    else none
  else none

/-- Pipelines and Tiller hold nothing. -/
def Hw.pipesEmpty (s : Hw) : Bool :=
  s.thr.fifos.all (fun e => e.2.isEmpty) && s.thr.parked.isEmpty && s.rd THR_EPOCH_STATUS.SWAP_COMPLETE == 1
    && s.til.ready.isEmpty && s.til.delay.isEmpty

/-- Domain `d` agrees to stop for `target`, as far as the state shows it: that the control cores are idle is what the
command says. -/
def Hw.agrees (s : Hw) (target d : Nat) : Bool :=
  if isTrk d then s.trkIsOff d || (s.mayWatch target d && s.trkWatching d)
  else if (3 ≤ d ∧ d < 11) ∨ (19 ≤ d ∧ d < 27) ∨ d = 27 ∨ d = 28 ∨ d = 29 then s.domIdle d
  else match d with
    | 11 => s.pipesEmpty
    | 12 => s.pipesEmpty
    | 13 => (List.range 4).all (fun c => (s.act c).bursts.all (fun b => b.launched || !b.staged))
    | 14 => s.grn.flush.isNone && (List.range 4).all (fun r => s.chState r == 0 || s.chState r == 3)
    | 30 => s.cip.cve.isNone
    | 1 => s.hsk.cmd.isNone
    | _ => true

/-! ## The course of a change -/

/-- Domain `d` falls asleep: TIM hands the time to AON, the Granary has every DRAM channel in self-refresh first (R475). -/
def Hw.domainSleeps (s : Hw) (d : Nat) : Hw :=
  let s := s.onlyIf (d = 31) (·.timStops)
  (s.onlyIf (d = 14) (fun s => { s with grn := { s.grn with selfRefresh := true } })).setCond d 1

/-- Domain `d` lets go of its functions and runs (R475, R477, R480); a channel that sleeps for a request is woken. -/
def Hw.domainRestart (s : Hw) (d : Nat) : Hw :=
  let was := s.cond d
  let asleep := s.pwr.watched.contains d
  let s := s.modPwr (fun p => { p with held := p.held.erase d, woken := p.woken.erase d, watched := p.watched.erase d })
  let s := s.onlyIf (was = 1) (fun s => (s.setCond d 0).domainBegins d)
  let s := s.onlyIf (3 ≤ d ∧ d < 11 ∧ (List.range 8).any (fun j => s.engOn (8 * (d - 3) + j)) = true)
    (fun s => s.wr (TIL_CL_STATUS.DRAINING (d - 3)) 0)
  s.holdAll.onlyIf (asleep = true) (fun s => s.pmWake (d - 15))

/-- The change is over. -/
def Hw.changeEnds (s : Hw) : Hw :=
  (s.modPwr (fun p => { p with stopped := [], refusal := none })).wr PWR_STATE_STATUS.BUSY 0

/-- What there is to stop and to restart among the domains `l` under Trim's mask. -/
def Hw.trimLists (s : Hw) (l : List Nat) : List Nat × List Nat :=
  (watchOrder.filter (fun d => l.contains d && s.trimmed d && s.cond d == 0),
    watchOrder.reverse.filter (fun d => l.contains d && !s.trimmed d
      && (s.cond d == 1 || s.pwr.held.contains d || s.pwr.watched.contains d)))

/-- A change toward `target` begins, with what it stops and what it restarts. -/
def Hw.changeArm (s : Hw) (target : Nat) (lists : List Nat × List Nat) : Hw :=
  (s.modPwr (fun p => { p with
    target := target, todo := lists.1, restart := lists.2, stopped := [], refusal := none
    restWatch := target == 3 && s.trkWatching (15 + s.aonRd PWR_REST_CFG.REST_CH) })).wr PWR_STATE_STATUS.BUSY 1

/-- Nothing is left to stop or restart: the state is reached, or the abort is complete. -/
def Hw.changeDone (s : Hw) : Hw :=
  match s.pwr.refusal with
  | some r =>
    let s := ((s.wr PWR_LAST_REFUSAL.REFUSER r.1).wr PWR_LAST_REFUSAL.REASON r.2).wr PWR_LAST_REFUSAL.TARGET s.pwr.target
    let s := (s.wr PWR_LAST_REFUSAL.VALID 1).count PWR_ABORT_COUNT.COUNT
    (s.changeEnds.wr PWR_STATE_STATUS.RESULT 2).pwrRaise EV_PWR.REFUSED_EV
  | none =>
    let was := s.powerState
    if was = 1 ∧ s.pwr.target = 1 then s.changeEnds
    else
      let s := (s.changeEnds.wr PWR_STATE_STATUS.CUR_STATE s.pwr.target).onlyIf (was ≠ 3) (fun s => s.wr PWR_STATE_STATUS.RESULT 1)
      s.pwrRaise EV_PWR.STATE_DONE

/-- Entry is aborted (R477): the domain being stopped lets go, those stopped are restarted in reverse. -/
def Hw.refuse (s : Hw) (who why : Nat) : Hw :=
  let head := s.pwr.todo.head?
  let s := s.modPwr (fun p => { p with
    refusal := some (who, why), todo := [], restart := p.stopped ++ p.restart.filter (fun d => !p.stopped.contains d) })
  let s := match head with
    | some d => s.domainRestart d
    | none => s
  if s.pwr.restart.isEmpty then s.changeDone else s

/-- The stop of domain `d` begins: its functions are held, its channel is asked to sleep. A channel that may watch is not
held for Rest (log entry 203). -/
def Hw.domainStop (s : Hw) (d : Nat) : Hw :=
  let t := s.pwr.target
  let on := s.trkIsOff d == false
  if s.watches t d && on then
    let awake := decide (s.rd (TRK_ACT_STATUS.PM_STATE (d - 15)) < 2)
    let s := s.sleepRequest (d - 15)
    s.onlyIf (awake = true ∧ 2 ≤ s.rd (TRK_ACT_STATUS.PM_STATE (d - 15))) (fun s =>
      s.modPwr (fun p => { p with watched := d :: p.watched.erase d }))
  else if s.mayWatch t d && on then s
  else
    let s := s.modPwr (fun p => { p with held := d :: p.held.erase d })
    (s.onlyIf (3 ≤ d ∧ d < 11) (fun s => s.drainStart (d - 3))).holdAll

/-- The stop of the first domain to stop begins, or the change is over when there is none; a restart under way goes on
first. A domain that has been turned off is passed over (R475). -/
def Hw.stopBegin (s : Hw) : Hw :=
  match s.pwr.todo.dropWhile (fun d => s.cond d == 2) with
  | [] =>
    let s := s.modPwr (fun p => { p with todo := [] })
    if s.pwr.restart.isEmpty then s.changeDone else s
  | d :: rest =>
    let s := (s.modPwr (fun p => { p with todo := d :: rest })).wr PWR_STATE_STATUS.CUR_DOM d
    match s.refusal s.pwr.target d with
    | some why => s.refuse d why
    | none => s.domainStop d

/-- The first domain to stop has agreed and is in its condition; the next one's stop begins. -/
def Hw.domainStopped (s : Hw) (d : Nat) : Hw :=
  let stays := s.mayWatch s.pwr.target d && !s.trkIsOff d
  let s := if stays then s.onlyIf (s.pwr.target = 3) (fun s => s.modPwr (fun p => { p with restWatch := true }))
    else (s.domainSleeps d).modPwr (fun p => { p with
      held := d :: p.held.erase d, woken := p.woken.erase d, watched := p.watched.erase d })
  (s.modPwr (fun p => { p with todo := p.todo.erase d, stopped := d :: p.stopped })).stopBegin

/-- The domain being stopped is judged: it refuses, it agrees where `idle` says of CTL that its cores are, or neither. One
that has been turned off meanwhile is passed over. -/
def Hw.stopJudge (s : Hw) (idle : Bool) : Hw × Bool :=
  match s.pwr.todo with
  | [] => (s, true)
  | d :: _ =>
    if s.cond d = 2 then (s.stopBegin, true)
    else match s.refusal s.pwr.target d with
      | some why => (s.refuse d why, true)
      | none => if (idle || d != 2) && s.agrees s.pwr.target d then (s.domainStopped d, true) else (s, false)

/-- The domain being stopped agrees. -/
def Hw.domainAgree (s : Hw) : Hw := if s.pwr.todo.isEmpty then s else (s.holdAll.stopJudge true).1

/-- DOMAIN_AGREE (R476). -/
def execDomainAgree (s : State) : Host.Outcome State Fault Refusal := s.on (·.domainAgree)

/-- ENTRY_TIMEOUT has passed: a domain that neither agrees nor has a listed reason refuses with TIMEOUT. -/
def Hw.entryTimeout (s : Hw) : Hw :=
  match s.pwr.todo with
  | [] => s
  | d :: _ =>
    let r := s.stopJudge false
    if r.2 then r.1 else s.refuse d 1

/-- ENTRY_TIMEOUT (R476). -/
def execEntryTimeout (s : State) : Host.Outcome State Fault Refusal := s.on (·.entryTimeout)

/-- The next domain is restarted; one that has been turned off stays so. -/
def Hw.restartNext (s : Hw) : Hw :=
  match s.pwr.restart with
  | [] => s
  | d :: t =>
    let s := (s.modPwr (fun p => { p with restart := t })).wr PWR_STATE_STATUS.CUR_DOM d
    let s := s.domainRestart d
    if t.isEmpty ∧ s.pwr.todo = [] then s.changeDone else s

/-- DOMAIN_RESTART_NEXT (R480). -/
def execDomainRestartNext (s : State) : Host.Outcome State Fault Refusal := s.on (·.restartNext)

/-! ## Requests and wakes (R473, R474, R478-R480) -/

/-- What a change toward `target` stops and restarts: Run restarts every domain asleep or held, and each whose channel
sleeps for a request (R480). -/
def Hw.changeLists (s : Hw) (target : Nat) : List Nat × List Nat :=
  match target with
  | 0 => ([], stopOrder.reverse.filter (fun d => s.cond d == 1 || s.pwr.held.contains d || s.pwr.watched.contains d))
  | 1 => s.trimLists watchOrder
  | 2 => (watchOrder.filter (fun d => !s.stopSkips 2 d), [])
  | _ => (stopOrder.filter (fun d => !s.stopSkips 3 d), [])

/-- A change toward `target` begins. -/
def Hw.changeBegin (s : Hw) (target : Nat) : Hw := (s.changeArm target (s.changeLists target)).stopBegin

/-- A wake source is enabled as AON has it, and what the state shows of it holds (R34, R479): a selected GPIO at its
level, energy on a held lane, WAKE_MS set, a REST_CH channel that has left WATCH. -/
def Hw.wakeSeen (s : Hw) (src : Nat) : Bool :=
  bitN (s.aonRd PWR_WAKE_EN.EN) src == 1 && (match src with
    | 0 => s.aonRd PWR_WAKE_TIMER.WAKE_MS != 0
    | 1 => (List.range 16).any (fun j => bitN (s.aonRd PWR_WAKE_GPIO.GPIO_MASK) j == 1
        && bitN (s.rd GLB_GPIO_IN.IN) j == bitN (s.aonRd PWR_WAKE_GPIO.GPIO_LEVEL) j)
    | 3 => (List.range 64).any (fun l => s.rd (SRD_LANE_STATUS.ENERGY l) == 1 && s.rd (SRD_LANE_CTRL.ED_EN l) == 1)
    | 5 => s.aonRd PWR_REST_CFG.REST_CH_EN == 1 && s.pwr.restWatch && !s.trkWatching (15 + s.aonRd PWR_REST_CFG.REST_CH)
    | _ => true)

/-- A source is recorded. -/
def Hw.wakeMark (s : Hw) (src : Nat) : Hw := (s.wr ⟨PWR_WAKE_STATUS.A, src, 1⟩ 1).pwrRaise EV_PWR.WAKE_EV

/-- A wake source fires (R478, R479): it ends Rest, or aborts the entry to it; the timer runs in Rest only. -/
def Hw.wakeFire (s : Hw) (src : Nat) : Hw :=
  let busy := s.rd PWR_STATE_STATUS.BUSY = 1
  if s.wakeSeen src = false then s
  else if s.powerState = 3 ∧ ¬ busy then (s.wakeMark src).changeBegin 0
  else if busy ∧ s.pwr.target = 3 ∧ s.pwr.todo ≠ [] ∧ src ≠ 0 then (s.wakeMark src).refuse (0x20 + src) 8
  else s

/-- A write of PWR_STATE_REQ with GO (R474). A GPIO at its level already wins against the entry to Rest (R478). -/
def Hw.stateRequest (s : Hw) (v : Word) : Hw :=
  let t := getField v 0 2
  let s := s.aonFlush
  if getField v 31 1 = 0 then s.fullWrite PWR_STATE_REQ.A v
  else if s.rd PWR_STATE_STATUS.BUSY = 1 ∨ (t = 3 ∧ s.rd PWR_WAKE_EN.EN = 0)
      ∨ (t = 3 ∧ bitN (s.rd PWR_WAKE_EN.EN) 5 = 1 ∧ s.rd PWR_REST_CFG.REST_CH_EN = 0) then s.wr PWR_STATE_STATUS.RESULT 3
  else
    let s := s.fullWrite PWR_STATE_REQ.A v
    if s.powerState = t then (s.wr PWR_STATE_STATUS.RESULT 1).pwrRaise EV_PWR.STATE_DONE
    else if s.powerState = 3 then s
    else
      let s := (s.wr PWR_STATE_STATUS.RESULT 0).changeArm t (s.changeLists t)
      if t = 3 ∧ s.wakeSeen 1 = true then s.wakeFire 1 else s.stopBegin

/-- STATE_REQUEST (R474). -/
def execStateRequest (m : Master) (v : Word) (s : State) : Host.Outcome State Fault Refusal :=
  s.on (fun s => s.onAccess m PWR_STATE_REQ.A true (·.stateRequest v))

/-- WAKE_SOURCE_FIRE (R479). -/
def execWakeSourceFire (src : Fin 6) (s : State) : Host.Outcome State Fault Refusal := s.on (·.wakeFire src)

/-- WAKE_MS since Rest was entered. -/
def execWakeTimerExpire (s : State) : Host.Outcome State Fault Refusal :=
  s.on (fun s => s.onlyIf (s.powerState = 3 ∧ s.rd PWR_STATE_STATUS.BUSY = 0) (·.wakeFire 0))

/-- The mask has changed in Trim, for the domains `l`: a domain newly set is stopped, one newly cleared restarted. While
entry to Trim, or a change of the mask before, runs, they join what it still has to do, and a domain being stopped whose bit
has been cleared lets go; while anything else runs they wait for its end. -/
def Hw.trimChange (s : Hw) (l : List Nat) : Hw :=
  if s.rd PWR_STATE_STATUS.BUSY = 0 then
    let x := s.trimLists l
    if x = ([], []) then s else (s.changeArm 1 x).stopBegin
  else if s.pwr.target = 1 ∧ s.pwr.refusal = none then
    let x := s.trimLists (l ++ s.pwr.todo ++ s.pwr.restart)
    let head := s.pwr.todo.head?
    let s := s.modPwr (fun p => { p with
      todo := x.1.filter (fun d => head == some d) ++ x.1.filter (fun d => head != some d), restart := x.2 })
    if s.pwr.todo.head? = head then s else s.stopBegin
  else s.modPwr (fun p => { p with trimDue := p.trimDue ++ l })

/-- A write of PWR_TRIM_MASK; in Trim it is live (R473). -/
def Hw.trimWrite (s : Hw) (v : Word) : Hw :=
  let old := s.word PWR_TRIM_MASK.A
  let s := s.fullWrite PWR_TRIM_MASK.A v
  let l := watchOrder.filter (fun d => bitN (old ^^^ s.word PWR_TRIM_MASK.A).toNat d == 1)
  if s.powerState ≠ 1 ∧ ¬(s.rd PWR_STATE_STATUS.BUSY = 1 ∧ s.pwr.target = 1) then s else s.trimChange l

/-- TRIM_MASK_WRITE (R473). -/
def execTrimMaskWrite (m : Master) (v : Word) (s : State) : Host.Outcome State Fault Refusal :=
  s.on (fun s => s.onAccess m PWR_TRIM_MASK.A true (·.trimWrite v))

/-- Bits of Trim's mask that changed while something else ran are acted on when that is over. -/
def Hw.trimLate (s : Hw) : Hw :=
  if s.pwr.trimDue = [] ∨ s.rd PWR_STATE_STATUS.BUSY = 1 then s
  else
    let l := s.pwr.trimDue
    let s := s.modPwr (fun p => { p with trimDue := [] })
    if s.powerState = 1 then s.trimChange l else s

/-- What the power controller sees by itself in every cycle: that the channel of REST_CH is in WATCH or has left it, a GPIO
at its level (R478, R479), a mask of Trim to act on (R473), and a reason for which the domain being stopped refuses at once (R476). -/
def Hw.powerWatch (s : Hw) : Hw :=
  let s := s.onlyIf (s.pwr.target = 3 ∧ s.trkWatching (15 + s.aonRd PWR_REST_CFG.REST_CH) = true)
    (fun s => s.modPwr (fun p => { p with restWatch := true }))
  let s := ((s.wakeFire 1).wakeFire 5).trimLate
  match s.pwr.todo with
  | [] => s
  | d :: _ => if s.cond d = 2 ∨ (s.refusal s.pwr.target d).isSome = true then (s.stopJudge false).1 else s

/-- A domain woken by an access goes back to RET 100 µs after the last one (R481). -/
def Hw.accessWakeReturn (s : Hw) (d : Nat) : Hw :=
  if s.pwr.woken.contains d then
    (s.domainSleeps d).modPwr (fun p => { p with woken := p.woken.erase d })
  else s

/-- ACCESS_WAKE_RETURN (R481). -/
def execAccessWakeReturn (d : Fin 32) (s : State) : Host.Outcome State Fault Refusal := s.on (·.accessWakeReturn d)

/-- Signal energy on a held lane sets ENERGY, which is the energy wake source (R311, R479). -/
def execEnergyDetect (l : Fin 64) (s : State) : Host.Outcome State Fault Refusal :=
  s.on (fun s => (s.energy l).onlyIf ((s.energy l).rd (SRD_LANE_STATUS.ENERGY l) = 1) (·.wakeFire 3))

/-! ## Core voltage (R482, R483) -/

/-- One step of the loop, with VREQ as the monitors last gave it. Above VMAX the voltage follows VREQ; from there it falls
back 5 mV a step, which is no clamp. -/
def Hw.avsStep (s : Hw) (vreq : Nat) : Hw :=
  if s.aonRd PWR_AVS_CFG.AVS_EN = 0 then s.avsOff
  else
    let lo := s.aonRd PWR_AVS_CFG.VMIN
    let hi := s.aonRd PWR_AVS_CFG.VMAX
    let cur := s.rd PWR_AVS_STATUS.VCORE
    let was := s.rd PWR_AVS_STATUS.SAFETY
    let s := s.wr PWR_AVS_STATUS.VREQ vreq
    if hi < vreq then
      let s := ((s.wr PWR_AVS_STATUS.VCORE vreq).wr PWR_AVS_STATUS.SAFETY 1).modPwr (fun p => { p with vOver := true })
      if was = 1 then s else (s.count PWR_SAFETY_CNT.VMIN_OVERRIDES).pwrRaise EV_PWR.SAFETY_EV
    else
      let s := s.wr PWR_AVS_STATUS.SAFETY 0
      if s.pwr.vOver && decide (hi < cur) then s.wr PWR_AVS_STATUS.VCORE (max vreq (cur - 1))
      else
        let s := s.modPwr (fun p => { p with vOver := false })
        let want := if cur < vreq + 2 then cur + 1 else if vreq + 2 < cur then cur - 1 else cur
        let goal := if cur < lo then lo else if hi < cur then hi else min hi (max lo want)
        let s := s.onlyIf (cur < lo ∨ hi < cur ∨ want < lo ∨ hi < want) (fun s => s.count PWR_AVS_CLAMP_COUNT.POLICY_CLAMP_COUNT)
        s.wr PWR_AVS_STATUS.VCORE (max vreq goal)

/-- AVS_STEP (R483). -/
def execAvsStep (vreq : Fin 64) (s : State) : Host.Outcome State Fault Refusal := s.on (·.avsStep vreq)

/-! ## Temperature (R484) -/

/-- The trip: every domain but AON is held in reset. -/
def Hw.thermalTrip (s : Hw) : Hw :=
  let s := s.aonKeptReset.modPwr (fun p => { p with trip := true, hot := [] })
  if s.pwr.alert then s else (s.modPwr (fun p => { p with alert := true })).pwrRaise EV_PWR.TEMP_ALERT_EV

/-- A sample of the sensors, in °C. -/
def Hw.thermalSample (s : Hw) (temps : List Int) : Hw :=
  let top := temps.foldl max (temps.headD 0)
  let s := (s.wr PWR_THERM.TEMP_MAX (unsigned 8 top)).wr PWR_THERM.TEMP_PEAK (unsigned 8 (max top (s.rdS PWR_THERM.TEMP_PEAK)))
  let hot := (List.range temps.length).foldl (fun (m : Sparse Nat) i =>
    m.set 0 i (if 115 ≤ temps.getD i 0 then s.pwr.hot.get 0 i + 1 else 0)) []
  let s := s.modPwr (fun p => { p with hot := hot })
  if s.pwr.trip then s
  else
    let th := Int.ofNat (s.aonRd PWR_THERM.ALERT_TH)
    let s := if th ≤ top ∧ s.pwr.alert = false then (s.modPwr (fun p => { p with alert := true })).pwrRaise EV_PWR.TEMP_ALERT_EV
      else if top < th - 5 then s.modPwr (fun p => { p with alert := false }) else s
    if s.effPorn = true ∧ hot.any (fun e => decide (3 ≤ e.2)) = true then s.thermalTrip else s

/-- THERMAL_SAMPLE (R484). -/
def execThermalSample (temps : Vector (BitVec 8) 16) (s : State) : Host.Outcome State Fault Refusal :=
  s.on (·.thermalSample (temps.toList.map BitVec.toInt))

/-- Every sensor has read below 100 °C for 1 s: the last sample too. -/
def Hw.thermalRecover (s : Hw) : Hw :=
  if s.pwr.trip && decide (s.rdS PWR_THERM.TEMP_MAX < 100) then
    let s := (s.aonKeptReset.modPwr (fun p => { p with trip := false, hot := [] })).wr GLB_RESET_CAUSE.THERMAL 1
    (s.count PWR_SAFETY_CNT.THERMAL_TRIPS).bootStart
  else s

/-- THERMAL_RECOVER (R484). -/
def execThermalRecover (s : State) : Host.Outcome State Fault Refusal := s.on (·.thermalRecover)

end Sys2Proof.Machine
end

