-- ==== Sys2Proof/Machine/Pins.lean ====
section
/-!
DEFINITION. Reference clocks (R523), crossings (R34, R36) general-purpose pins (R538), and the levels of the output pins (R529, R530).
-/
namespace Sys2Proof.Machine

/-- The OK bit of a clock. -/
def Clk.ok : Clk → FRef
  | .sys => GLB_CLK_STATUS.SYS_OK
  | .trk => GLB_CLK_STATUS.TRK_OK
  | .twin => GLB_CLK_STATUS.TWIN_OK
  | .pcie => GLB_CLK_STATUS.PCIE_OK
  | .xtal => GLB_CLK_STATUS.XTAL_OK

/-- What the loss of a clock does (R81, R523). -/
def Hw.clockGone (s : Hw) (k : Clk) : Hw :=
  match k with
  | .trk => s.forAll ((List.range 4).filter (fun c => s.cond (15 + c) != 2 && !s.inReset (15 + c))) (fun s c =>
      if 2 ≤ s.rd (TRK_PMA_STATUS.STATE c) then s.guardTrip c 4 else s.trkRaise c EV_TRK.CLK_TRK_FAIL)
  | .xtal => s.wr GLB_CLK_STATUS.XTAL_FALLBACK 1
  | _ => s

/-- An OK bit takes a value; a change sets CLK_EV. -/
def Hw.clockJudged (s : Hw) (k : Clk) (v : Nat) : Hw := (s.wr k.ok v).raise 0 EV_GLB.CLK_EV

/-- CLOCK_LOSS (R523). -/
def execClockLoss (k : Clk) (s : State) : Host.Outcome State Fault Refusal :=
  s.on (fun s => s.onlyIf (s.rd k.ok = 1) (fun s => (s.clockJudged k 0).clockGone k))
/-- CLOCK_RECOVER (R523). -/
def execClockRecover (k : Clk) (s : State) : Host.Outcome State Fault Refusal :=
  s.on (fun s => s.onlyIf (s.rd k.ok = 0) (fun s =>
    (s.clockJudged k 1).onlyIf (k = .xtal) (fun s => s.wr GLB_CLK_STATUS.XTAL_FALLBACK 0)))

/-- The frames and bursts that cross into a block as its crossing FIFO fails are discarded, with how many they are: the
bursts in the transmit FIFO of a channel (R32), the frames that ports are sending. -/
def Hw.crossCut (s : Hw) : Blk → Hw × Nat
  | .trk c =>
    let n := ((s.act c.val).bursts.filter (fun u => u.staged)).length
    if n = 0 then (s, 0) else ((s.cutBurst c).modAct c (fun a => { a with bursts := a.bursts.filter (fun u => !u.staged) }), n)
  | .sub p =>
    if s.clk < (s.port p).nextStart then (s.emit (.frameCut p), 1) else (s, 0)
  | .lane l =>
    let ps := ((List.range 8).map (8 * l.val + ·)).filter (fun p => decide (l.val < 64 ∧ s.clk < (s.port p).nextStart))
    (s.forAll ps (fun s p => s.emit (.frameCut p)), ps.length)
  | _ => (s, 0)

/-- A crossing FIFO of a block overflows or underflows (R36). `arriving` says that a frame not yet in any state of the
terminal was crossing; the block sees nothing of it. The FIFO goes on empty with the next frame. -/
def Hw.crossError (s : Hw) (b : Blk) (arriving : Bool) : Hw :=
  let r := (s.raise b.base EV.CDC_ERR).crossCut b
  { r.1 with crossLost := r.1.crossLost.set 0 b.base (r.1.crossLost.get 0 b.base + r.2 + b2n arriving) }

/-- CROSSING_FIFO_ERROR (R36). -/
def execCrossingFifoError (b : Blk) (s : State) (arriving : Bool := false) : Host.Outcome State Fault Refusal :=
  s.on (fun s => s.onlyIf (s.domOff b.base = false) (fun s => s.crossError b arriving))

/-- A write reaches AON; the power controller judges by it at once (R476). -/
def execAonWriteArrive (s : State) : Host.Outcome State Fault Refusal := s.on (fun s => s.aonArrive.powerWatch)

/-- The level the terminal drives on GPIO `j`, once the write has reached the pins; none while it is an input. -/
def Hw.gpioDrive (s : Hw) (j : Nat) : Option Bool :=
  if bitN (s.aonRd GLB_GPIO_OUT.OE) j = 1 then some (bitN (s.aonRd GLB_GPIO_OUT.OUT) j == 1) else none

/-- The filtered level of GPIO `j` changes; it may be the level that wakes (R478, R479). -/
def Hw.gpioChange (s : Hw) (j : Nat) (v : Bool) : Hw :=
  let was := bitN (s.rd GLB_GPIO_IN.IN) j
  let s := s.wr ⟨GLB_GPIO_IN.A, j, 1⟩ (b2n v)
  let s := s.onlyIf (was ≠ b2n v ∧ bitN (s.aonRd GLB_GPIO_IN.INT_EN) j = 1) (fun s => s.raise 0 EV_GLB.GPIO_EV)
  s.wakeFire 1

/-- GPIO_CHANGE (R538). -/
def execGpioChange (j : Fin 16) (v : Bool) (s : State) : Host.Outcome State Fault Refusal := s.on (·.gpioChange j v)

/-! ## The test access port (R5, R520) -/

/-- The state after a rising edge of TCK with TMS at `tms` (IEEE 1149.1). No row of the table is an edge of TCK. -/
def Tap.next (t : Tap) (tms : Bool) : Tap :=
  match t with
  | .reset => if tms then .reset else .idle
  | .idle => if tms then .selDr else .idle
  | .selDr => if tms then .selIr else .capDr
  | .capDr => if tms then .exit1Dr else .shiftDr
  | .shiftDr => if tms then .exit1Dr else .shiftDr
  | .exit1Dr => if tms then .updDr else .pauseDr
  | .pauseDr => if tms then .exit2Dr else .pauseDr
  | .exit2Dr => if tms then .updDr else .shiftDr
  | .updDr => if tms then .selDr else .idle
  | .selIr => if tms then .reset else .capIr
  | .capIr => if tms then .exit1Ir else .shiftIr
  | .shiftIr => if tms then .exit1Ir else .shiftIr
  | .exit1Ir => if tms then .updIr else .pauseIr
  | .pauseIr => if tms then .exit2Ir else .pauseIr
  | .exit2Ir => if tms then .updIr else .shiftIr
  | .updIr => if tms then .selDr else .idle

/-! ## Levels of the output pins (R66, R79, R441, R484, R529, R530) -/

/-- Outputs and bidirectional pins (R529). -/
inductive Pin
  | trkBen (c : Fin 4) | trkTxdis (c : Fin 4) | trkTwi (c : Fin 4) | trkTx (c : Fin 4) | laneTx (l : Fin 72) | pcieTx
  | mdc (m : Fin 4) | mdio (m : Fin 4) | spiClk | spiCs | spiIo | spiReset | uartTx | gpio (j : Fin 16)
  | evtOut (i : Fin 4) | ppsOut | clkOut | intN | tdo | twnActOut | tempAlert | dramReset | dram
  deriving DecidableEq, Repr

/-- `hiz` is Hi-Z, or released of an open-drain pin; `idle` is electrical idle; `owner` is the waveform of the interface
whose owner drives the pin. -/
inductive PinLevel | hiz | low | high | idle | owner
  deriving DecidableEq, Repr

def PinLevel.of (b : Bool) : PinLevel := if b then .high else .low

/-- The VIO pins still have their PORN-low state: CLK_SYS has not come up (R523). -/
def Hw.unclocked (s : Hw) : Bool := s.hsk.phase != .run && s.rd GLB_CLK_STATUS.SYS_OK == 0

/-- Husk accesses the flash. -/
def Hw.spiBusy (s : Hw) : Bool := s.hsk.phase == .boot && s.rd GLB_STRAP.BOOT_SEL < 2 && s.pins.spi == .high

/-- A serial pair of domain `d`: in electrical idle unless the function that owns it has started. -/
def Hw.serial (s : Hw) (d : Nat) (started : Bool) : PinLevel := if s.domRuns d && started then .owner else .idle

/-- The pins of the domains that a powered terminal out of PORN drives. -/
def Hw.pinDriven (s : Hw) : Pin → PinLevel
  | .trkBen c => if s.pwr.trip then .low else if s.domRuns (15 + c) then .of (s.opt c).benDrive else .hiz
  | .trkTxdis c => if s.txdis c || s.pwr.trip then .hiz else .low
  | .trkTwi c => if (s.opt c).twiCmd || (s.opt c).polling then .owner else .hiz
  | .trkTx c => s.serial (15 + c) (s.rd (TRK_PMA_STATUS.STATE c) != 0)
  | .laneTx l =>
    if l.val < 64 then s.serial (19 + l / 8) (s.rd (SRD_LANE_STATUS.STATE l) != 0 && !(s.lane l).tx.isQuiet)
    else s.serial 28 (s.rd TWN_STATUS.STATE != 0 && !(s.lane l).tx.isQuiet)
  | .pcieTx => s.serial 29 s.pins.perst
  | .mdc m => if (s.mdio m).run = .idle then .low else .owner
  | .mdio m => if (s.mdio m).run = .idle then .hiz else .owner
  | .spiClk => if s.spiBusy then .owner else .low
  | .spiCs => if s.spiBusy then .owner else .high
  | .spiIo => if s.spiBusy then .owner else .hiz
  | .spiReset => match s.pins.spi with
    | .hiz => .hiz
    | .low _ => .low
    | .high => .high
  | .uartTx => if s.ctl.uartTx = [] then .high else .owner
  | .gpio j => match s.gpioDrive j with
    | none => .hiz
    | some b => .of b
  | .evtOut i => .of (s.timRuns && bitN s.tim.evtOut i == 1)
  | .ppsOut => if s.timRuns then .owner else .low
  | .clkOut => if s.timRuns && s.tim.clkOut != .low then .owner else .low
  | .intN => if s.intN then .low else .hiz
  | .tdo => if s.pins.tap = .shiftDr ∨ s.pins.tap = .shiftIr then .owner else .hiz
  | .twnActOut => .of (s.rd TWN_STATUS.ACT_OUT == 1)
  | .tempAlert => if s.pwr.alert then .low else .hiz
  | .dramReset => if s.grn.training || s.rd GRN_DRAM_CFG.DRAM_UP == 1 then .owner else .low
  | .dram => if s.grn.training || s.rd GRN_DRAM_CFG.DRAM_UP == 1 then .owner else .hiz

/-- Pins of the AON bank. -/
def Pin.aon : Pin → Bool
  | .twnActOut => true
  | .tempAlert => true
  | _ => false

/-- The level the terminal leaves on a pin: Hi-Z or released while it has no VIN or PORN is low, then what its owner
drives; a channel's pins float while its domain is off, in reset or asleep (R529, R530). -/
def Hw.pinLevel (s : Hw) (p : Pin) : PinLevel :=
  if !s.effPorn || (s.unclocked && !p.aon) then .hiz else s.pinDriven p

end Sys2Proof.Machine
end

