-- ==== Sys2Proof/Machine/Views.lean ====
section
/-!
DEFINITION. What a register or table entry reads as where it shows other state (levels, pin levels, heads of queues,
credits): the views. Each is computed when it is read, so that what it shows has one home.
-/
namespace Sys2Proof.Machine

/-- A word with a register field set. -/
def put (w : Word) (f : FRef) (v : Nat) : Word := setField w f.lo f.width v

/-- The function whose lifecycle status register is at `a`, an instance of the register first found at `base`. -/
def fnShown (base a : Nat) : Option Fn :=
  let off := a - base
  let fin := fun (n : Nat) [NeZero n] (x : Nat) => Fin.ofNat n x
  if base = TRK_PMA_STATUS.A 0 then some (.trk (fin 4 (off / 0x100000)))
  else if base = SHF_MBR_STATUS.A 0 0 then some (.member (fin 16 (off / 0x100)) (fin 4 (off % 0x100 / 8)))
  else if base = SRD_LANE_STATUS.A 0 ∧ off / 0x10000 < 64 then some (.lane (fin 64 (off / 0x10000)))
  else if base = SUB_PORT_STATUS.A 0 ∧ off / 0x1000 < 512 then some (.port (fin 512 (off / 0x1000)))
  else if base = SLT_PAGE_STATUS.A 0 then some (.page (fin 2 (off / 8)))
  else if base = ENG_STATUS.A 0 then some (.engine (fin 64 (off / 0x10000)))
  else if base = RING_STATUS.A 0 0 then some (.ring (fin 2 (off / 0x10000)) (fin 1024 (off % 0x10000 / 64)))
  else if base = TWN_STATUS.A then some .twinLink
  else none

/-- Some group holds channel `c`'s shed unit (R181). -/
def Hw.shedUnit (s : Hw) (c : Nat) : Bool := (List.range 16).any (fun g => (s.grp g).shedOff.contains c)

/-- The pins, the AON copies and Sheaf's hold that TRK_PMA_STATUS shows. -/
def Hw.pmaView (s : Hw) (c : Nat) (w : Word) : Word :=
  let w := put w (TRK_PMA_STATUS.LOS_PIN c) (b2n (s.opt c).losPin)
  let w := put w (TRK_PMA_STATUS.TXDIS_OUT c) (b2n (s.txdis c))
  let w := put w (TRK_PMA_STATUS.BEN_PAD c) (b2n (s.opt c).benPad)
  let w := if s.shedUnit c then put w (TRK_PMA_STATUS.HELD c) 1 else w
  let w := put w (TRK_PMA_STATUS.HE_DISABLE c) (b2n (s.heDisabled c))
  put w (TRK_PMA_STATUS.CLK_TRK_OK c) (s.rd GLB_CLK_STATUS.TRK_OK)

/-- SRD_LANE_STATUS of twin lane `i`: the lifecycle is the link's, lock and polarity those of TWN_LANE_STATUS (R446,
R448). -/
def Hw.twinLaneView (s : Hw) (i : Nat) (w : Word) : Word :=
  let w := put w (SRD_LANE_STATUS.STATE 0) (s.rd TWN_STATUS.STATE)
  let w := put w (SRD_LANE_STATUS.LOCK 0) (bitN (s.rd TWN_LANE_STATUS.LOCK) i)
  put w (SRD_LANE_STATUS.POL_STATE 0) (bitN (s.rd TWN_LANE_STATUS.INVERT) i)

/-- The lifecycle fields of a function: a function that is OFF shows HELD as the power controller and the twin hold it
now (R60). -/
def Hw.heldView (s : Hw) (f : Fn) (w : Word) : Word :=
  if s.st f = 0 then put w f.HELD (b2n (s.heldNow f)) else w

/-- The head message's stamp (R401). -/
def Hw.stampWord (s : Hw) (ch : Nat) : Word :=
  match (s.mbx ch).msgs with
  | [] => 0#32
  | m :: _ =>
    let now := if m.master = 0x70 then (match masterDom m.orig with
        | some d => s.twn.peerGen.get 0 d
        | none => 0)
      else s.masterGen m.master
    BitVec.ofNat 32 (m.master % 256 + m.mode % 8 * 2 ^ 8 + b2n (now != m.gen) * 2 ^ 11 + m.gen % 256 * 2 ^ 12 + m.seq % 4096 * 2 ^ 20)

/-- The word the register at `a`, an instance of the one first found at `base`, shows to master `m`; `w` is what is
stored there. -/
def Hw.view (s : Hw) (m : Master) (base a : Nat) (w : Word) : Word :=
  let off := a - base
  let w := match fnShown base a with
    | some f => s.heldView f w
    | none => w
  let tsq := fun (n : Nat) => ((s.tim.tsq.get [] (off / 0x20)).head?.map (fun (e : TsEntry) =>
    BitVec.ofNat 32 (match n with
      | 0 => e.id % 65536 + e.port % 1024 * 2 ^ 16 + b2n e.notSent * 2 ^ 26
      | 1 => e.sec
      | 2 => e.ns
      | _ => e.frac))).getD 0#32
  let caps := s.tim.caps.get [] (off / 0x10)
  let cap := fun (f : CapEntry → Nat) => (caps.head?.map f).getD 0
  let latched := s.tim.latched.get {} m.latch
  if base = TRK_PMA_STATUS.A 0 then s.pmaView (off / 0x100000) w
  else if base = SRD_LANE_STATUS.A 0 ∧ 64 ≤ off / 0x10000 then s.twinLaneView (off / 0x10000 - 64) w
  else if 8 ≤ a ∧ base % 0x1000 = 8 ∧ isStatusAddr (a - 8) = true then s.word (a - 8)
  else if base = GLB_INT_SUMMARY.A then s.summaryWord
  else if base = GLB_INT_SUB_PEND.A 0 then s.pendWord 0x4000000 0x1000 520 (off / 4)
  else if base = GLB_INT_ENG_PEND.A 0 then s.pendWord 0x6000000 0x10000 64 (off / 4)
  else if base = SHF_GRP_HOLD.A 0 then put w (SHF_GRP_HOLD.HELD_CELLS 0) (s.grp (off / 0x100)).cells
  else if base = THR_EPOCH_STATUS.A then
    put w THR_EPOCH_STATUS.OLD_IN_FLIGHT
      (if s.rd THR_EPOCH_STATUS.SWAP_COMPLETE = 1 then 0 else s.inFlight (s.rd THR_EPOCH_STATUS.OLD_EPOCH))
  else if base = GRN_POOL_STATUS.A then put w GRN_POOL_STATUS.FREE_CELLS s.freeCells
  else if base = GRN_POOL_USED_DS.A then put w GRN_POOL_USED_DS.USED (s.sharedUsed true)
  else if base = GRN_POOL_USED_US.A then put w GRN_POOL_USED_US.USED (s.sharedUsed false)
  else if base = GRN_DRAM_CH_STATUS.A 0 then put w (GRN_DRAM_CH_STATUS.BLOCKS_USED 0) (s.blocksUsed (off / 8)).length
  else if base = SLT_FRAME.A then put w SLT_FRAME.F_LOC s.fLoc
  else if base = SUB_GATE_STATUS.A 0 then
    let p := off / 0x1000
    if s.rd (SUB_GATE_CTRL.GATE_EN p) = 1 && (s.port p).gate.running then w else put w (SUB_GATE_STATUS.GATES 0) 0xFF
  else if base = TIM_NOW_NS.A then BitVec.ofNat 32 s.tim.now.ns
  else if base = TIM_NOW_SEC_LO.A then BitVec.ofNat 32 latched.sec
  else if base = TIM_NOW_SEC_HI.A then BitVec.ofNat 32 (latched.sec / 2 ^ 32 % 65536)
  else if base = TIM_NOW_FRAC.A then BitVec.ofNat 32 latched.frac
  else if base = TIM_TSQ.A 0 then put w (TIM_TSQ.LEVEL 0) (s.tim.tsq.get [] (off / 0x20)).length
  else if base = TIM_TSQ_ID.A 0 then tsq 0
  else if base = TIM_TSQ_SEC.A 0 then tsq 1
  else if base = TIM_TSQ_NS.A 0 then tsq 2
  else if base = TIM_TSQ_FRAC.A 0 then put w (TIM_TSQ_FRAC.FRAC 0) (tsq 3).toNat
  else if base = TIM_CAP.A 0 then put (put w (TIM_CAP.LEVEL 0) caps.length) (TIM_CAP.STATE 0) (cap CapEntry.state)
  else if base = TIM_CAP_NS.A 0 then BitVec.ofNat 32 (cap CapEntry.ns)
  else if base = TIM_CAP_SEC.A 0 then BitVec.ofNat 32 (cap CapEntry.sec)
  else if base = TIL_POOL_STATUS.A then put w TIL_POOL_STATUS.FREE s.freeDescs
  else if base = TIL_DELAY_LEVEL.A 0 then put w (TIL_DELAY_LEVEL.LEVEL 0) (s.delayList (off / 4)).length
  else if base = TIL_CL_STATUS.A 0 then
    let k := off / 0x10
    let on := (List.range 8).foldl (fun n j => n + b2n (s.engOn (8 * k + j)) * 2 ^ j) 0
    put (put w (TIL_CL_STATUS.READY 0) (s.readyCount k)) (TIL_CL_STATUS.ON_MASK 0) on
  else if base = CTL_WDOG.A then put w CTL_WDOG.ELAPSED s.wdogElapsed
  else if base = MBX_RX_DATA.A 0 0 then
    (((s.mbx (off / 0x40)).msgs.head?.map (fun m => m.words.getD (off % 0x40 / 4) 0#32)).getD 0#32)
  else if base = MBX_RX_STAMP.A 0 then s.stampWord (off / 0x40)
  else if base = MBX_STAGE.A 0 then s.ctl.stage.get 0#32 (m.id * 8 + off / 4)
  else if base = PM_ACTIVE0.A then put (put w PM_ACTIVE0.CRITICAL (s.alarmsRaised 0)) PM_ACTIVE0.MAJOR (s.alarmsRaised 1)
  else if base = PM_ACTIVE1.A then put (put w PM_ACTIVE1.MINOR (s.alarmsRaised 2)) PM_ACTIVE1.WARNING (s.alarmsRaised 3)
  else if base = PM_LOG_ENTRY.A 0 then ((s.pm.log.head?.map (fun l => l.getD (off / 4) 0#32)).getD 0#32)
  else w

/-- Words 0 and 1 of the record of a bin still open: SUSPECT as it stands, SEQ and end of its interval; the fields that
belong to its close (VALID, CLOCK_STATE) are free values (log entry 3). -/
def Hw.curWord (s : Hw) (x w : Nat) : Word :=
  let o := x / 2
  let k := x % 2
  let n := (if k = 0 then s.pm.cur15 else s.pm.cur24).getD (s.draw 31)
  let sus := if k = 0 then (s.pmObj o).suspect15 else (s.pmObj o).suspect24
  if w = 0 then BitVec.ofNat 32 (s.draw 30 % 2 + b2n sus * 2 + s.draw 30 / 2 % 4 * 4 + n % 65536 * 65536)
  else BitVec.ofNat 32 (s.intervalEnd k n)

/-- Word `w` of entry `x` of table `r` behind gate `g` as a READ shows it: keys read 0, maintained fields as they
stand. -/
def Hw.entryWord (s : Hw) (g : Nat) (r : TabRow) (x w : Nat) : Word :=
  let v := s.tabWord (tabKey g r.id x w)
  let keys := r.fields.foldl (fun (n : Word) f =>
    if f.acc = .key ∧ f.lo < 32 * w + 32 ∧ 32 * w < f.lo + f.width then
      n ||| fieldMask (max f.lo (32 * w) - 32 * w) (min (f.lo + f.width) (32 * w + 32) - max f.lo (32 * w)) else n) 0#32
  match g with
  | 6 => if r.id = 2 then s.queueStateWord x w else if r.id = 6 then s.pfcStateWord x else v
  | 7 => if r.id = 2 then s.meterStatWord x w else if 3 ≤ r.id then (s.schedWord r.id x w).getD v else v
  | 14 => if r.id = 5 ∧ w < 2 ∧ s.t (PM_OBJ.EN (x / 2)) = 1 then s.curWord x w else v
  | _ => v &&& ~~~keys

end Sys2Proof.Machine
end

