-- ==== Sys2Proof/Machine/Gate.lean ====
section
/-!
DEFINITION. The table gates (R52-R56): what a gate's registers select, which commands a table accepts, how a write meets
the fields of an entry (R18, R55), and what a change of an entry does at once. The gate commands, mirror records and the
load path of the boot go through these.
-/
namespace Sys2Proof.Machine

/-- A table segment: base of the block, gate the table lies behind, table, entry, segment. -/
structure GateSel where
  base : Nat
  gate : Nat
  row : TabRow
  x : Nat
  seg : Nat
  deriving DecidableEq, Repr

/-- Table `id` of the block at `b`; cluster memory lies behind the cluster's first engine. -/
def gateTable (b id : Nat) : Option (Nat × TabRow) :=
  let g := gateOf b
  ((tables g).find? (fun r => r.id == id)).map (fun r => (if 600 ≤ g ∧ id = 3 then 600 + 8 * ((g - 600) / 8) else g, r))

/-- Width code of TCAM slice `i`. -/
def Hw.sliceWidth (s : Hw) (i : Nat) : Nat := s.rd (THR_SLICE_CFG.WIDTH i)

/-- Words of an entry (R209 for the TCAM). -/
def Hw.entryWords (s : Hw) (k : GateSel) : Nat :=
  if k.gate = 5 ∧ k.row.id = 9 then (match s.sliceWidth (k.x / 16384) with
    | 0 => 41
    | 1 => 21
    | _ => 11)
  else k.row.words

/-- The index lies in the table (R209 for the TCAM). -/
def Hw.entryExists (s : Hw) (k : GateSel) : Bool :=
  decide (k.x < k.row.entries) &&
    (if k.gate = 5 ∧ k.row.id = 9 then decide (k.x % 16384 < 4096 * 2 ^ s.sliceWidth (k.x / 16384)) else true)

/-- The bank `b` of the rule sets accepts writes (R213). -/
def Hw.bankOpen (s : Hw) (b : Nat) : Bool :=
  s.rd THR_EPOCH_STATUS.CUR_EPOCH % 2 != b && (s.rd THR_EPOCH_STATUS.SWAP_COMPLETE == 1
    || s.rd THR_EPOCH_STATUS.OLD_EPOCH % 2 != b)

/-- The table accepts WRITE (`op` 2) or COMMIT (3) now: a page of the slot maps only while OFF (R321), a gate list that is neither active nor pending (R356), a TCAM slice or key-profile table of a bank in use never (R213). -/
def Hw.entryWritable (s : Hw) (k : GateSel) (op : Nat) : Bool :=
  match k.row.wr with
  | .never => false
  | .commitOnly => op == 3
  | .page => s.pageState (k.x / 16384) == 0
  | .engOff => s.rd (ENG_STATUS.STATE ((k.base - 0x6000000) / 0x10000)) == 0
  | .gcl =>
    let p := (k.base - 0x4000000) / 0x1000
    let l := k.x / 256
    let act := s.rd (SUB_GATE_STATUS.ACTIVE_LIST p)
    l != act && !(s.rd (SUB_GATE_STATUS.CHANGE_PENDING p) == 1 && l == 1 - act)
  | .any =>
    if k.gate ≠ 5 then true
    else match k.row.id with
      | 9 => (match s.rd (THR_SLICE_CFG.BANK (k.x / 16384)) with
        | 1 => s.bankOpen 0
        | 2 => s.bankOpen 1
        | _ => true)
      | 11 => s.bankOpen 0
      | 12 => s.bankOpen 1
      | _ => true

/-- Result code of command `op` on a segment: 0, or 2, 3 or 4. -/
def Hw.entryErr (s : Hw) (k : GateSel) (op : Nat) : Nat :=
  if !s.entryExists k then 2
  else if s.entryWords k ≤ 16 * k.seg then 3
  else if op ≠ 1 ∧ s.entryWritable k op = false then 4
  else 0

/-- Words of the entry that lie in the segment. -/
def Hw.segWords (s : Hw) (k : GateSel) : List Nat :=
  (List.range (min 16 (s.entryWords k - 16 * k.seg))).map (16 * k.seg + ·)

/-- Key of word `w` of the selected entry. -/
abbrev GateSel.key (k : GateSel) (w : Nat) : Nat := tabKey k.gate k.row.id k.x w

/-- Word `w` of an entry after data `d` reaches it: hardware's fields stay, a field given a reserved encoding stays
(R18, R55). Fields with reserved encodings lie within one word. -/
def TabRow.writeWord (r : TabRow) (w : Nat) (old d : Word) : Word :=
  r.fields.foldl (fun (acc : Word) f =>
    let lo := max f.lo (32 * w)
    let hi := min (f.lo + f.width) (32 * w + 32)
    if hi ≤ lo ∨ f.acc = .ro then acc
    else if f.accepts (getField d (f.lo % 32) f.width) then setField acc (lo - 32 * w) (hi - lo) (getField d (lo - 32 * w) (hi - lo))
    else acc) old

/-- A field of the entry after the write stays as `o` has it. -/
def Hw.keepEntry (s o : Hw) (r : TRef) : Hw := s.ts r (o.t r)

/-- A pair that the write would invert stays as it was. -/
def Hw.keepEntryPair (s o : Hw) (a b : TRef) (bad : Bool) : Hw := if bad then (s.keepEntry o a).keepEntry o b else s

/-- An alarm's entry, or its type's, exists: the others read 0 (R505). -/
def alarmEntry (table x : Nat) : Bool :=
  if table = 1 then alarmInstances x != 0 else if table = 2 then decide (x % 1024 < alarmInstances (x / 1024)) else true

/-- Bounds between fields of an entry, and with other levels (R18): `o` is the state before the write. -/
def Hw.entryGuard (s o : Hw) (k : GateSel) : Hw :=
  let x := k.x
  match k.gate with
  | 5 => match k.row.id with
    | 1 => ((s.onlyIf (s.t (PRS_NODE.LEN_MODE 0 x) = 0 ∧ s.t (PRS_NODE.FIXED_LEN 0 x) = 0) (fun s => s.keepEntry o (PRS_NODE.FIXED_LEN 0 x))).keepEntryPair
        o (PRS_NODE.MIN_LEN 0 x) (PRS_NODE.MAX_LEN 0 x) (decide (s.t (PRS_NODE.MAX_LEN 0 x) < s.t (PRS_NODE.MIN_LEN 0 x))))
    | 5 => ((s.onlyIf (s.t (PRS_NODE.LEN_MODE 1 x) = 0 ∧ s.t (PRS_NODE.FIXED_LEN 1 x) = 0) (fun s => s.keepEntry o (PRS_NODE.FIXED_LEN 1 x))).keepEntryPair
        o (PRS_NODE.MIN_LEN 1 x) (PRS_NODE.MAX_LEN 1 x) (decide (s.t (PRS_NODE.MAX_LEN 1 x) < s.t (PRS_NODE.MIN_LEN 1 x))))
    | 15 => s.keepEntryPair o (SPREAD.MODE x) (SPREAD.TARGET x) (s.t (SPREAD.MODE x) == 1 && s.t (SPREAD.TARGET x) == 0)
    | _ => s
  | 7 =>
    if (3 ≤ k.row.id ∧ k.row.id ≤ 5) ∨ (7 ≤ k.row.id ∧ k.row.id ≤ 9) then
      s.onlyIf (parentOk k.row.id (s.t (nodePARENT k.row.id x)) = false) (fun s => s.keepEntry o (nodePARENT k.row.id x))
    else s
  | 9 =>
    if k.row.id = 3 then
      let s := s.onlyIf (s.t (CIRCUIT.REVERT x) = 1 ∧ s.t (CIRCUIT.WTR x) = 0) (fun s => s.keepEntry o (CIRCUIT.WTR x))
      s.onlyIf (12288 < 30 + s.t (CIRCUIT.K x) * s.t (CIRCUIT.N x)) (fun s => s.keepEntry o (CIRCUIT.K x))
    else s
  | 14 =>
    -- R505, and WIN_EN of a circuit is reserved
    if alarmEntry k.row.id x = false then s.forAll (List.range 2) (fun s w => s.setTabWord (k.key w) (o.tabWord (k.key w)))
    else s.onlyIf (k.row.id = 3 ∧ 4 ≤ x ∧ x < 1028 ∧ s.t (PM_OBJ.WIN_EN x) = 1) (fun s => s.keepEntry o (PM_OBJ.WIN_EN x))
  | c => if c < 4 ∧ k.row.id = 5 then
      s.keepEntryPair o (LA_ALLOC.LA_FLOOR c x) (LA_ALLOC.LA_CEIL c x) (decide (s.t (LA_ALLOC.LA_CEIL c x) < s.t (LA_ALLOC.LA_FLOOR c x)))
    else s

/-- Before a circuit's entry changes: what is in force stays so until the slot frame ends (R322). -/
def Hw.circuitHold (s : Hw) (x : Nat) : Hw :=
  s.onlyIf (s.slt.old.get none x = none) (fun s =>
    { s with slt := { s.slt with old := s.slt.old.set none x (some (s.tabWords (CIRCUIT.E x) 6)) } })

/-- Before an entry changes: buckets are brought up to date at their old rates (R243, R277), a circuit's entry stays in
force. -/
def Hw.entryBefore (s : Hw) (k : GateSel) : Hw :=
  if k.gate = 9 ∧ k.row.id = 3 then s.circuitHold k.x
  else if k.gate = 7 then (if k.row.id = 1 then s.meterRefill k.x else if 3 ≤ k.row.id then s.schedBefore k.row.id k.x else s) else s

/-- MIRROR_BLOCKS bit and INSTANCE of a table, where its changes are mirrored (R458). -/
def GateSel.mirror (k : GateSel) : Option (Nat × Nat) :=
  match k.gate with
  | 5 => some (0, 0)
  | 6 => some (1, 0)
  | 7 => some (2, 0)
  | 9 => some (3, 0)
  | 10 => some (5, 0)
  | 11 => some (6, 0)
  | g => if 600 ≤ g then (if k.row.id = 3 then some (7, (g - 600) / 8) else none)
    else if 16 ≤ g ∧ g < 536 then some (4, g - 16) else none

/-- A key slot of the line cipher has been committed (R425). -/
def Hw.lineKeyLoaded (s : Hw) (x : Nat) : Hw :=
  if s.t (LINE_KEY.VALID x) = 1 then ((s.ts (LINE_KEY.USAGE x) 0).ts (LINE_KEY.SOFT_HIT x) 0).ts (LINE_KEY.HARD_HIT x) 0 else s

/-- An association has been committed (R430). -/
def Hw.saLoaded (s o : Hw) (x : Nat) : Hw :=
  if o.t (MACSEC_SA.VALID x) = 1 ∧ s.t (MACSEC_SA.VALID x) = 1 then s.keepEntry o (MACSEC_SA.PN x)
  else if s.t (MACSEC_SA.VALID x) = 1 then { s with cip := { s.cip with spent := s.cip.spent.filter (· != x), soft := s.cip.soft.filter (· != x) } }
  else s

/-- A circuit's entry has changed (R322, R332). -/
def Hw.circuitCommitted (s o : Hw) (x : Nat) : Hw :=
  match o.t (CIRCUIT.VALID x), s.t (CIRCUIT.VALID x) with
  | 0, 1 => s.circuitStart x
  | 1, 0 => s.note (4 + x) 24
  | _, _ => s

/-- An object's entry has changed: bins open or end, a bandwidth window begins from 0, thresholds are judged (R510, R511,
R513, R517). -/
def Hw.objCommitted (s o : Hw) (x : Nat) : Hw :=
  let s := s.onlyIf (o.t (PM_OBJ.WIN_EN x) = 0 ∧ s.t (PM_OBJ.WIN_EN x) = 1)
    (fun s => s.modObj x (fun p => { p with rxBytes := 0, txBytes := 0, rxFrames := 0, txFrames := 0 }))
  let s := s.onlyIf (o.t (PM_OBJ.EN x) ≠ s.t (PM_OBJ.EN x)) (fun s =>
    (s.onlyIf (s.t (PM_OBJ.EN x) = 1) (fun s => s.objOpen x)).note x 24)
  s.onlyIf (s.t (PM_OBJ.EN x) = 1) (fun s => s.tcaJudge x)

/-- What a change of an entry does at once; `o` is the state before it. -/
def Hw.entryChanged (s o : Hw) (k : GateSel) : Hw :=
  let x := k.x
  match k.gate, k.row.id with
  | 0, 4 => s.profileChanged 0 x
  | 1, 4 => s.profileChanged 1 x
  | 2, 4 => s.profileChanged 2 x
  | 3, 4 => s.profileChanged 3 x
  | 4, 1 => s.mapRecompute (x / 64)
  | 6, 5 => s.pfcPort x
  | 7, 1 => s.meterCommitted x
  | 7, 2 => s.meterFill x
  | 7, t => s.schedAfter t x (o.t (nodePRIO t x)) (o.t (nodePARENT t x))
  | 9, 3 => s.circuitCommitted o x
  | 10, 1 => s.slotCommitted x
  | 12, 1 => s.lineKeyLoaded x
  | 12, 2 => s.onlyIf (s.t (SECY.ACT_EN x) = 0) (fun s => s.ts (SECY.CUR_AN x) (s.t (SECY.ENC_AN x)))
  | 12, 3 => s.saLoaded o x
  | 14, 1 => s.maskChanged o x
  | 14, 2 => s.maskChanged o (x / 1024)
  | 14, 3 => s.objCommitted o x
  | 14, 4 => s.forAll (s.pmObjects.filter (fun o => s.t (PM_OBJ.TCA_PROF o) == x)) (fun s o => s.tcaJudge o)
  | _, _ => s

/-- A mirror record of the segment, where its block is mirrored. -/
def Hw.entryMirrored (s : Hw) (k : GateSel) (data : List Word) : Hw :=
  match k.mirror with
  | some (b, i) => s.mirrorPush { kind := 0, block := b, seg := k.seg, table := k.row.id, inst := i, index := k.x, data := data }
  | none => s

/-- Words of the segment take data, by word of the entry. -/
def Hw.putWords (s : Hw) (k : GateSel) (l : List (Nat × Word)) : Hw :=
  s.forAll l (fun s w => s.setTabWord (k.key w.1) (k.row.writeWord w.1 (s.tabWord (k.key w.1)) w.2))

/-- Words of the segment reach the entry: buckets are brought up to date first, and a meter that gets a TYPE counts time
from here (R243). A TCAM entry's parity is made anew (R208). -/
def Hw.writeWords (s : Hw) (k : GateSel) (l : List (Nat × Word)) : Hw :=
  let o := s.entryBefore k
  let s := o.putWords k l
  let s := s.onlyIf (k.gate = 5 ∧ k.row.id = 9) (fun s => { s with thr := { s.thr with upset := s.thr.upset.filter (· != k.x) } })
  s.onlyIf (k.gate = 7 ∧ k.row.id = 1) (fun s => s.meterTyped k.x (o.t (METER_CFG.TYPE k.x)))

/-- The data registers' words for a segment. -/
def Hw.segData (s : Hw) (k : GateSel) (data : List Word) : List (Nat × Word) :=
  (s.segWords k).map (fun w => (w, data.getD (w - 16 * k.seg) 0#32))

/-- A CVE key committed with TIMED = 1 becomes the slot's shadow (R435); the entry in force stays. -/
def Hw.cveTimed (s : Hw) (x : Nat) (data : List Word) : Hw :=
  let row := (tables 12).find? (fun r => r.id == 4)
  let word := fun (w : Nat) => match row with
    | some r => r.writeWord w (s.tabWord (CVE_KEY.E x + w)) (data.getD w 0#32)
    | none => 0#32
  s.cveShadow x ((List.range 16).foldl (fun n w => n + (word w).toNat * 2 ^ (32 * w)) 0)

/-- One indivisible update of a segment (COMMIT, R52), accepted; a change made by this terminal's masters is mirrored. -/
def Hw.commitSeg (s : Hw) (k : GateSel) (data : List Word) : Hw :=
  if k.gate = 12 ∧ k.row.id = 4 ∧ getField (data.getD 12 0#32) 2 1 = 1 then s.cveTimed k.x data
  else
    let o := s.entryBefore k
    let s := (s.writeWords k (s.segData k data)).entryGuard o k
    (s.entryChanged o k).entryMirrored k data

/-! ## The gate's own registers -/

def gateBUSY (b : Nat) : FRef := ⟨b + 0x48, 16, 1⟩
def gateERR (b : Nat) : FRef := ⟨b + 0x48, 17, 3⟩
def gateSEG (b : Nat) : FRef := ⟨b + 0x48, 4, 4⟩

/-- The segment that the gate registers of the block at `b` select; none where there is no such table. -/
def Hw.gateSel (s : Hw) (b : Nat) : Option GateSel :=
  (gateTable b (s.word (b + 0x40)).toNat).map (fun t =>
    { base := b, gate := t.1, row := t.2, x := (s.word (b + 0x44)).toNat, seg := s.rd (gateSEG b) })

/-- The data registers. -/
def Hw.gateData (s : Hw) (b : Nat) : List Word := (List.range 16).map (fun i => s.word (b + 0x80 + 4 * i))

/-- A running gate command of the block at `b` completes: a WRITE's remaining words are copied, BUSY clears, ERR holds
the result, and a non-zero ERR sets TBL_ERR (R53). -/
def Hw.gateFinish (s : Hw) (b : Nat) : Hw :=
  let g := gateOf b
  let r := s.gates.get {} g
  if r.op = 0 then s
  else
    let s := match s.gateSel b with
      | some k =>
        if r.op = 2 ∧ r.err = 0 then
          let s := s.writeWords k r.words
          let o := s.forAll r.old (fun s w => s.setTabWord (k.key w.1) w.2)
          let s := s.entryGuard o k
          -- CUR_AN takes ENC_AN at a COMMIT or a slot only (R429)
          (if k.gate = 12 ∧ k.row.id = 2 then s else s.entryChanged o k).entryMirrored k (s.gateData b)
        else s
      | none => s
    let s := { s with gates := s.gates.set {} g {} }
    let s := (s.wr (gateBUSY b) 0).wr (gateERR b) r.err
    s.onlyIf (r.err ≠ 0) (fun s => s.raise b EV.TBL_ERR)

/-- A gate command is running, with its result. -/
def Hw.gateRunning (s : Hw) (b : Nat) (r : GateRun) : Hw :=
  ({ s with gates := s.gates.set {} (gateOf b) r }).wr (gateBUSY b) 1

/-- The data registers take the segment (READ). -/
def Hw.gateRead (s : Hw) (b : Nat) (k : GateSel) : Hw :=
  let n := (s.segWords k).length
  let s' := s.forAll (List.range 16) (fun x i =>
    x.setWord (b + 0x80 + 4 * i) (if i < n then s.entryWord k.gate k.row k.x (16 * k.seg + i) else 0#32))
  if k.gate = 14 ∧ k.row.id = 5 then s'.drawn else s'

/-- A write of BLK_TBL_CMD with OP `op`. A running command completes first, as the write stalls until then. A READ and
a COMMIT act now; of a WRITE the words that a free value picks are copied now and the others when it completes, each
without the fields that the write as a whole leaves (R18). -/
def Hw.gateCommand (s : Hw) (b op : Nat) (v : Word) : Hw :=
  let s := (s.gateFinish b).wr (gateSEG b) (getField v 4 4)
  match s.gateSel b with
  | none => s.gateRunning b { op := op, err := 1 }
  | some k =>
    let err := s.entryErr k op
    if err ≠ 0 then s.gateRunning b { op := op, err := err }
    else match op with
      | 1 => (s.gateRead b k).gateRunning b { op := 1 }
      | 2 =>
        let whole := ((s.entryBefore k).putWords k (s.segData k (s.gateData b))).entryGuard s k
        let data := (s.segWords k).map (fun w => (w, whole.tabWord (k.key w)))
        let pick := fun (w : Nat × Word) => bitN (s.draw 32) (w.1 % 16) == 1
        let old := data.map (fun w => (w.1, s.tabWord (k.key w.1)))
        ((s.writeWords k (data.filter pick)).drawn).gateRunning b { op := 2, old := old, words := data.filter (fun w => !pick w) }
      | _ => (s.commitSeg k (s.gateData b)).gateRunning b { op := 3 }

/-- TABLE_READ (R52). -/
def execTableRead (m : Master) (b : Blk) (v : Word) (s : State) : Host.Outcome State Fault Refusal :=
  s.on (fun s => s.onAccess m (b.base + 0x48) true (fun s => s.gateCommand b.base 1 v))

/-- TABLE_WRITE (R52). -/
def execTableWrite (m : Master) (b : Blk) (v : Word) (s : State) : Host.Outcome State Fault Refusal :=
  s.on (fun s => s.onAccess m (b.base + 0x48) true (fun s => s.gateCommand b.base 2 v))

/-- TABLE_COMMIT (R52). -/
def execTableCommit (m : Master) (b : Blk) (v : Word) (s : State) : Host.Outcome State Fault Refusal :=
  s.on (fun s => s.onAccess m (b.base + 0x48) true (fun s => s.gateCommand b.base 3 v))

/-- What the check bits of the table's memory find as a command runs (R48): nothing, a corrected error (1), or one that
cannot be corrected (2): a READ then ends with ERR 5, and its data are free values, as the spec gives none (log entry
175). -/
def Hw.gateEcc (s : Hw) (b ecc : Nat) : Hw :=
  let r := s.gates.get {} (gateOf b)
  if r.op = 0 ∨ r.err ≠ 0 ∨ ecc = 0 then s
  else if ecc = 1 then s.raise b EV.MEM_CORR
  else
    let n := ((s.gateSel b).map (fun k => (s.segWords k).length)).getD 0
    let s := if r.op = 1 then
        let s := (s.forAll (List.range n) (fun x i =>
          x.setWord (b + 0x80 + 4 * i) (BitVec.ofNat 32 (s.draw 512 / 2 ^ (32 * i))))).drawn
        { s with gates := s.gates.set {} (gateOf b) { r with err := 5 } }
      else s
    s.raise b EV.MEM_UNCORR

/-- A running gate command ends. -/
def execTableCmdComplete (b : Blk) (s : State) (ecc : Fin 3 := 0) : Host.Outcome State Fault Refusal :=
  s.on (fun s => (s.gateEcc b.base ecc).gateFinish b.base)

/-! ## Gate commands with rows of their own (R244, R508) -/

/-- A COMMIT through the gate of the block at `b`: a running command completes first, `f` is what it does, and BUSY is set
until TABLE_CMD_COMPLETE (R53). -/
def Hw.gateCommit (s : Hw) (b : Nat) (f : Hw → Hw) : Hw := (f (s.gateFinish b)).gateRunning b { op := 3 }

/-- A WRITE or COMMIT to a METER_STAT entry: the gate command fills the buckets and clears the counters (R244). -/
def execMeterStatWrite (m : Master) (i : Fin 131072) (s : State) : Host.Outcome State Fault Refusal :=
  s.on (fun s => s.onAccess m 0x3000048 true (fun s => s.gateCommit 0x3000000 (·.meterFill i)))

/-- MASK of alarm `x` of a type, or TYPE_MASK of the whole type, takes a value as the gate command on its entry writes
it: raised alarms are logged as cleared or raised. An entry that does not exist takes nothing. -/
def Hw.alarmMask (s : Hw) (whole : Bool) (t x v : Nat) : Hw :=
  let o := s
  let s := if alarmEntry (if whole then 1 else 2) (if whole then t else t * 1024 + x) = false then s
    else if whole then s.ts (ALARM_TYPE.TYPE_MASK t) v else s.ts (ALARM_STATE.MASK (t * 1024 + x)) v
  s.maskChanged o t

/-- ALARM_MASK_WRITE (R508). -/
def execAlarmMaskWrite (m : Master) (whole : Bool) (t : Fin 32) (x : Fin 1024) (v : Fin 2) (s : State) :
    Host.Outcome State Fault Refusal :=
  s.on (fun s => s.onAccess m 0x9000048 true (fun s => s.gateCommit 0x9000000 (fun s => s.alarmMask whole t x v)))

/-! ## Mirror records received (R459, R460) -/

/-- A record is not applied. -/
def Hw.mirrorRefused (s : Hw) : Hw :=
  let s := (s.twnCount 8).setMirrorSync 0
  { s with twn := { s.twn with clean := false } }

/-- Base of the block a record names; none where there is no such instance. -/
def mirrorBase (block inst : Nat) : Option Nat :=
  match block with
  | 0 => some 0x2000000
  | 1 => some 0x2800000
  | 2 => some 0x3000000
  | 3 => some 0x4800000
  | 4 => if inst < 520 then some (0x4000000 + inst * 0x1000) else none
  | 5 => some 0x5000000
  | 6 => some 0x7000000
  | _ => if inst < 8 then some (0x6000000 + inst * 8 * 0x10000) else none

/-- A record of KIND 0 becomes one COMMIT of its segment by master 0x70; a running gate command completes first. -/
def Hw.mirrorEntry (s : Hw) (block seg table inst index : Nat) (data : List Word) : Hw :=
  match mirrorBase block inst with
  | none => s.mirrorRefused
  | some b =>
    if s.domOff (b + 0x48) = true ∨ (block = 7 ∧ table ≠ 3) then s.mirrorRefused
    else
      let s := (s.settle (b + 0x48)).gateFinish b
      match gateTable b table with
      | none => s.mirrorRefused
      | some t =>
        let k : GateSel := { base := b, gate := t.1, row := t.2, x := index, seg := seg }
        let closed := block == 6 && table == 1 && decide (128 ≤ index) && !s.secure .twin
        if s.entryErr k 3 ≠ 0 ∨ closed = true then s.mirrorRefused else s.commitSeg k data

/-- A record of KIND 1: the selected words of a flow context, as THR_CTX_UPDATE writes them. -/
def Hw.mirrorCtx (s : Hw) (flow mask : Nat) (data : List Word) : Hw :=
  if 2 ^ 20 ≤ flow ∨ s.rd THR_CTX_BASE.CTX_EN = 0 ∨ s.domOff THR_CTX_UPDATE.A = true then s.mirrorRefused
  else ((s.settle THR_CTX_UPDATE.A).ctxDone).ctxApply flow mask
    (fun n => (data.getD (2 * n) 0#32).toNat + 2 ^ 32 * (data.getD (2 * n + 1) 0#32).toNat)

/-- The record of a MIRROR frame: 8 octets of descriptor and 64 of data. -/
def Hw.mirrorRecord (s : Hw) (bs : Bytes) : Hw :=
  let d := beAt bs 0 4
  let data := (List.range 16).map (fun i => BitVec.ofNat 32 (beAt bs (8 + 4 * i) 4))
  if s.role ≠ STANDBY then s.mirrorRefused
  else match bitsOf d 29 3 with
    | 0 => s.mirrorEntry (bitsOf d 0 3) (bitsOf d 3 4) (bitsOf d 8 8) (bitsOf d 16 10) (beAt bs 4 4) data
    | 1 => s.mirrorCtx (beAt bs 4 4) (bitsOf d 8 8) data
    | 2 => { s with twn := { s.twn with clean := true } }
    | 3 => s.onlyIf (s.twn.clean = true) (fun s => s.setMirrorSync 1)
    | 4 =>
      let s := s.setMirrorSync 0
      { s with twn := { s.twn with clean := false } }
    | _ => s.mirrorRefused

/-- A MIRROR frame from the link. -/
def execMirrorRx (bs : Bytes) (s : State) : Host.Outcome State Fault Refusal :=
  s.on (fun s => s.twinRx 3 bs (fun s _ d => s.mirrorRecord d.1))

/-- A write of TWN_MIRROR_CFG with SWEEP (`some v`), or entry to UP (R460). -/
def Hw.mirrorSweep (s : Hw) (v : Word) : Hw :=
  let s := s.plainWrite TWN_MIRROR_CFG.A v
  if getField v 31 1 = 1 then s.sweepStart else s

/-- MIRROR_SWEEP (R460). -/
def execMirrorSweep (m : Master) (v : Word) (s : State) : Host.Outcome State Fault Refusal :=
  s.on (fun s => s.onAccess m TWN_MIRROR_CFG.A true (·.mirrorSweep v))

end Sys2Proof.Machine
end

