-- ==== Sys2Proof/Machine/Common.lean ====
section
/-!
DEFINITION. Plain reads and writes of registers and of the external memory window (R16-R18, R45, R46, R50, R51), the
interrupt set and end-of-interrupt registers (R48, R58), and the host's staging window (R497).
-/
namespace Sys2Proof.Machine

/-! ## 64-bit counters (R50, R51) -/

/-- The latch a read by `m` of the counter at `a` uses: an engine has a private one for its own instance (R382). -/
def latchOf (m : Master) (a : Nat) : Nat :=
  match m with
  | .engine e => if 0x6000000 ≤ a ∧ a < 0x7000000 then 16 + e.val else m.latch
  | _ => m.latch

/-- An engine may not read its cycle and event counters now (R382). -/
def Hw.perfClosed (s : Hw) (m : Master) (a : Nat) : Bool :=
  match m with
  | .engine e => decide (0x6000000 ≤ a ∧ a < 0x7000000 ∧ 0x1040 ≤ a % 0x10000 ∧ a % 0x10000 < 0x1100
      ∧ ¬(0x1048 ≤ a % 0x10000 ∧ a % 0x10000 < 0x10C0)) && s.rd (ENG_PERF_USER.USER e) == 0
  | _ => false

/-- The read of a counter that its engine may not read: 0, and a trap (R382). The fault of a trap without a handler needs
the instruction's address: ENGINE_DATA_ACCESS carries it, after the other rows it is the command ENGINE_FAULT. -/
def Hw.perfTrap (s : Hw) (m : Master) : Hw :=
  (match m with
    | .engine e => s.perf e 0x11
    | _ => s).answer 0#32

/-- A read of the lo half: the hi half goes into the reading master's latch. -/
def Hw.counterLo (s : Hw) (m : Master) (a : Nat) : Hw :=
  if s.perfClosed m a then s.perfTrap m
  else ({ s with latch := s.latch.set 0#32 (latchOf m a) (s.word (a + 4)) }).answer (s.word a)

/-- A read of the hi half: the latch. -/
def Hw.counterHi (s : Hw) (m : Master) (a : Nat) : Hw :=
  if s.perfClosed m a then s.perfTrap m else s.answer (s.latch.get 0#32 (latchOf m a))

/-- A byte counter of the first port of a lane is about to be cleared: what rate-down has yet to count of its interval is
kept (R305). -/
def Hw.octetsCleared (s : Hw) (a : Nat) : Hw :=
  let less := fun (base : Nat) => (base + 2 ^ 64 - s.val64 a) % 2 ^ 64
  match (List.range 64).find? (fun l => a == SUB_RX_BYTES.A (8 * l) || a == SUB_TX_BYTES.A (8 * l)) with
  | none => s
  | some l =>
    if a = SUB_RX_BYTES.A (8 * l) then s.modLane l (fun x => { x with rdRx := less x.rdRx })
    else s.modLane l (fun x => { x with rdTx := less x.rdTx })

/-- A write of the lo half. -/
def Hw.counterClear (s : Hw) (a : Nat) (v : Word) : Hw :=
  if v = 0#32 then ((s.octetsCleared a).setWord a 0#32).setWord (a + 4) 0#32 else s

/-- Access type of the first field of the register at `a`. -/
def accOf (a : Nat) : Acc := (((rowAt a).bind (fun r => r.fields.head?)).map FieldRow.acc).getD .ro

/-- `a` holds the lo half of a 64-bit counter; SFC's lo half is read like one (R50). -/
def isLo (a : Nat) : Bool := accOf a == .c64lo || accOf a == .sfclo
/-- The address is the hi half of a 64-bit counter (R50). -/
def isHi (a : Nat) : Bool := accOf a == .c64hi || accOf a == .sfchi

/-- COUNTER_LO_READ (R50). -/
def execCounterLoRead (m : Master) (a : Fin 268435456) (s : State) : Host.Outcome State Fault Refusal :=
  s.on (fun s => s.onAccess m a false (fun s => s.onlyIf (isLo a = true) (fun s => s.counterLo m a)))
/-- COUNTER_HI_READ (R50). -/
def execCounterHiRead (m : Master) (a : Fin 268435456) (s : State) : Host.Outcome State Fault Refusal :=
  s.on (fun s => s.onAccess m a false (fun s => s.onlyIf (isHi a = true) (fun s => s.counterHi m a)))
/-- COUNTER_CLEAR (R51). -/
def execCounterClear (m : Master) (a : Fin 268435456) (v : Word) (s : State) : Host.Outcome State Fault Refusal :=
  s.on (fun s => s.onAccess m a true (fun s => s.onlyIf (accOf a = .c64lo) (fun s => s.counterClear a v)))

/-! ## Interrupt set and end of interrupt (R48, R58) -/

/-- The status bits that block `b` has: the fields of its BLK_INT_STATUS. -/
def statusMask (b : Nat) : Word :=
  match rowAt b with
  | some r => r.fields.foldl (fun (w : Word) f => w ||| fieldMask f.lo f.width) 0#32
  | none => 0#32

/-- A write of BLK_INT_SET sets status bits (R48). -/
def Hw.intSet (s : Hw) (b : Nat) (v : Word) : Hw :=
  s.statusChange b (fun s => s.setWord b (s.word b ||| (v &&& statusMask b)))

/-- INT_SET (R48). -/
def execIntSet (m : Master) (b : Blk) (v : Word) (s : State) : Host.Outcome State Fault Refusal :=
  s.on (fun s => s.onAccess m (b.base + 8) true (fun s => s.intSet b.base v))

/-- A write of GLB_INT_EOI (R58). -/
def Hw.intEoi (s : Hw) (v : Word) : Hw :=
  let n := getField v 0 5
  if s.summary n then s.routeMsix n else s

/-- INT_EOI (R58). -/
def execIntEoi (m : Master) (v : Word) (s : State) : Host.Outcome State Fault Refusal :=
  s.on (fun s => s.onAccess m GLB_INT_EOI.A true (·.intEoi v))

/-! ## Plain reads -/

/-- RC fields of the register are cleared by the read that has returned them (R16). -/
def Hw.readClears (s : Hw) (r : RegRow) (a : Nat) : Hw :=
  if r.fields.any (fun f => f.acc == .rc) then
    s.setWord a (r.fields.foldl (fun (w : Word) f => if f.acc = .rc then setField w f.lo f.width 0 else w) (s.word a))
  else s

/-- Address of a CVE register (R433). -/
def isCve (a : Nat) : Bool := decide (CVE_CTRL.A ≤ a ∧ a < CVE_CTRL.A + 0xC0)

/-- Master `m` reads the register at `a`. A register whose read is a row of the table of its own is read as that row
says. -/
def Hw.readReg (s : Hw) (m : Master) (a : Nat) : Hw :=
  match rowAt a with
  | none => s.answer 0#32
  | some r =>
    if isCve a && !s.cveOwner m then s.answer 0#32
    else if isLo a then s.counterLo m a
    else if isHi a then s.counterHi m a
    else if r.base = HW_LOCK.A 0 then s.lockRead ((a - r.base) / 4) m.id []
    else if r.base = MBX_SEND.A 0 then s.mbxSend m.id ((a - r.base) / 4)
    else if r.base = MBX_RX_STATUS.A 0 then s.mbxEmptyRead m.id ((a - r.base) / 0x40)
    else if r.base = CTL_UART_DATA.A then s.uartRead
    else if r.base = HSK_RNG.A then s.rngRead
    else if r.base = TIM_NOW_NS.A then s.nowRead m
    else (s.answer (s.view m r.base a (s.word a))).readClears r a

/-- A read of the external memory window (R45). -/
def Hw.readExt (s : Hw) (mem : List Host.Cell) (off : Nat) : Hw :=
  (s.extRead mem off 4).1.answer (BitVec.ofNat 32 (leNat (s.extRead mem off 4).2))

/-! ## Plain writes -/

/-- Base of the block whose gate registers hold `a` (R52, R53). -/
def gateRegBase (a : Nat) : Option Nat :=
  let b := a - a % 0x1000
  if 0x40 ≤ a % 0x1000 ∧ a % 0x1000 < 0xC0 ∧ isStatusAddr b ∧ (rowAt (b + 0x48)).isSome then some b else none

/-- What a plain write of the register at `a` does beside its fields; `o` is the state before it. -/
def Hw.wrote (s o : Hw) (base a : Nat) : Hw :=
  let i := (a - base) / 4
  if base = THR_SLICE_CFG.A 0 then
    s.onlyIf (o.rd (THR_SLICE_CFG.WIDTH i) ≠ s.rd (THR_SLICE_CFG.WIDTH i)) (fun s =>
      s.forAll ((s.listed 5 9).filter (fun x => x / 16384 == i)) (fun s x => s.ts { TCAM.CTRL x with width := 1 } 0))
  else if base = TIL_GLN_CFG.A 0 then
    let k := (a - base) / 0x10
    s.onlyIf (o.rd (TIL_GLN_CFG.EN k) = 0 ∧ s.rd (TIL_GLN_CFG.EN k) = 1) (fun s => s.wr (TIL_GLN_STATUS.HELD k) 0)
  else if base = GRN_POOL_PAUSE.A then s.poolUpdate 512
  else if base = TIM_CTRL.A then s.clkSync
  else if base = PM_CFG.A then
    s.onlyIf (o.rd PM_CFG.BIN_EN = 0 ∧ s.rd PM_CFG.BIN_EN = 1) (fun s => s.forAll s.pmObjects (fun s o => s.secondOpen o))
  else if base = SUB_PORT_CTRL.A 0 then s.lpiSync ((a - base) / 0x1000 / 8)
  else if base = SRD_LANE_CTRL.A 0 then s.laneSync ((a - base) / 0x10000)
  else if base = SRD_PRBS_CTRL.A 0 then (s.prbsHalt (.sub (Fin.ofNat 72 ((a - base) / 0x10000)))).laneSync ((a - base) / 0x10000)
  else if base = TRK_PRBS_CTRL.A 0 then s.prbsHalt (.trunk (Fin.ofNat 4 ((a - base) / 0x100000)))
  else if base = CTL_WDOG.A then
    s.onlyIf (o.rd CTL_WDOG.TIMEOUT = 0 ∧ s.rd CTL_WDOG.TIMEOUT ≠ 0) (·.wdogRestart)
  else if base = RING_CTRL.A 0 0 then
    let r := (a - base) % 0x10000 / 0x40
    s.onlyIf (a - base < 0x10000) (fun s => s.ringFreed r)
  else if a = 0x7000000 then s.ctlLevels
  else if base = TWN_CTRL.A then s.onlyIf (s.paired = true) (·.negotiate)
  else if isStatusAddr a ∧ 0x1000000 ≤ a ∧ a < 0x1400000 then
    let c := (a - 0x1000000) / 0x100000
    s.onlyIf (s.rd (TRK_PLOAM_RX.LEVEL c) ≠ 0) (fun s => s.trkRaise c EV_TRK.PLOAM_RX)
  else s

/-- Master `m` writes `v` to the register at `a`: the fields without a row of their own. -/
def Hw.writeReg (s : Hw) (m : Master) (a : Nat) (v : Word) : Hw :=
  match rowAt a with
  | none => s
  | some r =>
    if isCve a && !s.cveOwner m then s.count (CIP_CNT.COUNT 0)
    else if aliasCloses m a then s
    else if accOf a = .c64lo then s.counterClear a v
    else if r.base = MBX_STAGE.A 0 then
      { s with ctl := { s.ctl with stage := s.ctl.stage.set 0#32 (m.id * 8 + (a - r.base) / 4) v } }
    else if (decide (CTL_UART_CFG.A = a)) && s.rd HSK_STATUS.HANDOFF == 0 then s
    else
      let s := match gateRegBase a with
        | some b => s.gateFinish b
        | none => s
      let s := if a = THR_CTX_UPDATE.A ∨ a = THR_CTX_INVAL.A ∨ (THR_CTX_DATA.A 0 ≤ a ∧ a < THR_CTX_DATA.A 16) then s.ctxDone
        else if a = HSK_CMD.A ∨ (HSK_ARG.A 0 ≤ a ∧ a < HSK_ARG.A 4) then s.hskDone else s
      let head := if isStatusAddr a then some a else if 4 ≤ a && isStatusAddr (a - 4) then some (a - 4) else none
      let s' := match head with
        | some b => s.statusChange b (fun s => s.plainWrite a v)
        | none => s.plainWrite a v
      s'.wrote s r.base a

/-! ## The host's staging window (R497) -/

abbrev stageBase : Nat := 0xC000000
abbrev loadWord : Nat := 0xF000000

/-- Boot path 0b10 is in force and Husk has not handed off. -/
def Hw.hostLoad (s : Hw) : Bool := s.rd GLB_STRAP.BOOT_SEL == 2 && s.rd HSK_STATUS.HANDOFF == 0

/-- The host accesses the staging window or reads the load word. -/
def Hw.stages (s : Hw) (m : Master) (a size : Nat) (acc : Access) : Bool :=
  m == .host && s.hostLoad && size == 4 && a % 4 == 0 &&
    (decide (stageBase ≤ a ∧ a < loadWord) || (a == loadWord && acc == .read))

/-- The load word. -/
def Hw.loadState (s : Hw) : Word :=
  BitVec.ofNat 32 (s.hsk.lastLoad + b2n s.hsk.load.isSome * 2 ^ 4 + b2n s.hsk.loaded * 2 ^ 5)

/-- An access of the host to the staging window (R497). -/
def Hw.stageAccess (s : Hw) (a : Nat) : Access → Hw
  | .read =>
    if a = loadWord then s.answer s.loadState
    else s.answer (BitVec.ofNat 32 (leNat ((List.range 4).map (fun i => s.hsk.staging.get 0#8 (a - stageBase + i)))))
  | .write v =>
    if s.hsk.load.isSome then s
    else
      let put := fun (m : Sparse Byte) (i : Nat) => m.set 0#8 (a - stageBase + i) (BitVec.ofNat 8 (v.toNat / 256 ^ i))
      s.modHsk (fun h => { h with staging := (List.range 4).foldl put h.staging })

/-! ## BAR2 of the PCIe host (R389) -/

/-- BAR2 stands at these addresses of the host's accesses, above the register space and the external window (DESIGN
CHOICE, log entry 147). -/
abbrev bar2 : Nat := 0x8000000000

/-- The address an access by `m` at `a` names: the ring registers of BAR2 are an alias (R389). -/
def busAddr (m : Master) (a : Nat) : Nat :=
  if m = .host ∧ bar2 ≤ a ∧ a < bar2 + 0x20000 then 0x7400000 + (a - bar2) else a

/-- The host accesses a word of the MSI-X table or of its pending-bit array, and the endpoint takes it. -/
def Hw.msixArea (s : Hw) (m : Master) (a size : Nat) : Bool :=
  m == .host && size == 4 && a % 4 == 0 && decide (bar2 + 0x20000 ≤ a ∧ a < bar2 + 0x28100)
    && s.rd HSK_STATUS.HANDOFF == 1 && s.cond 29 != 2

/-- An access to the MSI-X table or the pending-bit array (R389). -/
def Hw.msixAccess (s : Hw) (a : Nat) (acc : Access) : Hw :=
  let i := (a - (bar2 + 0x20000)) / 4
  match acc with
  | .read => s.answer (if i < 0x2000 then s.msixWord (i / 4) (i % 4) else s.pbaWord (i - 0x2000))
  | .write v => if i < 0x2000 then s.msixWrite (i / 4) (i % 4) v else s

/-! ## The access -/

/-- Master `m` reads or writes `size` octets at `a`. -/
def Hw.access (s : Hw) (mem : List Host.Cell) (m : Master) (a size : Nat) (acc : Access) : Hw :=
  let write := acc != .read
  let a := busAddr m a
  if s.deaf m then s.answer 0#32
  else if s.stages m a size acc then s.stageAccess a acc
  else if s.msixArea m a size then (s.endReset 29).wakeByAccess 29 |>.msixAccess a acc
  else
    let s := match m with
      | .engine e => s.perf e 0x0C
      | _ => s
    match s.accessError m a size write with
    | 0 =>
      if extBase ≤ a then
        let s := s.wakeByAccess 14
        match acc with
        | .read => s.readExt mem (a - extBase)
        | .write v => s.memWrite (a - extBase) (leBytes 4 v.toNat)
      else
        let s := s.settle a
        match acc with
        | .read => s.readReg m a
        | .write v => s.writeReg m a v
    | r + 1 => (s.busError m a write (r + 1)).answer 0#32

/-- REGISTER_WRITE (R16). -/
def execRegisterWrite (m : Master) (a : Fin 1099511627776) (size : Nat) (acc : Access) (s : State) :
    Host.Outcome State Fault Refusal :=
  s.onMem (fun mem s => s.access mem m a size acc)

/-! ## Data accesses of engine programs (R360) -/

/-- A program's access to a register at global address `g`, through its alias or, `far`, through the register space, which
holds nothing of the ENG window for it. An access error is a fault of the program (R46, R360, R378), and so is the trap
of a counter it may not read, where TRAP_PC = 0 (R382). -/
def Hw.engineReg (s : Hw) (mem : List Host.Cell) (e : Fin 64) (pc a g n : Nat) (far : Bool) (w : Option Bytes) : Hw :=
  let m : Master := .engine e
  let shut := far && decide (0x6000000 ≤ g ∧ g < 0x7000000)
  let bad := shut || s.accessError m g n w.isSome != 0
  let traps := !bad && w.isNone && (isLo g || isHi g) && s.perfClosed m g && s.capRd (ENG_TRAP.TRAP_PC e) == 0
  let acc : Access := match w with
    | some bs => .write (BitVec.ofNat 32 (leNat bs))
    | none => .read
  let s := if shut then ((s.perf e 0x0C).busError m g w.isSome 2).answer 0#32 else s.access mem m g n acc
  let s := if w.isSome then s else { s with edata := if n = 4 then leBytes 4 s.rdata.toNat else List.replicate n 0 }
  let s := s.onlyIf bad (fun s => s.engineFault e 2 pc a)
  s.onlyIf traps (fun s => s.engineFault e 6 pc a)

/-- A data access of the program on engine `e` by its local address (R360). -/
def Hw.engineAccess (s : Hw) (mem : List Host.Cell) (e : Fin 64) (pc a n : Nat) (w : Option Bytes) : Hw :=
  let k := (w.map List.length).getD n
  let within := fun (lo hi : Nat) => decide (lo ≤ a ∧ a + k ≤ hi)
  if s.executing e && k != 0 && within 0x200000 0x210000 then
    s.engineReg mem e pc a (0x6000000 + e * 0x10000 + (a - 0x200000)) k false w
  else if s.executing e && k != 0 && within 0x100000000 0x110000000 then
    s.engineReg mem e pc a (a - 0x100000000) k true w
  else s.engineData mem e pc a n w

/-- ENGINE_DATA_ACCESS (R360). -/
def execEngineDataAccess (e : Fin 64) (pc : Fin 65536) (a : Fin 1099511627776) (n : Fin 65) (w : Option Bytes) (s : State) :
    Host.Outcome State Fault Refusal :=
  s.onMem (fun mem s => s.engineAccess mem e pc a n w)

end Sys2Proof.Machine
end

