-- ==== Sys2Proof/Machine/Boot.lean ====
section
/-!
DEFINITION. Start-up (spec/19): choice and check of the image, its records, HANDOFF, confirmation, and the two boot paths
that bring an image from outside (R487-R499).
-/
namespace Sys2Proof.Machine

/-! ## A write of a whole register -/

/-- The function whose control register is at `a`, an instance of the register first found at `base`. -/
def fnOfCtl (base a : Nat) : Option Fn :=
  let off := a - base
  let fin := fun (n : Nat) [NeZero n] (x : Nat) => Fin.ofNat n x
  if base = TRK_PMA_CTRL.A 0 then some (.trk (fin 4 (off / 0x100000)))
  else if base = SHF_MBR_CTRL.A 0 0 then some (.member (fin 16 (off / 0x100)) (fin 4 (off % 0x100 / 8)))
  else if base = SRD_LANE_CTRL.A 0 then some (.lane (fin 64 (off / 0x10000)))
  else if base = SUB_PORT_CTRL.A 0 ∧ off / 0x1000 < 512 then some (.port (fin 512 (off / 0x1000)))
  else if base = SLT_PAGE_CTRL.A 0 then some (.page (fin 2 (off / 8)))
  else if base = ENG_CTRL.A 0 then some (.engine (fin 64 (off / 0x10000)))
  else if base = RING_CTRL.A 0 0 then some (.ring (fin 2 (off / 0x10000)) (fin 1024 (off % 0x10000 / 64)))
  else if base = TWN_CTRL.A then some .twinLink
  else none

/-- CMD of TRK_ACT_CTRL. -/
def Hw.actCommand (s : Hw) (c cmd : Nat) (v : Word) : Hw :=
  match cmd with
  | 1 => s.enterO4 c v false
  | 2 => s.enterO5 c v false
  | 3 => s.deactivate c v false
  | 4 => s.restart c v false
  | _ => s

/-- Registers of a trunk channel whose writes are commands of their own; none for another register. -/
def Hw.trkWriteAll (s : Hw) (base a : Nat) (v : Word) : Option Hw :=
  let c := (a - base) / 0x100000
  let lane : RxLane := .trunk (Fin.ofNat 4 c)
  if base = TRK_RX_BOUNDS.A 0 then some (s.rxBounds lane v)
  else if base = TRK_LOS_CFG.A 0 then some ((s.fullWrite a v).losCount c)
  else if base = TRK_TWI_CFG.A 0 then some (s.twiRecover c v)
  else if base = TRK_TWI_CMD.A 0 then some (s.twiCommand c v)
  else if base = TRK_PRBS_CTRL.A 0 then some (s.prbsClear lane v)
  else if base = TRK_DLN_CFG.A 0 then some (s.resync c v)
  else if base = TRK_PLOAM_RX.A 0 then some (s.ploamPop c v)
  else if base = TRK_ACT_CTRL.A 0 then some (((s.testHold c v).wsAllowed c v).actCommand c (getField v 8 3) v)
  else if base = TRK_EQD.A 0 then some (s.eqdWrite c v)
  else if base = TRK_KEY_SWITCH.A 0 then some (s.keyArm c v)
  else if base = TRK_PLOAM_TX.A 0 then some (s.ploamPush c v)
  else none

/-- The same for the registers of lanes, ports, Granary, scheduling, slot service and time. -/
def Hw.datWriteAll (s : Hw) (base a : Nat) (v : Word) : Option Hw :=
  let off := a - base
  if base = GRN_Q_FLUSH.A then some (s.queueFlush v)
  else if base = GRN_DRAM_CFG.A then some (s.dramInit v)
  else if base = GRN_DRAM_CH_CTRL.A 0 then
    let r := off / 8
    let s := s.onlyIf (getField v 0 1 = 1 ∧ s.dramActive r = true) (fun s => s.wr (GRN_DRAM_CH_STATUS.CH_STATE r) 1)
    some (s.onlyIf (getField v 1 1 = 1 ∧ s.dramActive r = true ∧ (List.range 4).all (fun q => s.chState q != 3) = true)
      (fun s => s.wr (GRN_DRAM_CH_STATUS.CH_STATE r) 2))
  else if base = TMS_SHP_CMD.A then some (s.shpCmd v)
  else if base = SRD_LANE_EQ.A 0 then some (s.rxBounds (.sub (Fin.ofNat 72 (off / 0x10000))) v)
  else if base = SRD_PRBS_CTRL.A 0 then some (s.prbsClear (.sub (Fin.ofNat 72 (off / 0x10000))) v)
  else if base = SRD_RECAL.A 0 then
    some ((s.plainWrite a v).onlyIf (getField v 0 1 = 1) (fun s => s.recalStart (off / 0x10000)))
  else if base = SRD_MDIO_CMD.A 0 then some (s.mdioCommand (off / 0x20) (getField v 10 2) v)
  else if base = SUB_GATE_CTRL.A 0 then some (s.gateChange (off / 0x1000) v)
  else if base = SLT_PSW_CMD.A then some (s.selectorCommand (getField v 10 3) v)
  else if base = TIM_CTRL.A then some (s.sourceWrite v)
  else if base = TIM_SET_CMD.A then some (s.timSetCmd (getField v 0 2))
  else if base = TIM_TOD_ARM.A then some (s.todArm v)
  else if base = TIM_TSQ.A 0 then some (s.tsqPop (off / 0x20) v)
  else if base = TIM_CAP.A 0 then some (s.capturePop (off / 0x10) v)
  else none

/-- The same for the registers of classifier, control complex, Husk, ciphers, twin, power and log. -/
def Hw.ctlWriteAll (s : Hw) (mem : List Host.Cell) (m : Master) (base a : Nat) (v : Word) : Option Hw :=
  let off := a - base
  if base = THR_CTX_UPDATE.A then some (s.ctxUpdateWrite mem v)
  else if base = THR_CTX_INVAL.A then
    let s := s.ctxDone.fullWrite a v
    some (if getField v 31 1 = 0 then s else s.ctxInval (getField v 0 20))
  else if base = THR_EPOCH_CTRL.A then some (s.epochSwap v)
  else if base = CTL_WDOG_KICK.A then some (s.onlyIf (v = 0x4B1C#32) (·.wdogRestart))
  else if base = HW_LOCK.A 0 then some (s.lockRelease (off / 4) v)
  else if base = HW_LOCK_BREAK.A then some (s.lockBreak m v)
  else if base = MBX_RX_STATUS.A 0 then some (s.mbxPop (off / 0x40) v)
  else if base = MBX_DB_SET.A then some (s.dbRing (getField v 0 10))
  else if base = CTL_UART_DATA.A then some (s.uartWrite (BitVec.ofNat 8 v.toNat))
  else if base = RING_TAIL.A 0 0 then some (s.ringTail (off / 0x10000) (off % 0x10000 / 64) v)
  else if base = RING_INT_ACK.A 0 0 then some (s.modRing (off / 0x10000) (off % 0x10000 / 64) (fun x => { x with level := false }))
  else if base = HSK_CMD.A then some (s.hskDone.fullWrite a v)
  else if base = CIP_CFG.A then some (s.zeroise v)
  else if base = CVE_CTRL.A then
    let op := if getField v 0 2 = 0 then s.rd CVE_CTRL.OP else getField v 0 2
    some (if getField v 31 1 = 1 ∧ s.cveOwner m = true ∧ op ≠ 0 then s.cveGo mem m op v else s.writeReg m a v)
  else if base = TWN_MIRROR_CFG.A then some (s.mirrorSweep v)
  else if base = PWR_STATE_REQ.A then some (s.stateRequest v)
  else if base = PWR_TRIM_MASK.A then some (s.trimWrite v)
  else if base = PWR_DOM_OFF.A then some (s.domOffWrite v)
  else if base = PM_LOG.A then some (s.logPop v)
  else if base = GLB_SOFT_RESET.A then
    some (s.forAll ((List.range 32).filter (fun d => decide (2 ≤ d) && bitN v.toNat d == 1)) (fun s d => s.softReset d))
  else if base = GLB_CHIP_RESET.A then
    some (if v = 0x4512#32 then (s.chipReset GLB_RESET_CAUSE.CHIP).wr GLB_RESET_CAUSE.MASTER m.id else s)
  else if base = GLB_INT_EOI.A then some (s.intEoi v)
  else none

/-- A function's control register: ENABLE, and the bits beside it that are commands (R172, R467, R469). -/
def Hw.fnWriteAll (s : Hw) (f : Fn) (v : Word) : Hw :=
  let s := s.fnWrite f (getField v 0 1) v
  match f with
  | .member g c => s.onlyIf (getField v 1 1 = 1 ∧ s.phase g c = 5) (fun s => s.joinStart g c)
  | .twinLink =>
    let s := s.onlyIf (getField v 7 1 = 1) (·.handoverStart)
    s.onlyIf (getField v 8 1 = 1 ∧ s.coveredO5 = true) (fun s => s.setRedirect 0)
  | _ => s

/-- Master `m` writes `v` to the register at `a`, every field of it, those with rows of their own as their rows say. -/
def Hw.writeAll (s : Hw) (mem : List Host.Cell) (m : Master) (a : Nat) (v : Word) : Hw :=
  match rowAt a with
  | none => s
  | some r =>
    if 8 ≤ a ∧ isStatusAddr (a - 8) = true then s.intSet (a - 8) v
    else if gateRegBase a = some (a - 0x48) ∧ getField v 0 2 ≠ 0 then s.gateCommand (a - 0x48) (getField v 0 2) v
    else match fnOfCtl r.base a with
      | some f => s.fnWriteAll f v
      | none => match s.trkWriteAll r.base a v with
        | some x => x
        | none => match s.datWriteAll r.base a v with
          | some x => x
          | none => match s.ctlWriteAll mem m r.base a v with
            | some x => x
            | none => s.writeReg m a v

/-! ## Choice of the image (R487, R494) -/

/-- The path BOOT_SEL selects (R487). -/
abbrev Hw.bootPath (s : Hw) : Nat := s.rd GLB_STRAP.BOOT_SEL

/-- The boot ROM runs: the phase, the clock it needs, no TEST_MODE (R63, R523). -/
def Hw.booting (s : Hw) (p : BootPhase) : Bool :=
  s.hsk.phase == p && s.rd GLB_CLK_STATUS.SYS_OK == 1 && s.rd GLB_STRAP.TEST_MODE == 0

/-- GEN `x` is newer than GEN `y`. -/
def genNewer (x y : Nat) : Bool :=
  let d := (x + 2 ^ 32 - y) % 2 ^ 32
  decide (1 ≤ d ∧ d < 2 ^ 31)

/-- Both headers have been read on path 0b00: the newer slot, its trial, and the order in which slots are tried (log
entry 42). -/
def Hw.chooseSlots (s : Hw) (a b : Bytes) : Hw :=
  let gens := [imgGen a, imgGen b]
  let new := match headerOk a, headerOk b with
    | true, true => if genNewer (imgGen b) (imgGen a) then 1 else 0
    | false, true => 1
    | _, _ => 0
  let gen := gens.getD new 0
  let both := headerOk a == headerOk b
  let s := if headerOk a || headerOk b then
      if s.rd HSK_TRIAL_GEN.TRIAL_GEN = gen then s
      else (s.wr HSK_TRIAL_GEN.TRIAL_GEN gen).wr HSK_BOOT_CTRL.ATTEMPTS 0
    else s
  let back := gen != s.rd HSK_CONF_GEN.CONF_GEN && decide (s.rd HSK_BOOT_CTRL.TRY_LIMIT ≤ s.rd HSK_BOOT_CTRL.ATTEMPTS)
  let order := if !both then [new] else if back && headerOk a then [1 - new, new] else [new, 1 - new]
  s.modHsk (fun h => { h with left := some order, first := order.head?, newer := some new })

/-- The slots of the path, once they are known. -/
def Hw.slotsKnown (s : Hw) (a b : Bytes) : Hw :=
  if s.hsk.left.isSome then s
  else match s.bootPath with
    | 0 => s.chooseSlots a b
    | 1 => s.modHsk (fun h => { h with left := some [1], first := some 1 })
    | _ => s

/-! ## HALT (R496) -/

/-- One hexadecimal digit. -/
def hexDigit (n : Nat) : String := ((("0123456789abcdef".toList).getD (n % 16) '0')).toString

/-- Every image the path allows has failed. -/
def Hw.halt (s : Hw) : Hw :=
  (s.modHsk (fun h => { h with phase := .halt })).consolePrint
    ("JN-4512 BOOT FAIL A=" ++ hexDigit (s.rd HSK_BOOT_INFO.RESULT_A) ++ " B=" ++ hexDigit (s.rd HSK_BOOT_INFO.RESULT_B)
      ++ " X=" ++ hexDigit (s.rd HSK_BOOT_INFO.APPLY_RESULT))

/-- An image has failed, by a check or in its application: the next slot, HALT, or a new load (R487). -/
def Hw.imageFailed (s : Hw) : Hw :=
  match s.bootPath with
  | 2 => s.modHsk (fun h => { h with phase := .boot, image := [], load := none, loaded := false })
  | 3 => (s.modHsk (fun h => { h with phase := .boot, image := [] })).recoveryPrompt
  | _ =>
    let rest := (s.hsk.left.getD []).drop 1
    let s := s.modHsk (fun h => { h with phase := .boot, image := [], left := some rest })
    if rest = [] then s.halt else s

/-! ## Verification (R415) -/

/-- Husk has read and checked image `img` with a result. -/
def Hw.imageJudged (s : Hw) (img : Bytes) (res : Nat) : Hw :=
  let slot := ((s.hsk.left.getD []).head?).getD 0
  let s := s.wr HSK_STATUS.BOOT_RESULT res
  let s := match s.bootPath with
    | 2 => s.modHsk (fun h => { h with load := none, loaded := res == 0 || res == 8, lastLoad := res })
    | 3 => s.modHsk (fun h => { h with load := none, xmodem := [] })
    | _ => if slot = 0 then (s.wr HSK_BOOT_INFO.A_TRIED 1).wr HSK_BOOT_INFO.RESULT_A res
        else (s.wr HSK_BOOT_INFO.B_TRIED 1).wr HSK_BOOT_INFO.RESULT_B res
  if res = 0 ∨ res = 8 then
    let s := (s.wr HSK_STATUS.BOOT_SLOT slot).wr HSK_STATUS.IMAGE_SVN (imgSvn img)
    let s := s.onlyIf (res = 0) (fun s => (s.wr HSK_STATUS.RSA_SLOT (imgRsaSlot img)).wr HSK_STATUS.SLH_SLOT (imgSlhSlot img))
    s.modHsk (fun h => { h with phase := .apply, slot := slot, image := img, signed := res == 0, next := 0, wait := none })
  else s.imageFailed

/-- The image in hand: of a flash slot as the flash holds it, of a load as the host staged it, of recovery as sent. -/
def Hw.imageRead (s : Hw) (a b : Bytes) : Bytes :=
  match s.bootPath with
  | 2 => (List.range (s.hsk.load.getD 0)).map (fun i => s.hsk.staging.get 0#8 i)
  | 3 => s.hsk.xmodem
  | _ => if (s.hsk.left.getD []).head? = some 1 then b else a

/-- Slot `k` as Husk reads it: one that lies beyond the flash holds nothing (R487). -/
def Hw.slotRead (s : Hw) (k : Nat) (bs : Bytes) : Bytes :=
  match s.hsk.flash with
  | some f => if f.1 ≤ k * 0x4000000 then [] else bs
  | none => bs

/-- IMAGE_VERIFY_DONE: `a` and `b` are what flash slots A and B hold, `flash` the size and octal DDR mode that SFDP reports
(log entry 43). -/
def Hw.imageVerify (s : Hw) (a b : Bytes) (readErr : Bool) (flash : Nat × Bool) : Hw :=
  if !s.booting .boot || (decide (2 ≤ s.bootPath) && s.hsk.load.isNone) then s
  else
    let s := s.onlyIf (s.bootPath < 2) (fun s => s.spiRelease.modHsk (fun h => { h with flash := some flash }))
    let a := s.slotRead 0 a
    let b := s.slotRead 1 b
    let s := s.slotsKnown a b
    let raw := s.imageRead a b
    let img := raw.take (imgLen raw)
    s.imageJudged img (s.judge s.bootPath img readErr)

/-- IMAGE_VERIFY_DONE (R415). -/
def execImageVerifyDone (slotA slotB : Bytes) (readErr : Bool) (s : State) (flash : Nat × Bool := (0x8000000, true)) :
    Host.Outcome State Fault Refusal :=
  s.on (fun s => s.imageVerify slotA slotB readErr flash)

/-! ## Application (R492, R493) -/

/-- Husk resets every domain but AON and HUSK as GLB_CHIP_RESET does; the cause is HUSK. -/
def Hw.resetForImage (s : Hw) : Hw :=
  let h := s.hsk
  let s := s.wr GLB_RESET_CAUSE.HUSK 1
  ({ (s.blank (fun a => inAon a || decide (0x7800000 ≤ a ∧ a < 0x8000000)) roleKept) with hsk := h }).timRestart

/-- Application stops at the record in hand with a failure code. -/
def Hw.applyFailed (s : Hw) (code : Nat) : Hw :=
  let s := (s.wr HSK_BOOT_INFO.APPLY_RESULT code).wr HSK_BOOT_INFO.REC_INDEX s.hsk.next
  s.resetForImage.imageFailed

/-- The record in hand has been carried out. -/
def Hw.recordDone (s : Hw) : Hw :=
  if s.hsk.phase = .apply then s.modHsk (fun h => { h with next := h.next + 1, wait := none }) else s

/-- Husk runs a record with operation `op`. -/
def Hw.onRecord (s : Hw) (op : Nat) (f : Hw → Nat → Hw) : Hw :=
  let i := s.hsk.next
  if s.booting .apply && decide (i < imgRecs s.hsk.image) && recordOp s.hsk.image i == op then f s i else s

/-- Word `w` of record `i` of the image in hand. -/
abbrev Hw.recWord (s : Hw) (i w : Nat) : Nat := recordWord s.hsk.image i w

/-- WRITE. -/
def Hw.recordWrite (s : Hw) (mem : List Host.Cell) (i : Nat) : Hw :=
  let a := s.recWord i 1
  let mask := BitVec.ofNat 32 (s.recWord i 2)
  let val := BitVec.ofNat 32 (s.recWord i 3)
  let read := mask != 0xFFFFFFFF#32
  let bad := fun (s : Hw) (write : Bool) => s.accessError .husk a 4 write != 0
  if read && bad s false then (s.access mem .husk a 4 .read).applyFailed 1
  else
    let s := if read then s.access mem .husk a 4 .read else s
    let v := if read then (s.rdata &&& ~~~mask) ||| (val &&& mask) else val
    if bad s true then (s.access mem .husk a 4 (.write v)).applyFailed 1
    else ((s.settle a).writeAll mem .husk a v).recordDone

/-- RECORD_WRITE (R492). -/
def execRecordWrite (s : State) : Host.Outcome State Fault Refusal :=
  s.onMem (fun mem s => s.onRecord 1 (fun s i => s.recordWrite mem i))

/-- One poll of a WAIT. -/
def Hw.recordPoll (s : Hw) (mem : List Host.Cell) (i : Nat) : Hw :=
  let a := s.recWord i 1
  let err := s.accessError .husk a 4 false
  let s := s.access mem .husk a 4 .read
  if err ≠ 0 then s.applyFailed 1
  else
    let holds := s.rdata &&& BitVec.ofNat 32 (s.recWord i 2) == BitVec.ofNat 32 (s.recWord i 3)
    s.modHsk (fun h => { h with wait := some holds })

/-- RECORD_WAIT (R492). -/
def execRecordWait (s : State) : Host.Outcome State Fault Refusal :=
  s.onMem (fun mem s => s.onRecord 2 (fun s i => s.recordPoll mem i))

/-- A WAIT ends: its last poll held, or its time is over. -/
def execRecordWaitDone (s : State) : Host.Outcome State Fault Refusal :=
  s.on (fun s => s.onRecord 2 (fun s _ => match s.hsk.wait with
    | some true => s.recordDone
    | some false => s.applyFailed 2
    | none => s))

/-- RECORD_DELAY (R492). -/
def execRecordDelay (s : State) : Host.Outcome State Fault Refusal := s.on (fun s => s.onRecord 3 (fun s _ => s.recordDone))

/-- The sixteen words of the image from an offset on. -/
def imgSegment (img : Bytes) (off : Nat) : List Word := (List.range 16).map (fun w => BitVec.ofNat 32 (leAt img (off + 4 * w) 4))

/-- Result of a segment on Husk's load path, which R379 does not hold up. -/
def Hw.loadErr (s : Hw) (k : GateSel) : Nat :=
  let e := s.entryErr k 3
  if e = 4 ∧ k.row.wr = .engOff then 0 else e

/-- TABLE: `n` segments from entry `x` on. -/
def Hw.recordSegments (s : Hw) (k : GateSel) (off : Nat) : Nat → Hw
  | 0 => s.recordDone
  | n + 1 =>
    if s.loadErr k = 0 then Hw.recordSegments (s.commitSeg k (imgSegment s.hsk.image off)) { k with x := k.x + 1 } (off + 64) n
    else s.applyFailed 3

/-- TABLE. -/
def Hw.recordTable (s : Hw) (i : Nat) : Hw :=
  let b := s.recWord i 1
  let a := b + 0x48
  if s.accessError .husk a 4 true ≠ 0 ∨ gateRegBase a ≠ some b then (s.busError .husk a true (max 2 (s.accessError .husk a 4 true))).applyFailed 1
  else
    let s := (s.settle a).gateFinish b
    match gateTable b (s.recWord i 2 % 256) with
    | none => s.applyFailed 3
    | some t =>
      s.recordSegments { base := b, gate := t.1, row := t.2, x := s.recWord i 3, seg := s.recWord i 2 / 256 % 16 }
        (s.recWord i 4) (recordArg s.hsk.image i)

/-- RECORD_TABLE (R492). -/
def execRecordTable (s : State) : Host.Outcome State Fault Refusal := s.on (fun s => s.onRecord 4 (fun s i => s.recordTable i))

/-- Octets of a section into a memory behind the gate `g`, 64 a time. -/
def Hw.loadMemory (s : Hw) (g id off : Nat) (bs : Bytes) : Hw :=
  s.forAll (List.range (bs.length / 64)) (fun s i =>
    s.setTabWords (tabKey g id (off / 64 + i) 0) 16 (leNat ((bs.drop (64 * i)).take 64)))

/-- One section is loaded; `none` where the external window refuses it (reason 0x5). -/
def Hw.loadSection (s : Hw) (x : Section) : Option Hw :=
  let bs := (s.hsk.image.drop x.src).take x.len
  let engines := (List.range 64).filter (fun e => bitN x.mask e == 1)
  match x.type with
  | 3 => some (s.forAll engines (fun s e => s.loadMemory (600 + e) 1 x.dest bs))
  | 4 => some (s.forAll engines (fun s e => s.loadMemory (600 + e) 2 x.dest bs))
  | 5 => some (s.loadMemory (600 + 8 * x.cluster) 3 x.dest bs)
  | _ => if x.dest - extBase + x.len ≤ s.extBytes then some (s.memWrite (x.dest - extBase) bs) else none

/-- SECTIONS, from the list on. -/
def Hw.recordSections (s : Hw) : List Section → Hw
  | [] => s.recordDone
  | x :: t => match s.loadSection x with
    | some y => Hw.recordSections y t
    | none => (s.busError .husk x.dest true 5).applyFailed 4

/-- RECORD_SECTIONS (R492). -/
def execRecordSections (s : State) : Host.Outcome State Fault Refusal :=
  s.on (fun s => s.onRecord 5 (fun s _ =>
    s.recordSections ((List.range (imgSecs s.hsk.image)).map (sectionAt s.hsk.image))))

/-! ## HANDOFF (R417, R494, R495, R499) -/

/-- The image that runs is the newer slot's (R494). -/
def Hw.runsNewer (s : Hw) : Bool := s.bootPath == 0 && s.hsk.newer == some s.hsk.slot

/-- The last record has been carried out: the staging cells go back, HANDOFF is set, and the control cores are released at
CORE_ENTRY. -/
def Hw.handoff (s : Hw) : Hw :=
  if !s.booting .apply || s.hsk.next != imgRecs s.hsk.image then s
  else
    let gen := imgGen s.hsk.image
    let back := s.bootPath == 0 && (s.hsk.first != some s.hsk.slot || !s.runsNewer)
    let s := s.onlyIf (s.runsNewer = true ∧ gen ≠ s.rd HSK_CONF_GEN.CONF_GEN) (fun s =>
      s.wr HSK_BOOT_CTRL.ATTEMPTS (min 3 (s.rd HSK_BOOT_CTRL.ATTEMPTS + 1)))
    let s := ((s.wr HSK_BOOT_INFO.FELL_BACK (b2n back)).wr HSK_BOOT_INFO.APPLY_RESULT 0).wr HSK_HANDOFF_TIME.TIME_US ((s.clk - s.hsk.start) / 1000)
    (s.wr HSK_STATUS.HANDOFF 1).modHsk (fun h => { h with
      phase := .run, staging := [], load := none, cores := some (imgEntry h.image) })

/-- HANDOFF (R499). -/
def execHandoff (s : State) : Host.Outcome State Fault Refusal := s.on (·.handoff)

/-- A write of HSK_BOOT_CTRL with CONFIRM. -/
def Hw.confirm (s : Hw) (v : Word) : Hw :=
  let s := s.plainWrite HSK_BOOT_CTRL.A v
  if getField v 0 1 = 0 ∨ s.rd HSK_STATUS.HANDOFF = 0 then s
  else (s.wr HSK_CONF_GEN.CONF_GEN (imgGen s.hsk.image)).onlyIf (s.runsNewer = true) (fun s => s.wr HSK_BOOT_CTRL.ATTEMPTS 0)

/-- CONFIRM (R495). -/
def execConfirm (m : Master) (v : Word) (s : State) : Host.Outcome State Fault Refusal :=
  s.on (fun s => s.onAccess m HSK_BOOT_CTRL.A true (·.confirm v))

/-! ## Paths from outside (R497, R498) -/

/-- The host writes IMAGE_LEN to the load word: verification of the staged image begins. -/
def Hw.hostLoadWord (s : Hw) (v : Word) : Hw :=
  if s.hsk.load.isSome ∨ s.hsk.phase ≠ .boot then s
  else s.modHsk (fun h => { h with load := some (min v.toNat (loadWord - stageBase)), loaded := false })

/-- PCIE_LOAD_WORD (R497). -/
def execPcieLoadWord (v : Word) (s : State) : Host.Outcome State Fault Refusal :=
  s.on (fun s => if s.deaf .host then s
    else if s.hostLoad then s.hostLoadWord v else (s.busError .host loadWord true 2).answer 0#32)

/-- Husk receives a recovery image. -/
def Hw.recovering (s : Hw) : Bool := s.booting .boot && s.bootPath == 3 && s.hsk.load.isNone

/-- Octets from the sender of an XMODEM-1K transfer: a block, its end (EOT) or its abort (CAN) (log entry 44). -/
def Hw.xmodemRx (s : Hw) (bs : Bytes) : Hw :=
  let ack := fun (s : Hw) => s.emit (.uart 0x06#8)
  let nak := fun (s : Hw) => s.emit (.uart 0x15#8)
  let n := s.hsk.xmodem.length / 1024
  let num := byteAt bs 1
  let data := (bs.drop 3).take 1024
  if !s.recovering then s
  else if bs.head? = some 0x18#8 then s.recoveryPrompt
  else if bs.head? = some 0x04#8 then ack (s.modHsk (fun h => { h with load := some h.xmodem.length }))
  else if bs.length ≠ 1029 ∨ byteAt bs 0 ≠ 2 ∨ num + byteAt bs 2 ≠ 255 ∨ crc16 data ≠ beAt bs 1027 2 then nak s
  else if num = (n + 1) % 256 then ack (s.modHsk (fun h => { h with xmodem := h.xmodem ++ data }))
  else if num = n % 256 ∧ n ≠ 0 then ack s
  else nak s

/-- XMODEM_BLOCK_RX (R498). -/
def execXmodemBlockRx (bs : Bytes) (s : State) : Host.Outcome State Fault Refusal := s.on (fun s => s.xmodemRx bs)

/-- 60 s without a block. -/
def execRecoveryTimeout (s : State) : Host.Outcome State Fault Refusal :=
  s.on (fun s => if s.recovering then s.recoveryPrompt else s)

end Sys2Proof.Machine
end

