-- ==== Sys2Proof/Machine/Clock.lean ====
section
/-!
DEFINITION. One cycle of the 250 MHz time counter, 4 ns, in which no command comes: what the terminal counts by itself
(R222, R310, R333, R336, R381).
-/
namespace Sys2Proof.Machine

/-- The local time after one tick (R333). -/
def LTime.next (t : LTime) (inc : Nat) : LTime := LTime.ofParts (t.parts + 4 * 2 ^ 32 + inc)

/-- XTAL32K cycles that begin by model time `n` in ns. -/
def xtalCycles (n : Nat) : Nat := n * 32768 / 1000000000

/-- AON keeps counting: VIN or VKEEP is there, and with VIN off the crystal is (R336, R523, R543). -/
def Hw.aonCounts (s : Hw) : Bool := s.pins.vin || (s.pins.vkeep && s.rd GLB_CLK_STATUS.XTAL_FALLBACK == 0)

/-- Local time, or AON's while TIM does not run: an XTAL32K cycle is 30,517 ns and 0x94000000 of fraction (R336). -/
def Hw.tickTime (s : Hw) : Hw :=
  if s.timRuns then { s with tim := { s.tim with now := s.tim.now.next (s.rd TIM_INC_FRAC.INC) } }
  else if s.aonCounts then
    let n := xtalCycles (s.clk + 4) - xtalCycles s.clk
    { s with aon := { s.aon with time := LTime.ofParts (s.aon.time.parts + n * (30517 * 2 ^ 32 + 0x94000000)) } }
  else s

/-- Four cycles of the 1.0 GHz datapath in which a pipeline is held up (R218, R222, R232). -/
def Hw.tickStalls (s : Hw) : Hw :=
  s.forAll ([0, 1].filter (fun i => s.domRuns (11 + i))) (fun s i =>
    let held := s.thr.held.filter (fun w => w.pipe == i)
    let s := s.onlyIf (held.any (fun w => w.deal.isNone) = true) (fun s => s.clsCount 20 4)
    let s := s.onlyIf (held.any (fun w => w.deal.isSome) = true) (fun s => s.clsCount 21 4)
    s.onlyIf (1024 ≤ (s.thr.parked.filter (fun w => w.pipe == i)).length) (fun s => s.clsCount 19 4))

/-- Four cycles in which the head of a delay list waits at the quota (R374). -/
def Hw.tickDelays (s : Hw) : Hw :=
  if s.domRuns 12 then s.forAll (List.range 4) (fun s l => s.onlyIf (s.delayBlocked l = true) (fun s => s.tilCount 4 4)) else s

/-- Six cycles at 1.5 GHz of engine `e`, less those its cluster gates; it is gated after 64 cycles without a task. The
cycles without a task and the gated ones are engine events (R369, R380, R381). -/
def Hw.tickEngine (s : Hw) (e : Nat) : Hw :=
  let x := s.eng e
  if x.run.isNone ∧ 64 ≤ x.idle then s
  else
    let n := x.cyc + 6 * (16 - s.rd (TIL_CL_THROT.GATED (e / 8)))
    let s := s.modEng e (fun x => { x with cyc := n % 16, idle := if x.run.isSome then 0 else min 64 (x.idle + n / 16) })
    let s := s.count64 (ENG_CYCLES.A e) (n / 16)
    let s := s.onlyIf (x.run.isNone = true) (fun s => s.perf e 0x02 (n / 16))
    s.onlyIf (n / 16 < 6) (fun s => s.perf e 0x10 (6 - n / 16))

/-- The engines of clusters that have their clock count a cycle (R381). -/
def Hw.tickEngines (s : Hw) : Hw :=
  s.forAll ((List.range 64).filter (fun e => s.engOn e && s.domRuns (3 + e / 8))) (fun s e => s.tickEngine e)

/-- Pattern bits of the checkers that are locked. -/
def Hw.tickPrbs (s : Hw) : Hw :=
  let s := s.forAll ((List.range 4).filter (fun c => s.domRuns (15 + c))) (fun s c => s.prbsTick (.trunk (Fin.ofNat 4 c)))
  s.forAll ((List.range 72).filter (fun l => s.domRuns (if l < 64 then 19 + l / 8 else 28))) (fun s l => s.prbsTick (.sub (Fin.ofNat 72 l)))

/-- Frames that go ahead of data start at a boundary reached meanwhile (R288, R301, R324). -/
def Hw.tickMacs (s : Hw) : Hw := s.forAll (s.pumpPorts.filter (fun p => s.domRuns (19 + p / 64))) (fun s p => s.macPump p)

/-- The next of the SVN bits that ADVANCE_SVN still has to program is blown; the spec gives a bit no time (R414; log entry
200). -/
def Hw.tickFuse (s : Hw) : Hw := if s.hsk.cmd.isSome then s.svnBlow 1 else s

/-- SPI_RESET_N rises 10 µs after Husk began to drive it low (R528). -/
def Hw.tickSpi (s : Hw) : Hw :=
  match s.pins.spi with
  | .low t => if t ≤ s.clk + 4 then s.spiRelease else s
  | _ => s

/-- The nanoseconds for which TM's clock has stood, while the domain sleeps (R470). -/
def Hw.tickSlept (s : Hw) : Hw :=
  s.onlyIf (s.cond 13 ≠ 0) (fun s => { s with tms := { s.tms with slept := s.tms.slept + 4 } })

/-- What the logic does in a cycle, while nothing holds it in reset. A domain asked off whose last function has become OFF is
turned off (R471). -/
def Hw.tickLogic (s : Hw) : Hw :=
  if s.hsk.phase = .held then s
  else s.offAll.powerWatch.tickStalls.tickDelays.tickEngines.tickPrbs.tickMacs.clkSync.tickFuse.tickSpi.tickDma

/-- 4 ns have passed. -/
def Hw.cycled (s : Hw) : Hw := { s with clk := s.clk + 4 }

/-- One cycle. While the logic is held in reset only AON counts. -/
def Hw.tick (s : Hw) : Hw := s.tickTime.tickSlept.tickLogic.cycled

end Sys2Proof.Machine
end

