-- ==== Sys2Proof/Machine/Dispatch.lean ====
section
/-!
DEFINITION. The dispatch: one arm per command, each one call of its meaning.
-/
namespace Sys2Proof.Machine

def exec (i : Instr) (s : State) : Host.Outcome State Fault Refusal :=
  match i with
  | .registerWrite m a size acc => Sys2Proof.Machine.execRegisterWrite m a size acc s
  | .accessWakeReturn d => Sys2Proof.Machine.execAccessWakeReturn d s
  | .counterLoRead m a => Sys2Proof.Machine.execCounterLoRead m a s
  | .counterHiRead m a => Sys2Proof.Machine.execCounterHiRead m a s
  | .counterClear m a v => Sys2Proof.Machine.execCounterClear m a v s
  | .intSet m b v => Sys2Proof.Machine.execIntSet m b v s
  | .intEoi m v => Sys2Proof.Machine.execIntEoi m v s
  | .tableRead m b v => Sys2Proof.Machine.execTableRead m b v s
  | .tableWrite m b v => Sys2Proof.Machine.execTableWrite m b v s
  | .tableCommit m b v => Sys2Proof.Machine.execTableCommit m b v s
  | .tableCmdComplete b ecc => Sys2Proof.Machine.execTableCmdComplete b s ecc
  | .functionEnable m f v => Sys2Proof.Machine.execFunctionEnable m f v s
  | .functionDisable m f v => Sys2Proof.Machine.execFunctionDisable m f v s
  | .startConditionMet f => Sys2Proof.Machine.execStartConditionMet f s
  | .stopFlushComplete f => Sys2Proof.Machine.execStopFlushComplete f s
  | .domainSoftReset m v => Sys2Proof.Machine.execDomainSoftReset m v s
  | .softResetComplete d => Sys2Proof.Machine.execSoftResetComplete d s
  | .chipReset m v => Sys2Proof.Machine.execChipReset m v s
  | .pornAssert => Sys2Proof.Machine.execPornAssert s
  | .pornRelease straps => Sys2Proof.Machine.execPornRelease straps s
  | .vinUvloFall => Sys2Proof.Machine.execVinUvloFall s
  | .vinGood straps => Sys2Proof.Machine.execVinGood straps s
  | .clockLoss k => Sys2Proof.Machine.execClockLoss k s
  | .clockRecover k => Sys2Proof.Machine.execClockRecover k s
  | .cdrLockAcquired c => Sys2Proof.Machine.execCdrLockAcquired c s
  | .cdrUnlock c => Sys2Proof.Machine.execCdrUnlock c s
  | .adaptStep lane ctle thr dfe1 dfe converged => Sys2Proof.Machine.execAdaptStep lane ctle thr dfe1 dfe converged s
  | .rxBoundsWrite m lane v => Sys2Proof.Machine.execRxBoundsWrite m lane v s
  | .losCfgWrite m c v => Sys2Proof.Machine.execLosCfgWrite m c v s
  | .losSourceChange c pin ampMv => Sys2Proof.Machine.execLosSourceChange c pin ampMv s
  | .losDeclare c => Sys2Proof.Machine.execLosDeclare c s
  | .losClear c => Sys2Proof.Machine.execLosClear c s
  | .moduleRemoved c => Sys2Proof.Machine.execModuleRemoved c s
  | .moduleInserted c => Sys2Proof.Machine.execModuleInserted c s
  | .burstLaunch c => Sys2Proof.Machine.execBurstLaunch c s
  | .burstEnd c => Sys2Proof.Machine.execBurstEnd c s
  | .guardOutsideWindow c => Sys2Proof.Machine.execGuardOutsideWindow c s
  | .guardTooLong c => Sys2Proof.Machine.execGuardTooLong c s
  | .guardPadMismatch c => Sys2Proof.Machine.execGuardPadMismatch c s
  | .twiCommand m c v => Sys2Proof.Machine.execTwiCommand m c v s
  | .twiDone c err data => Sys2Proof.Machine.execTwiDone c err data s
  | .twiRecover m c v => Sys2Proof.Machine.execTwiRecover m c v s
  | .twiMonitorPoll c err data => Sys2Proof.Machine.execTwiMonitorPoll c err data s
  | .prbsClear m lane v => Sys2Proof.Machine.execPrbsClear m lane v s
  | .prbsCheckerLock lane => Sys2Proof.Machine.execPrbsCheckerLock lane s
  | .prbsLockLoss lane wrong => Sys2Proof.Machine.execPrbsLockLoss lane wrong s
  | .testBurstLaunch c => Sys2Proof.Machine.execTestBurstLaunch c s
  | .psyncMatch c pos sfc hec => Sys2Proof.Machine.execPsyncMatch c pos s sfc hec
  | .candidateStale c => Sys2Proof.Machine.execCandidateStale c s
  | .framePosition c errs hec sfc oc => Sys2Proof.Machine.execFramePosition c errs hec sfc oc s
  | .resync m c v => Sys2Proof.Machine.execResync m c v s
  | .codewordDecoded c w line => Sys2Proof.Machine.execCodewordDecoded c w s line
  | .hlendRx c hec maps ploams => Sys2Proof.Machine.execHlendRx c hec s maps ploams
  | .allocationStructure c hec id start size profile ploamu dbru wake late => Sys2Proof.Machine.execAllocationStructure c hec id start size profile ploamu dbru wake late s
  | .ploamMessageRx c onu msg errored => Sys2Proof.Machine.execPloamMessageRx c onu msg errored s
  | .ploamPop m c v => Sys2Proof.Machine.execPloamPop m c v s
  | .heDisableOnu c serial => Sys2Proof.Machine.execHeDisableOnu c serial s
  | .heEnableOnu c serial => Sys2Proof.Machine.execHeEnableOnu c serial s
  | .heDisableAll c => Sys2Proof.Machine.execHeDisableAll c s
  | .heEnableAll c => Sys2Proof.Machine.execHeEnableAll c s
  | .gemFrameRx c hec pli idx port lf idle errored remaining pos payload => Sys2Proof.Machine.execGemFrameRx c hec pli idx port lf idle errored remaining pos payload s
  | .enterO4 m c v beaten => Sys2Proof.Machine.execEnterO4 m c v s beaten
  | .enterO5 m c v beaten => Sys2Proof.Machine.execEnterO5 m c v s beaten
  | .deactivate m c v beaten => Sys2Proof.Machine.execDeactivate m c v s beaten
  | .restart m c v beaten => Sys2Proof.Machine.execRestart m c v s beaten
  | .serialNumberAdvance c => Sys2Proof.Machine.execSerialNumberAdvance c s
  | .to1Expire c => Sys2Proof.Machine.execTo1Expire c s
  | .to2Expire c => Sys2Proof.Machine.execTo2Expire c s
  | .testHoldWrite m c v => Sys2Proof.Machine.execTestHoldWrite m c v s
  | .ploamPush m c v => Sys2Proof.Machine.execPloamPush m c v s
  | .eqdWrite m c v => Sys2Proof.Machine.execEqdWrite m c v s
  | .assemblyCutoff c => Sys2Proof.Machine.execAssemblyCutoff c s
  | .laEstimateUpdate => Sys2Proof.Machine.execLaEstimateUpdate s
  | .upstreamSelect underrun full => Sys2Proof.Machine.execUpstreamSelect underrun s full
  | .keySwitchArm m c v => Sys2Proof.Machine.execKeySwitchArm m c v s
  | .wsAllowedWrite m c v => Sys2Proof.Machine.execWsAllowedWrite m c v s
  | .awareToWatch c => Sys2Proof.Machine.execAwareToWatch c s
  | .watchIntervalStart c => Sys2Proof.Machine.execWatchIntervalStart c s
  | .watchIntervalEnd c => Sys2Proof.Machine.execWatchIntervalEnd c s
  | .watchSyncTimeout c => Sys2Proof.Machine.execWatchSyncTimeout c s
  | .bondedFrameRx c => Sys2Proof.Machine.execBondedFrameRx c s
  | .reorderTimeout g => Sys2Proof.Machine.execReorderTimeout g s
  | .joinAckRx g c token => Sys2Proof.Machine.execJoinAckRx g c token s
  | .leaveRx g c reason token => Sys2Proof.Machine.execLeaveRx g c reason token s
  | .leaveAckRx g c token => Sys2Proof.Machine.execLeaveAckRx g c token s
  | .joinRetryExpire g c => Sys2Proof.Machine.execJoinRetryExpire g c s
  | .joinRetry m g c v => Sys2Proof.Machine.execJoinRetry m g c v s
  | .rejoinHoldExpire g c => Sys2Proof.Machine.execRejoinHoldExpire g c s
  | .leaveFlushDrained g c => Sys2Proof.Machine.execLeaveFlushDrained g c s
  | .leaveTimeoutExpire g c => Sys2Proof.Machine.execLeaveTimeoutExpire g c s
  | .shedEvaluate g load => Sys2Proof.Machine.execShedEvaluate g load s
  | .inputFifoArrival pipe p => Sys2Proof.Machine.execInputFifoArrival pipe p s
  | .pipelineInputGrant pipe upset => Sys2Proof.Machine.execPipelineInputGrant pipe s upset
  | .contextReadReturn flow err corr => Sys2Proof.Machine.execContextReadReturn flow err s corr
  | .taskAccepted pipe => Sys2Proof.Machine.execTaskAccepted pipe s
  | .epochSwap m v => Sys2Proof.Machine.execEpochSwap m v s
  | .epochDrainComplete => Sys2Proof.Machine.execEpochDrainComplete s
  | .ctxUpdate m v => Sys2Proof.Machine.execCtxUpdate m v s
  | .ctxRead m v => Sys2Proof.Machine.execCtxRead m v s
  | .ctxInval m v => Sys2Proof.Machine.execCtxInval m v s
  | .ctxCmdDone => Sys2Proof.Machine.execCtxCmdDone s
  | .ageSweep => Sys2Proof.Machine.execAgeSweep s
  | .spreadRrTimeout g => Sys2Proof.Machine.execSpreadRrTimeout g s
  | .meterStatWrite m n => Sys2Proof.Machine.execMeterStatWrite m n s
  | .queueFlush m v => Sys2Proof.Machine.execQueueFlush m v s
  | .queueFlushDone => Sys2Proof.Machine.execQueueFlushDone s
  | .spillMove q => Sys2Proof.Machine.execSpillMove q s
  | .refillMove q corr => Sys2Proof.Machine.execRefillMove q s corr
  | .dramInit m v => Sys2Proof.Machine.execDramInit m v s
  | .dramUp => Sys2Proof.Machine.execDramUp s
  | .dramRetrain m r v => Sys2Proof.Machine.execDramRetrain m r v s
  | .dramRetrainComplete r pass => Sys2Proof.Machine.execDramRetrainComplete r pass s
  | .dramRetire m r v => Sys2Proof.Machine.execDramRetire m r v s
  | .dramPageCopyDone r => Sys2Proof.Machine.execDramPageCopyDone r s
  | .dramRelocationDone r => Sys2Proof.Machine.execDramRelocationDone r s
  | .dramUncorrError r w => Sys2Proof.Machine.execDramUncorrError r w s
  | .refreshAdjust r want => Sys2Proof.Machine.execRefreshAdjust r want s
  | .dsSelect => Sys2Proof.Machine.execDsSelect s
  | .clearDebt m v => Sys2Proof.Machine.execClearDebt m v s
  | .pcsLockAcquire l => Sys2Proof.Machine.execPcsLockAcquire l s
  | .pcsLockLoss l => Sys2Proof.Machine.execPcsLockLoss l s
  | .polarityFlip l => Sys2Proof.Machine.execPolarityFlip l s
  | .mdioWrite m n v => Sys2Proof.Machine.execMdioWrite m n v s
  | .mdioRead m n v => Sys2Proof.Machine.execMdioRead m n v s
  | .mdioAddress m n v => Sys2Proof.Machine.execMdioAddress m n v s
  | .mdioReadIncrement m n v => Sys2Proof.Machine.execMdioReadIncrement m n v s
  | .mdioDone n undriven data => Sys2Proof.Machine.execMdioDone n undriven data s
  | .mdioPollRound n => Sys2Proof.Machine.execMdioPollRound n s
  | .mdioPollFrameDone n undriven data => Sys2Proof.Machine.execMdioPollFrameDone n undriven data s
  | .spikeletFrameRx l t0 t1 bs codeErr => Sys2Proof.Machine.execSpikeletFrameRx l t0 t1 bs codeErr s
  | .macFrameRx p bs codeErr => Sys2Proof.Machine.execMacFrameRx p bs codeErr s
  | .macsecIcvFail e => Sys2Proof.Machine.execMacsecIcvFail e s
  | .pfcFrameRx p bs => Sys2Proof.Machine.execPfcFrameRx p bs s
  | .pfcPauseExpire p n => Sys2Proof.Machine.execPfcPauseExpire p n s
  | .pfcRefresh p => Sys2Proof.Machine.execPfcRefresh p s
  | .lpiEnter p => Sys2Proof.Machine.execLpiEnter p s
  | .lpiWakeDone p => Sys2Proof.Machine.execLpiWakeDone p s
  | .rateDownEval l load => Sys2Proof.Machine.execRateDownEval l load s
  | .rateStepPhyWritten l => Sys2Proof.Machine.execRateStepPhyWritten l s
  | .rateStepLocked l => Sys2Proof.Machine.execRateStepLocked l s
  | .rateStepTimeout l => Sys2Proof.Machine.execRateStepTimeout l s
  | .recalGo m l v => Sys2Proof.Machine.execRecalGo m l v s
  | .recalPeriodExpire l => Sys2Proof.Machine.execRecalPeriodExpire l s
  | .recalDone l ctle dfe offset => Sys2Proof.Machine.execRecalDone l s ctle dfe offset
  | .energyDetect l => Sys2Proof.Machine.execEnergyDetect l s
  | .containerRx c => Sys2Proof.Machine.execContainerRx c s
  | .slotFrameBoundary => Sys2Proof.Machine.execSlotFrameBoundary s
  | .framePlayout x => Sys2Proof.Machine.execFramePlayout x s
  | .slotPacketRx p bs => Sys2Proof.Machine.execSlotPacketRx p bs s
  | .pageScanDone p => Sys2Proof.Machine.execPageScanDone p s
  | .pageRetire p => Sys2Proof.Machine.execPageRetire p s
  | .pswClear m v => Sys2Proof.Machine.execPswClear m v s
  | .pswLockout m v => Sys2Proof.Machine.execPswLockout m v s
  | .pswForceWork m v => Sys2Proof.Machine.execPswForceWork m v s
  | .pswForceProt m v => Sys2Proof.Machine.execPswForceProt m v s
  | .pswManualWork m v => Sys2Proof.Machine.execPswManualWork m v s
  | .pswManualProt m v => Sys2Proof.Machine.execPswManualProt m v s
  | .pswHoldoffExpire x => Sys2Proof.Machine.execPswHoldoffExpire x s
  | .pswWtrExpire x => Sys2Proof.Machine.execPswWtrExpire x s
  | .timeSet m => Sys2Proof.Machine.execTimeSet m s
  | .timeAdd m => Sys2Proof.Machine.execTimeAdd m s
  | .timeReadLatch m => Sys2Proof.Machine.execTimeReadLatch m s
  | .todArm m v => Sys2Proof.Machine.execTodArm m v s
  | .todUpdate => Sys2Proof.Machine.execTodUpdate s
  | .timSourceWrite m v => Sys2Proof.Machine.execTimSourceWrite m v s
  | .freqMeasurement inc off => Sys2Proof.Machine.execFreqMeasurement inc s off
  | .ppsPulse => Sys2Proof.Machine.execPpsPulse s
  | .edgeCapture n falling => Sys2Proof.Machine.execEdgeCapture n falling s
  | .capturePop m n v => Sys2Proof.Machine.execCapturePop m n v s
  | .tsQueuePop m q v => Sys2Proof.Machine.execTsQueuePop m q v s
  | .slotFire x => Sys2Proof.Machine.execSlotFire x s
  | .gateConfigChange m p v => Sys2Proof.Machine.execGateConfigChange m p v s
  | .gateListStart p => Sys2Proof.Machine.execGateListStart p s
  | .gateEntryAdvance p => Sys2Proof.Machine.execGateEntryAdvance p s
  | .tillerTick n => Sys2Proof.Machine.execTillerTick n s
  | .delayDue n => Sys2Proof.Machine.execDelayDue n s
  | .taskDispatch e => Sys2Proof.Machine.execTaskDispatch e s
  | .emit e v => Sys2Proof.Machine.execEmit e v s
  | .emitCopy e v => Sys2Proof.Machine.execEmitCopy e v s
  | .drop e v => Sys2Proof.Machine.execDrop e v s
  | .new e v => Sys2Proof.Machine.execNew e v s
  | .post e v => Sys2Proof.Machine.execPost e v s
  | .cancel e v => Sys2Proof.Machine.execCancel e v s
  | .endTask e v => Sys2Proof.Machine.execEnd e v s
  | .engineFault e code pc addr => Sys2Proof.Machine.execEngineFault e code pc addr s
  | .clusterDrainDone k => Sys2Proof.Machine.execClusterDrainDone k s
  | .throttleStep k temp => Sys2Proof.Machine.execThrottleStep k temp s
  | .perfCounterWrap e n => Sys2Proof.Machine.execPerfCounterWrap e n s
  | .gleanerSample e pc addr latency => Sys2Proof.Machine.execGleanerSample e pc addr latency s
  | .wdogKick m v => Sys2Proof.Machine.execWdogKick m v s
  | .wdogWarn halted => Sys2Proof.Machine.execWdogWarn s halted
  | .wdogExpire halted => Sys2Proof.Machine.execWdogExpire s halted
  | .pcieFunctionReset => Sys2Proof.Machine.execPcieFunctionReset s
  | .perstAssert => Sys2Proof.Machine.execPerstAssert s
  | .ringTailWrite m d r v => Sys2Proof.Machine.execRingTailWrite m d r v s
  | .txRingFetch r ds dmaErr => Sys2Proof.Machine.execTxRingFetch r ds dmaErr s
  | .ringIntTimer d r => Sys2Proof.Machine.execRingIntTimer d r s
  | .ringIntAck m d r v => Sys2Proof.Machine.execRingIntAck m d r v s
  | .mbxSend m ch => Sys2Proof.Machine.execMbxSend m ch s
  | .mbxPop m ch v => Sys2Proof.Machine.execMbxPop m ch v s
  | .mbxEmptyStatusRead m ch => Sys2Proof.Machine.execMbxEmptyStatusRead m ch s
  | .dbSet m v => Sys2Proof.Machine.execDbSet m v s
  | .lockAcquire m n rivals => Sys2Proof.Machine.execLockAcquire m n rivals s
  | .lockRelease m n v => Sys2Proof.Machine.execLockRelease m n v s
  | .lockBreak m v => Sys2Proof.Machine.execLockBreak m v s
  | .uartDataWrite m v => Sys2Proof.Machine.execUartDataWrite m v s
  | .uartDataRead m => Sys2Proof.Machine.execUartDataRead m s
  | .uartByteRx b frameErr => Sys2Proof.Machine.execUartByteRx b frameErr s
  | .imageVerifyDone slotA slotB readErr flash => Sys2Proof.Machine.execImageVerifyDone slotA slotB readErr s flash
  | .recordWrite => Sys2Proof.Machine.execRecordWrite s
  | .recordWait => Sys2Proof.Machine.execRecordWait s
  | .recordWaitDone => Sys2Proof.Machine.execRecordWaitDone s
  | .recordDelay => Sys2Proof.Machine.execRecordDelay s
  | .recordTable => Sys2Proof.Machine.execRecordTable s
  | .recordSections => Sys2Proof.Machine.execRecordSections s
  | .handoff => Sys2Proof.Machine.execHandoff s
  | .confirm m v => Sys2Proof.Machine.execConfirm m v s
  | .pcieLoadWord v => Sys2Proof.Machine.execPcieLoadWord v s
  | .xmodemBlockRx bs => Sys2Proof.Machine.execXmodemBlockRx bs s
  | .recoveryTimeout => Sys2Proof.Machine.execRecoveryTimeout s
  | .getId m v => Sys2Proof.Machine.execGetId m v s
  | .attest m v => Sys2Proof.Machine.execAttest m v s
  | .measExtend m v => Sys2Proof.Machine.execMeasExtend m v s
  | .revoke m v fail => Sys2Proof.Machine.execRevoke m v fail s
  | .advanceSvn m v fail => Sys2Proof.Machine.execAdvanceSvn m v fail s
  | .setProduction m v fail => Sys2Proof.Machine.execSetProduction m v fail s
  | .hskCmdDone => Sys2Proof.Machine.execHskCmdDone s
  | .hskRngRead m => Sys2Proof.Machine.execHskRngRead m s
  | .rngHealthFail => Sys2Proof.Machine.execRngHealthFail s
  | .rngRecover => Sys2Proof.Machine.execRngRecover s
  | .cveGenerate m v => Sys2Proof.Machine.execCveGenerate m v s
  | .cveVerify m v => Sys2Proof.Machine.execCveVerify m v s
  | .cveDerive m v => Sys2Proof.Machine.execCveDerive m v s
  | .cveDone => Sys2Proof.Machine.execCveDone s
  | .zeroise m v => Sys2Proof.Machine.execZeroise m v s
  | .zeroiseDone => Sys2Proof.Machine.execZeroiseDone s
  | .twnActInChange v => Sys2Proof.Machine.execTwnActInChange v s
  | .claimHoldExpire => Sys2Proof.Machine.execClaimHoldExpire s
  | .contentionWindowEnd => Sys2Proof.Machine.execContentionWindowEnd s
  | .handover m v => Sys2Proof.Machine.execHandover m v s
  | .handoverReqRx => Sys2Proof.Machine.execHandoverReqRx s
  | .handoverAckRx => Sys2Proof.Machine.execHandoverAckRx s
  | .yieldRx => Sys2Proof.Machine.execYieldRx s
  | .handoverAckTimeout => Sys2Proof.Machine.execHandoverAckTimeout s
  | .handoverDrainExpire => Sys2Proof.Machine.execHandoverDrainExpire s
  | .handoverPortsOff => Sys2Proof.Machine.execHandoverPortsOff s
  | .heartbeatTx => Sys2Proof.Machine.execHeartbeatTx s
  | .heartbeatRx bs differ bad => Sys2Proof.Machine.execHeartbeatRx bs differ s bad
  | .heartbeatMiss => Sys2Proof.Machine.execHeartbeatMiss s
  | .twinTrainComplete invert order skew => Sys2Proof.Machine.execTwinTrainComplete invert order skew s
  | .twinIdleEntry => Sys2Proof.Machine.execTwinIdleEntry s
  | .portFrameRx bs => Sys2Proof.Machine.execPortFrameRx bs s
  | .dsPortRx bs => Sys2Proof.Machine.execDsPortRx bs s
  | .usQueueRx bs => Sys2Proof.Machine.execUsQueueRx bs s
  | .mirrorRx bs => Sys2Proof.Machine.execMirrorRx bs s
  | .mailboxRx bs => Sys2Proof.Machine.execMailboxRx bs s
  | .mbxResultRx bs => Sys2Proof.Machine.execMbxResultRx bs s
  | .mbxResendTimer ch => Sys2Proof.Machine.execMbxResendTimer ch s
  | .slotDsRx bs => Sys2Proof.Machine.execSlotDsRx bs s
  | .slotUsRx bs => Sys2Proof.Machine.execSlotUsRx bs s
  | .mirrorSweep m v => Sys2Proof.Machine.execMirrorSweep m v s
  | .revertHoldExpire => Sys2Proof.Machine.execRevertHoldExpire s
  | .clearRedirect m v => Sys2Proof.Machine.execClearRedirect m v s
  | .stateRequest m v => Sys2Proof.Machine.execStateRequest m v s
  | .domainAgree => Sys2Proof.Machine.execDomainAgree s
  | .entryTimeout => Sys2Proof.Machine.execEntryTimeout s
  | .wakeSourceFire src => Sys2Proof.Machine.execWakeSourceFire src s
  | .wakeTimerExpire => Sys2Proof.Machine.execWakeTimerExpire s
  | .domainRestartNext => Sys2Proof.Machine.execDomainRestartNext s
  | .trimMaskWrite m v => Sys2Proof.Machine.execTrimMaskWrite m v s
  | .domOffWrite m v => Sys2Proof.Machine.execDomOffWrite m v s
  | .avsStep vreq => Sys2Proof.Machine.execAvsStep vreq s
  | .thermalSample temps => Sys2Proof.Machine.execThermalSample temps s
  | .thermalRecover => Sys2Proof.Machine.execThermalRecover s
  | .gpioChange j v => Sys2Proof.Machine.execGpioChange j v s
  | .alarmSample => Sys2Proof.Machine.execAlarmSample s
  | .alarmMaskWrite m whole t x v => Sys2Proof.Machine.execAlarmMaskWrite m whole t x v s
  | .logPop m v => Sys2Proof.Machine.execLogPop m v s
  | .historyWriteDone daily lost => Sys2Proof.Machine.execHistoryWriteDone daily lost s
  | .bwWindowEnd o => Sys2Proof.Machine.execBwWindowEnd o s
  | .autonegComplete l => Sys2Proof.Machine.execAutonegComplete l s
  | .lpiRxChange l v => Sys2Proof.Machine.execLpiRxChange l v s
  | .perstRelease => Sys2Proof.Machine.execPerstRelease s
  | .pcieLinkUp => Sys2Proof.Machine.execPcieLinkUp s
  | .pcieLinkDown => Sys2Proof.Machine.execPcieLinkDown s
  | .twinLinkRetrain => Sys2Proof.Machine.execTwinLinkRetrain s
  | .twinLaneFault lock skew => Sys2Proof.Machine.execTwinLaneFault lock skew s
  | .handoverClaimTimeout => Sys2Proof.Machine.execHandoverClaimTimeout s
  | .twinFrameTx => Sys2Proof.Machine.execTwinFrameTx s
  | .redirectServe => Sys2Proof.Machine.execRedirectServe s
  | .vkeepLoss => Sys2Proof.Machine.execVkeepLoss s
  | .vkeepReturn => Sys2Proof.Machine.execVkeepReturn s
  | .uartByteSent => Sys2Proof.Machine.execUartByteSent s
  | .crossingFifoError b arriving => Sys2Proof.Machine.execCrossingFifoError b s arriving
  | .aonWriteArrive => Sys2Proof.Machine.execAonWriteArrive s
  | .flushOnchipRelease => Sys2Proof.Machine.execFlushOnchipRelease s
  | .engineDataAccess e pc a n w => Sys2Proof.Machine.execEngineDataAccess e pc a n w s

end Sys2Proof.Machine
end

