-- ==== Sys2Proof/Safety.lean ====
section
/-!
DEFINITION. The terms in which claims about the terminal are put: what holds between commands, what a safe run is, when a
register access is carried out and what it finds, and what a command leaves alone.
-/
namespace Sys2Proof.Machine

/-- Between commands no event waits for the bins and no write for the memory. -/
abbrev State.Quiet (s : State) : Prop := s.hw.wlog = [] ∧ s.hw.pm.notes = []

/-- What every state of a run has: its memory is in canonical form, and nothing waits between commands. -/
abbrev State.Sound (s : State) : Prop := Memory.wf s.mem = true ∧ s.Quiet

/-- A step that goes on, in a sound state. -/
def SafeStep (s : State) : Prop := ∃ t, step s = .next t ∧ t.Sound

/-- The memory reads as before, byte by byte. -/
def State.KeepsMem (s t : State) : Prop := ∀ a, Memory.read t.mem a = Memory.read s.mem a

/-- Every register outside the PM block, those of `l` apart, is as before. -/
def State.KeepsRegs (s t : State) (l : List Nat) : Prop := ∀ a, a < 0x9000000 → a ∉ l → t.hw.word a = s.hw.word a

/-- An access of an engine counts in its performance counters before anything else (R381). -/
def Hw.counted (s : Hw) : Master → Hw
  | .engine e => s.perf e 0x0C
  | _ => s

/-- The access of master `m` to the register at `a` is carried out: the logic hears the master, and no access error of R46
meets it. -/
abbrev Hw.admits (s : Hw) (m : Master) (a : Nat) (write : Bool) : Prop :=
  s.deaf m = false ∧ (s.counted m).accessError m a 4 write = 0

/-- The logic that the access finds: its domain is awake and out of reset (R47). -/
def Hw.reached (s : Hw) (m : Master) (a : Nat) : Hw := (s.counted m).settle a

/-- `bs` is a frame of type `type` from an UP link that carries no SecTAG, fits its LEN, and needs none (VALIDATE is
Disabled); a SOLO terminal takes PORT frames alone (R440). -/
abbrev TwinPlain (h : Hw) (type : Nat) (bs : Bytes) : Prop :=
  h.linkUp = true ∧ bitsOf (beAt bs 0 7) 52 4 = type ∧ type < 8 ∧ bitsOf (beAt bs 0 7) 37 14 ≤ 12288
    ∧ twinLenOk type (bitsOf (beAt bs 0 7) 37 14) = true ∧ bitN (beAt bs 0 7) 51 = 0
    ∧ bs.length = 7 + bitsOf (beAt bs 0 7) 37 14 ∧ h.t (SECY.VALIDATE 64) = 0
    ∧ (h.paired = true ∨ type = 0)

end Sys2Proof.Machine
end

