-- ==== Sys2Proof/Certificates/Slice0/Obligations.lean ====
section
/-!
DEFINITION. What is claimed of the terminal. The clauses under Sys2Proof.Claims say, command by command, where a command
completes and with which next state; the obligations gather them and state the rules of the whole machine. In a clause, `h`
is the terminal's logic as the command finds it (for a register access, after the wake of R47), and the next state is
`s.finish` of the logic the rules give.
-/
namespace Sys2Proof.Claims
open Sys2Proof.Machine

/-- The register access that a command is: its master, its register, and whether it writes. REGISTER_WRITE, whose address
is an operand of any size, is apart; every other command is no access. -/
def accessOf : Instr → Option (Master × Nat × Bool)
  | .counterLoRead m a => some (m, a, false)
  | .counterHiRead m a => some (m, a, false)
  | .counterClear m a _ => some (m, a, true)
  | .intSet m b _ => some (m, (b.base + 8), true)
  | .intEoi m _ => some (m, GLB_INT_EOI.A, true)
  | .tableRead m b _ => some (m, (b.base + 0x48), true)
  | .tableWrite m b _ => some (m, (b.base + 0x48), true)
  | .tableCommit m b _ => some (m, (b.base + 0x48), true)
  | .functionEnable m f (some _) => some (m, f.ctl, true)
  | .functionDisable m f (some _) => some (m, f.ctl, true)
  | .domainSoftReset m _ => some (m, GLB_SOFT_RESET.A, true)
  | .chipReset m _ => some (m, GLB_CHIP_RESET.A, true)
  | .rxBoundsWrite m lane _ => some (m, lane.boundsAddr, true)
  | .losCfgWrite m c _ => some (m, (TRK_LOS_CFG.A c), true)
  | .twiCommand m c _ => some (m, (TRK_TWI_CMD.A c), true)
  | .twiRecover m c _ => some (m, (TRK_TWI_CFG.A c), true)
  | .prbsClear m lane _ => some (m, lane.prbs.1, true)
  | .resync m c _ => some (m, (TRK_DLN_CFG.A c), true)
  | .ploamPop m c _ => some (m, (TRK_PLOAM_RX.A c), true)
  | .enterO4 m c _ _ => some (m, (TRK_ACT_CTRL.A c), true)
  | .enterO5 m c _ _ => some (m, (TRK_ACT_CTRL.A c), true)
  | .deactivate m c _ _ => some (m, (TRK_ACT_CTRL.A c), true)
  | .restart m c _ _ => some (m, (TRK_ACT_CTRL.A c), true)
  | .testHoldWrite m c _ => some (m, (TRK_ACT_CTRL.A c), true)
  | .ploamPush m c _ => some (m, (TRK_PLOAM_TX.A c), true)
  | .eqdWrite m c _ => some (m, (TRK_EQD.A c), true)
  | .keySwitchArm m c _ => some (m, (TRK_KEY_SWITCH.A c), true)
  | .wsAllowedWrite m c _ => some (m, (TRK_ACT_CTRL.A c), true)
  | .joinRetry m g c _ => some (m, (SHF_MBR_CTRL.A g c), true)
  | .epochSwap m _ => some (m, THR_EPOCH_CTRL.A, true)
  | .ctxUpdate m _ => some (m, THR_CTX_UPDATE.A, true)
  | .ctxRead m _ => some (m, THR_CTX_UPDATE.A, true)
  | .ctxInval m _ => some (m, THR_CTX_INVAL.A, true)
  | .meterStatWrite m _ => some (m, 0x3000048, true)
  | .queueFlush m _ => some (m, GRN_Q_FLUSH.A, true)
  | .dramInit m _ => some (m, GRN_DRAM_CFG.A, true)
  | .dramRetrain m r _ => some (m, (GRN_DRAM_CH_CTRL.A r), true)
  | .dramRetire m r _ => some (m, (GRN_DRAM_CH_CTRL.A r), true)
  | .clearDebt m _ => some (m, TMS_SHP_CMD.A, true)
  | .mdioWrite m i _ => some (m, (SRD_MDIO_CMD.A i), true)
  | .mdioRead m i _ => some (m, (SRD_MDIO_CMD.A i), true)
  | .mdioAddress m i _ => some (m, (SRD_MDIO_CMD.A i), true)
  | .mdioReadIncrement m i _ => some (m, (SRD_MDIO_CMD.A i), true)
  | .recalGo m l _ => some (m, (SRD_RECAL.A l), true)
  | .pswClear m _ => some (m, SLT_PSW_CMD.A, true)
  | .pswLockout m _ => some (m, SLT_PSW_CMD.A, true)
  | .pswForceWork m _ => some (m, SLT_PSW_CMD.A, true)
  | .pswForceProt m _ => some (m, SLT_PSW_CMD.A, true)
  | .pswManualWork m _ => some (m, SLT_PSW_CMD.A, true)
  | .pswManualProt m _ => some (m, SLT_PSW_CMD.A, true)
  | .timeSet m => some (m, TIM_SET_CMD.A, true)
  | .timeAdd m => some (m, TIM_SET_CMD.A, true)
  | .timeReadLatch m => some (m, TIM_NOW_NS.A, false)
  | .todArm m _ => some (m, TIM_TOD_ARM.A, true)
  | .timSourceWrite m _ => some (m, TIM_CTRL.A, true)
  | .capturePop m i _ => some (m, (TIM_CAP.A i), true)
  | .tsQueuePop m q _ => some (m, (TIM_TSQ.A q), true)
  | .gateConfigChange m p _ => some (m, (SUB_GATE_CTRL.A p), true)
  | .wdogKick m _ => some (m, CTL_WDOG_KICK.A, true)
  | .ringTailWrite m d r _ => some (m, (RING_TAIL.A d r), true)
  | .ringIntAck m d r _ => some (m, (RING_INT_ACK.A d r), true)
  | .mbxSend m ch => some (m, (MBX_SEND.A ch), false)
  | .mbxPop m ch _ => some (m, (MBX_RX_STATUS.A ch), true)
  | .mbxEmptyStatusRead m ch => some (m, (MBX_RX_STATUS.A ch), false)
  | .dbSet m _ => some (m, MBX_DB_SET.A, true)
  | .lockAcquire m n _ => some (m, (HW_LOCK.A n), false)
  | .lockRelease m n _ => some (m, (HW_LOCK.A n), true)
  | .lockBreak m _ => some (m, HW_LOCK_BREAK.A, true)
  | .uartDataWrite m _ => some (m, CTL_UART_DATA.A, true)
  | .uartDataRead m => some (m, CTL_UART_DATA.A, false)
  | .confirm m _ => some (m, HSK_BOOT_CTRL.A, true)
  | .hskRngRead m => some (m, HSK_RNG.A, false)
  | .zeroise m _ => some (m, CIP_CFG.A, true)
  | .handover m _ => some (m, TWN_CTRL.A, true)
  | .mirrorSweep m _ => some (m, TWN_MIRROR_CFG.A, true)
  | .clearRedirect m _ => some (m, TWN_CTRL.A, true)
  | .stateRequest m _ => some (m, PWR_STATE_REQ.A, true)
  | .trimMaskWrite m _ => some (m, PWR_TRIM_MASK.A, true)
  | .domOffWrite m _ => some (m, PWR_DOM_OFF.A, true)
  | .alarmMaskWrite m _ _ _ _ => some (m, 0x9000048, true)
  | .logPop m _ => some (m, PM_LOG.A, true)
  | .getId m _ => some (m, HSK_CMD.A, true)
  | .attest m _ => some (m, HSK_CMD.A, true)
  | .measExtend m _ => some (m, HSK_CMD.A, true)
  | .revoke m _ _ => some (m, HSK_CMD.A, true)
  | .advanceSvn m _ _ => some (m, HSK_CMD.A, true)
  | .setProduction m _ _ => some (m, HSK_CMD.A, true)
  | .cveGenerate m _ => some (m, CVE_CTRL.A, true)
  | .cveVerify m _ => some (m, CVE_CTRL.A, true)
  | .cveDerive m _ => some (m, CVE_CTRL.A, true)
  | _ => none

/-- What a command leaves alone: whenever exec answers a next state, every byte of the external memory reads as before and
every register outside the PM block, those of `l` apart, holds what it held. -/
def Leaves (c : Instr) (l : List Nat) : Prop := ∀ s t : State, s.Quiet → exec c s = .next t → s.KeepsMem t ∧ s.KeepsRegs t l

/-! ## alarms, masks, the event log, histories, bandwidth windows and the console -/

/-- ALARM_SAMPLE while domain CTL runs, on and not in reset: every instance of every alarm type is sampled in order (R505, R506). -/
def alarmSample : Prop := ∀ (s : State),
  let h := s.hw
  h.domRuns 2 = true →
  exec .alarmSample s = .next (s.finish (h.forAll ((List.range 25).map (fun t => (List.range (alarmInstances t)).map (fun i => (t, i)))).flatten (fun x a => x.alarmSample a.1 a.2)))

/-- ALARM_MASK_WRITE of one alarm by a master whose access is admitted: the PM gate's running command finishes, MASK takes the value where the alarm exists, raised alarms whose masking changed are logged as cleared or raised, and the gate is BUSY until its command completes (R53, R505, R508). -/
def alarmMaskWrite : Prop := ∀ (m : Master) (t : Fin 32) (x : Fin 1024) (v : Fin 2) (s : State),
  let h := s.hw.reached m 0x9000048
  s.hw.admits m 0x9000048 true →
  exec (.alarmMaskWrite m false t x v) s = .next (s.finish (h.gateCommit 0x9000000 (fun k => (if alarmEntry 2 (t.val * 1024 + x.val) = false then k else k.ts (ALARM_STATE.MASK (t.val * 1024 + x.val)) v).maskChanged k t)))

/-- ALARM_MASK_WRITE of a whole type by a master whose access is admitted: as above, with TYPE_MASK of the type where the type exists (R53, R505, R508). -/
def alarmMaskWrite_type : Prop := ∀ (m : Master) (t : Fin 32) (x : Fin 1024) (v : Fin 2) (s : State),
  let h := s.hw.reached m 0x9000048
  s.hw.admits m 0x9000048 true →
  exec (.alarmMaskWrite m true t x v) s = .next (s.finish (h.gateCommit 0x9000000 (fun k => (if alarmEntry 1 t = false then k else k.ts (ALARM_TYPE.TYPE_MASK t) v).maskChanged k t)))

/-- LOG_POP with POP 1: the oldest log entry is gone (R509). -/
def logPop : Prop := ∀ (m : Master) (v : Word) (s : State),
  let h := s.hw.reached m PM_LOG.A
  let g := h.plainWrite PM_LOG.A v
  s.hw.admits m PM_LOG.A true →
  getField v 9 1 = 1 →
  exec (.logPop m v) s = .next (s.finish (g.setLog (g.pm.log.drop 1)))

/-- HISTORY_WRITE_DONE of closed 15-minute bins: the records are written, lost ones apart, SEQ takes the interval, VALID sets, BUSY clears and BIN15_DONE is signalled (R514, R515). -/
def historyWriteDone : Prop := ∀ (lost : List (Fin 1540)) (c : PmClose) (s : State),
  let h := s.hw
  let g := (h.historyWrite c (lost.map Fin.val)).wr PM_CLOSE15.SEQ c.seq
  let d := { g with pm := { g.pm with close15 := none } }
  h.pm.close15 = some c →
  exec (.historyWriteDone false lost) s = .next (s.finish (((d.wr PM_CLOSE15.VALID 1).wr PM_CLOSE15.BUSY 0).pmRaise EV_PM.BIN15_DONE))

/-- HISTORY_WRITE_DONE of closed daily bins: the records are written, lost ones apart, SEQ takes the day, VALID sets, BUSY clears and BIN24_DONE is signalled (R514, R515). -/
def historyWriteDone_daily : Prop := ∀ (lost : List (Fin 1540)) (c : PmClose) (s : State),
  let h := s.hw
  let g := (h.historyWrite c (lost.map Fin.val)).wr PM_CLOSE24.SEQ c.seq
  let d := { g with pm := { g.pm with close24 := none } }
  h.pm.close24 = some c →
  exec (.historyWriteDone true lost) s = .next (s.finish (((d.wr PM_CLOSE24.VALID 1).wr PM_CLOSE24.BUSY 0).pmRaise EV_PM.BIN24_DONE))

/-- BW_WINDOW_END of an object with WIN_EN: the readable buffer takes the end of the window, STEPPED clear, and the window's octets and frames, and the open window starts from zero (R517). -/
def bwWindowEnd : Prop := ∀ (o : Fin 1540) (s : State),
  let h := s.hw
  let x := h.pmObj o
  let g := (h.ts (BW.END_SEC o) h.localTime.sec).ts (BW.END_NS o) h.localTime.ns
  let k := ((g.ts (BW.STEPPED o) 0).ts (BW.RX_BYTES o) x.rxBytes).ts (BW.TX_BYTES o) x.txBytes
  let d := (k.ts (BW.RX_FRAMES o) x.rxFrames).ts (BW.TX_FRAMES o) x.txFrames
  h.t (PM_OBJ.WIN_EN o) ≠ 0 →
  exec (.bwWindowEnd o) s = .next (s.finish (d.modObj o (fun y => { y with rxBytes := 0, txBytes := 0, rxFrames := 0, txFrames := 0 })))

/-- UART_DATA_WRITE after HANDOFF with room: the octet waits in the transmit FIFO (R539). -/
def uartDataWrite : Prop := ∀ (m : Master) (v : Word) (s : State),
  let h := s.hw.reached m CTL_UART_DATA.A
  s.hw.admits m CTL_UART_DATA.A true →
  h.rd HSK_STATUS.HANDOFF ≠ 0 →
  h.ctl.uartTx.length < 64 →
  h.ctl.uartWait = [] →
  exec (.uartDataWrite m v) s = .next (s.finish (h.setUart (h.ctl.uartTx ++ [BitVec.ofNat 8 v.toNat]) h.ctl.uartRx []))

/-- UART_DATA_READ: the oldest octet received leaves its FIFO and is answered with bit 8 set (R539). -/
def uartDataRead : Prop := ∀ (m : Master) (o : Byte) (t : Bytes) (s : State),
  let h := s.hw.reached m CTL_UART_DATA.A
  s.hw.admits m CTL_UART_DATA.A false →
  h.ctl.uartRx = o :: t →
  exec (.uartDataRead m) s = .next (s.finish ((h.setUart h.ctl.uartTx t h.ctl.uartWait).answer (BitVec.ofNat 32 (o.toNat + 256))))

/-- UART_DATA_READ with nothing received: 0 (R539). -/
def uartDataRead_empty : Prop := ∀ (m : Master) (s : State),
  let h := s.hw.reached m CTL_UART_DATA.A
  s.hw.admits m CTL_UART_DATA.A false →
  h.ctl.uartRx = [] →
  exec (.uartDataRead m) s = .next (s.finish (h.answer 0#32))

/-- UART_BYTE_RX with room: the octet joins the receive FIFO (R539). -/
def uartByteRx : Prop := ∀ (b : Byte) (frameErr : Bool) (s : State),
  let h := s.hw
  h.uartOn = true →
  frameErr = false →
  h.ctl.uartRx.length < 64 →
  exec (.uartByteRx b frameErr) s = .next (s.finish (h.setUart h.ctl.uartTx (h.ctl.uartRx ++ [b]) h.ctl.uartWait))

/-- UART_BYTE_RX with the receive FIFO full: the octet is lost and RX_OVF sets (R539). -/
def uartByteRx_full : Prop := ∀ (b : Byte) (frameErr : Bool) (s : State),
  let h := s.hw
  h.uartOn = true →
  frameErr = false →
  64 ≤ h.ctl.uartRx.length →
  exec (.uartByteRx b frameErr) s = .next (s.finish (h.wr CTL_UART_STATUS.RX_OVF 1))

/-- UART_BYTE_SENT: the oldest octet leaves the terminal, and one whose write stalled takes its place (R539). -/
def uartByteSent : Prop := ∀ (o : Byte) (t : Bytes) (s : State),
  let h := s.hw
  h.uartOn = true →
  h.ctl.uartTx = o :: t →
  exec .uartByteSent s = .next (s.finish ((h.setUart (t ++ h.ctl.uartWait.take 1) h.ctl.uartRx (h.ctl.uartWait.drop 1)).emit (.uart o)))

/-! ## image verification, start-up records, hand-off and image loading -/

/-- IMAGE_VERIFY_DONE while Husk looks for an image: SPI_RESET_N of a flash path has risen and what the flash told of itself is kept, the slots of the path are known, and the image in hand is judged (R415, R487, R494, R528). -/
def imageVerifyDone : Prop := ∀ (slotA slotB : Bytes) (readErr : Bool) (flash : Nat × Bool) (s : State),
  let h := s.hw
  let k := if h.bootPath < 2 then h.spiRelease.modHsk (fun y => { y with flash := some flash }) else h
  let a := k.slotRead 0 slotA
  let c := k.slotRead 1 slotB
  let g := k.slotsKnown a c
  let img := (g.imageRead a c).take (imgLen (g.imageRead a c))
  h.booting .boot = true →
  (2 ≤ h.bootPath → h.hsk.load.isSome = true) →
  exec (.imageVerifyDone slotA slotB readErr flash) s = .next (s.finish (g.imageJudged img (g.judge g.bootPath img readErr)))

/-- RECORD_WRITE of a whole word at an address that Husk may write: the register takes it as a write of every field, and the next record is in hand (R492, R493). -/
def recordWrite : Prop := ∀ (s : State),
  let h := s.hw
  let x := h.hsk.next
  h.booting .apply = true →
  x < imgRecs h.hsk.image →
  recordOp h.hsk.image x = 1 →
  h.recWord x 2 % 2 ^ 32 = 0xFFFFFFFF →
  h.accessError .husk (h.recWord x 1) 4 true = 0 →
  exec .recordWrite s = .next (s.finish (((h.settle (h.recWord x 1)).writeAll s.mem .husk (h.recWord x 1) (BitVec.ofNat 32 (h.recWord x 3))).recordDone))

/-- RECORD_WAIT: the register is read once, and whether its masked value is the one looked for is kept (R492, R493). -/
def recordWait : Prop := ∀ (s : State),
  let h := s.hw
  let x := h.hsk.next
  let g := h.access s.mem .husk (h.recWord x 1) 4 .read
  h.booting .apply = true →
  x < imgRecs h.hsk.image →
  recordOp h.hsk.image x = 2 →
  h.accessError .husk (h.recWord x 1) 4 false = 0 →
  exec .recordWait s = .next (s.finish (g.modHsk (fun k => { k with wait := some (g.rdata &&& BitVec.ofNat 32 (g.recWord x 2) == BitVec.ofNat 32 (g.recWord x 3)) })))

/-- RECORD_WAIT_DONE after a poll that held: the next record is in hand (R492). -/
def recordWaitDone : Prop := ∀ (s : State),
  let h := s.hw
  let x := h.hsk.next
  h.booting .apply = true →
  x < imgRecs h.hsk.image →
  recordOp h.hsk.image x = 2 →
  h.hsk.wait = some true →
  exec .recordWaitDone s = .next (s.finish (h.recordDone))

/-- RECORD_WAIT_DONE after a poll that did not hold: the application fails with code 2 (R492, R493). -/
def recordWaitDone_timeout : Prop := ∀ (s : State),
  let h := s.hw
  let x := h.hsk.next
  h.booting .apply = true →
  x < imgRecs h.hsk.image →
  recordOp h.hsk.image x = 2 →
  h.hsk.wait = some false →
  exec .recordWaitDone s = .next (s.finish (h.applyFailed 2))

/-- RECORD_DELAY: its time is over and the next record is in hand (R492). -/
def recordDelay : Prop := ∀ (s : State),
  let h := s.hw
  let x := h.hsk.next
  h.booting .apply = true →
  x < imgRecs h.hsk.image →
  recordOp h.hsk.image x = 3 →
  exec .recordDelay s = .next (s.finish (h.recordDone))

/-- RECORD_TABLE at the gate of a block that has the table: a gate command in progress ends, and the segments are committed one by one from the image (R492, R493). -/
def recordTable : Prop := ∀ (t : Nat × TabRow) (s : State),
  let h := s.hw
  let x := h.hsk.next
  let b := h.recWord x 1
  let g := (h.settle (b + 0x48)).gateFinish b
  h.booting .apply = true →
  x < imgRecs h.hsk.image →
  recordOp h.hsk.image x = 4 →
  h.accessError .husk (b + 0x48) 4 true = 0 →
  gateRegBase (b + 0x48) = some b →
  gateTable b (g.recWord x 2 % 256) = some t →
  exec .recordTable s = .next (s.finish (g.recordSegments { base := b, gate := t.1, row := t.2, x := g.recWord x 3, seg := g.recWord x 2 / 256 % 16 } (g.recWord x 4) (recordArg g.hsk.image x)))

/-- RECORD_SECTIONS: the image's sections are loaded in order (R491, R492). -/
def recordSections : Prop := ∀ (s : State),
  let h := s.hw
  let x := h.hsk.next
  h.booting .apply = true →
  x < imgRecs h.hsk.image →
  recordOp h.hsk.image x = 5 →
  exec .recordSections s = .next (s.finish (h.recordSections ((List.range (imgSecs h.hsk.image)).map (sectionAt h.hsk.image))))

/-- HANDOFF after the last record of an image that is not the newer slot's: FELL_BACK, the result OK and the time taken are shown, HANDOFF sets, what was staged is gone, and the control cores are released at CORE_ENTRY (R417, R494, R499). -/
def handoff : Prop := ∀ (s : State),
  let h := s.hw
  let back := h.bootPath == 0 && (h.hsk.first != some h.hsk.slot || true)
  let g := ((h.wr HSK_BOOT_INFO.FELL_BACK (b2n back)).wr HSK_BOOT_INFO.APPLY_RESULT 0).wr HSK_HANDOFF_TIME.TIME_US ((h.clk - h.hsk.start) / 1000)
  h.booting .apply = true →
  h.hsk.next = imgRecs h.hsk.image →
  h.runsNewer = false →
  exec .handoff s = .next (s.finish ((g.wr HSK_STATUS.HANDOFF 1).modHsk (fun k => { k with phase := .run, staging := [], load := none, cores := some (imgEntry h.hsk.image) })))

/-- HANDOFF of the newer slot's image that has not been confirmed: the attempt is counted too (R417, R494, R495). -/
def handoff_newer : Prop := ∀ (s : State),
  let h := s.hw
  let a := h.wr HSK_BOOT_CTRL.ATTEMPTS (min 3 (h.rd HSK_BOOT_CTRL.ATTEMPTS + 1))
  let g := ((a.wr HSK_BOOT_INFO.FELL_BACK 0).wr HSK_BOOT_INFO.APPLY_RESULT 0).wr HSK_HANDOFF_TIME.TIME_US ((h.clk - h.hsk.start) / 1000)
  h.booting .apply = true →
  h.hsk.next = imgRecs h.hsk.image →
  h.runsNewer = true →
  h.hsk.first = some h.hsk.slot →
  imgGen h.hsk.image ≠ h.rd HSK_CONF_GEN.CONF_GEN →
  exec .handoff s = .next (s.finish ((g.wr HSK_STATUS.HANDOFF 1).modHsk (fun k => { k with phase := .run, staging := [], load := none, cores := some (imgEntry h.hsk.image) })))

/-- CONFIRM after HANDOFF: the running image's generation is the confirmed one, and of the newer slot's image the attempts are 0 again (R495). -/
def confirm : Prop := ∀ (m : Master) (v : Word) (s : State),
  let h := s.hw.reached m HSK_BOOT_CTRL.A
  let g := h.plainWrite HSK_BOOT_CTRL.A v
  let c := g.wr HSK_CONF_GEN.CONF_GEN (imgGen g.hsk.image)
  s.hw.admits m HSK_BOOT_CTRL.A true →
  getField v 0 1 = 1 →
  g.rd HSK_STATUS.HANDOFF ≠ 0 →
  exec (.confirm m v) s = .next (s.finish (if g.runsNewer = true then c.wr HSK_BOOT_CTRL.ATTEMPTS 0 else c))

/-- PCIE_LOAD_WORD while Husk waits for an image from the host: the staged image of that length is to be verified (R497). -/
def pcieLoadWord : Prop := ∀ (v : Word) (s : State),
  let h := s.hw
  h.deaf .host = false →
  h.hostLoad = true →
  h.hsk.load = none →
  h.hsk.phase = .boot →
  exec (.pcieLoadWord v) s = .next (s.finish (h.modHsk (fun k => { k with load := some (min v.toNat (loadWord - stageBase)), loaded := false })))

/-- XMODEM_BLOCK_RX of the next block, whole and right: its octets join the image and it is acknowledged (R498, log entry 44). -/
def xmodemBlockRx : Prop := ∀ (bs : Bytes) (s : State),
  let h := s.hw
  h.recovering = true →
  bs.length = 1029 →
  byteAt bs 0 = 2 →
  byteAt bs 1 + byteAt bs 2 = 255 →
  crc16 ((bs.drop 3).take 1024) = beAt bs 1027 2 →
  byteAt bs 1 = (h.hsk.xmodem.length / 1024 + 1) % 256 →
  exec (.xmodemBlockRx bs) s = .next (s.finish ((h.modHsk (fun k => { k with xmodem := k.xmodem ++ (bs.drop 3).take 1024 })).emit (.uart 0x06#8)))

/-- XMODEM_BLOCK_RX of the end of the transfer: the image is whole, and it is acknowledged (R498, log entry 44). -/
def xmodemBlockRx_end : Prop := ∀ (bs : Bytes) (s : State),
  let h := s.hw
  h.recovering = true →
  bs.head? = some 0x04#8 →
  exec (.xmodemBlockRx bs) s = .next (s.finish ((h.modHsk (fun k => { k with load := some k.xmodem.length })).emit (.uart 0x06#8)))

/-- RECOVERY_TIMEOUT: without a block for 60 s the transfer begins anew with the prompt (R498). -/
def recoveryTimeout : Prop := ∀ (s : State),
  let h := s.hw
  h.recovering = true →
  exec .recoveryTimeout s = .next (s.finish (h.recoveryPrompt))

/-! ## activation, ranging timers, PLOAM transmission and burst assembly -/

/-- ENTER_O4 in O2-3 with ONU_ID_VALID: TO1 runs and the channel is in O4 (R126, R127). -/
def enterO4 : Prop := ∀ (m : Master) (c : Fin 4) (v : Word) (s : State),
  let h := s.hw.reached m (TRK_ACT_CTRL.A c)
  let g := h.plainWrite (TRK_ACT_CTRL.A c) v
  s.hw.admits m (TRK_ACT_CTRL.A c) true →
  g.trkOn c = true →
  g.actState c = 3 →
  g.rd (TRK_ONU_ID.ONU_ID_VALID c) = 1 →
  exec (.enterO4 m c v false) s = .next (s.finish ((g.wr (TRK_ACT_STATUS.TO1_RUN c) 1).setAct c 4))

/-- ENTER_O4 on a channel not on, outside O2-3, without ONU_ID_VALID, or beaten by a higher event: only CMD_REJECT counts (R126, R127). -/
def enterO4_reject : Prop := ∀ (m : Master) (c : Fin 4) (v : Word) (beaten : Bool) (s : State),
  let h := s.hw.reached m (TRK_ACT_CTRL.A c)
  let g := h.plainWrite (TRK_ACT_CTRL.A c) v
  s.hw.admits m (TRK_ACT_CTRL.A c) true →
  ¬(g.trkOn c = true ∧ g.actState c = 3 ∧ g.rd (TRK_ONU_ID.ONU_ID_VALID c) = 1 ∧ beaten = false) →
  exec (.enterO4 m c v beaten) s = .next (s.finish (g.actCount c ACT_N.CMD_REJECT))

/-- ENTER_O5 in O4 with EQD_VALID: TO1 stops and the channel is in O5 (R126, R127). -/
def enterO5 : Prop := ∀ (m : Master) (c : Fin 4) (v : Word) (s : State),
  let h := s.hw.reached m (TRK_ACT_CTRL.A c)
  let g := h.plainWrite (TRK_ACT_CTRL.A c) v
  s.hw.admits m (TRK_ACT_CTRL.A c) true →
  g.trkOn c = true →
  g.actState c = 4 →
  g.rd (TRK_ACT_STATUS.EQD_VALID c) = 1 →
  exec (.enterO5 m c v false) s = .next (s.finish ((g.wr (TRK_ACT_STATUS.TO1_RUN c) 0).setAct c 5))

/-- ENTER_O5 on a channel not on, outside O4, without EQD_VALID, or beaten by a higher event: only CMD_REJECT counts (R126, R127). -/
def enterO5_reject : Prop := ∀ (m : Master) (c : Fin 4) (v : Word) (beaten : Bool) (s : State),
  let h := s.hw.reached m (TRK_ACT_CTRL.A c)
  let g := h.plainWrite (TRK_ACT_CTRL.A c) v
  s.hw.admits m (TRK_ACT_CTRL.A c) true →
  ¬(g.trkOn c = true ∧ g.actState c = 4 ∧ g.rd (TRK_ACT_STATUS.EQD_VALID c) = 1 ∧ beaten = false) →
  exec (.enterO5 m c v beaten) s = .next (s.finish (g.actCount c ACT_N.CMD_REJECT))

/-- DEACTIVATE in O2-3, O4 or O5: timers stop, the channel clears and is in O1 (R126, R128). -/
def deactivate : Prop := ∀ (m : Master) (c : Fin 4) (v : Word) (s : State),
  let h := s.hw.reached m (TRK_ACT_CTRL.A c)
  let g := h.plainWrite (TRK_ACT_CTRL.A c) v
  s.hw.admits m (TRK_ACT_CTRL.A c) true →
  g.trkOn c = true →
  3 ≤ g.actState c →
  g.actState c ≤ 5 →
  exec (.deactivate m c v false) s = .next (s.finish (g.actLeave c (·.actO1 c)))

/-- DEACTIVATE on a channel not on, outside O2-3 to O5, or beaten by a higher event: only CMD_REJECT counts (R126, R127). -/
def deactivate_reject : Prop := ∀ (m : Master) (c : Fin 4) (v : Word) (beaten : Bool) (s : State),
  let h := s.hw.reached m (TRK_ACT_CTRL.A c)
  let g := h.plainWrite (TRK_ACT_CTRL.A c) v
  s.hw.admits m (TRK_ACT_CTRL.A c) true →
  ¬(g.trkOn c = true ∧ (3 ≤ g.actState c ∧ g.actState c ≤ 5) ∧ beaten = false) →
  exec (.deactivate m c v beaten) s = .next (s.finish (g.actCount c ACT_N.CMD_REJECT))

/-- RESTART outside O7: timers stop, the channel clears and is in O1 (R126, R128). -/
def restart : Prop := ∀ (m : Master) (c : Fin 4) (v : Word) (s : State),
  let h := s.hw.reached m (TRK_ACT_CTRL.A c)
  let g := h.plainWrite (TRK_ACT_CTRL.A c) v
  s.hw.admits m (TRK_ACT_CTRL.A c) true →
  g.trkOn c = true →
  g.actState c ≠ 7 →
  exec (.restart m c v false) s = .next (s.finish (g.actLeave c (·.actO1 c)))

/-- RESTART on a channel not on, in O7, or beaten by a higher event: only CMD_REJECT counts (R126, R127). -/
def restart_reject : Prop := ∀ (m : Master) (c : Fin 4) (v : Word) (beaten : Bool) (s : State),
  let h := s.hw.reached m (TRK_ACT_CTRL.A c)
  let g := h.plainWrite (TRK_ACT_CTRL.A c) v
  s.hw.admits m (TRK_ACT_CTRL.A c) true →
  ¬(g.trkOn c = true ∧ g.actState c ≠ 7 ∧ beaten = false) →
  exec (.restart m c v beaten) s = .next (s.finish (g.actCount c ACT_N.CMD_REJECT))

/-- SERIAL_NUMBER_ADVANCE: from O1.2, with SN_EN, a valid profile and no test, to O2-3 (R126). -/
def serialNumberAdvance : Prop := ∀ (c : Fin 4) (s : State),
  let h := s.hw
  h.trkOn c = true →
  h.actState c = 2 →
  h.rd (TRK_ACT_CTRL.SN_EN c) = 1 →
  h.rd (TRK_ACT_CTRL.TEST_HOLD c) = 0 →
  (List.range 4).any (fun p => h.profileValid c p) = true →
  exec (.serialNumberAdvance c) s = .next (s.finish (h.setAct c 3))

/-- TO1_EXPIRE in O4: TO1_EXPIRED sets and the channel is in O1 again (R126, R127). -/
def to1Expire : Prop := ∀ (c : Fin 4) (s : State),
  let h := s.hw
  h.trkOn c = true →
  h.actState c = 4 →
  h.rd (TRK_ACT_STATUS.TO1_RUN c) = 1 →
  exec (.to1Expire c) s = .next (s.finish ((h.trkRaise c EV_TRK.TO1_EXPIRED).actO1 c))

/-- TO2_EXPIRE in O6: TO2_EXPIRED sets and the channel is in O1 again (R126, R127). -/
def to2Expire : Prop := ∀ (c : Fin 4) (s : State),
  let h := s.hw
  h.trkOn c = true →
  h.actState c = 6 →
  h.rd (TRK_ACT_STATUS.TO2_RUN c) = 1 →
  exec (.to2Expire c) s = .next (s.finish ((h.trkRaise c EV_TRK.TO2_EXPIRED).actO1 c))

/-- PLOAM_PUSH with room: the 48 octets of PLOAM_TXQ entry 0 are the newest of the queue (R134). -/
def ploamPush : Prop := ∀ (m : Master) (c : Fin 4) (v : Word) (s : State),
  let h := s.hw.reached m (TRK_PLOAM_TX.A c)
  let g := h.plainWrite (TRK_PLOAM_TX.A c) v
  s.hw.admits m (TRK_PLOAM_TX.A c) true →
  getField v 8 1 = 1 →
  (g.act c).ploamTx.length < 8 →
  exec (.ploamPush m c v) s = .next (s.finish (g.setPloamTx c ((g.act c).ploamTx ++ [leBytes 48 (g.t (PLOAM_TXQ.MSG c 0))])))

/-- PLOAM_PUSH to a full queue is counted PLOAM_TX_FULL (R134). -/
def ploamPush_full : Prop := ∀ (m : Master) (c : Fin 4) (v : Word) (s : State),
  let h := s.hw.reached m (TRK_PLOAM_TX.A c)
  let g := h.plainWrite (TRK_PLOAM_TX.A c) v
  s.hw.admits m (TRK_PLOAM_TX.A c) true →
  getField v 8 1 = 1 →
  8 ≤ (g.act c).ploamTx.length →
  exec (.ploamPush m c v) s = .next (s.finish (g.actCount c ACT_N.PLOAM_TX_FULL))

/-- ASSEMBLY_CUTOFF of a ranging response with a message queued: it is staged with the preamble and delimiter of its profile, the header and that message, which leaves its queue (R136, R143). -/
def assemblyCutoff_ranging : Prop := ∀ (c : Fin 4) (u : Burst) (msg : Bytes) (t : List Bytes) (s : State),
  let h := s.hw
  let g := h.setUnstaged c { u with staged := true, cur := u.grants.length, items := [.preamble (h.preambleOf c u.profile), .delimiter (h.delimiterOf c u.profile), .header (h.rd (TRK_ONU_ID.ONU_ID c)), .ploam msg] }
  (h.act c).bursts.find? (fun x => !x.staged) = some u →
  h.trkOn c = true →
  h.rd (TRK_DLN_STATUS.LODS c) ≠ 1 →
  h.txdisForced c = false →
  h.txdisState c = false →
  h.stateSends c .ranging = true →
  h.windowTooLong c u.tenthPs = false →
  u.kind = .ranging →
  (h.act c).ploamTx = msg :: t →
  exec (.assemblyCutoff c) s = .next (s.finish (g.setPloamTx c ((g.act c).ploamTx.drop 1)))

/-- ASSEMBLY_CUTOFF of a data burst: its grants are closed in map order, and it is staged with the preamble and delimiter of its profile, the header, its FEC, and, where asked, the oldest upstream PLOAM message (R143, R144). -/
def assemblyCutoff : Prop := ∀ (c : Fin 4) (u : Burst) (s : State),
  let h := s.hw
  let ploamu := u.grants.head?.any (fun g => g.ploamu)
  let items := [.preamble (h.preambleOf c u.profile), .delimiter (h.delimiterOf c u.profile), .header (h.rd (TRK_ONU_ID.ONU_ID c))] ++ (if ploamu then [BurstItem.ploam ((h.act c).ploamTx.headD [])] else [])
  let r := h.closeGrants c (h.respace c u u.grants)
  let g := r.1.setUnstaged c { u with staged := true, fec := h.burstFec c u, items := items, grants := r.2 }
  (h.act c).bursts.find? (fun x => !x.staged) = some u →
  h.trkOn c = true →
  h.rd (TRK_DLN_STATUS.LODS c) ≠ 1 →
  h.txdisForced c = false →
  h.txdisState c = false →
  h.stateSends c .data = true →
  h.windowTooLong c u.tenthPs = false →
  u.kind = .data →
  exec (.assemblyCutoff c) s = .next (s.finish (if ploamu then g.popPloamTx c else g))

/-- ASSEMBLY_CUTOFF while something forces the laser dark: the burst is consumed and counted TXDIS_DISCARD (R79, R147). -/
def assemblyCutoff_dark : Prop := ∀ (c : Fin 4) (u : Burst) (s : State),
  let h := s.hw
  (h.act c).bursts.find? (fun x => !x.staged) = some u →
  h.trkOn c = true →
  h.rd (TRK_DLN_STATUS.LODS c) ≠ 1 →
  h.txdisForced c = true →
  exec (.assemblyCutoff c) s = .next (s.finish ((h.dropUnstaged c).actCount c ACT_N.TXDIS_DISCARD))

/-- ASSEMBLY_CUTOFF, the laser not forced dark, of a burst the state does not send: it is consumed and counted STATE_DISCARD once per grant (R108, R125, R147). -/
def assemblyCutoff_state : Prop := ∀ (c : Fin 4) (u : Burst) (s : State),
  let h := s.hw
  (h.act c).bursts.find? (fun x => !x.staged) = some u →
  h.trkOn c = true →
  h.rd (TRK_DLN_STATUS.LODS c) ≠ 1 →
  h.txdisForced c = false →
  (h.txdisState c || !h.stateSends c u.kind) = true →
  exec (.assemblyCutoff c) s = .next (s.finish ((h.dropUnstaged c).actCount c ACT_N.STATE_DISCARD u.grants.length))

/-! ## load estimates, upstream selection, key switches, watchful sleep, delays and test holds -/

/-- LA_ESTIMATE_UPDATE: every valid allocation's estimate moves by 2^-ALPHA of its distance from the bytes that arrived in the last 1 µs (R148). -/
def laEstimateUpdate : Prop := ∀ (s : State),
  let h := s.hw
  let g := h.forAll (List.range 4) (fun x c =>
    x.forAll ((x.listed c 1).filter (fun i => x.t (ALLOC_OWN.VALID c i) == 1)) (fun y i =>
      y.ts (LA_ALLOC.RATE_EST c i) (Int.ofNat (y.t (LA_ALLOC.RATE_EST c i)) +
        (Int.ofNat (y.tms.arrived.get 0 (y.t (ALLOC_OWN.NODE c i)) * 65536) - Int.ofNat (y.t (LA_ALLOC.RATE_EST c i)))
          / Int.ofNat (2 ^ y.rd (TRK_US_CFG.ALPHA c))).toNat))
  exec .laEstimateUpdate s = .next (s.finish ({ g with tms := { g.tms with arrived := [] } }))

/-- UPSTREAM_SELECT: the first staging of R280's order, on a channel whose transmit FIFO has room, that can place something in its current grant, or where that takes nothing in a later one of its burst, places it there (R279, R280). -/
def upstreamSelect : Prop := ∀ (f : Fin 16) (t : List Staging) (x : Staging) (g : Hw) (s : State),
  let h := s.hw
  h.stagings = x :: t →
  (h.stagings.filter (fun y => bitN f y.chan == 0)).findSome? (fun y => h.stageFrom y ((h.burstAt y).grants.length - (h.burstAt y).cur)) = some g →
  exec (.upstreamSelect false f) s = .next (s.finish (g))

/-- What the earliest staging places, with no continuation or marker, is the packet its node's scheduler selects, for an allocation of no group (R145, R279). -/
def upstreamSelect_frame : Prop := ∀ (f : Fin 16) (t : List Staging) (x : Staging) (g : Hw) (k : Cand) (p : Pkt) (s : State),
  let h := s.hw
  let j := h.trimGrant x
  let w := (j.burstAt x).grant
  let r := (g.take k.q).modGrant x (fun y => { y with framed := true })
  h.stagings = x :: t →
  bitN f x.chan = 0 →
  (h.burstAt x).cur < (h.burstAt x).grants.length →
  (h.burstAt x).grant.slot = false →
  h.placeContinuation x = none →
  h.placeMarker x = none →
  j.selectTree false w.node ((j.grantHeads x.chan w).filter (fun k => j.pathOk false k)) = some (g, k) →
  g.headPkt k.q = some p →
  r.t (US_GEM.VALID x.chan k.q) = 1 →
  r.memberOf x.chan (r.burstAt x).grant.allocIdx = none →
  exec (.upstreamSelect false f) s = .next (s.finish ((r.placePayload x k.q p 0).trimGrant x))

/-- UPSTREAM_SELECT when no staging with transmit room can place anything: the earliest of them closes its grant, the rest idle, and bytes only a shaper held back are counted (R279). -/
def upstreamSelect_idle : Prop := ∀ (f : Fin 16) (t : List Staging) (x : Staging) (s : State),
  let h := s.hw
  let l := h.stagings.filter (fun y => bitN f y.chan == 0)
  l = x :: t →
  l.findSome? (fun y => h.stageFrom y ((h.burstAt y).grants.length - (h.burstAt y).cur)) = none →
  exec (.upstreamSelect false f) s = .next (s.finish (h.idleFill x))

/-- UPSTREAM_SELECT with an underrun: UNDERRUN_FILL is counted and the rest of the earliest staging's grant is idle (R145). -/
def upstreamSelect_underrun : Prop := ∀ (f : Fin 16) (t : List Staging) (x : Staging) (s : State),
  let h := s.hw
  h.stagings = x :: t →
  exec (.upstreamSelect true f) s = .next (s.finish ((h.actCount x.chan ACT_N.UNDERRUN_FILL).nextGrant x))

/-- UPSTREAM_SELECT while the transmit FIFO of every channel with a staging is full: nothing is placed (R280). -/
def upstreamSelect_full : Prop := ∀ (f : Fin 16) (t : List Staging) (x : Staging) (s : State),
  let h := s.hw
  h.stagings = x :: t →
  h.stagings.filter (fun y => bitN f y.chan == 0) = [] →
  exec (.upstreamSelect false f) s = .next (s.finish (h))

/-- KEY_SWITCH_ARM in time: the switch waits for its superframe (R151). -/
def keySwitchArm : Prop := ∀ (m : Master) (c : Fin 4) (v : Word) (s : State),
  let h := s.hw.reached m (TRK_KEY_SWITCH.A c)
  let g := ((h.plainWrite (TRK_KEY_SWITCH.A c) v).wr (TRK_KEY_SWITCH.ARM c) 1).modAct c (fun a => { a with keyLate := false, keyNow := false })
  s.hw.admits m (TRK_KEY_SWITCH.A c) true →
  getField v 4 1 = 1 →
  (g.val64 (TRK_KEY_SWITCH_SFC.A c) % 2 ^ 51 + 2 ^ 51 - g.sfc c) % 2 ^ 51 < 2 ^ 50 →
  exec (.keySwitchArm m c v) s = .next (s.finish (g))

/-- KEY_SWITCH_ARM too late: it is counted and raised; the switch happens at the next frame's first grant (R152). -/
def keySwitchArm_late : Prop := ∀ (m : Master) (c : Fin 4) (v : Word) (s : State),
  let h := s.hw.reached m (TRK_KEY_SWITCH.A c)
  let g := ((h.plainWrite (TRK_KEY_SWITCH.A c) v).wr (TRK_KEY_SWITCH.ARM c) 1).modAct c (fun a => { a with keyLate := false, keyNow := false })
  s.hw.admits m (TRK_KEY_SWITCH.A c) true →
  getField v 4 1 = 1 →
  2 ^ 50 ≤ (g.val64 (TRK_KEY_SWITCH_SFC.A c) % 2 ^ 51 + 2 ^ 51 - g.sfc c) % 2 ^ 51 →
  exec (.keySwitchArm m c v) s = .next (s.finish (((g.modAct c (fun a => { a with keyLate := true })).actCount c ACT_N.KEY_SWITCH_LATE_COUNT).trkRaise c EV_TRK.KEY_SWITCH_LATE))

/-- WS_ALLOWED_WRITE of 1 in O5 with PM_STATE ACTIVE_HELD: it is ACTIVE_FREE (R153). -/
def wsAllowedWrite : Prop := ∀ (m : Master) (c : Fin 4) (v : Word) (s : State),
  let h := s.hw.reached m (TRK_ACT_CTRL.A c)
  let g := (h.plainWrite (TRK_ACT_CTRL.A c) v).wr (TRK_ACT_CTRL.WS_ALLOWED c) (getField v 2 1)
  s.hw.admits m (TRK_ACT_CTRL.A c) true →
  g.trkOn c = true →
  g.actState c = 5 →
  getField v 2 1 = 1 →
  g.rd (TRK_ACT_STATUS.PM_STATE c) = 0 →
  exec (.wsAllowedWrite m c v) s = .next (s.finish (g.setPm c 1))

/-- WS_ALLOWED_WRITE of 0 on a sleeping channel in O5 wakes it (R153). -/
def wsAllowedWrite_wake : Prop := ∀ (m : Master) (c : Fin 4) (v : Word) (s : State),
  let h := s.hw.reached m (TRK_ACT_CTRL.A c)
  let g := (h.plainWrite (TRK_ACT_CTRL.A c) v).wr (TRK_ACT_CTRL.WS_ALLOWED c) (getField v 2 1)
  s.hw.admits m (TRK_ACT_CTRL.A c) true →
  g.trkOn c = true →
  g.actState c = 5 →
  getField v 2 1 = 0 →
  g.rd (TRK_ACT_STATUS.PM_STATE c) = 2 ∨ g.rd (TRK_ACT_STATUS.PM_STATE c) = 3 →
  exec (.wsAllowedWrite m c v) s = .next (s.finish (g.pmWake c))

/-- AWARE_TO_WATCH: PM_STATE is WATCH, the receiver is off and no frame is processed (R123, R153). -/
def awareToWatch : Prop := ∀ (c : Fin 4) (s : State),
  let h := s.hw
  h.rd (TRK_ACT_STATUS.PM_STATE c) = 2 →
  exec (.awareToWatch c) s = .next (s.finish ((((h.setPm c 3).modAct c (fun a => { a with rxOn := false })).modDln c (fun d => { d with inFrame := false })).memberUpdate c))

/-- WATCH_INTERVAL_START: the receiver is on; having been off, delineation restarts from HUNT (R153). -/
def watchIntervalStart : Prop := ∀ (c : Fin 4) (s : State),
  let h := s.hw
  h.rd (TRK_ACT_STATUS.PM_STATE c) = 3 →
  (h.act c).rxOn = false →
  exec (.watchIntervalStart c) s = .next (s.finish ((h.modAct c (fun a => { a with rxOn := true, resync := true })).hunt c))

/-- WATCH_INTERVAL_END: the receiver is off and no frame is processed (R153). -/
def watchIntervalEnd : Prop := ∀ (c : Fin 4) (s : State),
  let h := s.hw
  h.rd (TRK_ACT_STATUS.PM_STATE c) = 3 →
  exec (.watchIntervalEnd c) s = .next (s.finish ((h.modAct c (fun a => { a with rxOn := false })).modDln c (fun d => { d with inFrame := false })))

/-- WATCH_SYNC_TIMEOUT: without SYNC in time the channel is ACTIVE_HELD and its defects are raised (R153). -/
def watchSyncTimeout : Prop := ∀ (c : Fin 4) (s : State),
  let h := s.hw
  let g := h.modAct c (fun a => { a with resync := false })
  (h.act c).resync = true →
  (h.act c).rxOn = true →
  h.inSync c = false →
  exec (.watchSyncTimeout c) s = .next (s.finish (((g.setPm c 0).defects c).memberUpdate c))

/-- TEST_HOLD_WRITE in O1.1 or O1.2: the bit takes the write (R130). -/
def testHoldWrite : Prop := ∀ (m : Master) (c : Fin 4) (v : Word) (s : State),
  let h := s.hw.reached m (TRK_ACT_CTRL.A c)
  let g := h.plainWrite (TRK_ACT_CTRL.A c) v
  s.hw.admits m (TRK_ACT_CTRL.A c) true →
  g.actState c ≤ 2 →
  exec (.testHoldWrite m c v) s = .next (s.finish (g.wr (TRK_ACT_CTRL.TEST_HOLD c) (getField v 1 1)))

/-- EQD_WRITE: the delay is written, valid, and pending until the next frame (R139). -/
def eqdWrite : Prop := ∀ (m : Master) (c : Fin 4) (v : Word) (s : State),
  let h := s.hw.reached m (TRK_EQD.A c)
  s.hw.admits m (TRK_EQD.A c) true →
  exec (.eqdWrite m c v) s = .next (s.finish (((h.fullWrite (TRK_EQD.A c) v).wr (TRK_ACT_STATUS.EQD_VALID c) 1).wr (TRK_ACT_STATUS.EQD_PENDING c) 1))

/-! ## the input FIFO, the pipelines, their contexts and tasks -/

/-- INPUT_FIFO_ARRIVAL from a source that feeds the pipeline, with room in its input FIFO: the packet joins it (R22, R26). -/
def inputFifoArrival : Prop := ∀ (pipe : Fin 2) (p : Pkt) (s : State),
  let h := s.hw
  let r := h.fifoPush pipe p
  feeds pipe p.source = true →
  r.2 = true →
  exec (.inputFifoArrival pipe p) s = .next (s.finish (r.1))

/-- INPUT_FIFO_ARRIVAL from a port whose input FIFO has no room: the packet is lost and counted at the port (R26). -/
def inputFifoArrival_full : Prop := ∀ (pipe : Fin 2) (p : Pkt) (s : State),
  let h := s.hw
  let r := h.fifoPush pipe p
  feeds pipe p.source = true →
  r.2 = false →
  p.source < 512 →
  exec (.inputFifoArrival pipe p) s = .next (s.finish (r.1.count (SUB_PORT_CNT.COUNT p.source 4)))

/-- INPUT_FIFO_ARRIVAL from a source that has no way into the pipeline: nothing changes (R22, R24). -/
def inputFifoArrival_other : Prop := ∀ (pipe : Fin 2) (p : Pkt) (s : State),
  let h := s.hw
  feeds pipe p.source = false →
  exec (.inputFifoArrival pipe p) s = .next (s.finish (h))

/-- PIPELINE_INPUT_GRANT: entries of the TCAM changed from outside fail their parity from now on, the pipeline is free, the source whose turn it is gives its oldest packet, and the packet is parsed and classified; the turn passes on unless the source is the mirror loop or recirculation (R25, R204, R208). -/
def pipelineInputGrant : Prop := ∀ (pipe : Fin 2) (upset : List (Fin 262144)) (src : Nat) (p : Pkt) (t : List Pkt) (s : State),
  let h := s.hw
  let k := { h with thr := { h.thr with upset := (h.thr.upset ++ upset.map Fin.val).eraseDups } }
  let g := k.setFifo pipe src t
  h.pipeBusy pipe = false →
  h.grantSource pipe = some src →
  h.fifo pipe src = p :: t →
  exec (.pipelineInputGrant pipe upset) s = .next (s.finish (Hw.pipeline (if 516 ≤ src ∧ src ≤ 517 then g else { g with thr := { g.thr with rr := g.thr.rr.set 0 pipe (src + 1) } }) pipe p))

/-- CONTEXT_READ_RETURN: its corrected errors are counted, the record enters the cache, the packets parked on it are resolved in arrival order, and those that waited behind them follow (R33, R221, R222, R257). -/
def contextReadReturn : Prop := ∀ (flow : Fin 1048576) (err : Bool) (corr : Nat) (s : State),
  let h := s.hw
  let g := h.count (GRN_CNT.COUNT GRN_N.DRAM_CORR) corr
  let n := h.thr.parked.length
  h.thr.parked.any (fun w => w.needs && w.flow == flow.val) = true →
  err = false →
  g.poisoned (g.ctxAddr flow) 64 = false →
  exec (.contextReadReturn flow err corr) s = .next (s.finish (((g.ctxInsert { flow := flow, words := g.ctxRead s.mem flow }).ctxTake flow n).release n))

/-- CONTEXT_READ_RETURN of a read that failed: the packets parked on it are discarded, CTX_ERR and DRAM_UNCORR_EV are set, and those that waited behind them follow (R33, R222, R257). -/
def contextReadReturn_err : Prop := ∀ (flow : Fin 1048576) (err : Bool) (corr : Nat) (s : State),
  let h := s.hw
  let g := h.count (GRN_CNT.COUNT GRN_N.DRAM_CORR) corr
  let k := { g with thr := { g.thr with parked := g.thr.parked.filter (fun w => !(w.needs && w.flow == flow.val)) } }
  h.thr.parked.any (fun w => w.needs && w.flow == flow.val) = true →
  err = true →
  exec (.contextReadReturn flow err corr) s = .next (s.finish ((((k.clsCount 4).thrRaise EV_THR.CTX_ERR).grnRaise EV_GRN.DRAM_UNCORR_EV).release h.thr.parked.length))

/-- TASK_ACCEPTED of a task verdict a pipeline holds: the task goes to its list, and the pause state of the packet's source is taken anew (R218, R364). -/
def taskAccepted : Prop := ∀ (pipe : Fin 2) (w : Waiting) (k : Pkt) (s : State),
  let h := s.hw
  let g := { h with thr := { h.thr with held := h.thr.held.erase w } }
  h.thr.held.find? (fun w => w.pipe == pipe.val) = some w →
  w.deal = none →
  w.task.pkt = some k →
  (g.taskOffer w.task).2 = true →
  exec (.taskAccepted pipe) s = .next (s.finish ((g.taskOffer w.task).1.poolUpdate k.source))

/-- EPOCH_SWAP while no swap runs: CUR_EPOCH advances, OLD_EPOCH takes what it was, and SWAP_COMPLETE clears (R212). -/
def epochSwap : Prop := ∀ (m : Master) (v : Word) (s : State),
  let h := s.hw.reached m THR_EPOCH_CTRL.A
  let e := h.rd THR_EPOCH_STATUS.CUR_EPOCH
  s.hw.admits m THR_EPOCH_CTRL.A true →
  getField v 0 1 = 1 →
  h.rd THR_EPOCH_STATUS.SWAP_COMPLETE = 1 →
  exec (.epochSwap m v) s = .next (s.finish (((h.wr THR_EPOCH_STATUS.CUR_EPOCH (e + 1)).wr THR_EPOCH_STATUS.OLD_EPOCH e).wr THR_EPOCH_STATUS.SWAP_COMPLETE 0))

/-- EPOCH_SWAP while a swap runs: it is discarded and counted (R213). -/
def epochSwap_early : Prop := ∀ (m : Master) (v : Word) (s : State),
  let h := s.hw.reached m THR_EPOCH_CTRL.A
  s.hw.admits m THR_EPOCH_CTRL.A true →
  getField v 0 1 = 1 →
  h.rd THR_EPOCH_STATUS.SWAP_COMPLETE = 0 →
  exec (.epochSwap m v) s = .next (s.finish (h.clsCount 15))

/-- EPOCH_DRAIN_COMPLETE: no packet is in flight with the old epoch, SWAP_COMPLETE sets and EPOCH_DONE is signalled (R212). -/
def epochDrainComplete : Prop := ∀ (s : State),
  let h := s.hw
  h.rd THR_EPOCH_STATUS.SWAP_COMPLETE = 0 →
  h.inFlight (h.rd THR_EPOCH_STATUS.OLD_EPOCH) = 0 →
  exec .epochDrainComplete s = .next (s.finish ((h.wr THR_EPOCH_STATUS.SWAP_COMPLETE 1).thrRaise EV_THR.EPOCH_DONE))

/-! ## epochs, the context cache, ageing, spread windows, throttling, performance counters and Gleaner -/

/-- CTX_UPDATE: the words that WMASK selects take THR_CTX_DATA in memory and in a cached copy as one update, the change goes to the twin, and BUSY sets (R223, R458). -/
def ctxUpdate : Prop := ∀ (m : Master) (v : Word) (s : State),
  let h := s.hw.reached m THR_CTX_UPDATE.A
  let g := h.ctxDone.fullWrite THR_CTX_UPDATE.A v
  let f := getField v 0 20
  let k := getField v 20 8
  let u := g.ctxApply f k g.ctxData
  let w := u.mirrorPush { kind := 1, block := 0, table := k, index := f, data := (List.range 16).map (fun n => g.word (THR_CTX_DATA.A n)) }
  s.hw.admits m THR_CTX_UPDATE.A true →
  getField v 31 1 = 1 →
  getField v 20 8 ≠ 0 →
  g.rd THR_CTX_BASE.CTX_EN ≠ 0 →
  exec (.ctxUpdate m v) s = .next (s.finish (w.ctxBegin { flow := f, mask := k }))

/-- CTX_READ of a cached record: THR_CTX_DATA take its words and BUSY sets (R223). -/
def ctxRead : Prop := ∀ (m : Master) (v : Word) (r : CtxRec) (s : State),
  let h := s.hw.reached m THR_CTX_UPDATE.A
  let g := h.ctxDone.fullWrite THR_CTX_UPDATE.A v
  let f := getField v 0 20
  let w := g.forAll (List.range 8) (fun x n => (x.setWord (THR_CTX_DATA.A (2 * n)) (BitVec.ofNat 32 (r.words.getD n 0))).setWord (THR_CTX_DATA.A (2 * n + 1)) (BitVec.ofNat 32 (r.words.getD n 0 / 2 ^ 32)))
  s.hw.admits m THR_CTX_UPDATE.A true →
  getField v 31 1 = 1 →
  getField v 20 8 = 0 →
  g.rd THR_CTX_BASE.CTX_EN ≠ 0 →
  g.ctxFind f = some r →
  exec (.ctxRead m v) s = .next (s.finish (w.ctxBegin { flow := f }))

/-- CTX_READ of a record that is not cached: a line is read from external memory, THR_CTX_DATA take the record's words and BUSY sets (R223, R257). -/
def ctxRead_memory : Prop := ∀ (m : Master) (v : Word) (s : State),
  let h := s.hw.reached m THR_CTX_UPDATE.A
  let g := h.ctxDone.fullWrite THR_CTX_UPDATE.A v
  let f := getField v 0 20
  let r := g.ctxRead s.mem f
  let w := g.dramRead.forAll (List.range 8) (fun x n => (x.setWord (THR_CTX_DATA.A (2 * n)) (BitVec.ofNat 32 (r.getD n 0))).setWord (THR_CTX_DATA.A (2 * n + 1)) (BitVec.ofNat 32 (r.getD n 0 / 2 ^ 32)))
  s.hw.admits m THR_CTX_UPDATE.A true →
  getField v 31 1 = 1 →
  getField v 20 8 = 0 →
  g.rd THR_CTX_BASE.CTX_EN ≠ 0 →
  g.ctxFind f = none →
  g.poisoned (g.ctxAddr f) 64 = false →
  exec (.ctxRead m v) s = .next (s.finish (w.ctxBegin { flow := f }))

/-- CTX_INVAL of a cached record: words 2 to 4 are written back, the record leaves the cache, and BUSY sets (R224). -/
def ctxInval : Prop := ∀ (m : Master) (v : Word) (r : CtxRec) (s : State),
  let h := s.hw.reached m THR_CTX_INVAL.A
  let g := h.ctxDone.fullWrite THR_CTX_INVAL.A v
  let f := getField v 0 20
  let w := g.ctxWriteBack r
  s.hw.admits m THR_CTX_INVAL.A true →
  getField v 31 1 = 1 →
  g.rd THR_CTX_BASE.CTX_EN ≠ 0 →
  g.ctxFind f = some r →
  exec (.ctxInval m v) s = .next (s.finish ((w.setCache (w.thr.cache.filter (fun x => x.flow != f))).ctxBegin { inval := true, flow := f }))

/-- CTX_CMD_DONE: BUSY clears, ERR takes the result, and CTX_DONE is signalled (R223, R224). -/
def ctxCmdDone : Prop := ∀ (c : CtxCmd) (s : State),
  let h := s.hw
  let g := { h with thr := { h.thr with ctxCmd := none } }
  h.thr.ctxCmd = some c →
  exec .ctxCmdDone s = .next (s.finish (((g.wr THR_CTX_STATUS.BUSY 0).wr THR_CTX_STATUS.ERR c.err).thrRaise EV_THR.CTX_DONE))

/-- AGE_SWEEP with ageing on: of every valid learned entry, HIT clears where it was 1, and the entry goes, counted, where it was 0 (R229). -/
def ageSweep : Prop := ∀ (s : State),
  let h := s.hw
  h.rd THR_CLS_CFG.AGE_TIME ≠ 0 →
  exec .ageSweep s = .next (s.finish (h.forAll (h.listed 5 14) (fun x i => if x.t (BRIDGE.VALID i) = 0 ∨ x.t (BRIDGE.STATIC i) = 1 then x else if x.t (BRIDGE.HIT i) = 1 then x.ts (BRIDGE.HIT i) 0 else ((x.ts (BRIDGE.VALID i) 0).clsCount 12).bridgeMirror i)))

/-- SPREAD_RR_TIMEOUT of the oldest number outstanding: it is skipped and counted, RR_SKIP_EV is signalled, and what it held back goes on (R233). -/
def spreadRrTimeout : Prop := ∀ (g : Fin 64) (o : SpreadNum) (t : List SpreadNum) (s : State),
  let h := s.hw
  (h.spread g).out = o :: t →
  o.done = false →
  exec (.spreadRrTimeout g) s = .next (s.finish ((((h.modSpread g (fun x => { x with out := t })).clsCount 17).thrRaise EV_THR.RR_SKIP_EV).spreadGo g))

/-- THROTTLE_STEP above the threshold, within the bounds: TEMP takes the temperature, one more sixteenth of the cluster's cycles is gated, and THROT_CHANGE is signalled (R380, R482). -/
def throttleStep : Prop := ∀ (k : Fin 8) (temp : BitVec 8) (s : State),
  let h := s.hw
  let g := h.rd (TIL_CL_THROT.GATED k)
  Int.ofNat (h.rd (TIL_CL_THROT.THROT_TH k)) < temp.toInt →
  h.rd (TIL_CL_THROT.THROT_MIN k) ≤ g →
  g + 1 ≤ h.rd (TIL_CL_THROT.THROT_MAX k) →
  exec (.throttleStep k temp) s = .next (s.finish (((h.wr (TIL_CL_THROT.TEMP k) (unsigned 8 temp.toInt)).wr (TIL_CL_THROT.GATED k) (g + 1)).tilRaise EV_TIL.THROT_CHANGE))

/-- PERF_COUNTER_WRAP of a counter with an event at its last value: it is 0, and PERF_OVF is signalled where OVF_INT asks (R381). -/
def perfCounterWrap : Prop := ∀ (e : Fin 64) (n : Fin 8) (s : State),
  let h := s.hw
  let g := (h.setWord (ENG_PERF_CNT.A e n) 0#32).setWord (ENG_PERF_CNT_HI.A e n) 0#32
  h.rd (ENG_PERF_SEL.EVENT e n) ≠ 0 →
  h.val64 (ENG_PERF_CNT.A e n) = 2 ^ 48 - 1 →
  exec (.perfCounterWrap e n) s = .next (s.finish (if g.capRd (ENG_PERF_SEL.OVF_INT e n) = 1 then g.raise (0x6000000 + e * 0x10000) EV_ENG.PERF_OVF else g))

/-- GLEANER_SAMPLE of the PERIOD-th event of the engine, with room: the engine's count starts anew, the sample is recorded at the write index, which advances, and HELD follows (R383). -/
def gleanerSample : Prop := ∀ (e : Fin 64) (pc : Fin 65536) (addr : Fin 1099511627776) (latency : Word) (s : State),
  let h := s.hw
  let k := e.val / 8
  let q : Hw := { h with til := { h.til with gleanCnt := h.til.gleanCnt.set 0 e 0 } }
  let i := q.rd (TIL_GLN_STATUS.WR_IDX k)
  let r := q.ts (GLEANER.REC (k * 4096 + i)) (q.gleanRecord e pc addr latency.toNat)
  let n := { r with til := { r.til with gleanSeq := r.til.gleanSeq.set 0 k ((r.til.gleanSeq.get 0 k + 1) % 2 ^ 32) } }
  h.rd (TIL_GLN_CFG.EN k) ≠ 0 →
  bitN (h.rd (TIL_GLN_CFG.ENG_MASK k)) (e % 8) ≠ 0 →
  h.executing e = true →
  h.rd (TIL_GLN_CFG.PERIOD k) ≤ h.til.gleanCnt.get 0 e + 1 →
  q.rd (TIL_GLN_STATUS.HELD k) ≠ 4096 ∨ q.rd (TIL_GLN_CFG.WRAP k) ≠ 0 →
  exec (.gleanerSample e pc addr latency) s = .next (s.finish ((n.wr (TIL_GLN_STATUS.WR_IDX k) (i + 1)).wr (TIL_GLN_STATUS.HELD k) (min 4096 (n.rd (TIL_GLN_STATUS.HELD k) + 1))))

/-- GLEANER_SAMPLE of the PERIOD-th event with the buffer full and WRAP 0: the sample is lost, counted and GLEAN_FULL signalled (R383). -/
def gleanerSample_full : Prop := ∀ (e : Fin 64) (pc : Fin 65536) (addr : Fin 1099511627776) (latency : Word) (s : State),
  let h := s.hw
  let k := e.val / 8
  let q : Hw := { h with til := { h.til with gleanCnt := h.til.gleanCnt.set 0 e 0 } }
  h.rd (TIL_GLN_CFG.EN k) ≠ 0 →
  bitN (h.rd (TIL_GLN_CFG.ENG_MASK k)) (e % 8) ≠ 0 →
  h.executing e = true →
  h.rd (TIL_GLN_CFG.PERIOD k) ≤ h.til.gleanCnt.get 0 e + 1 →
  q.rd (TIL_GLN_STATUS.HELD k) = 4096 →
  q.rd (TIL_GLN_CFG.WRAP k) = 0 →
  exec (.gleanerSample e pc addr latency) s = .next (s.finish ((q.count (TIL_GLN_LOST.LOST k)).tilRaise EV_TIL.GLEAN_FULL))

/-- GLEANER_SAMPLE of an event before the PERIOD-th: it is counted for the engine and no sample is recorded (R383). -/
def gleanerSample_between : Prop := ∀ (e : Fin 64) (pc : Fin 65536) (addr : Fin 1099511627776) (latency : Word) (s : State),
  let h := s.hw
  let k := e.val / 8
  h.rd (TIL_GLN_CFG.EN k) ≠ 0 →
  bitN (h.rd (TIL_GLN_CFG.ENG_MASK k)) (e % 8) ≠ 0 →
  h.executing e = true →
  h.til.gleanCnt.get 0 e + 1 < h.rd (TIL_GLN_CFG.PERIOD k) →
  exec (.gleanerSample e pc addr latency) s = .next (s.finish ({ h with til := { h.til with gleanCnt := h.til.gleanCnt.set 0 e (h.til.gleanCnt.get 0 e + 1) } }))

/-! ## register and window accesses, counters, interrupts and table gates -/

/-- REGISTER_WRITE on a register: an admitted write of a word acts on the register's fields by their access types (R16, R18); the load window of R497 apart. -/
def registerWrite_reg : Prop := ∀ (m : Master) (a : Fin 1099511627776) (v : Word) (s : State),
  let b := busAddr m a
  s.hw.admits m b true →
  s.hw.stages m b 4 (.write v) = false →
  b < 0x10000000 →
  exec (.registerWrite m a 4 (.write v)) s = .next (s.finish ((s.hw.reached m b).writeReg m b v))

/-- The same row on a read: the register's value comes back, by its access type (R16, R17). -/
def registerWrite_read : Prop := ∀ (m : Master) (a : Fin 1099511627776) (s : State),
  let b := busAddr m a
  s.hw.admits m b false →
  s.hw.stages m b 4 .read = false →
  b < 0x10000000 →
  exec (.registerWrite m a 4 .read) s = .next (s.finish ((s.hw.reached m b).readReg m b))

/-- The same row on a word of the external memory window: the four octets are stored, lowest first (R45). -/
def registerWrite_store : Prop := ∀ (m : Master) (a : Fin 1099511627776) (v : Word) (s : State),
  let b := busAddr m a
  s.hw.admits m b true →
  s.hw.stages m b 4 (.write v) = false →
  s.hw.msixArea m b 4 = false →
  extBase ≤ b →
  exec (.registerWrite m a 4 (.write v)) s = .next (s.finish (((s.hw.counted m).wakeByAccess 14).memWrite (b - extBase) (leBytes 4 v.toNat)))

/-- The same row by the host on a word of the MSI-X table or its pending bits, by then handed off, domain PCI not off: the endpoint takes it (R389; the place of BAR2 is the model's choice, log entry 147). -/
def registerWrite_msix : Prop := ∀ (a : Fin 1099511627776) (acc : Access) (s : State),
  s.hw.deaf .host = false →
  s.hw.stages .host a 4 acc = false →
  busAddr .host a = a.val →
  s.hw.msixArea .host a 4 = true →
  exec (.registerWrite .host a 4 acc) s = .next (s.finish (((s.hw.endReset 29).wakeByAccess 29).msixAccess a acc))

/-- COUNTER_LO_READ: the lo half comes back and the hi half goes into the reading master's latch (R50). -/
def counterLoRead : Prop := ∀ (m : Master) (a : Fin 268435456) (s : State),
  let h := s.hw.reached m a
  s.hw.admits m a false →
  isLo a = true →
  h.perfClosed m a = false →
  exec (.counterLoRead m a) s = .next (s.finish (({ h with latch := h.latch.set 0#32 (latchOf m a) (h.word (a + 4)) }).answer (h.word a)))

/-- COUNTER_HI_READ: the reading master's latch comes back (R50). -/
def counterHiRead : Prop := ∀ (m : Master) (a : Fin 268435456) (s : State),
  let h := s.hw.reached m a
  s.hw.admits m a false →
  isHi a = true →
  h.perfClosed m a = false →
  exec (.counterHiRead m a) s = .next (s.finish (h.answer (h.latch.get 0#32 (latchOf m a))))

/-- COUNTER_CLEAR: a write of 0 to the lo half clears both halves (R51); a lane's octet counts so far leave the interval measured with them. -/
def counterClear : Prop := ∀ (m : Master) (a : Fin 268435456) (s : State),
  let h := s.hw.reached m a
  s.hw.admits m a true →
  accOf a = .c64lo →
  exec (.counterClear m a 0#32) s = .next (s.finish (((h.octetsCleared a).setWord a 0#32).setWord (a + 4) 0#32))

/-- COUNTER_CLEAR: a write of any other value is discarded (R51). -/
def counterClear_other : Prop := ∀ (m : Master) (a : Fin 268435456) (v : Word) (s : State),
  let h := s.hw.reached m a
  s.hw.admits m a true →
  v ≠ 0#32 →
  exec (.counterClear m a v) s = .next (s.finish (h))

/-- INT_SET: status bits are set as the hardware events would set them; a bit the block does not have stays 0 (R48). -/
def intSet : Prop := ∀ (m : Master) (b : Blk) (v : Word) (s : State),
  let h := s.hw.reached m (b.base + 8)
  s.hw.admits m (b.base + 8) true →
  exec (.intSet m b v) s = .next (s.finish (h.statusChange b.base (fun x => x.setWord b.base (x.word b.base ||| (v &&& statusMask b.base)))))

/-- INT_EOI: a summary bit that is still 1 sends a further message (R58). -/
def intEoi : Prop := ∀ (m : Master) (v : Word) (s : State),
  let h := s.hw.reached m GLB_INT_EOI.A
  s.hw.admits m GLB_INT_EOI.A true →
  h.summary (getField v 0 5) = true →
  exec (.intEoi m v) s = .next (s.finish (h.routeMsix (getField v 0 5)))

/-- INT_EOI: nothing is sent for a summary bit that is 0 (R58). -/
def intEoi_clear : Prop := ∀ (m : Master) (v : Word) (s : State),
  let h := s.hw.reached m GLB_INT_EOI.A
  s.hw.admits m GLB_INT_EOI.A true →
  h.summary (getField v 0 5) = false →
  exec (.intEoi m v) s = .next (s.finish (h))

/-- TABLE_READ: the segment goes into the data registers and the command runs (R52, R53). -/
def tableRead : Prop := ∀ (m : Master) (b : Blk) (v : Word) (k : GateSel) (s : State),
  let h := s.hw.reached m (b.base + 0x48)
  let g := (h.gateFinish b.base).wr (gateSEG b.base) (getField v 4 4)
  s.hw.admits m (b.base + 0x48) true →
  g.gateSel b.base = some k →
  g.entryErr k 1 = 0 →
  exec (.tableRead m b v) s = .next (s.finish ((g.gateRead b.base k).gateRunning b.base { op := 1 }))

/-- TABLE_COMMIT: the data registers become the segment in one update and the command runs (R52, R53). -/
def tableCommit : Prop := ∀ (m : Master) (b : Blk) (v : Word) (k : GateSel) (s : State),
  let h := s.hw.reached m (b.base + 0x48)
  let g := (h.gateFinish b.base).wr (gateSEG b.base) (getField v 4 4)
  s.hw.admits m (b.base + 0x48) true →
  g.gateSel b.base = some k →
  g.entryErr k 3 = 0 →
  exec (.tableCommit m b v) s = .next (s.finish ((g.commitSeg k (g.gateData b.base)).gateRunning b.base { op := 3 }))

/-! ## gate writes, the end of gate commands and the start of functions -/

/-- TABLE_WRITE: the words the segment leaves in the entry, a field out of range as it was, are copied one by one, some now and the others by the time the command completes; which is open (R18, R52, log entry 3). -/
def tableWrite : Prop := ∀ (m : Master) (b : Blk) (v : Word) (k : GateSel) (s : State),
  let h := s.hw.reached m (b.base + 0x48)
  let g := (h.gateFinish b.base).wr (gateSEG b.base) (getField v 4 4)
  let whole := ((g.entryBefore k).putWords k (g.segData k (g.gateData b.base))).entryGuard g k
  let data := (g.segWords k).map (fun w => (w, whole.tabWord (k.key w)))
  let now := fun (w : Nat × Word) => bitN (g.draw 32) (w.1 % 16) == 1
  s.hw.admits m (b.base + 0x48) true →
  g.gateSel b.base = some k →
  g.entryErr k 2 = 0 →
  exec (.tableWrite m b v) s = .next (s.finish (((g.writeWords k (data.filter now)).drawn).gateRunning b.base
    { op := 2, old := data.map (fun w => (w.1, g.tabWord (k.key w.1))), words := data.filter (fun w => !now w) }))

/-- TABLE_CMD_COMPLETE after a READ or COMMIT, or a command in error: BUSY clears, ERR takes the result, and a failed command sets TBL_ERR (R53). -/
def tableCmdComplete : Prop := ∀ (b : Blk) (s : State),
  let h := s.hw
  let r := h.gates.get {} (gateOf b.base)
  let g := (({ h with gates := h.gates.set {} (gateOf b.base) {} }).wr (gateBUSY b.base) 0).wr (gateERR b.base) r.err
  r.op ≠ 0 →
  r.op ≠ 2 ∨ r.err ≠ 0 →
  exec (.tableCmdComplete b 0) s = .next (s.finish (if r.err = 0 then g else g.raise b.base EV.TBL_ERR))

/-- TABLE_CMD_COMPLETE after an accepted WRITE: the words not yet copied are, what the entry's change does follows, BUSY clears and ERR is 0 (R52, R53). -/
def tableCmdComplete_write : Prop := ∀ (b : Blk) (k : GateSel) (s : State),
  let h := s.hw
  let r := h.gates.get {} (gateOf b.base)
  let n := h.writeWords k r.words
  let o := n.forAll r.old (fun x w => x.setTabWord (k.key w.1) w.2)
  let q := n.entryGuard o k
  let e := (if k.gate = 12 ∧ k.row.id = 2 then q else q.entryChanged o k).entryMirrored k (q.gateData b.base)
  r.op = 2 →
  r.err = 0 →
  h.gateSel b.base = some k →
  exec (.tableCmdComplete b 0) s = .next (s.finish ((({ e with gates := e.gates.set {} (gateOf b.base) {} }).wr (gateBUSY b.base) 0).wr (gateERR b.base) 0))

/-- TABLE_CMD_COMPLETE whose memory had an error that was corrected: MEM_CORR is signalled and the command ends as it would (R48, R53). -/
def tableCmdComplete_ecc : Prop := ∀ (b : Blk) (s : State),
  let h := s.hw
  let r := h.gates.get {} (gateOf b.base)
  r.op ≠ 0 →
  r.err = 0 →
  exec (.tableCmdComplete b 1) s = .next (s.finish ((h.raise b.base EV.MEM_CORR).gateFinish b.base))

/-- FUNCTION_ENABLE by a write of the control register of a function in OFF: its configuration is captured and it goes to STARTING (R60, R61); members have R157 and R183 before them. -/
def functionEnable : Prop := ∀ (m : Master) (f : Fn) (v : Word) (s : State),
  let h := s.hw.reached m f.ctl
  let g := h.wr f.HELD (if h.st f = 0 then b2n (h.heldNow f) else h.rd f.HELD)
  let w := g.fullWrite f.ctl (setField v 0 1 1)
  s.hw.admits m f.ctl true →
  aliasCloses m f.ctl = false →
  (∀ g c, f ≠ .member g c) ∨ h.rd f.ENABLE = 1 →
  g.effEnable f = false →
  w.effEnable f = true →
  w.st f = 0 →
  exec (.functionEnable m f (some v)) s = .next (s.finish ((((w.wr f.STATE 1).capture f).fnStarting f).fnLive f))

/-- FUNCTION_ENABLE while the function is STOPPING: RESTART_PENDING is set (R60). -/
def functionEnable_pending : Prop := ∀ (m : Master) (f : Fn) (v : Word) (s : State),
  let h := s.hw.reached m f.ctl
  let g := h.wr f.HELD (if h.st f = 0 then b2n (h.heldNow f) else h.rd f.HELD)
  let w := g.fullWrite f.ctl (setField v 0 1 1)
  s.hw.admits m f.ctl true →
  aliasCloses m f.ctl = false →
  (∀ g c, f ≠ .member g c) ∨ h.rd f.ENABLE = 1 →
  g.effEnable f = false →
  w.effEnable f = true →
  w.st f = 3 →
  exec (.functionEnable m f (some v)) s = .next (s.finish ((w.wr f.RP 1).fnLive f))

/-- FUNCTION_ENABLE of a group member that would break R157 or R183: ENABLE is not written. -/
def functionEnable_member : Prop := ∀ (m : Master) (g : Fin 16) (c : Fin 4) (v : Word) (s : State),
  let h := s.hw.reached m (Fn.member g c).ctl
  s.hw.admits m (Fn.member g c).ctl true →
  aliasCloses m (Fn.member g c).ctl = false →
  h.rd (Fn.member g c).ENABLE = 0 →
  h.memberRefused g c (setField v 0 1 1) = true →
  exec (.functionEnable m (.member g c) (some v)) s = .next (s.finish (h.plainWrite (Fn.member g c).ctl (setField v 0 1 1)))

/-- FUNCTION_ENABLE as what held an enabled function in OFF lets go of it: HELD clears, and the function goes to STARTING (R60, R444, R475). -/
def functionEnable_released : Prop := ∀ (m : Master) (f : Fn) (s : State),
  let h := s.hw
  let w := h.wr f.HELD 0
  h.rd f.HELD = 1 →
  h.heldNow f = false →
  h.rd f.ENABLE = 1 →
  w.effEnable f = true →
  w.st f = 0 →
  exec (.functionEnable m f none) s = .next (s.finish (((w.wr f.STATE 1).capture f).fnStarting f))

/-- FUNCTION_ENABLE by an engine that writes its own ENG_CTRL through the alias: the alias lets no program write it (R360). -/
def functionEnable_alias : Prop := ∀ (m : Master) (f : Fn) (v : Word) (s : State),
  let h := s.hw.reached m f.ctl
  s.hw.admits m f.ctl true →
  aliasCloses m f.ctl = true →
  exec (.functionEnable m f (some v)) s = .next (s.finish (h))

/-- FUNCTION_DISABLE by a write: a function in STARTING or ON goes to STOPPING (R60). -/
def functionDisable : Prop := ∀ (m : Master) (f : Fn) (v : Word) (s : State),
  let h := s.hw.reached m f.ctl
  let g := h.wr f.HELD (if h.st f = 0 then b2n (h.heldNow f) else h.rd f.HELD)
  let w := g.fullWrite f.ctl (setField v 0 1 0)
  s.hw.admits m f.ctl true →
  aliasCloses m f.ctl = false →
  g.effEnable f = true →
  w.effEnable f = false →
  w.st f = 1 ∨ w.st f = 2 →
  exec (.functionDisable m f (some v)) s = .next (s.finish ((((w.noteDown f).wr f.STATE 3).fnStopping f).fnLive f))

/-- FUNCTION_DISABLE while the function is STOPPING: RESTART_PENDING is cleared (R60). -/
def functionDisable_pending : Prop := ∀ (m : Master) (f : Fn) (v : Word) (s : State),
  let h := s.hw.reached m f.ctl
  let g := h.wr f.HELD (if h.st f = 0 then b2n (h.heldNow f) else h.rd f.HELD)
  let w := g.fullWrite f.ctl (setField v 0 1 0)
  s.hw.admits m f.ctl true →
  aliasCloses m f.ctl = false →
  g.effEnable f = true →
  w.effEnable f = false →
  w.st f = 3 →
  exec (.functionDisable m f (some v)) s = .next (s.finish ((w.wr f.RP 0).fnLive f))

/-- FUNCTION_DISABLE as an enabled function that is ON comes to be held: HELD sets, and it goes to STOPPING (R60, R444, R475). -/
def functionDisable_held : Prop := ∀ (m : Master) (f : Fn) (s : State),
  let h := s.hw
  let w := h.wr f.HELD 1
  h.rd f.HELD = 0 →
  h.heldNow f = true →
  h.rd f.ENABLE = 1 →
  w.effEnable f = false →
  w.st f = 1 ∨ w.st f = 2 →
  exec (.functionDisable m f none) s = .next (s.finish (((w.noteDown f).wr f.STATE 3).fnStopping f))

/-- FUNCTION_DISABLE by an engine that writes its own ENG_CTRL through the alias: the alias lets no program write it (R360). -/
def functionDisable_alias : Prop := ∀ (m : Master) (f : Fn) (v : Word) (s : State),
  let h := s.hw.reached m f.ctl
  s.hw.admits m f.ctl true →
  aliasCloses m f.ctl = true →
  exec (.functionDisable m f (some v)) s = .next (s.finish (h))

/-- START_CONDITION_MET: a function in STARTING whose start condition holds goes to ON with LIFECYCLE_DONE (R60), with what its kind does then; pages follow R321. -/
def startConditionMet : Prop := ∀ (f : Fn) (s : State),
  let h := s.hw
  let w := (h.wr f.STATE 2).raise f.blk EV.LIFECYCLE_DONE
  (∀ p, f ≠ .page p) →
  h.st f = 1 →
  h.fnCanStart f = true →
  exec (.startConditionMet f) s = .next (s.finish ((match f with
  | .trk c => w.trkEnterOn c
  | .lane l => (w.laneLinks l).laneSync l
  | .port p => w.portOn p
  | .twinLink => (List.range 8).foldl (fun x i => x.laneSync (64 + i)) (w.wr TWN_STATUS.LINK_STATE 1)
  | _ => w)))

/-- START_CONDITION_MET of an armed page while the other page is not ON: it goes ON (R321). -/
def startConditionMet_page : Prop := ∀ (p : Fin 2) (s : State),
  let h := s.hw
  h.st (.page p) = 1 →
  h.fnCanStart (.page p) = true →
  exec (.startConditionMet (.page p)) s = .next (s.finish (h.pageTry p))

/-! ## stops, resets, supplies, reference clocks, access wakes and crossing FIFOs -/

/-- STOP_FLUSH_COMPLETE of a function without RESTART_PENDING: OFF with LIFECYCLE_DONE; what waited for it to stop follows (R60, R62); pages follow R321. -/
def stopFlushComplete : Prop := ∀ (f : Fn) (s : State),
  let h := s.hw
  let e := h.fnEnded f
  let w := (e.wr f.STATE 0).raise f.blk EV.LIFECYCLE_DONE
  (∀ p, f ≠ .page p) →
  h.st f = 3 →
  h.fnFlushed f = true →
  e.st f = 3 →
  e.rd f.RP = 0 →
  w.st f = 0 →
  exec (.stopFlushComplete f) s = .next (s.finish (w.holdAll.offAll))

/-- STOP_FLUSH_COMPLETE under RESTART_PENDING: STARTING with the configuration captured anew (R60, R61). -/
def stopFlushComplete_restart : Prop := ∀ (f : Fn) (s : State),
  let h := s.hw
  let e := h.fnEnded f
  let w := ((e.wr f.STATE 1).wr f.RP 0).capture f
  (∀ p, f ≠ .page p) →
  h.st f = 3 →
  h.fnFlushed f = true →
  e.st f = 3 →
  e.rd f.RP = 1 →
  w.st f = 1 →
  exec (.stopFlushComplete f) s = .next (s.finish ((w.fnStarting f).holdAll.offAll))

/-- STOP_FLUSH_COMPLETE of a page that stops: it is retired (R321). -/
def stopFlushComplete_page : Prop := ∀ (p : Fin 2) (s : State),
  let h := s.hw
  h.st (.page p) = 3 →
  exec (.stopFlushComplete (.page p)) s = .next (s.finish ((h.pageRetire p).holdAll.offAll))

/-- DOMAIN_SOFT_RESET: every named domain of 2 to 31 that is not off is reset: what it holds is counted as discarded, TIM hands its time to AON, its bit is 1, its generation advances its masters and receivers are gone, and a domain asked off whose functions are all OFF now goes off (R64, R401, R404, R409, R471). -/
def domainSoftReset : Prop := ∀ (m : Master) (v : Word) (d : Fin 32) (s : State),
  let h := s.hw.reached m GLB_SOFT_RESET.A
  let lost := h.resetLost.get 0 d + h.heldIn d
  let g : Hw := { (h.onlyIf (d.val = 31) (fun x => x.timStops)) with resetLost := h.resetLost.set 0 d lost }
  s.hw.admits m GLB_SOFT_RESET.A true →
  2 ≤ d.val →
  (List.range 32).filter (fun k => decide (2 ≤ k) && bitN v.toNat k == 1) = [d.val] →
  h.cond d ≠ 2 →
  exec (.domainSoftReset m v) s = .next (s.finish (((((g.wr ⟨GLB_SOFT_RESET.A, d, 1⟩ 1).clearDomain d).nextGen d).partiesDown d).offAll))

/-- DOMAIN_SOFT_RESET of several domains: one after the other, in ascending number; then a domain asked off whose functions are all OFF goes off (R64, R471). -/
def domainSoftReset_many : Prop := ∀ (m : Master) (v : Word) (s : State),
  let h := s.hw.reached m GLB_SOFT_RESET.A
  s.hw.admits m GLB_SOFT_RESET.A true →
  exec (.domainSoftReset m v) s = .next (s.finish ((h.forAll ((List.range 32).filter (fun k => decide (2 ≤ k) && bitN v.toNat k == 1)) (fun x d => x.softReset d)).offAll))

/-- SOFT_RESET_COMPLETE: the domain's bit clears and it runs again (R64); PCIE waits for PERST_N (R527). -/
def softResetComplete : Prop := ∀ (d : Fin 32) (s : State),
  let h := s.hw
  h.inReset d = true →
  ((d.val = 29 → h.pins.perst = true)) →
  exec (.softResetComplete d) s = .next (s.finish ((h.wr ⟨GLB_SOFT_RESET.A, d, 1⟩ 0).domainBegins d))

/-- CHIP_RESET: 0x4512 resets all but AON and the straps, with its cause and the master, and Husk starts (R65); a thermal trip governs (R554). -/
def chipReset : Prop := ∀ (m : Master) (s : State),
  let h := s.hw.reached m GLB_CHIP_RESET.A
  s.hw.admits m GLB_CHIP_RESET.A true →
  h.pwr.trip = false →
  exec (.chipReset m 0x4512#32) s = .next (s.finish ((((h.aonKeptReset).wr GLB_RESET_CAUSE.CHIP 1).bootStart).wr GLB_RESET_CAUSE.MASTER m.id))

/-- CHIP_RESET: any other value is discarded (R65). -/
def chipReset_other : Prop := ∀ (m : Master) (v : Word) (s : State),
  let h := s.hw.reached m GLB_CHIP_RESET.A
  s.hw.admits m GLB_CHIP_RESET.A true →
  v ≠ 0x4512#32 →
  exec (.chipReset m v) s = .next (s.finish (h))

/-- PORN_ASSERT: PORN falls; with VIN good the terminal is reset but for what AON keeps (R543, R547). -/
def pornAssert : Prop := ∀ (s : State),
  let h := s.hw
  let r := if h.effPorn = true then h.pornReset else h
  exec .pornAssert s = .next (s.finish ({ r with pins := { h.pins with porn := false } }))

/-- PORN_RELEASE: PORN rises; with VIN good the straps are captured and Husk starts (R63, R487). -/
def pornRelease : Prop := ∀ (straps : Fin 64) (s : State),
  let h := s.hw
  h.pins.porn = false →
  h.pins.vin = true →
  exec (.pornRelease straps) s = .next (s.finish (Hw.pornEdge { h with pins := { h.pins with porn := true } } straps))

/-- VIN_UVLO_FALL: all but AON is reset, a thermal trip ends, and without VKEEP AON is lost too (R542, R543). -/
def vinUvloFall : Prop := ∀ (s : State),
  let h := s.hw
  let r := if h.effPorn then h.aonKeptReset else h
  let g := { r with pins := { r.pins with vin := false }, pwr := { r.pwr with trip := false } }
  h.pins.vin = true →
  exec .vinUvloFall s = .next (s.finish (if g.pins.vkeep then g else g.aonLost))

/-- VIN_GOOD: VIN counts as good; with PORN high the effective PORN rises (R542, R63). -/
def vinGood : Prop := ∀ (straps : Fin 64) (s : State),
  let h := s.hw
  let g := { h with pins := { h.pins with vin := true } }
  h.pins.vin = false →
  exec (.vinGood straps) s = .next (s.finish (if g.effPorn then g.pornEdge straps else g))

/-- CLOCK_LOSS: the OK bit clears, CLK_EV is set, and the clock's loss has its effects (R81, R523). -/
def clockLoss : Prop := ∀ (k : Clk) (s : State),
  let h := s.hw
  h.rd k.ok = 1 →
  exec (.clockLoss k) s = .next (s.finish (((h.wr k.ok 0).raise 0 EV_GLB.CLK_EV).clockGone k))

/-- CLOCK_RECOVER: the OK bit sets and CLK_EV is set; the crystal's return ends XTAL_FALLBACK (R523). -/
def clockRecover : Prop := ∀ (k : Clk) (s : State),
  let h := s.hw
  let g := (h.wr k.ok 1).raise 0 EV_GLB.CLK_EV
  h.rd k.ok = 0 →
  exec (.clockRecover k) s = .next (s.finish (if k = .xtal then g.wr GLB_CLK_STATUS.XTAL_FALLBACK 0 else g))

/-- ACCESS_WAKE_RETURN: a domain woken by an access is in RET again; time passes to AON with TIM (R336, R481). -/
def accessWakeReturn : Prop := ∀ (d : Fin 32) (s : State),
  let h := s.hw
  let r := h.domainSleeps d
  d.val ∈ h.pwr.woken →
  exec (.accessWakeReturn d) s = .next (s.finish ({ r with pwr := { r.pwr with woken := r.pwr.woken.erase d } }))

/-- CROSSING_FIFO_ERROR of a block that is not off: CDC_ERR is signalled there, and the bursts or frames that cross are cut off and counted (R36). -/
def crossingFifoError : Prop := ∀ (b : Blk) (arriving : Bool) (s : State),
  let h := s.hw
  let r := (h.raise b.base EV.CDC_ERR).crossCut b
  h.domOff b.base = false →
  exec (.crossingFifoError b arriving) s = .next (s.finish ({ r.1 with crossLost := r.1.crossLost.set 0 b.base (r.1.crossLost.get 0 b.base + r.2 + b2n arriving) }))

/-! ## the watchdog, PCIe, the supply of AON, the pins and the rings -/

/-- WDOG_KICK with 0x0000_4B1C: the watchdog counts anew, with no halt held against it (R388). -/
def wdogKick : Prop := ∀ (m : Master) (v : Word) (s : State),
  let h := s.hw.reached m CTL_WDOG_KICK.A
  s.hw.admits m CTL_WDOG_KICK.A true →
  v = 0x4B1C#32 →
  exec (.wdogKick m v) s = .next (s.finish ({ h with ctl := { h.ctl with kick := h.clk, haltNs := 0 } }))

/-- WDOG_KICK with another value: nothing changes (R388). -/
def wdogKick_other : Prop := ∀ (m : Master) (v : Word) (s : State),
  let h := s.hw.reached m CTL_WDOG_KICK.A
  s.hw.admits m CTL_WDOG_KICK.A true →
  v ≠ 0x4B1C#32 →
  exec (.wdogKick m v) s = .next (s.finish (h))

/-- WDOG_WARN at 75 % of TIMEOUT, the time a debugger halted every core left out: WDOG_WARN is signalled (R388). -/
def wdogWarn : Prop := ∀ (halted : Nat) (s : State),
  let h := s.hw
  let g := h.wdogHalted halted
  g.wdogPast 75 = true →
  exec (.wdogWarn halted) s = .next (s.finish (g.ctlRaise EV_CTL.WDOG_WARN))

/-- WDOG_EXPIRE at TIMEOUT, the time a debugger halted every core left out: outside a thermal trip the terminal is reset as by GLB_CHIP_RESET, the cause recorded, and Husk starts (R65, R388). -/
def wdogExpire : Prop := ∀ (halted : Nat) (s : State),
  let h := s.hw
  let k := h.wdogHalted halted
  k.wdogPast 100 = true →
  k.cond 2 = 0 →
  k.inReset 2 = false →
  k.pwr.trip = false →
  exec (.wdogExpire halted) s = .next (s.finish (((k.aonKeptReset).wr GLB_RESET_CAUSE.WATCHDOG 1).bootStart))

/-- PCIE_FUNCTION_RESET, PCIE not off: its soft reset begins, its generation advances, its mailboxes and locks are released, and a domain asked off whose functions are now all OFF goes off (R64, R390, R471). -/
def pcieFunctionReset : Prop := ∀ (s : State),
  let h := s.hw
  let x := { h with resetLost := h.resetLost.set 0 29 (h.resetLost.get 0 29 + h.heldIn 29) }
  h.cond 29 ≠ 2 →
  exec .pcieFunctionReset s = .next (s.finish (((((x.wr ⟨GLB_SOFT_RESET.A, 29, 1⟩ 1).clearDomain 29).nextGen 29).partiesDown 29).offAll))

/-- PERST_ASSERT: the PCIE domain, not off, is soft reset as long as PERST_N is low (R390, R527). -/
def perstAssert : Prop := ∀ (s : State),
  let h := s.hw
  let x := { h with resetLost := h.resetLost.set 0 29 (h.resetLost.get 0 29 + h.heldIn 29) }
  let g := (((x.wr ⟨GLB_SOFT_RESET.A, 29, 1⟩ 1).clearDomain 29).nextGen 29).partiesDown 29
  let k := g.offAll
  h.cond 29 ≠ 2 →
  exec .perstAssert s = .next (s.finish ({ k with pins := { h.pins with perst := false } }))

/-- PERST_RELEASE: PERST_N is high and the soft reset of PCIE that it held ends (R390, R527). -/
def perstRelease : Prop := ∀ (s : State),
  let h := s.hw
  exec .perstRelease s = .next (s.finish (({ h with pins := { h.pins with perst := true } } : Hw).endReset 29))

/-- PCIE_LINK_UP with the domain running, PERST_N high and the clock good: the link is up (R391). -/
def pcieLinkUp : Prop := ∀ (s : State),
  let h := s.hw
  h.cond 29 = 0 →
  h.inReset 29 = false →
  h.pins.perst = true →
  h.rd GLB_CLK_STATUS.PCIE_OK = 1 →
  exec .pcieLinkUp s = .next (s.finish ({ h with ctl := { h.ctl with link := true } }))

/-- PCIE_LINK_DOWN: the link is down (R390). -/
def pcieLinkDown : Prop := ∀ (s : State),
  let h := s.hw
  exec .pcieLinkDown s = .next (s.finish ({ h with ctl := { h.ctl with link := false } }))

/-- VKEEP_LOSS: with VIN good nothing is lost; without it what AON keeps is (R543). -/
def vkeepLoss : Prop := ∀ (s : State),
  let h := s.hw
  let g := { h with pins := { h.pins with vkeep := false } }
  exec .vkeepLoss s = .next (s.finish (if g.pins.vin then g else g.aonLost))

/-- VKEEP_RETURN: the keep-alive supply is good again (R543). -/
def vkeepReturn : Prop := ∀ (s : State),
  let h := s.hw
  exec .vkeepReturn s = .next (s.finish ({ h with pins := { h.pins with vkeep := true } }))

/-- GPIO_CHANGE to another level: GPIO_IN shows it, and GPIO_EV is signalled where INT_EN, as it reached AON, asks; the GPIO wake source is looked at (R34, R479, R538). -/
def gpioChange : Prop := ∀ (j : Fin 16) (v : Bool) (s : State),
  let h := s.hw
  let g := h.wr ⟨GLB_GPIO_IN.A, j, 1⟩ (b2n v)
  bitN (h.rd GLB_GPIO_IN.IN) j ≠ b2n v →
  exec (.gpioChange j v) s = .next (s.finish ((if bitN (g.aonRd GLB_GPIO_IN.INT_EN) j = 1 then g.raise 0 EV_GLB.GPIO_EV else g).wakeFire 1))

/-- RING_TAIL_WRITE of a delivery ring that reaches MIN_FREE free buffers: TAIL advances and NOBUF clears (R391, R393). -/
def ringTailWrite : Prop := ∀ (m : Master) (r : Fin 1024) (v : Word) (s : State),
  let h := s.hw.reached m (RING_TAIL.A 0 r)
  let g := h.fullWrite (RING_TAIL.A 0 r) v
  s.hw.admits m (RING_TAIL.A 0 r) true →
  g.rd (RING_CTRL.MIN_FREE 0 r) ≤ g.ringAvail 0 r →
  exec (.ringTailWrite m 0 r v) s = .next (s.finish (g.wr (RING_STATUS.NOBUF 0 r) 0))

/-- RING_TAIL_WRITE of a transmit ring: TAIL advances (R391). -/
def ringTailWrite_tx : Prop := ∀ (m : Master) (r : Fin 1024) (v : Word) (s : State),
  let h := s.hw.reached m (RING_TAIL.A 1 r)
  s.hw.admits m (RING_TAIL.A 1 r) true →
  exec (.ringTailWrite m 1 r v) s = .next (s.finish (h.fullWrite (RING_TAIL.A 1 r) v))

/-- TX_RING_FETCH of a well-formed frame from a ring in host memory to a pipeline: every descriptor is written back, the frame is counted, and it joins the input FIFO as source 512 (R394, R395). -/
def txRingFetch : Prop := ∀ (r : Fin 1024) (d : TxDesc) (ds : List TxDesc) (s : State),
  let h := s.hw
  let l := ds.take (h.ringAvail 1 r)
  let g := (h.ringPut 1 r (txWords d false) []).count (RING_CNT.COUNT 1 r 2)
  h.ringState 1 r = 2 →
  h.capRd (RING_CTRL.LOC 1 r) = 0 →
  l = [d] →
  d.eop = true →
  d.sop = true →
  d.len ≠ 0 →
  18 ≤ (d.data.take d.len).length →
  (d.data.take d.len).length ≤ 12288 →
  g.capRd (RING_CTRL.MODE 1 r) = 0 →
  exec (.txRingFetch r ds false) s = .next (s.finish ((g.fifoPush (g.capRd (RING_CTRL.DIR 1 r)) { bytes := d.data.take d.len, source := 512, oneStep := d.oneStep, tsReq := if d.tsReq then some d.tsId else none }).1))

/-- TX_RING_FETCH of a frame too short: its descriptor is written back with an error, counted, and TX_ERR_EV is signalled (R394, R395). -/
def txRingFetch_bad : Prop := ∀ (r : Fin 1024) (d : TxDesc) (ds : List TxDesc) (s : State),
  let h := s.hw
  let l := ds.take (h.ringAvail 1 r)
  h.ringState 1 r = 2 →
  h.capRd (RING_CTRL.LOC 1 r) = 0 →
  l = [d] →
  d.eop = true →
  (d.data.take d.len).length < 18 →
  exec (.txRingFetch r ds false) s = .next (s.finish (((h.ringPut 1 r (txWords d true) []).count (RING_CNT.COUNT 1 r 0)).ctlRaise EV_CTL.TX_ERR_EV))

/-! ## ring interrupts, mailboxes, doorbells, locks and the writes to AON -/

/-- RING_INT_TIMER with write-backs not yet signalled: the ring raises its interrupt, by MSIX_EN and VEC as captured (R61, R396). -/
def ringIntTimer : Prop := ∀ (d : Fin 2) (r : Fin 1024) (s : State),
  let h := s.hw
  let g := h.modRing d r (fun _ => { acc := 0, level := true })
  (h.ring d r).acc ≠ 0 →
  h.rd (RING_INT.INT_USEC d r) ≠ 0 →
  exec (.ringIntTimer d r) s = .next (s.finish (if g.capRd (RING_INT.MSIX_EN d r) = 1 then g.msix (g.capRd (RING_INT.VEC d r)) else g))

/-- RING_INT_ACK: the ring's level to the cores falls (R396). -/
def ringIntAck : Prop := ∀ (m : Master) (d : Fin 2) (r : Fin 1024) (v : Word) (s : State),
  let h := s.hw.reached m (RING_INT_ACK.A d r)
  s.hw.admits m (RING_INT_ACK.A d r) true →
  exec (.ringIntAck m d r v) s = .next (s.finish (h.modRing d r (fun x => { x with level := false })))

/-- MBX_SEND by a permitted sender with room: the staged message is stored with its stamp, and the status is 0 (R399, R401, R402). -/
def mbxSend : Prop := ∀ (m : Master) (ch : Fin 256) (s : State),
  let h := s.hw.reached m (MBX_SEND.A ch)
  s.hw.admits m (MBX_SEND.A ch) false →
  h.postStatus m.id ch = 0 →
  exec (.mbxSend m ch) s = .next (s.finish ((h.mbxStore m.id ch ((List.range 8).map (fun i => h.ctl.stage.get 0#32 (m.id * 8 + i))) (h.masterGen m.id)).answer 0#32))

/-- MBX_SEND by another master than the sender, or on a full channel: nothing is stored, and the status says why (R399). -/
def mbxSend_refused : Prop := ∀ (m : Master) (ch : Fin 256) (s : State),
  let h := s.hw.reached m (MBX_SEND.A ch)
  s.hw.admits m (MBX_SEND.A ch) false →
  h.postStatus m.id ch = 1 ∨ h.postStatus m.id ch = 3 →
  exec (.mbxSend m ch) s = .next (s.finish (h.answer (BitVec.ofNat 32 (h.postStatus m.id ch))))

/-- MBX_SEND to a receiver whose domain is off: nothing is stored, it is counted, and the status is 2 (R399). -/
def mbxSend_domain : Prop := ∀ (m : Master) (ch : Fin 256) (s : State),
  let h := s.hw.reached m (MBX_SEND.A ch)
  s.hw.admits m (MBX_SEND.A ch) false →
  h.postStatus m.id ch = 2 →
  exec (.mbxSend m ch) s = .next (s.finish ((h.count MBX_POST_ERR.COUNT).answer 2#32))

/-- MBX_POP of one of several messages: the head message is removed (R402). -/
def mbxPop : Prop := ∀ (m : Master) (ch : Fin 256) (v : Word) (x y : Msg) (t : List Msg) (s : State),
  let h := s.hw.reached m (MBX_RX_STATUS.A ch)
  let g := h.plainWrite (MBX_RX_STATUS.A ch) v
  s.hw.admits m (MBX_RX_STATUS.A ch) true →
  getField v 8 1 = 1 →
  (g.mbx ch).msgs = x :: y :: t →
  exec (.mbxPop m ch v) s = .next (s.finish (g.setMbx ch { g.mbx ch with msgs := y :: t }))

/-- MBX_POP of the last message: the channel is empty, EMPTY_STATUS says so, and the sender hears (R402, R403). -/
def mbxPop_last : Prop := ∀ (m : Master) (ch : Fin 256) (v : Word) (x : Msg) (s : State),
  let h := s.hw.reached m (MBX_RX_STATUS.A ch)
  let g := h.plainWrite (MBX_RX_STATUS.A ch) v
  s.hw.admits m (MBX_RX_STATUS.A ch) true →
  getField v 8 1 = 1 →
  (g.mbx ch).msgs = [x] →
  exec (.mbxPop m ch v) s = .next (s.finish (((g.setMbx ch { g.mbx ch with msgs := [] }).wr (MBX_RX_STATUS.EMPTY_STATUS ch) 1).mbxEmptyInt ch))

/-- MBX_EMPTY_STATUS_READ by the channel's sender: the register is answered, and EMPTY_STATUS and DISCARD_COUNT clear (R405). -/
def mbxEmptyStatusRead : Prop := ∀ (m : Master) (ch : Fin 256) (s : State),
  let h := s.hw.reached m (MBX_RX_STATUS.A ch)
  let g := h.answer (h.word (MBX_RX_STATUS.A ch))
  s.hw.admits m (MBX_RX_STATUS.A ch) false →
  m.id = g.t (MBX_CFG.TX_MASTER ch) →
  exec (.mbxEmptyStatusRead m ch) s = .next (s.finish ((g.wr (MBX_RX_STATUS.EMPTY_STATUS ch) 0).wr (MBX_RX_STATUS.DISCARD_COUNT ch) 0))

/-- MBX_EMPTY_STATUS_READ by another master: the register is answered and nothing clears (R405). -/
def mbxEmptyStatusRead_other : Prop := ∀ (m : Master) (ch : Fin 256) (s : State),
  let h := s.hw.reached m (MBX_RX_STATUS.A ch)
  let g := h.answer (h.word (MBX_RX_STATUS.A ch))
  s.hw.admits m (MBX_RX_STATUS.A ch) false →
  m.id ≠ g.t (MBX_CFG.TX_MASTER ch) →
  g.t (MBX_CFG.TX_MASTER ch) ≠ 255 →
  exec (.mbxEmptyStatusRead m ch) s = .next (s.finish (g))

/-- DB_SET of a doorbell that is not pending: its bit sets; a sleeping target is woken where WAKE asks, which delivers it as the domain comes up, and otherwise the doorbell is delivered (R406). -/
def dbSet : Prop := ∀ (m : Master) (v : Word) (s : State),
  let h := s.hw.reached m MBX_DB_SET.A
  let n := getField v 0 10
  let g := h.wr ⟨MBX_DB_PEND.A (n / 32), n % 32, 1⟩ 1
  s.hw.admits m MBX_DB_SET.A true →
  h.rd ⟨MBX_DB_PEND.A (n / 32), n % 32, 1⟩ ≠ 1 →
  exec (.dbSet m v) s = .next (s.finish (if g.t (DB_CFG.WAKE n) = 1 ∧ g.cond (g.t (DB_CFG.TGT_DOM n)) = 1 then g.wakeOne (g.t (DB_CFG.TGT_DOM n)) else g.dbDeliver n))

/-- DB_SET of a doorbell already pending: it merges and is counted (R406). -/
def dbSet_merged : Prop := ∀ (m : Master) (v : Word) (s : State),
  let h := s.hw.reached m MBX_DB_SET.A
  let n := getField v 0 10
  s.hw.admits m MBX_DB_SET.A true →
  h.rd ⟨MBX_DB_PEND.A (n / 32), n % 32, 1⟩ = 1 →
  exec (.dbSet m v) s = .next (s.finish (h.count DB_MERGED.COUNT))

/-- LOCK_ACQUIRE of a free lock with no rival: the reader owns it, the pointer moves past it, and the answer says so (R407, R408). -/
def lockAcquire : Prop := ∀ (m : Master) (n : Fin 64) (s : State),
  let h := s.hw.reached m (HW_LOCK.A n)
  let g := h.setWord (HW_LOCK.A n) (BitVec.ofNat 32 (2 + m.id * 256))
  let k := { g with ctl := { g.ctl with lockPtr := g.ctl.lockPtr.set 0 n ((m.id + 1) % 256) } }
  s.hw.admits m (HW_LOCK.A n) false →
  h.rd ⟨HW_LOCK.A n, 1, 1⟩ ≠ 1 →
  exec (.lockAcquire m n []) s = .next (s.finish (k.answer (BitVec.ofNat 32 (3 + m.id * 256))))

/-- LOCK_ACQUIRE of a lock that is held: the answer names its owner and nothing changes (R407). -/
def lockAcquire_held : Prop := ∀ (m : Master) (n : Fin 64) (rivals : List Master) (s : State),
  let h := s.hw.reached m (HW_LOCK.A n)
  s.hw.admits m (HW_LOCK.A n) false →
  h.rd ⟨HW_LOCK.A n, 1, 1⟩ = 1 →
  exec (.lockAcquire m n rivals) s = .next (s.finish (h.answer (BitVec.ofNat 32 (2 + h.rd ⟨HW_LOCK.A n, 8, 8⟩ * 256))))

/-- LOCK_RELEASE with the owner's ID: the lock is free (R409). -/
def lockRelease : Prop := ∀ (m : Master) (n : Fin 64) (v : Word) (s : State),
  let h := s.hw.reached m (HW_LOCK.A n)
  s.hw.admits m (HW_LOCK.A n) true →
  h.rd ⟨HW_LOCK.A n, 1, 1⟩ = 1 →
  h.rd ⟨HW_LOCK.A n, 8, 8⟩ = getField v 0 8 →
  exec (.lockRelease m n v) s = .next (s.finish (h.lockFree n))

/-- LOCK_RELEASE with another ID or of a free lock: it is counted and LOCK_BAD_EV signalled (R409). -/
def lockRelease_bad : Prop := ∀ (m : Master) (n : Fin 64) (v : Word) (s : State),
  let h := s.hw.reached m (HW_LOCK.A n)
  s.hw.admits m (HW_LOCK.A n) true →
  ¬ (h.rd ⟨HW_LOCK.A n, 1, 1⟩ = 1 ∧ h.rd ⟨HW_LOCK.A n, 8, 8⟩ = getField v 0 8) →
  exec (.lockRelease m n v) s = .next (s.finish ((h.count (HW_LOCK_CNT.COUNT 0)).ctlRaise EV_CTL.LOCK_BAD_EV))

/-- LOCK_BREAK by a control core of a lock that is held: it is counted and the lock is free (R409). -/
def lockBreak : Prop := ∀ (m : Master) (c : Fin 4) (v : Word) (s : State),
  let h := s.hw.reached m HW_LOCK_BREAK.A
  s.hw.admits m HW_LOCK_BREAK.A true →
  m = .core c →
  h.rd ⟨HW_LOCK.A (getField v 0 6), 1, 1⟩ = 1 →
  exec (.lockBreak m v) s = .next (s.finish ((h.count (HW_LOCK_CNT.COUNT 2)).lockFree (getField v 0 6)))

/-- AON_WRITE_ARRIVE: the oldest write on its way to AON has arrived (R34), AVS off at once where the write clears its enable, and what the power controller watches is looked at (R471, R473, R476, R478, R479, R483). -/
def aonWriteArrive : Prop := ∀ (a : Nat) (v : Word) (t : List (Nat × Word)) (s : State),
  let h := s.hw
  let g : Hw := { h with aon := { h.aon with writes := t, arrived := h.aon.arrived.set (resetWord a) a v } }
  h.aon.writes = (a, v) :: t →
  exec .aonWriteArrive s = .next (s.finish ((if a = PWR_AVS_CFG.A then g.avsOff else g).powerWatch))

/-! ## frame search, superframes and codewords -/

/-- PSYNC_MATCH in HUNT: the position is the candidate, and the machine goes to PRESYNC with CONFIRM_CNT 0; its SFC structure, unless uncorrectable, seeds the descrambler (R96, R100, R103). -/
def psyncMatch : Prop := ∀ (c : Fin 4) (pos : Nat) (v : Nat) (hec : Hec) (s : State),
  let h := s.hw
  let g := ((h.modDln c (fun d => { d with cand := some pos, fromMiss := false })).wr (TRK_DLN_STATUS.CONFIRM_CNT c) 0).setSync c 1
  h.searching c = true →
  h.rd (TRK_DLN_STATUS.SYNC_STATE c) = 0 →
  exec (.psyncMatch c pos v hec) s = .next (s.finish (g.candidateSeed c { pos := pos, sfc := if hec = .bad then none else some v } 0))

/-- PSYNC_MATCH in PRESYNC: the position is recorded in the candidate table, or counted CAND_OVERFLOW when eight are held (R97). -/
def psyncMatch_table : Prop := ∀ (c : Fin 4) (pos : Nat) (v : Nat) (hec : Hec) (s : State),
  let h := s.hw
  let l := (h.dln c).cands
  h.searching c = true →
  h.rd (TRK_DLN_STATUS.SYNC_STATE c) = 1 →
  exec (.psyncMatch c pos v hec) s = .next (s.finish (if l.length < 8 then h.setCands c (l ++ [({ pos := pos, sfc := if hec = .bad then none else some v } : PsyncCand)]) else h.dlnCount c DLN_N.CAND_OVERFLOW))

/-- CANDIDATE_STALE: the earliest recorded candidate leaves the table, and CAND_COUNT follows (R97). -/
def candidateStale : Prop := ∀ (c : Fin 4) (s : State),
  let h := s.hw
  let l := (h.dln c).cands.drop 1
  exec (.candidateStale c) s = .next (s.finish ((h.modDln c (fun d => { d with cands := l })).wr (TRK_DLN_STATUS.CAND_COUNT c) l.length))

/-- FRAME_POSITION in PRESYNC with PSync and SFC HEC good, short of N_CONFIRM: CONFIRM_CNT advances, and the frame's codewords are descrambled under its count (R96, R100). -/
def framePosition_confirm : Prop := ∀ (c : Fin 4) (errs : Nat) (sfc : Nat) (oc : Hec) (s : State),
  let h := s.hw
  let n := h.rd (TRK_DLN_STATUS.CONFIRM_CNT c) + 1
  let g := h.wr (TRK_DLN_STATUS.CONFIRM_CNT c) n
  h.trkOn c = true →
  (h.act c).rxOn = true →
  h.looped c = false →
  h.rd (TRK_DLN_STATUS.SYNC_STATE c) = 1 →
  errs ≤ h.rd (TRK_DLN_CFG.PSYNC_TOL c) →
  n < g.rd (TRK_DLN_CFG.N_CONFIRM c) →
  exec (.framePosition c errs .ok sfc oc) s = .next (s.finish (g.modDln c (fun d => { d with cw := 0, scr := scramblerSeed sfc, word := [], parity := [] })))

/-- FRAME_POSITION in PRESYNC that fails its check: FALSE_CANDIDATE is counted, and the next recorded candidate is taken where matching is allowed, its frame's codewords split and descrambled from its own beginning, or HUNT entered (R95, R97, R100). -/
def framePosition_false : Prop := ∀ (c : Fin 4) (errs : Nat) (sfc : Nat) (oc : Hec) (s : State),
  let h := s.hw
  let g := h.dlnCount c DLN_N.FALSE_CANDIDATE
  h.trkOn c = true →
  (h.act c).rxOn = true →
  h.looped c = false →
  h.rd (TRK_DLN_STATUS.SYNC_STATE c) = 1 →
  h.rd (TRK_DLN_CFG.PSYNC_TOL c) < errs →
  exec (.framePosition c errs .ok sfc oc) s = .next (s.finish ((match (g.dln c).cands, g.searching c with
  | p :: t, true => (g.setCands c t).takeCandidate c p (((g.dln c).cand.getD 0 + framePeriod - p.pos) % framePeriod)
  | _, _ => (g.modDln c (fun d => { d with cand := none, fromMiss := true })).setSync c 0)))

/-- FRAME_POSITION in SYNC, good: LOSS_CNT is 0, a superframe count other than the expected is counted and raised, and the frame, one frame period after the last, is processed under the received count (R98, R104). -/
def framePosition : Prop := ∀ (c : Fin 4) (errs : Nat) (sfc : Nat) (oc : Hec) (s : State),
  let h := s.hw
  let k := h.modDln c (fun d => { d with frameAt := d.frameAt + framePeriod })
  let g := k.wr (TRK_DLN_STATUS.LOSS_CNT c) 0
  let j := if sfc = (h.sfc c + 1) % 2 ^ 51 then g else (g.dlnCount c DLN_N.SFC_JUMP_COUNT).trkRaise c EV_TRK.SFC_JUMP
  h.trkOn c = true →
  (h.act c).rxOn = true →
  h.looped c = false →
  h.rd (TRK_DLN_STATUS.SYNC_STATE c) = 2 →
  errs ≤ k.rd (TRK_DLN_CFG.PSYNC_TOL c) →
  exec (.framePosition c errs .ok sfc oc) s = .next (s.finish (j.frameBegins c sfc oc))

/-- FRAME_POSITION in SYNC that is the M_LOSS-th in error: the machine goes to HUNT (R98). -/
def framePosition_lost : Prop := ∀ (c : Fin 4) (errs : Nat) (sfc : Nat) (oc : Hec) (s : State),
  let h := s.hw
  let k := h.modDln c (fun d => { d with frameAt := d.frameAt + framePeriod })
  h.trkOn c = true →
  (h.act c).rxOn = true →
  h.looped c = false →
  h.rd (TRK_DLN_STATUS.SYNC_STATE c) = 2 →
  k.rd (TRK_DLN_CFG.PSYNC_TOL c) < errs →
  k.rd (TRK_DLN_CFG.M_LOSS c) ≤ k.rd (TRK_DLN_STATUS.LOSS_CNT c) + 1 →
  exec (.framePosition c errs .ok sfc oc) s = .next (s.finish (k.hunt c))

/-- FRAME_POSITION in SYNC in error short of M_LOSS: LOSS_CNT advances and the frame is processed; with the SFC uncorrectable, under the expected count (R98, R104). -/
def framePosition_run : Prop := ∀ (c : Fin 4) (errs : Nat) (sfc : Nat) (oc : Hec) (s : State),
  let h := s.hw
  let q := h.dlnCount c DLN_N.SFC_HEC_UNCORR
  let k := q.modDln c (fun d => { d with frameAt := d.frameAt + framePeriod })
  let n := k.rd (TRK_DLN_STATUS.LOSS_CNT c) + 1
  h.trkOn c = true →
  (h.act c).rxOn = true →
  h.looped c = false →
  h.rd (TRK_DLN_STATUS.SYNC_STATE c) = 2 →
  n < k.rd (TRK_DLN_CFG.M_LOSS c) →
  exec (.framePosition c errs .bad sfc oc) s = .next (s.finish ((k.wr (TRK_DLN_STATUS.LOSS_CNT c) n).frameBegins c ((q.sfc c + 1) % 2 ^ 51) oc))

/-- FRAME_POSITION in SYNC with PSync in error, short of M_LOSS, though its SFC structure is good: the frame is processed under the expected count, and no jump is seen (R98, R104). -/
def framePosition_expected : Prop := ∀ (c : Fin 4) (errs : Nat) (sfc : Nat) (oc : Hec) (s : State),
  let h := s.hw
  let k := h.modDln c (fun d => { d with frameAt := d.frameAt + framePeriod })
  let n := k.rd (TRK_DLN_STATUS.LOSS_CNT c) + 1
  h.trkOn c = true →
  (h.act c).rxOn = true →
  h.looped c = false →
  h.rd (TRK_DLN_STATUS.SYNC_STATE c) = 2 →
  k.rd (TRK_DLN_CFG.PSYNC_TOL c) < errs →
  n < k.rd (TRK_DLN_CFG.M_LOSS c) →
  exec (.framePosition c errs .ok sfc oc) s = .next (s.finish ((k.wr (TRK_DLN_STATUS.LOSS_CNT c) n).frameBegins c ((h.sfc c + 1) % 2 ^ 51) oc))

/-- RESYNC: the machine goes to HUNT with an empty candidate table (R95, R99). -/
def resync : Prop := ∀ (m : Master) (c : Fin 4) (v : Word) (s : State),
  let h := s.hw.reached m (TRK_DLN_CFG.A c)
  let g := h.plainWrite (TRK_DLN_CFG.A c) v
  let e := (g.setCands c []).modDln c (fun d => { d with cand := none, fromMiss := false })
  s.hw.admits m (TRK_DLN_CFG.A c) true →
  getField v 16 1 = 1 →
  exec (.resync m c v) s = .next (s.finish (((e.wr (TRK_DLN_STATUS.CONFIRM_CNT c) 0).wr (TRK_DLN_STATUS.LOSS_CNT c) 0).setSync c 0))

/-- CODEWORD_DECODED of a processed frame: its octets are descrambled and split into payload and parity, every codeword is counted, and a corrected one with its bits, or an uncorrectable one, more iterations than ITER_MAX included, with FEC_UNCORR (R94, R100, R101, R102). -/
def codewordDecoded : Prop := ∀ (c : Fin 4) (w : Codeword) (line : Bytes) (s : State),
  let h := s.hw
  let r := descramble (h.dln c).scr (line.take (dsCodewordLen (h.dln c).cw))
  let g := (h.modDln c (fun d => { d with cw := d.cw + 1, scr := r.2, word := r.1.take (dsPayloadLen d.cw), parity := r.1.drop (dsPayloadLen d.cw), tail := false, tailCounts := false })).count64 (TRK_FEC_CW.A c)
  h.decoding c = true →
  (h.dln c).inFrame = true →
  exec (.codewordDecoded c w line) s = .next (s.finish ((match w with
  | .clean => g
  | .corrected bits iters => if h.rd (TRK_DLN_CFG.ITER_MAX c) < iters then (g.count64 (TRK_FEC_CW_UNCORR.A c)).trkRaise c EV_TRK.FEC_UNCORR
      else (g.count64 (TRK_FEC_CW_CORR.A c)).count64 (TRK_FEC_BITS_CORR.A c) bits
  | .bad => (g.count64 (TRK_FEC_CW_UNCORR.A c)).trkRaise c EV_TRK.FEC_UNCORR)))

/-- CODEWORD_DECODED of a frame in PRESYNC: no counter moves, and an uncorrectable codeword sets FEC_UNCORR (R96, R102). -/
def codewordDecoded_presync : Prop := ∀ (c : Fin 4) (w : Codeword) (line : Bytes) (s : State),
  let h := s.hw
  let r := descramble (h.dln c).scr (line.take (dsCodewordLen (h.dln c).cw))
  let g := h.modDln c (fun d => { d with cw := d.cw + 1, scr := r.2, word := r.1.take (dsPayloadLen d.cw), parity := r.1.drop (dsPayloadLen d.cw), tail := false, tailCounts := false })
  h.decoding c = true →
  (h.dln c).inFrame = false →
  (h.dln c).tailCounts = false →
  exec (.codewordDecoded c w line) s = .next (s.finish (g.onlyIf (h.uncorrectable c w = true) (fun x => x.trkRaise c EV_TRK.FEC_UNCORR)))

/-! ## allocation structures, PLOAM and GEM frames -/

/-- HLEND_RX uncorrectable, the first part of the FS frame: it is counted, and map, PLOAM partition and FS payload of the frame are discarded, with the fragment that the payload should have continued (R94, R106, R117). -/
def hlendRx : Prop := ∀ (c : Fin 4) (maps ploams : Nat) (s : State),
  let h := s.hw
  let g := h.dlnCount c DLN_N.HLEND_UNCORR
  let f := if (g.dln c).fragDue then g.fragDiscard c else g
  (h.dln c).inFrame = true →
  (h.dln c).hl = none →
  exec (.hlendRx c .bad maps ploams) s = .next (s.finish (f.modDln c (fun d => { d with hl := some false, payloadOff := true })))

/-- HLEND_RX good or corrected: it gives the number of allocation structures and of PLOAM messages that follow, as many as the FS frame holds, and with them the length of the payload (R94, R106). -/
def hlendRx_good : Prop := ∀ (c : Fin 4) (hec : Hec) (maps ploams : Nat) (s : State),
  let h := s.hw
  let m := min maps ((fsFrame - 4) / 8)
  let p := min ploams ((fsFrame - 4 - 8 * m) / 48)
  (h.dln c).inFrame = true →
  (h.dln c).hl = none →
  hec ≠ .bad →
  exec (.hlendRx c hec maps ploams) s = .next (s.finish (h.modDln c (fun d => { d with hl := some true, maps := m, ploams := p, ploamCount := p, fsLeft := fsFrame - 4 - 8 * m - 48 * p })))

/-- ALLOCATION_STRUCTURE due in the map, with a good header that begins a burst, is this terminal's and in range, the channel awake and in O5 with a valid profile, and no grant that wins in the way: those that start later are dropped, a key switch due applies, and burst assembly begins with it, at the place R138 gives (R107, R108, R138, R140-R142, R151). -/
def allocationStructure : Prop := ∀ (c : Fin 4) (id : Nat) (st : Nat) (size : Nat) (profile : Fin 4) (ploamu : Bool) (dbru : Bool) (late : Bool) (x : Nat) (s : State),
  let h := s.hw
  let m := h.modDln c (fun d => { d with maps := d.maps - 1 })
  let eqd := m.rd (TRK_EQD_ACTIVE.EQD c)
  let t := m.toUi c ((h.dln c).frameAt + respTime + eqd) + st * m.usWordBits c
  let a := t - m.profileOvh c profile * m.usWordBits c
  let b := t + size * m.usWordBits c
  let k := (m.dropOverlapped c a b).keySwitch c
  let p := k.modDln c (fun d => { d with prevFate := 0 })
  let g : GrantIn := { alloc := x, start := st, size := size, profile := profile, opens := true, ploamu := ploamu, dbru := dbru, late := late, absStart := a, absT := t, absEnd := b }
  (h.dln c).inMap = true →
  m.allocOwn c id = some x →
  st + size ≤ m.usWords c →
  st < m.usWords c →
  (h.dln c).accepted < 256 →
  ((m.act c).overlapping a b).any (fun g => g.eqd != eqd) = false →
  (m.act c).bursts.any (fun u => u.holds a b t) = false →
  p.rd (TRK_ACT_STATUS.PM_STATE c) ≠ 3 →
  p.rd (TRK_ACT_STATUS.ACT_STATE c) = 5 →
  p.profileValid c profile = true →
  exec (.allocationStructure c .ok id (some st) size profile ploamu dbru false late) s = .next (s.finish ((p.assemble c g).modDln c (fun d => { d with prevEnd := some (st + size), accepted := d.accepted + 1 })))

/-- ALLOCATION_STRUCTURE with an uncorrectable HEC: it is counted and not accepted (R107, R108). -/
def allocationStructure_hec : Prop := ∀ (c : Fin 4) (id : Nat) (st : Option Nat) (size : Nat) (profile : Fin 4) (ploamu : Bool) (dbru : Bool) (wake : Bool) (late : Bool) (s : State),
  let h := s.hw
  let m := h.modDln c (fun d => { d with maps := d.maps - 1 })
  (h.dln c).inMap = true →
  exec (.allocationStructure c .bad id st size profile ploamu dbru wake late) s = .next (s.finish ((m.dlnCount c DLN_N.BWMAP_HEC_UNCORR).modDln c (fun d => { d with prevEnd := none, prevFate := 0 })))

/-- ALLOCATION_STRUCTURE of an allocation this terminal does not own: it is counted GRANT_FOREIGN and not accepted (R107 check 2). -/
def allocationStructure_foreign : Prop := ∀ (c : Fin 4) (id : Nat) (st : Option Nat) (size : Nat) (profile : Fin 4) (ploamu : Bool) (dbru : Bool) (wake : Bool) (late : Bool) (s : State),
  let h := s.hw
  let m := h.modDln c (fun d => { d with maps := d.maps - 1 })
  (h.dln c).inMap = true →
  m.allocOwn c id = none →
  exec (.allocationStructure c .ok id st size profile ploamu dbru wake late) s = .next (s.finish ((m.dlnCount c DLN_N.GRANT_FOREIGN).modDln c (fun d => { d with prevEnd := none, prevFate := 0 })))

/-- PLOAM_MESSAGE_RX for this ONU-ID on an awake channel, a message due in the PLOAM partition, the queue not full: the message is the newest of the queue, LEVEL advances, PLOAM_RX sets (R111, R112). -/
def ploamMessageRx : Prop := ∀ (c : Fin 4) (onu : Nat) (msg : Bytes) (s : State),
  let h := s.hw
  let k := h.modDln c (fun d => { d with ploams := d.ploams - 1 })
  let n := k.rd (TRK_PLOAM_RX.LEVEL c)
  let g := ((k.ts (PLOAM_RXQ.MSG c n) (leNat (msg.take 48))).wr (TRK_PLOAM_RX.LEVEL c) (n + 1)).trkRaise c EV_TRK.PLOAM_RX
  (h.dln c).inPloam = true →
  k.rd (TRK_ONU_ID.ONU_ID_VALID c) = 1 →
  k.rd (TRK_ONU_ID.ONU_ID c) = onu →
  n < 32 →
  g.rd (TRK_ACT_STATUS.PM_STATE c) ≠ 3 →
  exec (.ploamMessageRx c onu msg false) s = .next (s.finish (g))

/-- PLOAM_MESSAGE_RX of a message in error: it is dropped and counted, and PLOAM_DROP sets (R102, R112). -/
def ploamMessageRx_errored : Prop := ∀ (c : Fin 4) (onu : Nat) (msg : Bytes) (s : State),
  let h := s.hw
  let k := h.modDln c (fun d => { d with ploams := d.ploams - 1 })
  (h.dln c).inPloam = true →
  exec (.ploamMessageRx c onu msg true) s = .next (s.finish ((k.dlnCount c DLN_N.PLOAM_DROP).trkRaise c EV_TRK.PLOAM_DROP))

/-- PLOAM_POP of the only message: the queue is empty (R112). -/
def ploamPop : Prop := ∀ (m : Master) (c : Fin 4) (v : Word) (s : State),
  let h := s.hw.reached m (TRK_PLOAM_RX.A c)
  let g := h.plainWrite (TRK_PLOAM_RX.A c) v
  s.hw.admits m (TRK_PLOAM_RX.A c) true →
  getField v 8 1 = 1 →
  g.rd (TRK_PLOAM_RX.LEVEL c) = 1 →
  exec (.ploamPop m c v) s = .next (s.finish ((g.ts (PLOAM_RXQ.MSG c 0) 0).wr (TRK_PLOAM_RX.LEVEL c) 0))

/-- PLOAM_POP while others wait: they move up by one entry, LEVEL falls by one, and PLOAM_RX sets again (R112). -/
def ploamPop_more : Prop := ∀ (m : Master) (c : Fin 4) (v : Word) (s : State),
  let h := s.hw.reached m (TRK_PLOAM_RX.A c)
  let g := h.plainWrite (TRK_PLOAM_RX.A c) v
  let n := g.rd (TRK_PLOAM_RX.LEVEL c)
  let k := (List.range (n - 1)).foldl (fun x i => x.ts (PLOAM_RXQ.MSG c i) (x.t (PLOAM_RXQ.MSG c (i + 1)))) g
  s.hw.admits m (TRK_PLOAM_RX.A c) true →
  getField v 8 1 = 1 →
  1 < n →
  exec (.ploamPop m c v) s = .next (s.finish (((k.ts (PLOAM_RXQ.MSG c (n - 1)) 0).wr (TRK_PLOAM_RX.LEVEL c) (n - 1)).trkRaise c EV_TRK.PLOAM_RX))

/-- GEM_FRAME_RX of a whole clear frame for a valid port without encryption required, no fragment open: it is counted and delivered where the port's entry says (R114-R118). -/
def gemFrameRx : Prop := ∀ (c : Fin 4) (pli : Nat) (port : Nat) (remaining : Nat) (pos : Nat) (payload : Bytes) (x : Nat) (s : State),
  let h := s.hw
  let g := h.modDln c (fun d => { d with firstGem := false, fsLeft := d.fsLeft - 8 - pli })
  let n := (g.note c 8 (payload.take pli).length).note c 40
  (h.dln c).inPayload = true →
  8 ≤ (h.dln c).fsLeft →
  (h.dln c).frag = none →
  pli ≤ min remaining ((h.dln c).fsLeft - 8) →
  g.gemPort c port = some x →
  n.t (GEM_PORT.ENC_REQ c x) = 0 →
  (h.dln c).fragDue = false →
  exec (.gemFrameRx c .ok pli 0 port true false false remaining pos payload) s = .next (s.finish (n.gemDeliver c { port := port, bytes := payload.take pli, bonded := n.t (GEM_PORT.BONDED c x) == 1, group := n.t (GEM_PORT.GROUP c x), dest := n.t (GEM_PORT.DEST c x) }))

/-- GEM_FRAME_RX with an uncorrectable header: what is left of the payload is lost and counted (R114, R115). -/
def gemFrameRx_lost : Prop := ∀ (c : Fin 4) (pli : Nat) (idx : Fin 4) (port : Nat) (lf : Bool) (idle : Bool) (errored : Bool) (remaining : Nat) (pos : Nat) (payload : Bytes) (s : State),
  let h := s.hw
  let left := min remaining ((h.dln c).fsLeft - 8)
  let g := h.modDln c (fun d => { d with firstGem := false, fsLeft := d.fsLeft - 8 - pli })
  (h.dln c).inPayload = true →
  8 ≤ (h.dln c).fsLeft →
  (h.dln c).fragDue = false →
  exec (.gemFrameRx c .bad pli idx port lf idle errored remaining pos payload) s = .next (s.finish (((g.dlnCount c DLN_N.GEM_LOST_BYTES (8 + left)).dlnCount c DLN_N.GEM_HEC_UNCORR).modDln c (fun d => { d with payloadOff := true })))

/-! ## the packet instructions of the engines -/

/-- EMIT within the limits, by a task without a spread number: the task no longer holds its packet, and the new packet goes to its queue; STATUS says whether it was stored (R366). -/
def emit : Prop := ∀ (e : Fin 64) (v : Word) (t : Task) (p : Pkt) (bs : Bytes) (s : State),
  let h := s.hw
  let g := ((h.reached (.engine e) (ENG_CMD.A e)).plainWrite (ENG_CMD.A e) v).perf e 0x0E
  let n := (g.setTaskPkt e none).poolUpdate p.source
  let r := n.enqueueAt (getField (g.arg e 0) 0 18) (g.emitPkt e t p bs)
  h.executing e = true →
  h.admits (.engine e) (ENG_CMD.A e) true →
  (g.eng e).run = some t →
  t.pkt = some p →
  g.emitBytes e p = some bs →
  t.spread = none →
  exec (.emit e v) s = .next (s.finish (r.1.wr (ENG_CMD.STATUS e) (if r.2 then STATUS_OK else STATUS_DROPPED)))

/-- EMIT by a task that holds no packet: STATUS is 1 and nothing is sent (R366). -/
def emit_no_pkt : Prop := ∀ (e : Fin 64) (v : Word) (t : Task) (s : State),
  let h := s.hw
  let g := ((h.reached (.engine e) (ENG_CMD.A e)).plainWrite (ENG_CMD.A e) v).perf e 0x0E
  h.executing e = true →
  h.admits (.engine e) (ENG_CMD.A e) true →
  (g.eng e).run = some t →
  t.pkt = none →
  exec (.emit e v) s = .next (s.finish (g.wr (ENG_CMD.STATUS e) STATUS_NO_PKT))

/-- EMIT_COPY within the limits, with cells free, by a task without a spread number: a new packet goes to its queue, and the task keeps its own (R366). -/
def emitCopy : Prop := ∀ (e : Fin 64) (v : Word) (t : Task) (p : Pkt) (bs : Bytes) (s : State),
  let h := s.hw
  let g := ((h.reached (.engine e) (ENG_CMD.A e)).plainWrite (ENG_CMD.A e) v).perf e 0x0E
  let k := g.emitPkt e t p bs
  let r := g.enqueueAt (getField (g.arg e 0) 0 18) k
  h.executing e = true →
  h.admits (.engine e) (ENG_CMD.A e) true →
  (g.eng e).run = some t →
  t.pkt = some p →
  g.emitBytes e p = some bs →
  k.cells ≤ g.freeCells →
  t.spread = none →
  exec (.emitCopy e v) s = .next (s.finish (r.1.wr (ENG_CMD.STATUS e) (if r.2 then STATUS_OK else STATUS_DROPPED)))

/-- EMIT_COPY with too few cells free: STATUS is 6 and nothing is sent (R366). -/
def emitCopy_cells : Prop := ∀ (e : Fin 64) (v : Word) (t : Task) (p : Pkt) (bs : Bytes) (s : State),
  let h := s.hw
  let g := ((h.reached (.engine e) (ENG_CMD.A e)).plainWrite (ENG_CMD.A e) v).perf e 0x0E
  h.executing e = true →
  h.admits (.engine e) (ENG_CMD.A e) true →
  (g.eng e).run = some t →
  t.pkt = some p →
  g.emitBytes e p = some bs →
  g.freeCells < (g.emitPkt e t p bs).cells →
  exec (.emitCopy e v) s = .next (s.finish (g.wr (ENG_CMD.STATUS e) STATUS_NO_CELLS))

/-- DROP: the task's packet is discarded, the pause state of its source follows, and STATUS is 0 (R365, R367). -/
def drop : Prop := ∀ (e : Fin 64) (v : Word) (t : Task) (p : Pkt) (s : State),
  let h := s.hw
  let g := ((h.reached (.engine e) (ENG_CMD.A e)).plainWrite (ENG_CMD.A e) v).perf e 0x0E
  h.executing e = true →
  h.admits (.engine e) (ENG_CMD.A e) true →
  (g.eng e).run = some t →
  t.pkt = some p →
  exec (.drop e v) s = .next (s.finish (((g.setTaskPkt e none).poolUpdate p.source).wr (ENG_CMD.STATUS e) STATUS_OK))

/-- NEW of 18 to 12,288 octets of data memory, with cells free, by a task without a spread number: the packet goes to its queue (R365, R366). -/
def new : Prop := ∀ (e : Fin 64) (v : Word) (s : State),
  let h := s.hw
  let g := ((h.reached (.engine e) (ENG_CMD.A e)).plainWrite (ENG_CMD.A e) v).perf e 0x0E
  let off := getField (g.arg e 1) 0 17
  let len := getField (g.arg e 2) 0 14
  let t := (g.eng e).run.getD {}
  let p := ({ bytes := g.dmemBytes e off len, source := 513, tc := getField (g.arg e 3) 0 3, color := min 2 (getField (g.arg e 3) 3 2), untrusted := t.untrusted } : Pkt)
  let r := g.enqueueAt (getField (g.arg e 0) 0 18) p
  h.executing e = true →
  h.admits (.engine e) (ENG_CMD.A e) true →
  18 ≤ len →
  len ≤ 12288 →
  off + len ≤ 0x20000 →
  p.cells ≤ g.freeCells →
  t.spread = none →
  exec (.new e v) s = .next (s.finish (r.1.wr (ENG_CMD.STATUS e) (if r.2 then STATUS_OK else STATUS_DROPPED)))

/-- NEW of a length or a place outside the limits: STATUS is 2 and nothing is sent (R366). -/
def new_bad : Prop := ∀ (e : Fin 64) (v : Word) (s : State),
  let h := s.hw
  let g := ((h.reached (.engine e) (ENG_CMD.A e)).plainWrite (ENG_CMD.A e) v).perf e 0x0E
  h.executing e = true →
  h.admits (.engine e) (ENG_CMD.A e) true →
  getField (g.arg e 2) 0 14 < 18 ∨ 12288 < getField (g.arg e 2) 0 14 ∨ 0x20000 < getField (g.arg e 1) 0 17 + getField (g.arg e 2) 0 14 →
  exec (.new e v) s = .next (s.finish (g.wr (ENG_CMD.STATUS e) STATUS_BAD_ARG))

/-- POST with DELAY 0 and no packet given: the task created goes to the ready list that R372 gives it, and STATUS is 0 (R371, R372). -/
def post : Prop := ∀ (e : Fin 64) (v : Word) (k : Task) (moved : Bool) (s : State),
  let h := s.hw
  let g := ((h.reached (.engine e) (ENG_CMD.A e)).plainWrite (ENG_CMD.A e) v).perf e 0x0E
  let r := g.postTask e none (((g.eng e).run.map Task.ds).getD false)
  h.executing e = true →
  h.admits (.engine e) (ENG_CMD.A e) true →
  (g.arg e 0).toNat % 64 = 0 →
  (g.arg e 0).toNat < 0x20000 →
  getField (g.arg e 1) 12 1 = 0 →
  getField (g.arg e 2) 0 24 = 0 →
  r.1.taskRoute r.2 = some (k, moved) →
  r.1.freeDescs ≠ 0 →
  r.1.readyCount (k.engine / 8) < r.1.rd (TIL_CL_CFG.CL_QUOTA (k.engine / 8)) →
  exec (.post e v) s = .next (s.finish (((r.1.onlyIf (moved = true) (·.tilCount 1)).taskEnter k).wr (ENG_CMD.STATUS e) STATUS_OK))

/-- POST with DELAY 0 of a task no engine can have: discarded and counted, NO_ENGINE_EV is signalled, STATUS is 0 (R371, R372). -/
def post_no_engine : Prop := ∀ (e : Fin 64) (v : Word) (s : State),
  let h := s.hw
  let g := ((h.reached (.engine e) (ENG_CMD.A e)).plainWrite (ENG_CMD.A e) v).perf e 0x0E
  let r := g.postTask e none (((g.eng e).run.map Task.ds).getD false)
  h.executing e = true →
  h.admits (.engine e) (ENG_CMD.A e) true →
  (g.arg e 0).toNat % 64 = 0 →
  (g.arg e 0).toNat < 0x20000 →
  getField (g.arg e 1) 12 1 = 0 →
  getField (g.arg e 2) 0 24 = 0 →
  r.1.taskRoute r.2 = none →
  exec (.post e v) s = .next (s.finish ((r.1.taskNoEngine r.2).wr (ENG_CMD.STATUS e) STATUS_OK))

/-- POST with a delay and no packet given: the task waits in the delay list under the lowest free entry number, due that many ticks ahead; argument 3 has its handle, STATUS is 0 (R371, R373). -/
def post_delay : Prop := ∀ (e : Fin 64) (v : Word) (s : State),
  let h := s.hw
  let g := ((h.reached (.engine e) (ENG_CMD.A e)).plainWrite (ENG_CMD.A e) v).perf e 0x0E
  let r := g.postTask e none (((g.eng e).run.map Task.ds).getD false)
  let i := getField (g.arg e 1) 10 2
  let used := (r.1.delayList i).map Delayed.entry
  let d := getField (g.arg e 2) 0 24
  let n := (firstFrom (fun j => !used.contains j) 16384 0).getD 0
  let due := (r.1.rd (TIL_TICK_COUNT.COUNT i) + d) % 2 ^ 32
  let z := { r.1 with til := { r.1.til with delay := r.1.til.delay ++ [Delayed.mk i n due r.2] } }
  h.executing e = true →
  h.admits (.engine e) (ENG_CMD.A e) true →
  (g.arg e 0).toNat % 64 = 0 →
  (g.arg e 0).toNat < 0x20000 →
  getField (g.arg e 1) 12 1 = 0 →
  d ≠ 0 →
  used.length < 16384 →
  r.1.freeDescs ≠ 0 →
  exec (.post e v) s = .next (s.finish ((z.setWord (ENG_CMD_ARG.A e 3) (BitVec.ofNat 32 (n + i * 65536))).wr (ENG_CMD.STATUS e) STATUS_OK))

/-- POST of a descriptor that is not aligned or lies outside data memory: STATUS is 2 (R371). -/
def post_bad : Prop := ∀ (e : Fin 64) (v : Word) (s : State),
  let h := s.hw
  let g := ((h.reached (.engine e) (ENG_CMD.A e)).plainWrite (ENG_CMD.A e) v).perf e 0x0E
  h.executing e = true →
  h.admits (.engine e) (ENG_CMD.A e) true →
  (g.arg e 0).toNat % 64 ≠ 0 ∨ 0x20000 ≤ (g.arg e 0).toNat →
  exec (.post e v) s = .next (s.finish (g.wr (ENG_CMD.STATUS e) STATUS_BAD_ARG))

/-- CANCEL of a delayed task: it is over, and STATUS is 0 (R374). -/
def cancel : Prop := ∀ (e : Fin 64) (v : Word) (d : Delayed) (s : State),
  let h := s.hw
  let g := ((h.reached (.engine e) (ENG_CMD.A e)).plainWrite (ENG_CMD.A e) v).perf e 0x0E
  h.executing e = true →
  h.admits (.engine e) (ENG_CMD.A e) true →
  g.til.delay.find? (fun d => d.list == getField (g.arg e 3) 16 2 && d.entry == getField (g.arg e 3) 0 14) = some d →
  exec (.cancel e v) s = .next (s.finish ((({ g with til := { g.til with delay := g.til.delay.erase d } } : Hw).taskOver d.task).wr (ENG_CMD.STATUS e) STATUS_OK))

/-- CANCEL of a handle no delayed task has: it is counted and STATUS is 5 (R374). -/
def cancel_not_found : Prop := ∀ (e : Fin 64) (v : Word) (s : State),
  let h := s.hw
  let g := ((h.reached (.engine e) (ENG_CMD.A e)).plainWrite (ENG_CMD.A e) v).perf e 0x0E
  h.executing e = true →
  h.admits (.engine e) (ENG_CMD.A e) true →
  g.til.delay.find? (fun d => d.list == getField (g.arg e 3) 16 2 && d.entry == getField (g.arg e 3) 0 14) = none →
  exec (.cancel e v) s = .next (s.finish ((g.tilCount 5).wr (ENG_CMD.STATUS e) STATUS_NOT_FOUND))

/-- END of a task: it is counted, its packet discarded, and the engine is free for the task it had put aside (R365, R376). -/
def endTask : Prop := ∀ (e : Fin 64) (v : Word) (t : Task) (s : State),
  let h := s.hw
  let g := ((h.reached (.engine e) (ENG_CMD.A e)).plainWrite (ENG_CMD.A e) v).perf e 0x0E
  let k := g.perf e 4
  h.executing e = true →
  h.admits (.engine e) (ENG_CMD.A e) true →
  (g.eng e).run = some t →
  exec (.endTask e v) s = .next (s.finish (((if t.pkt.isSome = true then k.count (ENG_CNT.COUNT e 2) else k).engineFree e).wr (ENG_CMD.STATUS e) (g.rd (ENG_CMD.STATUS e))))

/-- END of the init program: the engine is ON, and its cluster is no longer draining (R375, R377). -/
def endTask_init : Prop := ∀ (e : Fin 64) (v : Word) (s : State),
  let h := s.hw
  let g := ((h.reached (.engine e) (ENG_CMD.A e)).plainWrite (ENG_CMD.A e) v).perf e 0x0E
  h.executing e = true →
  h.admits (.engine e) (ENG_CMD.A e) true →
  (g.eng e).run = none →
  ((g.modEng e (fun x => { x with init := false })).lcOn (engFn e)).engOn e = true →
  exec (.endTask e v) s = .next (s.finish ((((g.modEng e (fun x => { x with init := false })).lcOn (engFn e)).wr (TIL_CL_STATUS.DRAINING (e / 8)) 0).wr (ENG_CMD.STATUS e) (g.rd (ENG_CMD.STATUS e))))

/-! ## engine faults and accesses, Tiller and the drain of a cluster -/

/-- ENGINE_FAULT that may come: counted, signalled, MEM_UNCORR of the engine with codes 3 and 4, recorded where none is held, the task ends, and FAULT_STOP or code 3 stops the engine (R48, R378). -/
def engineFault : Prop := ∀ (e : Fin 64) (code : Fin 8) (pc : Fin 65536) (addr : Fin 1099511627776) (s : State),
  let h := s.hw
  let b := (h.count (ENG_CNT.COUNT e 1)).raise (0x6000000 + e * 0x10000) EV_ENG.ENG_FAULT_EV
  let c := if code.val = 3 ∨ code.val = 4 then b.raise (0x6000000 + e * 0x10000) EV.MEM_UNCORR else b
  let r := ((((c.wr (ENG_FAULT.CODE e) code).wr (ENG_FAULT.PC e) pc).wr (ENG_FAULT_ADDR_HI.ADDR e) (addr / 2 ^ 32)).wr (ENG_FAULT_ADDR.ADDR e) addr).wr (ENG_FAULT_ADDR_HI.FAULT_VALID e) 1
  let n := r.modEng e (fun x => { x with init := false })
  h.faultMay e code = true →
  h.rd (ENG_FAULT_ADDR_HI.FAULT_VALID e) = 0 →
  c.rd (ENG_FAULT_ADDR_HI.FAULT_VALID e) ≠ 1 →
  exec (.engineFault e code pc addr) s = .next (s.finish ((if code.val = 3 ∨ n.rd (ENG_CTRL.FAULT_STOP e) = 1 then (n.wr (ENG_CTRL.ENABLE e) 0).engineDown e else n).engineFree e))

/-- ENGINE_FAULT while a fault record is held: the record stays; the rest is as without one (R48, R378). -/
def engineFault_held : Prop := ∀ (e : Fin 64) (code : Fin 8) (pc : Fin 65536) (addr : Fin 1099511627776) (s : State),
  let h := s.hw
  let b := (h.count (ENG_CNT.COUNT e 1)).raise (0x6000000 + e * 0x10000) EV_ENG.ENG_FAULT_EV
  let c := if code.val = 3 ∨ code.val = 4 then b.raise (0x6000000 + e * 0x10000) EV.MEM_UNCORR else b
  let n := c.modEng e (fun x => { x with init := false })
  h.faultMay e code = true →
  c.rd (ENG_FAULT_ADDR_HI.FAULT_VALID e) = 1 →
  exec (.engineFault e code pc addr) s = .next (s.finish ((if code.val = 3 ∨ n.rd (ENG_CTRL.FAULT_STOP e) = 1 then (n.wr (ENG_CTRL.ENABLE e) 0).engineDown e else n).engineFree e))

/-- ENGINE_DATA_ACCESS, a read of data memory: the octets are what the memory holds there (R360, R361). -/
def engineDataAccess : Prop := ∀ (e : Fin 64) (pc : Fin 65536) (a : Fin 1099511627776) (n : Fin 65) (s : State),
  let h := s.hw
  h.executing e = true →
  n.val ≠ 0 →
  0x10000 ≤ a.val →
  a.val + n.val ≤ 0x30000 →
  exec (.engineDataAccess e pc a n none) s = .next (s.finish ({ h with edata := h.dmemBytes e (a - 0x10000) n }))

/-- ENGINE_DATA_ACCESS, a write to data memory: the octets are stored there (R360, R361). -/
def engineDataAccess_store : Prop := ∀ (e : Fin 64) (pc : Fin 65536) (a : Fin 1099511627776) (n : Fin 65) (bs : Bytes) (s : State),
  let h := s.hw
  h.executing e = true →
  bs ≠ [] →
  0x10000 ≤ a.val →
  a.val + bs.length ≤ 0x30000 →
  exec (.engineDataAccess e pc a n (some bs)) s = .next (s.finish (h.dmemStore e (a - 0x10000) bs))

/-- ENGINE_DATA_ACCESS, a read at an address where a program has nothing: the access is logged (its reason and address are the model's choice, log entry 178), the read gives zeros, and the engine has a fault of code 2 with that address (R46, R361, R378). -/
def engineDataAccess_fault : Prop := ∀ (e : Fin 64) (pc : Fin 65536) (a : Fin 1099511627776) (n : Fin 65) (s : State),
  let h := s.hw
  h.executing e = true →
  n.val ≠ 0 →
  a.val < 0x10000 →
  exec (.engineDataAccess e pc a n none) s = .next (s.finish (({ h.busError (.engine ⟨e % 64, Nat.mod_lt _ (by decide)⟩) a false 2 with edata := List.replicate n 0 }).engineFault e 2 pc a))

/-- ENGINE_DATA_ACCESS, a write through the engine's alias without an error: the register access of that engine there (R360). -/
def engineDataAccess_register : Prop := ∀ (e : Fin 64) (pc : Fin 65536) (a : Fin 1099511627776) (n : Fin 65) (v : Word) (s : State),
  let h := s.hw
  let g := 0x6000000 + e * 0x10000 + (a.val - 0x200000)
  h.executing e = true →
  0x200000 ≤ a.val →
  a.val + 4 ≤ 0x210000 →
  h.accessError (.engine e) g 4 true = 0 →
  exec (.engineDataAccess e pc a n (some (leBytes 4 v.toNat))) s = .next (s.finish (h.access s.mem (.engine e) g 4 (.write (BitVec.ofNat 32 (leNat (leBytes 4 v.toNat))))))

/-- ENGINE_DATA_ACCESS, a read of the ENG window through the register space: a RESERVED error and a fault of code 2 (R360, R378). -/
def engineDataAccess_reserved : Prop := ∀ (e : Fin 64) (pc : Fin 65536) (a : Fin 1099511627776) (n : Fin 65) (s : State),
  let h := s.hw
  let g := ((h.perf e 0x0C).busError (.engine e) (a - 0x100000000) false 2).answer 0#32
  h.executing e = true →
  n.val = 4 →
  0x106000000 ≤ a.val →
  a.val + 4 ≤ 0x107000000 →
  exec (.engineDataAccess e pc a n none) s = .next (s.finish (({ g with edata := leBytes 4 g.rdata.toNat }).engineFault e 2 pc a))

/-- TASK_DISPATCH of an idle engine: the best ready task it may run leaves its list and starts there (R369). -/
def taskDispatch : Prop := ∀ (e : Fin 64) (t : Task) (s : State),
  let h := s.hw
  h.engIdle e = true →
  h.bestReady (fun t => t.fits e && ((List.range (e % 8)).all (fun j => !h.engIdle (e / 8 * 8 + j)) || !t.any)) = some t →
  exec (.taskDispatch e) s = .next (s.finish ((h.unready t).taskStart e 0 t))

/-- TILLER_TICK with the local clock: the count advances by the tick instants of the period in force since the last tick delivered, those beyond one counted where a step of the time skipped them, and PERIOD as written is in force from here (R339, R373). -/
def tillerTick : Prop := ∀ (i : Fin 4) (s : State),
  let h := s.hw
  let p := h.til.tickPer.get 10 i * 100
  let now := h.tim.now.abs
  let n := tickIndex p now - tickIndex p (h.til.tickAt.get 0 i)
  let g := ({ h with til := { h.til with tickPer := h.til.tickPer.set 10 i (h.rd (TIL_TICK.PERIOD i)), tickAt := h.til.tickAt.set 0 i now, stepped := h.til.stepped.filter (fun x => x != i.val) } }).wr (TIL_TICK.FALLBACK i) 0
  h.timRuns = true →
  h.rd (TIL_TICK.FALLBACK i) = 0 →
  n ≠ 0 →
  exec (.tillerTick i) s = .next (s.finish ((g.tilCount 7 (if h.til.stepped.contains i.val then n - 1 else 0)).wr (TIL_TICK_COUNT.COUNT i) (h.rd (TIL_TICK_COUNT.COUNT i) + n)))

/-- TILLER_TICK without the local clock: FALLBACK is set, signalled where it was not, the count advances by 1, and PERIOD as written is in force (R373). -/
def tillerTick_fallback : Prop := ∀ (i : Fin 4) (s : State),
  let h := s.hw
  let g : Hw := { h with til := { h.til with tickPer := h.til.tickPer.set 10 i (h.rd (TIL_TICK.PERIOD i)) } }
  h.timRuns = false →
  exec (.tillerTick i) s = .next (s.finish (g.ticksFallBack.wr (TIL_TICK_COUNT.COUNT i) (h.rd (TIL_TICK_COUNT.COUNT i) + 1)))

/-- DELAY_DUE: the entry that fell due first leaves its list for the ready list that R372 gives it, its lateness in word 5 (R372, R374). -/
def delayDue : Prop := ∀ (i : Fin 4) (d : Delayed) (late : Nat) (t : Task) (moved : Bool) (s : State),
  let h := s.hw
  let g := { h with til := { h.til with delay := h.til.delay.erase d } }
  let k := { t with desc := t.desc.set 5 (setField (t.word 5) 0 8 (min 255 late)) }
  h.firstDue i = some (d, late) →
  h.taskRoute d.task = some (t, moved) →
  h.readyCount (t.engine / 8) < h.rd (TIL_CL_CFG.CL_QUOTA (t.engine / 8)) →
  exec (.delayDue i) s = .next (s.finish ((g.onlyIf (moved = true) (·.tilCount 1)).taskEnter k))

/-- DELAY_DUE of an entry whose cluster has its quota of ready tasks: it waits at the head of its list (R374). -/
def delayDue_waits : Prop := ∀ (i : Fin 4) (d : Delayed) (late : Nat) (t : Task) (moved : Bool) (s : State),
  let h := s.hw
  h.firstDue i = some (d, late) →
  h.taskRoute d.task = some (t, moved) →
  h.rd (TIL_CL_CFG.CL_QUOTA (t.engine / 8)) ≤ h.readyCount (t.engine / 8) →
  exec (.delayDue i) s = .next (s.finish (h))

/-- CLUSTER_DRAIN_DONE: DRAIN_DONE is signalled, and every engine of the cluster is held and stops (R375). -/
def clusterDrainDone : Prop := ∀ (k : Fin 8) (s : State),
  let h := s.hw
  h.rd (TIL_CL_STATUS.DRAINING k) = 1 →
  h.drained k = true →
  (List.range 8).all (fun j => h.rd (engFn (8 * k + j)).HELD == 1) = false →
  exec (.clusterDrainDone k) s = .next (s.finish ((h.tilRaise EV_TIL.DRAIN_DONE).forAll (List.range 8) (fun x j => (x.wr (engFn (8 * k + j)).HELD 1).engineDown (8 * k + j))))

/-! ## meters, queue flushes, spill and refill, DRAM start and training -/

/-- METER_STAT_WRITE by a master whose access is admitted: the GRN gate's running command finishes, both buckets of the meter are full, no remainder is carried and its counters are 0, and the gate is BUSY until its command completes (R53, R244). -/
def meterStatWrite : Prop := ∀ (m : Master) (i : Fin 131072) (s : State),
  let h := s.hw.reached m 0x3000048
  s.hw.admits m 0x3000048 true →
  exec (.meterStatWrite m i) s = .next (s.finish (h.gateCommit 0x3000000 (fun k => k.modMeter i (fun _ => { c := { credit := Int.ofNat (k.t (METER_CFG.CBS i) * 256), rem := 0, last := k.tmClk }, e := { credit := Int.ofNat (k.t (METER_CFG.EBS i) * 256), rem := 0, last := k.tmClk } }))))

/-- QUEUE_FLUSH: every packet of the queue is discarded and counted, BUSY sets, and the queue refuses arrivals (R250). -/
def queueFlush : Prop := ∀ (m : Master) (v : Word) (s : State),
  let h := s.hw.reached m GRN_Q_FLUSH.A
  let g := h.flushFinish.fullWrite GRN_Q_FLUSH.A v
  s.hw.admits m GRN_Q_FLUSH.A true →
  getField v 31 1 = 1 →
  exec (.queueFlush m v) s = .next (s.finish ((g.flushStart (g.rd GRN_Q_FLUSH.QUEUE)).schedLeave (g.rd GRN_Q_FLUSH.QUEUE)))

/-- FLUSH_ONCHIP_RELEASE: the on-chip part of the flushed queue is free and the queue takes packets again (R250). -/
def flushOnchipRelease : Prop := ∀ (f : Flush) (s : State),
  let h := s.hw
  let g := { h with grn := { h.grn with flush := some { f with cells := 0, released := true } } }
  h.grn.flush = some f →
  exec .flushOnchipRelease s = .next (s.finish (g.poolUpdate 512))

/-- QUEUE_FLUSH_DONE: the flush has released all it held, BUSY clears, FLUSH_DONE is signalled (R250). -/
def queueFlushDone : Prop := ∀ (f : Flush) (s : State),
  let h := s.hw
  let g := { h.flushRelease with grn := { h.flushRelease.grn with flush := none } }
  h.flushRelease.grn.flush = some f →
  exec .queueFlushDone s = .next (s.finish (((g.wr GRN_Q_FLUSH.BUSY 0).grnRaise EV_GRN.FLUSH_DONE).poolUpdate 512))

/-- SPILL_MOVE: the oldest staged packet of the queue lies in the external blocks that were had for it (R252, R256). -/
def spillMove : Prop := ∀ (q : Fin 262144) (p : Stored) (g : Hw) (bs : List (Nat × Nat)) (s : State),
  let h := s.hw
  (h.queue q).pkts.find? (fun p => p.loc == .staging) = some p →
  h.placeExt q 8 (extSize p.pkt.len) [] = some (g, bs) →
  exec (.spillMove q) s = .next (s.finish ((g.modQueue q (fun x => { x with pkts := replaceFirst (fun p => p.loc == .staging) (fun p => { p with loc := .ext bs }) x.pkts })).poolUpdate p.pkt.source))

/-- REFILL_MOVE: the queue is below REFILL_TH and cells can be had, so its oldest packet readable in external memory is read back into cells, errors corrected on the way are counted, and spill mode ends with the last (R251, R253, R257). -/
def refillMove : Prop := ∀ (q : Fin 262144) (n : Nat) (p : Stored) (s : State),
  let h := s.hw
  (h.queue q).pkts.find? Stored.readable = some p →
  (h.queue q).onchip < h.t (QUEUE_CFG.REFILL_TH q) →
  h.cellsFor q p.pkt.cells = true →
  exec (.refillMove q n) s = .next (s.finish ((((h.modQueue q (fun x => { x with pkts := replaceFirst Stored.readable (fun p => { p with loc := .chip }) x.pkts })).spillEnd q).poolUpdate p.pkt.source).count (GRN_CNT.COUNT GRN_N.DRAM_CORR) n))

/-- DRAM_INIT with a bulk part left and the channels not up: training begins (R254). -/
def dramInit : Prop := ∀ (m : Master) (v : Word) (s : State),
  let h := s.hw.reached m GRN_DRAM_CFG.A
  let g := h.plainWrite GRN_DRAM_CFG.A v
  s.hw.admits m GRN_DRAM_CFG.A true →
  getField v 16 1 = 1 →
  g.bulkLeft = true →
  g.rd GRN_DRAM_CFG.DRAM_UP = 0 →
  exec (.dramInit m v) s = .next (s.finish ({ g with grn := { g.grn with training := true } }))

/-- DRAM_UP: every channel is ACTIVE, but one retired since PORN, and DRAM_UP reads 1 (R254, R258). -/
def dramUp : Prop := ∀ (s : State),
  let h := s.hw
  let g := { h with grn := { h.grn with training := false } }
  h.grn.training = true →
  exec .dramUp s = .next (s.finish ((g.forAll (List.range 4) (fun x r => x.onlyIf (x.chState r ≠ 3) (fun y => y.wr (GRN_DRAM_CH_STATUS.CH_STATE r) 0))).wr GRN_DRAM_CFG.DRAM_UP 1))

/-- DRAM_RETRAIN of an ACTIVE channel: it is RETRAINING (R258). -/
def dramRetrain : Prop := ∀ (m : Master) (r : Fin 4) (v : Word) (s : State),
  let h := s.hw.reached m (GRN_DRAM_CH_CTRL.A r)
  s.hw.admits m (GRN_DRAM_CH_CTRL.A r) true →
  getField v 0 1 = 1 →
  h.dramActive r = true →
  exec (.dramRetrain m r v) s = .next (s.finish (h.wr (GRN_DRAM_CH_STATUS.CH_STATE r) 1))

/-- DRAM_RETRAIN_COMPLETE that passes: the channel is ACTIVE again and RETRAIN_DONE is signalled (R258). -/
def dramRetrainComplete : Prop := ∀ (r : Fin 4) (pass : Bool) (s : State),
  let h := s.hw
  h.chState r = 1 →
  pass = true →
  exec (.dramRetrainComplete r pass) s = .next (s.finish ((h.wr (GRN_DRAM_CH_STATUS.CH_STATE r) 0).grnRaise EV_GRN.RETRAIN_DONE))

/-- DRAM_RETRAIN_COMPLETE that does not pass: the channel fails (R258). -/
def dramRetrainComplete_fail : Prop := ∀ (r : Fin 4) (pass : Bool) (s : State),
  let h := s.hw
  h.chState r = 1 →
  pass = false →
  exec (.dramRetrainComplete r pass) s = .next (s.finish (h.dramFail r))

/-! ## retired channels, memory errors, refresh and shaper debts -/

/-- DRAM_RETIRE of an ACTIVE channel while no other has been retired: it is RETIRING (R258). -/
def dramRetire : Prop := ∀ (m : Master) (r : Fin 4) (v : Word) (s : State),
  let h := s.hw.reached m (GRN_DRAM_CH_CTRL.A r)
  s.hw.admits m (GRN_DRAM_CH_CTRL.A r) true →
  getField v 1 1 = 1 →
  h.dramActive r = true →
  (List.range 4).all (fun q => h.chState q != 3) = true →
  exec (.dramRetire m r v) s = .next (s.finish (h.wr (GRN_DRAM_CH_STATUS.CH_STATE r) 2))

/-- DRAM_PAGE_COPY_DONE: one more shared page of the retiring channel lies in its spare place (R258). -/
def dramPageCopyDone : Prop := ∀ (r : Fin 4) (s : State),
  let h := s.hw
  h.chState r = 2 →
  (h.dramCh r).copied < h.sharedPages →
  exec (.dramPageCopyDone r) s = .next (s.finish (h.modDram r (fun d => { d with copied := d.copied + 1 })))

/-- DRAM_RELOCATION_DONE: pages copied and blocks moved, the channel is RETIRED and RETIRE_DONE is signalled (R258). -/
def dramRelocationDone : Prop := ∀ (r : Fin 4) (s : State),
  let h := s.hw
  let x := h.relocate r (h.blocksUsed r)
  h.chState r = 2 →
  (h.dramCh r).copied = h.sharedPages →
  x.2 = true →
  exec (.dramRelocationDone r) s = .next (s.finish ((x.1.wr (GRN_DRAM_CH_STATUS.CH_STATE r) 3).grnRaise EV_GRN.RETIRE_DONE))

/-- DRAM_UNCORR_ERROR at a read of the window, below FAIL_LIMIT: the read answers 0, and both errors are signalled (R257). -/
def dramUncorrError : Prop := ∀ (r : Fin 4) (w : UncorrAt) (s : State),
  let h := s.hw
  let g := ((h.answer 0#32).grnRaise EV.MEM_UNCORR).grnRaise EV_GRN.DRAM_UNCORR_EV
  let k := g.modDram r (fun d => { d with errs := d.errs.filter (fun t => decide (g.clk - t < 1000000000)) ++ [g.clk] })
  w = .window →
  (k.dramCh r).errs.length < k.rd GRN_DRAM_LOOP.FAIL_LIMIT →
  exec (.dramUncorrError r w) s = .next (s.finish (k))

/-- DRAM_UNCORR_ERROR in a stored packet: the oldest external packet of the queue is discarded (R257). -/
def dramUncorrError_packet : Prop := ∀ (r : Fin 4) (q : Fin 262144) (s : State),
  let h := s.hw
  let g := (h.uncorrPacket q).grnRaise EV_GRN.DRAM_UNCORR_EV
  let k := g.modDram r (fun d => { d with errs := d.errs.filter (fun t => decide (g.clk - t < 1000000000)) ++ [g.clk] })
  (k.dramCh r).errs.length < k.rd GRN_DRAM_LOOP.FAIL_LIMIT →
  exec (.dramUncorrError r (.packet q)) s = .next (s.finish (k))

/-- DRAM_UNCORR_ERROR in a context read: the packets waiting for it are discarded as at a failed read (R222, R257). -/
def dramUncorrError_context : Prop := ∀ (r : Fin 4) (f : Fin 1048576) (s : State),
  let h := s.hw
  let g := (h.ctxReturn s.mem f true 0).grnRaise EV_GRN.DRAM_UNCORR_EV
  let k := g.modDram r (fun d => { d with errs := d.errs.filter (fun t => decide (g.clk - t < 1000000000)) ++ [g.clk] })
  (k.dramCh r).errs.length < k.rd GRN_DRAM_LOOP.FAIL_LIMIT →
  exec (.dramUncorrError r (.context f)) s = .next (s.finish (k))

/-- DRAM_UNCORR_ERROR that reaches FAIL_LIMIT within one second on a channel in use: the channel fails (R258). -/
def dramUncorrError_fail : Prop := ∀ (r : Fin 4) (w : UncorrAt) (s : State),
  let h := s.hw
  let g := ((h.answer 0#32).grnRaise EV.MEM_UNCORR).grnRaise EV_GRN.DRAM_UNCORR_EV
  let k := g.modDram r (fun d => { d with errs := d.errs.filter (fun t => decide (g.clk - t < 1000000000)) ++ [g.clk] })
  w = .window →
  k.rd GRN_DRAM_LOOP.FAIL_LIMIT ≤ (k.dramCh r).errs.length →
  k.rd GRN_DRAM_CFG.DRAM_UP = 1 →
  k.chState r = 0 ∨ k.chState r = 2 →
  exec (.dramUncorrError r w) s = .next (s.finish (k.dramFail r))

/-- REFRESH_ADJUST within the bounds while the code in force is within them: REF_CODE takes the code (R260). -/
def refreshAdjust : Prop := ∀ (r : Fin 4) (want : Fin 5) (s : State),
  let h := s.hw
  h.domRuns 14 = true →
  h.rd GRN_DRAM_LOOP.REF_MIN ≤ h.rd (GRN_DRAM_CH_STATUS.REF_CODE r) ∧ h.rd (GRN_DRAM_CH_STATUS.REF_CODE r) ≤ h.rd GRN_DRAM_LOOP.REF_MAX →
  h.rd GRN_DRAM_LOOP.REF_MIN ≤ want.val →
  want.val ≤ h.rd GRN_DRAM_LOOP.REF_MAX →
  exec (.refreshAdjust r want) s = .next (s.finish (h.wr (GRN_DRAM_CH_STATUS.REF_CODE r) want))

/-- REFRESH_ADJUST beyond a bound, or with the code in force beyond one: REF_CODE takes the bound, and the clamp is counted (R260, R482). -/
def refreshAdjust_clamp : Prop := ∀ (r : Fin 4) (want : Fin 5) (s : State),
  let h := s.hw
  let into := fun k => min (max k (h.rd GRN_DRAM_LOOP.REF_MIN)) (h.rd GRN_DRAM_LOOP.REF_MAX)
  let cur := h.rd (GRN_DRAM_CH_STATUS.REF_CODE r)
  let aim := if into cur = cur then want.val else cur
  h.domRuns 14 = true →
  into aim ≠ aim →
  exec (.refreshAdjust r want) s = .next (s.finish ((h.count GRN_DRAM_CLAMP_COUNT.POLICY_CLAMP_COUNT).wr (GRN_DRAM_CH_STATUS.REF_CODE r) (into aim)))

/-- CLEAR_DEBT of a node that exists: each negative credit among the selected buckets becomes 0; the command is counted and CMD_DONE signalled (R278). -/
def clearDebt : Prop := ∀ (m : Master) (v : Word) (t n : Nat) (s : State),
  let h := s.hw.reached m TMS_SHP_CMD.A
  let g := h.fullWrite TMS_SHP_CMD.A v
  s.hw.admits m TMS_SHP_CMD.A true →
  getField v 31 1 = 1 →
  shaperLevel (getField v 0 3) = some (t, n) →
  getField v 4 16 < n →
  exec (.clearDebt m v) s = .next (s.finish (((g.clearDebt t (getField v 4 16) (getField v 20 2)).count (TMS_SCH_CNT.COUNT 1)).raise 0x3000000 EV_TMS.CMD_DONE))

/-- CLEAR_DEBT of a level or node that does not exist: it is counted and CMD_ERR signalled (R278). -/
def clearDebt_bad : Prop := ∀ (m : Master) (v : Word) (s : State),
  let h := s.hw.reached m TMS_SHP_CMD.A
  let g := h.fullWrite TMS_SHP_CMD.A v
  s.hw.admits m TMS_SHP_CMD.A true →
  getField v 31 1 = 1 →
  shaperLevel (getField v 0 3) = none →
  exec (.clearDebt m v) s = .next (s.finish ((g.count (TMS_SCH_CNT.COUNT 2)).raise 0x3000000 EV_TMS.CMD_ERR))

/-! ## the commands of Husk and its random generator -/

/-- GET_ID of a terminal not retired, to a backed address: the identity block is written there, BUSY sets, and the result is OK (R418, R421). -/
def getId : Prop := ∀ (m : Master) (v : Word) (s : State),
  let h := s.hw.reached m HSK_CMD.A
  let g := h.hskDone.fullWrite HSK_CMD.A v
  s.hw.admits m HSK_CMD.A true →
  g.rd HSK_STATUS.HANDOFF ≠ 0 →
  g.hsk.fuses.lifecycle ≠ 3 →
  g.backed (g.hskAddr 0) 884 = true →
  exec (.getId m v) s = .next (s.finish (((g.memWrite (g.hskAddr 0 - extBase) g.identity).modHsk (fun k => { k with cmd := some HUSK_OK })).wr HSK_CMD.BUSY 1))

/-- GET_ID to an address that is not backed: nothing is written and the result is MEM_ERR (R418, R421). -/
def getId_mem : Prop := ∀ (m : Master) (v : Word) (s : State),
  let h := s.hw.reached m HSK_CMD.A
  let g := h.hskDone.fullWrite HSK_CMD.A v
  s.hw.admits m HSK_CMD.A true →
  g.rd HSK_STATUS.HANDOFF ≠ 0 →
  g.hsk.fuses.lifecycle ≠ 3 →
  g.backed (g.hskAddr 0) 884 = false →
  exec (.getId m v) s = .next (s.finish ((g.modHsk (fun k => { k with cmd := some HUSK_MEM_ERR })).wr HSK_CMD.BUSY 1))

/-- ATTEST of a terminal not retired with RNG_OK, to a backed address: the evidence over the nonce there and its two signatures, RSASSA-PSS with a random salt and SLH-DSA under the device keys, are written there, BUSY sets, and the result is OK (R422). -/
def attest : Prop := ∀ (m : Master) (v : Word) (s : State),
  let h := s.hw.reached m HSK_CMD.A
  let g := h.hskDone.fullWrite HSK_CMD.A v
  let a := g.hskAddr 0
  let nonce := g.extRead s.mem (a - extBase + 16) 48
  let body := g.evidence nonce.2
  let f := g.hsk.fuses
  let salt := (List.range 48).map (fun i => BitVec.ofNat 8 (g.draw 422 / 2 ^ (8 * i)))
  let sigs := rsaSign f.rsaId.1 f.rsaId.2.2 body salt ++ slh192f.sign (f.slhSeed 0) (f.slhSeed 1) (f.slhSeed 2) body
  s.hw.admits m HSK_CMD.A true →
  g.rd HSK_STATUS.HANDOFF ≠ 0 →
  g.hsk.fuses.lifecycle ≠ 3 →
  g.rd HSK_STATUS.RNG_OK ≠ 0 →
  g.backed a 36384 = true →
  exec (.attest m v) s = .next (s.finish (((nonce.1.drawn.memWrite (a - extBase) (body ++ sigs)).modHsk (fun k => { k with cmd := some HUSK_OK })).wr HSK_CMD.BUSY 1))

/-- ATTEST without RNG_OK: nothing is written and the result is RNG_FAIL (R420, R422). -/
def attest_rng : Prop := ∀ (m : Master) (v : Word) (s : State),
  let h := s.hw.reached m HSK_CMD.A
  let g := h.hskDone.fullWrite HSK_CMD.A v
  s.hw.admits m HSK_CMD.A true →
  g.rd HSK_STATUS.HANDOFF ≠ 0 →
  g.hsk.fuses.lifecycle ≠ 3 →
  g.rd HSK_STATUS.RNG_OK = 0 →
  exec (.attest m v) s = .next (s.finish ((g.modHsk (fun k => { k with cmd := some HUSK_RNG_FAIL })).wr HSK_CMD.BUSY 1))

/-- MEAS_EXTEND from a backed address: the measurement register becomes the SHA-384 hash of itself and the 48 octets there (R419). -/
def measExtend : Prop := ∀ (m : Master) (v : Word) (s : State),
  let h := s.hw.reached m HSK_CMD.A
  let g := h.hskDone.fullWrite HSK_CMD.A v
  let i := getField (g.word (HSK_ARG.A 0)) 0 2
  let a := g.hskAddr 1
  let r := g.extRead s.mem (a - extBase) 48
  let d := sha384 (g.meas i ++ r.2)
  s.hw.admits m HSK_CMD.A true →
  g.rd HSK_STATUS.HANDOFF ≠ 0 →
  g.backed a 48 = true →
  exec (.measExtend m v) s = .next (s.finish (((r.1.modHsk (fun k => { k with meas := k.meas.set (zeros 48) i d })).modHsk (fun k => { k with cmd := some HUSK_OK })).wr HSK_CMD.BUSY 1))

/-- REVOKE of a slot that did not verify the running image, with another usable: its bit is programmed (R414, R419, R420). -/
def revoke : Prop := ∀ (m : Master) (v : Word) (fail : Bool) (s : State),
  let h := s.hw.reached m HSK_CMD.A
  let g := h.hskDone.fullWrite HSK_CMD.A v
  let alg := getField (g.word (HSK_ARG.A 0)) 0 1
  let slot := getField (g.word (HSK_ARG.A 0)) 1 2
  s.hw.admits m HSK_CMD.A true →
  g.rd HSK_STATUS.HANDOFF ≠ 0 →
  g.hsk.signed = false ∨ slot ≠ (if alg = 0 then g.rd HSK_STATUS.RSA_SLOT else g.rd HSK_STATUS.SLH_SLOT) →
  (List.range 4).any (fun i => i != slot && bitN g.hsk.fuses.revoked (4 * alg + i) == 0 && (if alg = 0 then g.hsk.fuses.rsa i else g.hsk.fuses.slh i) != zeros 48) = true →
  fail = false →
  exec (.revoke m v fail) s = .next (s.finish (((g.modFuses (fun f => { f with revoked := f.revoked ||| 2 ^ (4 * alg + slot) })).modHsk (fun k => { k with cmd := some HUSK_OK })).wr HSK_CMD.BUSY 1))

/-- ADVANCE_SVN to a version above the present one and not above the image's: the bits up to it are owed to the fuses, blown one by one while BUSY, and the command completes OK once they are (R414, R419). -/
def advanceSvn : Prop := ∀ (m : Master) (v : Word) (s : State),
  let h := s.hw.reached m HSK_CMD.A
  let g := h.hskDone.fullWrite HSK_CMD.A v
  let t := getField (g.word (HSK_ARG.A 0)) 0 7
  s.hw.admits m HSK_CMD.A true →
  g.rd HSK_STATUS.HANDOFF ≠ 0 →
  t ≤ 64 →
  g.hsk.fuses.svn < t →
  t ≤ g.rd HSK_STATUS.IMAGE_SVN →
  exec (.advanceSvn m v none) s = .next (s.finish (((g.modHsk (fun k => { k with svnLeft := t - g.hsk.fuses.svn })).modHsk (fun k => { k with cmd := some HUSK_OK })).wr HSK_CMD.BUSY 1))

/-- ADVANCE_SVN above the running image's version: nothing is programmed and the result is REFUSED (R420). -/
def advanceSvn_refused : Prop := ∀ (m : Master) (v : Word) (fail : Option (Fin 64)) (s : State),
  let h := s.hw.reached m HSK_CMD.A
  let g := h.hskDone.fullWrite HSK_CMD.A v
  let t := getField (g.word (HSK_ARG.A 0)) 0 7
  s.hw.admits m HSK_CMD.A true →
  g.rd HSK_STATUS.HANDOFF ≠ 0 →
  t ≤ 64 →
  g.hsk.fuses.svn < t →
  g.rd HSK_STATUS.IMAGE_SVN < t →
  exec (.advanceSvn m v fail) s = .next (s.finish ((g.modHsk (fun k => { k with cmd := some HUSK_REFUSED })).wr HSK_CMD.BUSY 1))

/-- SET_PRODUCTION with the word 0x0000_4512 in DEVELOPMENT: the lifecycle is PRODUCTION and HSK_STATUS shows it (R414, R419). -/
def setProduction : Prop := ∀ (m : Master) (v : Word) (fail : Bool) (s : State),
  let h := s.hw.reached m HSK_CMD.A
  let g := h.hskDone.fullWrite HSK_CMD.A v
  s.hw.admits m HSK_CMD.A true →
  g.rd HSK_STATUS.HANDOFF ≠ 0 →
  g.word (HSK_ARG.A 0) = 0x4512#32 →
  g.hsk.fuses.lifecycle = 1 →
  fail = false →
  exec (.setProduction m v fail) s = .next (s.finish ((((g.modFuses (fun f => { f with lifecycle := 2 })).showFuses).modHsk (fun k => { k with cmd := some HUSK_OK })).wr HSK_CMD.BUSY 1))

/-- HSK_CMD_DONE: every bit of the SVN fuses still owed is blown, BUSY clears, STATUS takes the result, CMD_DONE is signalled (R414, R419). -/
def hskCmdDone : Prop := ∀ (st : Nat) (s : State),
  let h := s.hw
  let q := h.svnBlow h.hsk.svnLeft
  let g := q.modHsk (fun k => { k with cmd := none })
  h.hsk.cmd = some st →
  exec .hskCmdDone s = .next (s.finish (((g.wr HSK_CMD.BUSY 0).wr HSK_CMD.STATUS st).hskRaise EV_HSK.CMD_DONE))

/-- HSK_RNG_READ with RNG_OK: a free value is answered, and the next one will be another draw (R424, log entry 3). -/
def hskRngRead : Prop := ∀ (m : Master) (s : State),
  let h := s.hw.reached m HSK_RNG.A
  s.hw.admits m HSK_RNG.A false →
  h.rd HSK_STATUS.RNG_OK = 1 →
  exec (.hskRngRead m) s = .next (s.finish (h.drawn.answer (BitVec.ofNat 32 (h.draw 2))))

/-- HSK_RNG_READ without RNG_OK: 0 (R424). -/
def hskRngRead_fail : Prop := ∀ (m : Master) (s : State),
  let h := s.hw.reached m HSK_RNG.A
  s.hw.admits m HSK_RNG.A false →
  h.rd HSK_STATUS.RNG_OK ≠ 1 →
  exec (.hskRngRead m) s = .next (s.finish (h.answer 0#32))

/-- RNG_HEALTH_FAIL: RNG_OK clears and RNG_FAIL is signalled (R424). -/
def rngHealthFail : Prop := ∀ (s : State),
  let h := s.hw
  exec .rngHealthFail s = .next (s.finish ((h.wr HSK_STATUS.RNG_OK 0).hskRaise EV_HSK.RNG_FAIL))

/-! ## the check-value engine and zeroisation -/

/-- RNG_RECOVER: RNG_OK sets (R424). -/
def rngRecover : Prop := ∀ (s : State),
  let h := s.hw
  exec .rngRecover s = .next (s.finish (h.wr HSK_STATUS.RNG_OK 1))

/-- CVE_DONE of a GENERATE that ran, its key below its soft limit: BUSY clears, RESULT is 0, CVE_DONE is signalled, USES advances, and CVE_TAG takes the tag (R434, R435). -/
def cveDone_generate : Prop := ∀ (r : CveRun) (s : State),
  let h := s.hw
  let g := { h with cip := { h.cip with cve := none } }
  let d := ((g.wr CVE_STATUS.BUSY 0).wr CVE_STATUS.RESULT r.result).cipRaise EV_CIP.CVE_DONE
  let n := d.t (CVE_KEY.USES r.slot) + 1
  let u := d.ts (CVE_KEY.USES r.slot) (min n (2 ^ 32 - 1))
  let old := leNat (u.regBytes (CVE_TAG.A 0) 12)
  let tag := leNat (r.mac.take r.tagLen)
  h.cip.cve = some r →
  r.op = 1 →
  r.result < 3 →
  u.t (CVE_KEY.SOFT_USES r.slot) = 0 →
  exec .cveDone s = .next (s.finish (u.forAll (List.range 12) (fun x i => x.setWord (CVE_TAG.A i) (BitVec.ofNat 32 ((old / 256 ^ r.tagLen * 256 ^ r.tagLen + tag) / 2 ^ (32 * i))))))

/-- CVE_DONE of an operation that was refused: BUSY clears, RESULT says why, CVE_DONE is signalled and the refusal counted (R434). -/
def cveDone : Prop := ∀ (r : CveRun) (s : State),
  let h := s.hw
  let g := { h with cip := { h.cip with cve := none } }
  h.cip.cve = some r →
  3 ≤ r.result →
  exec .cveDone s = .next (s.finish ((((g.wr CVE_STATUS.BUSY 0).wr CVE_STATUS.RESULT r.result).cipRaise EV_CIP.CVE_DONE).count (CIP_CNT.COUNT 1)))

/-- ZEROISE: every key, shadow and packet number of the cipher tables is 0 and every VALID clear, frames in flight that used them are gone, and zeroisation runs (R436). -/
def zeroise : Prop := ∀ (m : Master) (v : Word) (s : State),
  let h := s.hw.reached m CIP_CFG.A
  let g := h.plainWrite CIP_CFG.A v
  let z := g.zeroiseTables.zeroiseFlight
  s.hw.admits m CIP_CFG.A true →
  getField v 31 1 = 1 →
  exec (.zeroise m v) s = .next (s.finish ({ z with cip := { z.cip with zeroising := true } }))

/-- ZEROISE_DONE: ZEROISED is signalled (R436). -/
def zeroiseDone : Prop := ∀ (s : State),
  let h := s.hw
  h.cip.zeroising = true →
  exec .zeroiseDone s = .next (s.finish (({ h with cip := { h.cip with zeroising := false } } : Hw).cipRaise EV_CIP.ZEROISED))

/-- CVE_GENERATE with GO by the holder of LOCK_CVE and nothing to refuse: the operation runs over the message, its tag is kept for CVE_TAG, and BUSY sets (R433, R434). -/
def cveGenerate : Prop := ∀ (m : Master) (v : Word) (s : State),
  let h := s.hw.reached m CVE_CTRL.A
  let g := (h.cveDone).fullWrite CVE_CTRL.A (setField v 0 2 1)
  let k := g.rd CVE_CTRL.SLOT
  let dst := g.rd CVE_CTRL.DST_SLOT
  let tag := g.rd CVE_CTRL.TAG_LEN
  let a := (g.word CVE_SRC_LO.A).toNat + 2 ^ 32 * (g.word CVE_SRC_HI.A).toNat
  let msg := if g.rd CVE_CTRL.SRC_BUF = 1 then (g.regBytes (CVE_BUF.A 0) 16).take (g.rd CVE_LEN.BYTES) else g.memBytes s.mem (a - extBase) (g.rd CVE_LEN.BYTES)
  let mac := macOf (g.rd CVE_CTRL.ALG) (g.t (CVE_KEY.KEY k)) (g.t (CVE_KEY.KEY_LEN k)) msg
  let run := ({ op := 1, slot := k, dst := dst, tagLen := tag, result := 0, mac := (List.range 48).map (fun i => BitVec.ofNat 8 (byteAt mac i)), secureOnly := g.t (CVE_KEY.SECURE_ONLY k) == 1 || g.t (CVE_KEY.SECURE_ONLY dst) == 1 } : CveRun)
  s.hw.admits m CVE_CTRL.A true →
  h.cveOwner m = true →
  g.cveRefusal m 1 = none →
  exec (.cveGenerate m v) s = .next (s.finish (({ g with cip := { g.cip with cve := some run } } : Hw).wr CVE_STATUS.BUSY 1))

/-- CVE_GENERATE with GO by the holder of LOCK_CVE that must be refused: BUSY sets, and the refusal will be the result; a poisoned message is reported by the memory too (R257, R434). -/
def cveGenerate_refused : Prop := ∀ (m : Master) (v : Word) (why : Nat) (s : State),
  let h := s.hw.reached m CVE_CTRL.A
  let g := (h.cveDone).fullWrite CVE_CTRL.A (setField v 0 2 1)
  let a := (g.word CVE_SRC_LO.A).toNat + 2 ^ 32 * (g.word CVE_SRC_HI.A).toNat
  s.hw.admits m CVE_CTRL.A true →
  h.cveOwner m = true →
  g.cveRefusal m 1 = some why →
  exec (.cveGenerate m v) s = .next (s.finish ((({ g with cip := { g.cip with cve := some { op := 1, slot := g.rd CVE_CTRL.SLOT, result := why } } } : Hw).wr CVE_STATUS.BUSY 1).onlyIf (why == 7 && g.poisoned (a - extBase) (g.rd CVE_LEN.BYTES)) (fun x => x.grnRaise EV_GRN.DRAM_UNCORR_EV)))

/-- CVE_VERIFY with GO by the holder of LOCK_CVE and nothing to refuse: the operation runs over the message, its result is whether the tag agrees, and BUSY sets (R433, R434). -/
def cveVerify : Prop := ∀ (m : Master) (v : Word) (s : State),
  let h := s.hw.reached m CVE_CTRL.A
  let g := (h.cveDone).fullWrite CVE_CTRL.A (setField v 0 2 2)
  let k := g.rd CVE_CTRL.SLOT
  let dst := g.rd CVE_CTRL.DST_SLOT
  let tag := g.rd CVE_CTRL.TAG_LEN
  let a := (g.word CVE_SRC_LO.A).toNat + 2 ^ 32 * (g.word CVE_SRC_HI.A).toNat
  let msg := if g.rd CVE_CTRL.SRC_BUF = 1 then (g.regBytes (CVE_BUF.A 0) 16).take (g.rd CVE_LEN.BYTES) else g.memBytes s.mem (a - extBase) (g.rd CVE_LEN.BYTES)
  let mac := macOf (g.rd CVE_CTRL.ALG) (g.t (CVE_KEY.KEY k)) (g.t (CVE_KEY.KEY_LEN k)) msg
  let same := (List.range tag).all (fun i => byteAt mac i == byteAt (g.regBytes (CVE_TAG.A 0) 12) i)
  let run := ({ op := 2, slot := k, dst := dst, tagLen := tag, result := if same then 1 else 2, mac := (List.range 48).map (fun i => BitVec.ofNat 8 (byteAt mac i)), secureOnly := g.t (CVE_KEY.SECURE_ONLY k) == 1 || g.t (CVE_KEY.SECURE_ONLY dst) == 1 } : CveRun)
  s.hw.admits m CVE_CTRL.A true →
  h.cveOwner m = true →
  g.cveRefusal m 2 = none →
  exec (.cveVerify m v) s = .next (s.finish (({ g with cip := { g.cip with cve := some run } } : Hw).wr CVE_STATUS.BUSY 1))

/-- CVE_VERIFY with GO by the holder of LOCK_CVE that must be refused: BUSY sets, and the refusal will be the result; a poisoned message is reported by the memory too (R257, R434). -/
def cveVerify_refused : Prop := ∀ (m : Master) (v : Word) (why : Nat) (s : State),
  let h := s.hw.reached m CVE_CTRL.A
  let g := (h.cveDone).fullWrite CVE_CTRL.A (setField v 0 2 2)
  let a := (g.word CVE_SRC_LO.A).toNat + 2 ^ 32 * (g.word CVE_SRC_HI.A).toNat
  s.hw.admits m CVE_CTRL.A true →
  h.cveOwner m = true →
  g.cveRefusal m 2 = some why →
  exec (.cveVerify m v) s = .next (s.finish ((({ g with cip := { g.cip with cve := some { op := 2, slot := g.rd CVE_CTRL.SLOT, result := why } } } : Hw).wr CVE_STATUS.BUSY 1).onlyIf (why == 7 && g.poisoned (a - extBase) (g.rd CVE_LEN.BYTES)) (fun x => x.grnRaise EV_GRN.DRAM_UNCORR_EV)))

/-- CVE_DERIVE with GO by the holder of LOCK_CVE and nothing to refuse: the operation runs over the message, its tag is kept for the destination key, and BUSY sets (R433, R434). -/
def cveDerive : Prop := ∀ (m : Master) (v : Word) (s : State),
  let h := s.hw.reached m CVE_CTRL.A
  let g := (h.cveDone).fullWrite CVE_CTRL.A (setField v 0 2 3)
  let k := g.rd CVE_CTRL.SLOT
  let dst := g.rd CVE_CTRL.DST_SLOT
  let tag := g.rd CVE_CTRL.TAG_LEN
  let a := (g.word CVE_SRC_LO.A).toNat + 2 ^ 32 * (g.word CVE_SRC_HI.A).toNat
  let msg := if g.rd CVE_CTRL.SRC_BUF = 1 then (g.regBytes (CVE_BUF.A 0) 16).take (g.rd CVE_LEN.BYTES) else g.memBytes s.mem (a - extBase) (g.rd CVE_LEN.BYTES)
  let mac := macOf (g.rd CVE_CTRL.ALG) (g.t (CVE_KEY.KEY k)) (g.t (CVE_KEY.KEY_LEN k)) msg
  let run := ({ op := 3, slot := k, dst := dst, tagLen := tag, result := 0, mac := (List.range 48).map (fun i => BitVec.ofNat 8 (byteAt mac i)), secureOnly := g.t (CVE_KEY.SECURE_ONLY k) == 1 || g.t (CVE_KEY.SECURE_ONLY dst) == 1 } : CveRun)
  s.hw.admits m CVE_CTRL.A true →
  h.cveOwner m = true →
  g.cveRefusal m 3 = none →
  exec (.cveDerive m v) s = .next (s.finish (({ g with cip := { g.cip with cve := some run } } : Hw).wr CVE_STATUS.BUSY 1))

/-- CVE_DERIVE with GO by the holder of LOCK_CVE that must be refused: BUSY sets, and the refusal will be the result; a poisoned message is reported by the memory too (R257, R434). -/
def cveDerive_refused : Prop := ∀ (m : Master) (v : Word) (why : Nat) (s : State),
  let h := s.hw.reached m CVE_CTRL.A
  let g := (h.cveDone).fullWrite CVE_CTRL.A (setField v 0 2 3)
  let a := (g.word CVE_SRC_LO.A).toNat + 2 ^ 32 * (g.word CVE_SRC_HI.A).toNat
  s.hw.admits m CVE_CTRL.A true →
  h.cveOwner m = true →
  g.cveRefusal m 3 = some why →
  exec (.cveDerive m v) s = .next (s.finish ((({ g with cip := { g.cip with cve := some { op := 3, slot := g.rd CVE_CTRL.SLOT, result := why } } } : Hw).wr CVE_STATUS.BUSY 1).onlyIf (why == 7 && g.poisoned (a - extBase) (g.rd CVE_LEN.BYTES)) (fun x => x.grnRaise EV_GRN.DRAM_UNCORR_EV)))

/-! ## the trunk receivers, loss of signal and the optical modules -/

/-- CDR_LOCK_ACQUIRED: on a channel whose CDR runs, from its entry to ON until its entry to OFF, with LOS clear and the receiver on, CDR_LOCK sets convergence starts anew, and a channel in HUNT goes on with the candidates it holds (R70, R71, R95). -/
def cdrLockAcquired : Prop := ∀ (c : Fin 4) (s : State),
  let h := s.hw
  h.cdrRuns c = true →
  h.rd (TRK_PMA_STATUS.LOS c) = 0 →
  h.rd (TRK_PMA_STATUS.CDR_LOCK c) = 0 →
  (h.act c).rxOn = true →
  exec (.cdrLockAcquired c) s = .next (s.finish (((h.wr (TRK_PMA_STATUS.CDR_LOCK c) 1).wr (TRK_RX_EQ_STATUS.ADAPT_DONE c) 0).huntResume c))

/-- CDR_UNLOCK: CDR_LOCK clears and CDR_UNLOCK is set (R70). -/
def cdrUnlock : Prop := ∀ (c : Fin 4) (s : State),
  let h := s.hw
  h.rd (TRK_PMA_STATUS.CDR_LOCK c) = 1 →
  exec (.cdrUnlock c) s = .next (s.finish ((h.wr (TRK_PMA_STATUS.CDR_LOCK c) 0).trkRaise c EV_TRK.CDR_UNLOCK))

/-- ADAPT_STEP of a trunk channel whose loop runs, the codes wanted within their bounds: once a code that bounds written while it was frozen exclude has moved, they are taken, and no clamp is counted (R71, R72). -/
def adaptStep_within : Prop := ∀ (c : Fin 4) (ctle : Nat) (thr : Int) (dfe1 : Int) (dfe : List Int) (conv : Bool) (s : State),
  let h := s.hw
  let m := h.moveCodes (.trunk c)
  let g := (((m.wr (TRK_RX_EQ_STATUS.CTLE c) ctle).wr (TRK_RX_EQ_STATUS.THR c) (unsigned 6 thr)).wr (TRK_RX_EQ_STATUS.DFE1 c) (unsigned 8 dfe1)).modOpt c (fun o => { o with dfe := dfe })
  h.adapts (.trunk c) = true →
  m.rd (TRK_RX_BOUNDS.CTLE_MIN c) ≤ ctle →
  ctle ≤ m.rd (TRK_RX_BOUNDS.CTLE_MAX c) →
  m.rdS (TRK_RX_BOUNDS.THR_MIN c) ≤ thr →
  thr ≤ m.rdS (TRK_RX_BOUNDS.THR_MAX c) →
  exec (.adaptStep (.trunk c) ctle thr dfe1 dfe conv) s = .next (s.finish (g.onlyIf (conv = true) (fun x => x.wr (TRK_RX_EQ_STATUS.ADAPT_DONE c) 1)))

/-- ADAPT_STEP of a trunk channel whose loop runs and wants a code beyond a bound: the bound is taken and one clamp is counted (R71, R72). -/
def adaptStep_clamp : Prop := ∀ (c : Fin 4) (ctle : Nat) (thr : Int) (dfe1 : Int) (dfe : List Int) (s : State),
  let h := s.hw
  let m := h.moveCodes (.trunk c)
  let t := clampInt (m.rdS (TRK_RX_BOUNDS.THR_MIN c)) (m.rdS (TRK_RX_BOUNDS.THR_MAX c)) thr
  let g := (((m.wr (TRK_RX_EQ_STATUS.CTLE c) (m.rd (TRK_RX_BOUNDS.CTLE_MAX c))).wr (TRK_RX_EQ_STATUS.THR c) (unsigned 6 t)).wr (TRK_RX_EQ_STATUS.DFE1 c) (unsigned 8 dfe1)).modOpt c (fun o => { o with dfe := dfe })
  h.adapts (.trunk c) = true →
  m.rd (TRK_RX_BOUNDS.CTLE_MIN c) ≤ m.rd (TRK_RX_BOUNDS.CTLE_MAX c) →
  m.rd (TRK_RX_BOUNDS.CTLE_MAX c) < ctle →
  exec (.adaptStep (.trunk c) ctle thr dfe1 dfe false) s = .next (s.finish (g.count (TRK_RX_CLAMP_COUNT.POLICY_CLAMP_COUNT c)))

/-- ADAPT_STEP of a subscriber or twin lane whose loop runs: its code is taken within the bounds of SRD_LANE_EQ, and a code held at a bound counts one clamp (R291). -/
def adaptStep_lane : Prop := ∀ (l : Fin 72) (ctle : Nat) (thr : Int) (dfe1 : Int) (dfe : List Int) (conv : Bool) (s : State),
  let h := s.hw
  let m := h.moveCodes (.sub l)
  let k := min (m.rd (SRD_LANE_EQ.CTLE_MAX l)) (max (m.rd (SRD_LANE_EQ.CTLE_MIN l)) ctle)
  let g := (m.wr (SRD_LANE_EQ.CTLE l) k).modLane l (fun x => { x with dfe := dfe })
  h.adapts (.sub l) = true →
  exec (.adaptStep (.sub l) ctle thr dfe1 dfe conv) s = .next (s.finish (g.onlyIf (k ≠ ctle) (fun x => x.count (SRD_LANE_CLAMP_COUNT.POLICY_CLAMP_COUNT l))))

/-- RX_BOUNDS_WRITE of a lane whose loop runs: the bounds take the write, and codes they exclude move to the nearest bound, each counting a clamp (R72, R291; at once, log entry 20). -/
def rxBoundsWrite : Prop := ∀ (m : Master) (lane : RxLane) (v : Word) (s : State),
  let h := s.hw.reached m lane.boundsAddr
  let g := h.fullWrite lane.boundsAddr v
  s.hw.admits m lane.boundsAddr true →
  g.adapts lane = true →
  exec (.rxBoundsWrite m lane v) s = .next (s.finish (g.moveCodes lane))

/-- RX_BOUNDS_WRITE of a lane whose loop is frozen: the bounds take the write, and its codes stay as they are (R71; the model's reading of R71 and R72, log entry 20). -/
def rxBoundsWrite_frozen : Prop := ∀ (m : Master) (lane : RxLane) (v : Word) (s : State),
  let h := s.hw.reached m lane.boundsAddr
  let g := h.fullWrite lane.boundsAddr v
  s.hw.admits m lane.boundsAddr true →
  g.adapts lane = false →
  exec (.rxBoundsWrite m lane v) s = .next (s.finish (g))

/-- LOS_CFG_WRITE: the register takes the write, and the LOS_ASSERT or LOS_CLEAR count starts, goes on or stops from this cycle (R73). -/
def losCfgWrite : Prop := ∀ (m : Master) (c : Fin 4) (v : Word) (s : State),
  let h := s.hw.reached m (TRK_LOS_CFG.A c)
  let g := h.fullWrite (TRK_LOS_CFG.A c) v
  let runs := (g.rd (TRK_PMA_STATUS.LOS c) == 0) == g.losAsserted c
  s.hw.admits m (TRK_LOS_CFG.A c) true →
  exec (.losCfgWrite m c v) s = .next (s.finish (g.modOpt c (fun o => { o with losCnt := if runs then some (o.losCnt.getD g.clk) else none })))

/-- LOS_SOURCE_CHANGE while the channel's domain runs: pin and amplitude take their levels, and the count starts, goes on or stops (R73). -/
def losSourceChange : Prop := ∀ (c : Fin 4) (pin : Bool) (ampMv : Nat) (s : State),
  let h := s.hw
  let g := h.modOpt c (fun o => { o with losPin := pin, ampMv := ampMv })
  let runs := (g.rd (TRK_PMA_STATUS.LOS c) == 0) == g.losAsserted c
  g.domRuns (15 + c) = true →
  exec (.losSourceChange c pin ampMv) s = .next (s.finish (g.modOpt c (fun o => { o with losCnt := if runs then some (o.losCnt.getD g.clk) else none })))

/-- LOS_SOURCE_CHANGE while the channel's domain does not run: pin and amplitude take their levels, and nothing is judged (R73). -/
def losSourceChange_stopped : Prop := ∀ (c : Fin 4) (pin : Bool) (ampMv : Nat) (s : State),
  let h := s.hw
  let g := h.modOpt c (fun o => { o with losPin := pin, ampMv := ampMv })
  g.domRuns (15 + c) = false →
  exec (.losSourceChange c pin ampMv) s = .next (s.finish (g))

/-- LOS_DECLARE: LOS and LOS_CHANGE set, the count ends, the CDR loses lock, the alignment machine goes to HUNT (R73). -/
def losDeclare : Prop := ∀ (c : Fin 4) (s : State),
  let h := s.hw
  let g := ((h.wr (TRK_PMA_STATUS.LOS c) 1).trkRaise c EV_TRK.LOS_CHANGE).modOpt c (fun o => { o with losCnt := none })
  h.domRuns (15 + c) = true →
  h.rd (TRK_PMA_STATUS.LOS c) = 0 →
  h.losAsserted c = true →
  exec (.losDeclare c) s = .next (s.finish (((g.cdrUnlock c).hunt c).defects c))

/-! ## the bursts at the pins and the guard -/

/-- LOS_CLEAR: LOS clears, LOS_CHANGE sets, the count ends (R73). -/
def losClear : Prop := ∀ (c : Fin 4) (s : State),
  let h := s.hw
  let g := (h.wr (TRK_PMA_STATUS.LOS c) 0).trkRaise c EV_TRK.LOS_CHANGE
  h.domRuns (15 + c) = true →
  h.rd (TRK_PMA_STATUS.LOS c) ≠ 0 →
  h.losAsserted c = false →
  exec (.losClear c) s = .next (s.finish ((g.modOpt c (fun o => { o with losCnt := none })).defects c))

/-- MODULE_REMOVED: MOD_ABS sets, TX_ALLOW clears, a burst is cut off, what is on the two-wire bus and the command that waits for it end with ERR 4, MOD_CHANGE is set (R85, R88). -/
def moduleRemoved : Prop := ∀ (c : Fin 4) (s : State),
  let h := s.hw
  let g := (h.wr (TRK_PMA_STATUS.MOD_ABS c) 1).wr (TRK_PMA_CTRL.TX_ALLOW c) 0
  h.rd (TRK_PMA_STATUS.MOD_ABS c) ≠ 1 →
  exec (.moduleRemoved c) s = .next (s.finish (((g.cutBurst c).twiAbort c).trkRaise c EV_TRK.MOD_CHANGE))

/-- MODULE_INSERTED: MOD_ABS clears and MOD_CHANGE sets (R85). -/
def moduleInserted : Prop := ∀ (c : Fin 4) (s : State),
  let h := s.hw
  h.rd (TRK_PMA_STATUS.MOD_ABS c) ≠ 0 →
  exec (.moduleInserted c) s = .next (s.finish ((h.wr (TRK_PMA_STATUS.MOD_ABS c) 0).trkRaise c EV_TRK.MOD_CHANGE))

/-- BURST_LAUNCH of a burst its state transmits, with nothing to keep the laser dark: the first staged burst is in progress with LEAD and LAG as they are, TRK_BEN rises, its window is open, and it is counted (R76, R77, R80, R122, R125). -/
def burstLaunch : Prop := ∀ (c : Fin 4) (b : Burst) (s : State),
  let h := s.hw
  let lead := h.rd (TRK_BEN_TIMING.LEAD c)
  let lag := h.rd (TRK_BEN_TIMING.LAG c)
  let g := h.modAct c (fun a => { a with bursts := replaceFirst (fun x => !x.launched) (fun x => { x with launched := true, lead := lead, lag := lag }) a.bursts })
  let d := (g.driveBen c true).modOpt c (fun o => { o with windows := o.windows + 1 })
  (h.act c).bursts.find? (fun x => !x.launched) = some b →
  b.staged = true →
  h.trkOn c = true →
  h.rd (TRK_DLN_STATUS.LODS c) ≠ 1 →
  h.txdisForced c = false →
  h.txdisState c = false →
  h.stateSends c b.kind = true →
  b.kind ≠ .serial →
  b.opened = false →
  exec (.burstLaunch c) s = .next (s.finish ((d.actCount c ACT_N.BURSTS_SENT).emit (.launch c b.kind b.absFirst)))

/-- BURST_LAUNCH of a Serial_Number_ONU response counts it as such too (R122, R135). -/
def burstLaunch_serial : Prop := ∀ (c : Fin 4) (b : Burst) (s : State),
  let h := s.hw
  let lead := h.rd (TRK_BEN_TIMING.LEAD c)
  let lag := h.rd (TRK_BEN_TIMING.LAG c)
  let g := h.modAct c (fun a => { a with bursts := replaceFirst (fun x => !x.launched) (fun x => { x with launched := true, lead := lead, lag := lag }) a.bursts })
  let d := (g.driveBen c true).modOpt c (fun o => { o with windows := o.windows + 1 })
  (h.act c).bursts.find? (fun x => !x.launched) = some b →
  b.staged = true →
  h.trkOn c = true →
  h.rd (TRK_DLN_STATUS.LODS c) ≠ 1 →
  h.txdisForced c = false →
  h.txdisState c = false →
  h.stateSends c b.kind = true →
  b.kind = .serial →
  b.opened = false →
  exec (.burstLaunch c) s = .next (s.finish (((d.actCount c ACT_N.SN_RESP_SENT).actCount c ACT_N.BURSTS_SENT).emit (.launch c b.kind b.absFirst)))

/-- BURST_LAUNCH while something forces the laser dark: the burst is consumed, a window opened for it closes, and it is counted TXDIS_DISCARD (R129, R147). -/
def burstLaunch_dark : Prop := ∀ (c : Fin 4) (b : Burst) (s : State),
  let h := s.hw
  (h.act c).bursts.find? (fun x => !x.launched) = some b →
  b.staged = true →
  h.trkOn c = true →
  h.rd (TRK_DLN_STATUS.LODS c) ≠ 1 →
  h.txdisForced c = true →
  exec (.burstLaunch c) s = .next (s.finish (h.dropLaunch c ACT_N.TXDIS_DISCARD 1))

/-- BURST_LAUNCH of a burst for which TRK_BEN has stayed high since the burst before: its window is open already (R78). -/
def burstLaunch_merged : Prop := ∀ (c : Fin 4) (b : Burst) (s : State),
  let h := s.hw
  let lead := h.rd (TRK_BEN_TIMING.LEAD c)
  let lag := h.rd (TRK_BEN_TIMING.LAG c)
  let g := h.modAct c (fun a => { a with bursts := replaceFirst (fun x => !x.launched) (fun x => { x with launched := true, lead := lead, lag := lag }) a.bursts })
  (h.act c).bursts.find? (fun x => !x.launched) = some b →
  b.staged = true →
  h.trkOn c = true →
  h.rd (TRK_DLN_STATUS.LODS c) ≠ 1 →
  h.txdisForced c = false →
  h.txdisState c = false →
  h.stateSends c b.kind = true →
  b.kind ≠ .serial →
  b.opened = true →
  exec (.burstLaunch c) s = .next (s.finish ((g.actCount c ACT_N.BURSTS_SENT).emit (.launch c b.kind b.absFirst)))

/-- BURST_LAUNCH of a burst that the activation state does not transmit, or in a state that keeps the laser dark: it is consumed and counted STATE_DISCARD once per grant (R80, R108, R125, R129). -/
def burstLaunch_state : Prop := ∀ (c : Fin 4) (b : Burst) (s : State),
  let h := s.hw
  (h.act c).bursts.find? (fun x => !x.launched) = some b →
  b.staged = true →
  h.trkOn c = true →
  h.rd (TRK_DLN_STATUS.LODS c) ≠ 1 →
  h.txdisForced c = false →
  (h.txdisState c || !h.stateSends c b.kind) = true →
  exec (.burstLaunch c) s = .next (s.finish (h.dropLaunch c ACT_N.STATE_DISCARD b.grants.length))

/-- BURST_END of the earliest burst in progress, no other following so closely that TRK_BEN stays high: what it carried has gone out and its window closes (R76, R77, R78). -/
def burstEnd : Prop := ∀ (c : Fin 4) (b : Burst) (s : State),
  let h := s.hw
  let o := (h.noteSent c b).emit (.burst c b.kind b.absFirst (if b.kind = .test then b.items else b.content))
  (h.act c).bursts.find? (fun x => x.launched) = some b →
  h.mergedNext c b = none →
  exec (.burstEnd c) s = .next (s.finish ((o.modAct c (fun a => { a with bursts := (a.bursts.filter (fun x => x.launched)).drop 1 ++ a.bursts.filter (fun x => !x.launched) })).closeWindow c))

/-- BURST_END with a burst launched that follows so closely that TRK_BEN stays high: the serialiser sends zeros between the two (R78). -/
def burstEnd_merged : Prop := ∀ (c : Fin 4) (b n : Burst) (s : State),
  let h := s.hw
  let o := (h.noteSent c b).emit (.burst c b.kind b.absFirst (if b.kind = .test then b.items else b.content))
  let g := o.modAct c (fun a => { a with bursts := (a.bursts.filter (fun x => x.launched)).drop 1 ++ a.bursts.filter (fun x => !x.launched) })
  (h.act c).bursts.find? (fun x => x.launched) = some b →
  h.mergedNext c b = some n →
  n.launched = true →
  exec (.burstEnd c) s = .next (s.finish ((g.emit (.zeros c (n.absFirst - b.last))).closeWindow c))

/-- GUARD_OUTSIDE_WINDOW: with no window open the pad is seen high and the guard trips with reason 1 (R81). -/
def guardOutsideWindow : Prop := ∀ (c : Fin 4) (s : State),
  let h := s.hw
  h.cond (15 + c) = 0 →
  (h.opt c).windows = 0 →
  exec (.guardOutsideWindow c) s = .next (s.finish ((h.padAt c true).guardTrip c 1))

/-- GUARD_TOO_LONG: the pad is seen high, whatever level is driven, and the guard trips with reason 2 (R81). -/
def guardTooLong : Prop := ∀ (c : Fin 4) (s : State),
  let h := s.hw
  h.cond (15 + c) = 0 →
  exec (.guardTooLong c) s = .next (s.finish ((h.padAt c true).guardTrip c 2))

/-- GUARD_PAD_MISMATCH: the pad is seen at the other level than the driven one and the guard trips with reason 3 (R81). -/
def guardPadMismatch : Prop := ∀ (c : Fin 4) (s : State),
  let h := s.hw
  h.cond (15 + c) = 0 →
  exec (.guardPadMismatch c) s = .next (s.finish ((h.padAt c (!(h.opt c).benDrive)).guardTrip c 3))

/-! ## the two-wire bus, the pattern tests and the head end's disables -/

/-- TWI_COMMAND: GO with no command pending and no poll on the bus starts the transaction that the register describes: BUSY sets and the transfer goes out (R87). -/
def twiCommand : Prop := ∀ (m : Master) (c : Fin 4) (v : Word) (s : State),
  let h := s.hw.reached m (TRK_TWI_CMD.A c)
  let g := h.plainWrite (TRK_TWI_CMD.A c) v
  let k := g.wr (TRK_TWI_CMD.BUSY c) 1
  let rd := k.rd (TRK_TWI_CMD.READ c) == 1
  let n := k.rd (TRK_TWI_CMD.LEN c) + 1
  let b := k.modOpt c (fun o => { o with twiCmd := true, cmdWaits := false })
  s.hw.admits m (TRK_TWI_CMD.A c) true →
  getField v 24 1 ≠ 0 →
  g.rd (TRK_TWI_CMD.BUSY c) ≠ 1 →
  (k.opt c).polling = false →
  exec (.twiCommand m c v) s = .next (s.finish (b.emit (.twi c rd (b.rd (TRK_TWI_CMD.DEV_ADDR c)) (b.rd (TRK_TWI_CMD.OFFSET c)) n
    (if rd then [] else b.dataBytes (TRK_TWI_DATA.A c 0) n))))

/-- TWI_COMMAND: GO during a monitor poll: BUSY sets and the command waits for the poll to end (R89). -/
def twiCommand_waits : Prop := ∀ (m : Master) (c : Fin 4) (v : Word) (s : State),
  let h := s.hw.reached m (TRK_TWI_CMD.A c)
  let g := h.plainWrite (TRK_TWI_CMD.A c) v
  let k := g.wr (TRK_TWI_CMD.BUSY c) 1
  s.hw.admits m (TRK_TWI_CMD.A c) true →
  getField v 24 1 ≠ 0 →
  g.rd (TRK_TWI_CMD.BUSY c) ≠ 1 →
  (k.opt c).polling = true →
  exec (.twiCommand m c v) s = .next (s.finish (k.modOpt c (fun o => { o with cmdWaits := true })))

/-- TWI_DONE of a read without error: the octets are in the data registers, BUSY clears, ERR is 0, TWI_DONE sets, and what waits for the bus follows (R88, R89). -/
def twiDone : Prop := ∀ (c : Fin 4) (data : Bytes) (s : State),
  let h := s.hw
  let d := h.putBytes (TRK_TWI_DATA.A c 0) (data.take (h.rd (TRK_TWI_CMD.LEN c) + 1))
  let g := ((d.wr (TRK_TWI_CMD.BUSY c) 0).wr (TRK_TWI_CMD.ERR c) 0).trkRaise c EV_TRK.TWI_DONE
  (h.opt c).twiCmd = true →
  h.rd (TRK_PMA_STATUS.MOD_ABS c) = 0 →
  h.rd (TRK_TWI_CMD.READ c) = 1 →
  exec (.twiDone c 0 data) s = .next (s.finish ((g.modOpt c (fun o => { o with twiCmd := false, cmdWaits := false })).twiFree c false))

/-- TWI_DONE with an error code, the module present: BUSY clears, ERR has the code, TWI_DONE and TWI_ERR set, and the recovery runs after BUS_STUCK (R88). -/
def twiDone_err : Prop := ∀ (c : Fin 4) (e : Fin 5) (data : Bytes) (s : State),
  let h := s.hw
  let g := (((h.wr (TRK_TWI_CMD.BUSY c) 0).wr (TRK_TWI_CMD.ERR c) e).trkRaise c EV_TRK.TWI_DONE).trkRaise c EV_TRK.TWI_ERR
  (h.opt c).twiCmd = true →
  h.rd (TRK_PMA_STATUS.MOD_ABS c) = 0 →
  e.val ≠ 0 →
  exec (.twiDone c e data) s = .next (s.finish ((g.modOpt c (fun o => { o with twiCmd := false, cmdWaits := false })).twiFree c (e.val == 3)))

/-- TWI_RECOVER on an idle bus: nine pulses and a STOP go out (R88). -/
def twiRecover : Prop := ∀ (m : Master) (c : Fin 4) (v : Word) (s : State),
  let h := s.hw.reached m (TRK_TWI_CFG.A c)
  let g := h.plainWrite (TRK_TWI_CFG.A c) v
  s.hw.admits m (TRK_TWI_CFG.A c) true →
  getField v 16 1 ≠ 0 →
  ((g.opt c).twiCmd || (g.opt c).polling) = false →
  exec (.twiRecover m c v) s = .next (s.finish (g.emit (.twiRecovery c)))

/-- TWI_MONITOR_POLL of a poll that falls due on an idle bus: the read of MON_LEN + 1 octets from MON_DEV_ADDR and MON_OFFSET goes out (R89). -/
def twiMonitorPoll : Prop := ∀ (c : Fin 4) (s : State),
  let h := s.hw
  let g := h.modOpt c (fun o => { o with polling := true, pollDue := false })
  h.rd (TRK_TWI_MON_CFG.PERIOD c) ≠ 0 →
  h.rd (TRK_PMA_STATUS.MOD_ABS c) ≠ 1 →
  (h.opt c).polling = false →
  (h.opt c).twiCmd = false →
  exec (.twiMonitorPoll c none []) s = .next (s.finish (g.emit (.twi c true (g.rd (TRK_TWI_MON_CFG.MON_DEV_ADDR c)) (g.rd (TRK_TWI_MON_CFG.MON_OFFSET c)) (g.rd (TRK_TWI_MON_CFG.MON_LEN c) + 1) [])))

/-- TWI_MONITOR_POLL that ends without error: the octets go into TRK_TWI_MON0-3, and what waits for the bus follows (R89). -/
def twiMonitorPoll_done : Prop := ∀ (c : Fin 4) (data : Bytes) (s : State),
  let h := s.hw
  let g := h.putBytes (TRK_TWI_MON.A c 0) (data.take (h.rd (TRK_TWI_MON_CFG.MON_LEN c) + 1))
  (h.opt c).polling = true →
  exec (.twiMonitorPoll c (some 0) data) s = .next (s.finish ((g.modOpt c (fun o => { o with polling := false })).twiFree c false))

/-- TWI_MONITOR_POLL that ends with an error: TRK_TWI_MON0-3 keep their octets; the recovery runs after BUS_STUCK (R88, R89). -/
def twiMonitorPoll_err : Prop := ∀ (c : Fin 4) (e : Fin 5) (data : Bytes) (s : State),
  let h := s.hw
  (h.opt c).polling = true →
  e.val ≠ 0 →
  exec (.twiMonitorPoll c (some e) data) s = .next (s.finish ((h.modOpt c (fun o => { o with polling := false })).twiFree c (e.val == 3)))

/-- PRBS_CLEAR: the control takes the write, a checker that no longer runs is not locked, and both its counters are 0; a subscriber lane's transmitter follows its pattern (R90, R310). -/
def prbsClear : Prop := ∀ (m : Master) (lane : RxLane) (v : Word) (s : State),
  let h := s.hw.reached m lane.prbs.1
  let g := (h.plainWrite lane.prbs.1 v).prbsHalt lane
  let k := (match lane with | .trunk _ => g | .sub l => g.laneSync l)
  s.hw.admits m lane.prbs.1 true →
  getField v 9 1 = 1 →
  exec (.prbsClear m lane v) s = .next (s.finish ((((k.setWord lane.prbs.2.2.1 0#32).setWord (lane.prbs.2.2.1 + 4) 0#32).setWord lane.prbs.2.2.2 0#32).setWord (lane.prbs.2.2.2 + 4) 0#32))

/-- PRBS_CHECKER_LOCK: LOCK sets while a pattern is checked that is not known to be another's (R90, R91, R310). -/
def prbsCheckerLock : Prop := ∀ (lane : RxLane) (s : State),
  let h := s.hw
  (h.prbsRuns lane && h.prbsFits lane) = true →
  exec (.prbsCheckerLock lane) s = .next (s.finish (h.wr ⟨lane.prbs.2.1, 0, 1⟩ 1))

/-- PRBS_LOCK_LOSS: LOCK clears, LOCK_LOST sets, the wrong bits are counted, PRBS_LOCK_LOST is set (R90). -/
def prbsLockLoss : Prop := ∀ (lane : RxLane) (wrong : Nat) (s : State),
  let h := s.hw
  let g := ((h.wr ⟨lane.prbs.2.1, 0, 1⟩ 0).wr ⟨lane.prbs.2.1, 1, 1⟩ 1).count64 lane.prbs.2.2.1 wrong
  h.rd ⟨lane.prbs.2.1, 0, 1⟩ = 1 →
  exec (.prbsLockLoss lane wrong) s = .next (s.finish ((match lane with
  | .trunk c => g.trkRaise c EV_TRK.PRBS_LOCK_LOST
  | .sub l => g.raise (0x210000 + l.val * 0x10000) EV_LANE.PRBS_LOCK_LOST)))

/-- TEST_BURST_LAUNCH: an armed test burst that fits its window leaves as a burst of its pattern, with TRK_BEN high (R92). -/
def testBurstLaunch : Prop := ∀ (c : Fin 4) (s : State),
  let h := s.hw
  let items := [BurstItem.pattern (h.rd (TRK_PRBS_CTRL.TX_PAT c)) (h.rd (TRK_TEST_BURST.LENGTH c))]
  let g := h.modAct c (fun a => { a with bursts := { kind := .test, staged := true, launched := true, items := items } :: a.bursts })
  h.rd (TRK_TEST_BURST.ARM c) = 1 →
  h.rd (TRK_TEST_BURST.PERIOD c) ≠ 0 →
  h.rd (TRK_TEST_BURST.LENGTH c) ≠ 0 →
  h.txdisForced c = false →
  h.rd (TRK_ACT_CTRL.TEST_HOLD c) = 1 →
  h.inSync c = true →
  h.windowTooLong c (h.rd (TRK_TEST_BURST.LENGTH c) * 10000000) = false →
  exec (.testBurstLaunch c) s = .next (s.finish (((g.driveBen c true).modOpt c (fun o => { o with windows := o.windows + 1 })).emit (.launch c .test 0)))

/-- HE_DISABLE_ONU with this serial number: HE_DISABLE sets (R84, R133). -/
def heDisableOnu : Prop := ∀ (c : Fin 4) (serial : Nat) (s : State),
  let h := s.hw
  (h.dln c).good = true →
  (h.dln c).maps = 0 →
  (h.dln c).ploamCount ≠ 0 →
  serial = h.rd (TRK_SERIAL_HI.SERIAL_HI c) * 2 ^ 32 + h.rd (TRK_SERIAL.SERIAL_LO c) →
  exec (.heDisableOnu c serial) s = .next (s.finish (h.setHeDisable c true))

/-- HE_DISABLE_ONU with another serial number: nothing changes (R133). -/
def heDisableOnu_other : Prop := ∀ (c : Fin 4) (serial : Nat) (s : State),
  let h := s.hw
  serial ≠ h.rd (TRK_SERIAL_HI.SERIAL_HI c) * 2 ^ 32 + h.rd (TRK_SERIAL.SERIAL_LO c) →
  exec (.heDisableOnu c serial) s = .next (s.finish (h))

/-- HE_ENABLE_ONU with this serial number: HE_DISABLE clears (R84, R133). -/
def heEnableOnu : Prop := ∀ (c : Fin 4) (serial : Nat) (s : State),
  let h := s.hw
  (h.dln c).good = true →
  (h.dln c).maps = 0 →
  (h.dln c).ploamCount ≠ 0 →
  serial = h.rd (TRK_SERIAL_HI.SERIAL_HI c) * 2 ^ 32 + h.rd (TRK_SERIAL.SERIAL_LO c) →
  exec (.heEnableOnu c serial) s = .next (s.finish (h.setHeDisable c false))

/-- HE_DISABLE_ALL: HE_DISABLE sets (R133). -/
def heDisableAll : Prop := ∀ (c : Fin 4) (s : State),
  let h := s.hw
  (h.dln c).good = true →
  (h.dln c).maps = 0 →
  (h.dln c).ploamCount ≠ 0 →
  exec (.heDisableAll c) s = .next (s.finish (h.setHeDisable c true))

/-- HE_ENABLE_ALL: HE_DISABLE clears (R133). -/
def heEnableAll : Prop := ∀ (c : Fin 4) (s : State),
  let h := s.hw
  (h.dln c).good = true →
  (h.dln c).maps = 0 →
  (h.dln c).ploamCount ≠ 0 →
  exec (.heEnableAll c) s = .next (s.finish (h.setHeDisable c false))

/-! ## the downstream scheduler, the PCS and MDIO frames -/

/-- DS_SELECT: frames that go ahead of data start first, and a node with something to send ends low-power idle; of the port nodes with a candidate the next in its lane's turn is served; the selection from its top node down gives a queue, whose head packet leaves it for the port's MAC (R269, R270, R272, R288, R303). -/
def dsSelect : Prop := ∀ (c : Cand) (k : Pkt) (g : Hw) (s : State),
  let h := s.hw
  let nodes := ((h.backlog true).map (fun q => (h.pathOf true q 0).top)).eraseDups
  let a := ((h.pumpAll).lpiWake nodes).dsTrim nodes
  let ok := nodes.filter (fun p => !(a.nodeCands p).isEmpty)
  let p := a.nodeTurn ok
  let n := (g.take c.q).nodeServed p
  ok ≠ [] →
  a.selectTree true p (a.nodeCands p) = some (g, c) →
  g.headPkt c.q = some k →
  p < 512 →
  n.forwards = false →
  exec .dsSelect s = .next (s.finish ((n.macSend p k).dsTrim [p]))

/-- PCS_LOCK_ACQUIRE on a lane that is ON and in no rate step: LOCK sets, LOCK_CHANGE is signalled, and the lane's links follow (R289, R294). -/
def pcsLockAcquire : Prop := ∀ (l : Fin 64) (s : State),
  let h := s.hw
  (h.lane l).step = none →
  h.laneOn l = true →
  h.rd (SRD_LANE_STATUS.LOCK l) = 0 →
  exec (.pcsLockAcquire l) s = .next (s.finish (((h.wr (SRD_LANE_STATUS.LOCK l) 1).laneRaise l EV_LANE.LOCK_CHANGE).laneLinks l))

/-- PCS_LOCK_LOSS: LOCK clears, LOCK_CHANGE is signalled and the loss counted, and the lane's links follow (R289, R294). -/
def pcsLockLoss : Prop := ∀ (l : Fin 64) (s : State),
  let h := s.hw
  let g := ((h.wr (SRD_LANE_STATUS.LOCK l) 0).laneRaise l EV_LANE.LOCK_CHANGE).count (SRD_LANE_CNT.COUNT l 3)
  h.rd (SRD_LANE_STATUS.LOCK l) ≠ 0 →
  exec (.pcsLockLoss l) s = .next (s.finish ((g.modLane l (fun x => { x with anDone := false })).laneLinks l))

/-- POLARITY_FLIP on a lane that may flip: POL_STATE inverts, the PCS acquires anew, and the flip is counted and signalled (R290). -/
def polarityFlip : Prop := ∀ (l : Fin 64) (s : State),
  let h := s.hw
  let g := (h.wr (SRD_LANE_STATUS.POL_STATE l) (1 - h.rd (SRD_LANE_STATUS.POL_STATE l))).lockLost l
  h.laneOn l = true →
  h.rd (SRD_LANE_CTRL.POL_AUTO l) = 1 →
  exec (.polarityFlip l) s = .next (s.finish ((g.count (SRD_LANE_CNT.COUNT l 2)).laneRaise l EV_LANE.POL_FLIP))

/-- AUTONEG_COMPLETE on a lane of mode 0 with AN_EN: the negotiation is done and the lane's links follow (R290, R294). -/
def autonegComplete : Prop := ∀ (l : Fin 64) (s : State),
  let h := s.hw
  h.laneOn l = true →
  h.capRd (SRD_LANE_CTRL.MODE l) = 0 →
  h.capRd (SRD_LANE_CTRL.AN_EN l) = 1 →
  exec (.autonegComplete l) s = .next (s.finish ((h.modLane l (fun x => { x with anDone := true })).laneLinks l))

/-- MDIO_WRITE with GO while no command is BUSY: BUSY sets, and the frame with OP 0 goes when the bus is free (R292). -/
def mdioWrite : Prop := ∀ (m : Master) (i : Fin 4) (v : Word) (s : State),
  let h := s.hw.reached m (SRD_MDIO_CMD.A i)
  let g := h.plainWrite (SRD_MDIO_CMD.A i) (setField v 10 2 0)
  s.hw.admits m (SRD_MDIO_CMD.A i) true →
  getField (setField v 10 2 0) 13 1 = 1 →
  h.rd (SRD_MDIO_CMD.BUSY i) ≠ 1 →
  exec (.mdioWrite m i v) s = .next (s.finish (((g.wr (SRD_MDIO_CMD.BUSY i) 1).modMdio i (fun x => { x with cmdWaits := true })).mdioKick i))

/-- MDIO_WRITE while a command is BUSY: the register is written and no frame is asked for (R292). -/
def mdioWrite_busy : Prop := ∀ (m : Master) (i : Fin 4) (v : Word) (s : State),
  let h := s.hw.reached m (SRD_MDIO_CMD.A i)
  s.hw.admits m (SRD_MDIO_CMD.A i) true →
  h.rd (SRD_MDIO_CMD.BUSY i) = 1 →
  exec (.mdioWrite m i v) s = .next (s.finish (h.plainWrite (SRD_MDIO_CMD.A i) (setField v 10 2 0)))

/-- MDIO_READ with GO while no command is BUSY: BUSY sets, and the frame with OP 1 goes when the bus is free (R292). -/
def mdioRead : Prop := ∀ (m : Master) (i : Fin 4) (v : Word) (s : State),
  let h := s.hw.reached m (SRD_MDIO_CMD.A i)
  let g := h.plainWrite (SRD_MDIO_CMD.A i) (setField v 10 2 1)
  s.hw.admits m (SRD_MDIO_CMD.A i) true →
  getField (setField v 10 2 1) 13 1 = 1 →
  h.rd (SRD_MDIO_CMD.BUSY i) ≠ 1 →
  exec (.mdioRead m i v) s = .next (s.finish (((g.wr (SRD_MDIO_CMD.BUSY i) 1).modMdio i (fun x => { x with cmdWaits := true })).mdioKick i))

/-- MDIO_ADDRESS with GO while no command is BUSY: BUSY sets, and the frame with OP 2 goes when the bus is free (R292). -/
def mdioAddress : Prop := ∀ (m : Master) (i : Fin 4) (v : Word) (s : State),
  let h := s.hw.reached m (SRD_MDIO_CMD.A i)
  let g := h.plainWrite (SRD_MDIO_CMD.A i) (setField v 10 2 2)
  s.hw.admits m (SRD_MDIO_CMD.A i) true →
  getField (setField v 10 2 2) 13 1 = 1 →
  h.rd (SRD_MDIO_CMD.BUSY i) ≠ 1 →
  exec (.mdioAddress m i v) s = .next (s.finish (((g.wr (SRD_MDIO_CMD.BUSY i) 1).modMdio i (fun x => { x with cmdWaits := true })).mdioKick i))

/-- MDIO_READ_INCREMENT with GO while no command is BUSY: BUSY sets, and the frame with OP 3 goes when the bus is free (R292). -/
def mdioReadIncrement : Prop := ∀ (m : Master) (i : Fin 4) (v : Word) (s : State),
  let h := s.hw.reached m (SRD_MDIO_CMD.A i)
  let g := h.plainWrite (SRD_MDIO_CMD.A i) (setField v 10 2 3)
  s.hw.admits m (SRD_MDIO_CMD.A i) true →
  getField (setField v 10 2 3) 13 1 = 1 →
  h.rd (SRD_MDIO_CMD.BUSY i) ≠ 1 →
  exec (.mdioReadIncrement m i v) s = .next (s.finish (((g.wr (SRD_MDIO_CMD.BUSY i) 1).modMdio i (fun x => { x with cmdWaits := true })).mdioKick i))

/-- MDIO_DONE of a read that the PHY answered: BUSY and ERR clear, DATA takes the word read, and MDIO_DONE is signalled (R292). -/
def mdioDone : Prop := ∀ (i : Fin 4) (undriven : Bool) (data : Fin 65536) (s : State),
  let h := s.hw
  let g := ((h.wr (SRD_MDIO_CMD.BUSY i) 0).wr (SRD_MDIO_CMD.ERR i) 0).wr (SRD_MDIO_CMD.DATA i) data
  (h.mdio i).run = .cmd →
  h.rd (SRD_MDIO_CMD.OP i) = 1 ∨ h.rd (SRD_MDIO_CMD.OP i) = 3 →
  undriven = false →
  exec (.mdioDone i undriven data) s = .next (s.finish ((g.raise 0x200000 EV_SRD.MDIO_DONE).mdioNext i))

/-- MDIO_DONE of a read that no PHY answered: ERR sets, DATA is 0xFFFF, and MDIO_DONE and MDIO_ERR are signalled (R292). -/
def mdioDone_undriven : Prop := ∀ (i : Fin 4) (undriven : Bool) (data : Fin 65536) (s : State),
  let h := s.hw
  let g := ((h.wr (SRD_MDIO_CMD.BUSY i) 0).wr (SRD_MDIO_CMD.ERR i) 1).wr (SRD_MDIO_CMD.DATA i) 0xFFFF
  (h.mdio i).run = .cmd →
  h.rd (SRD_MDIO_CMD.OP i) = 1 ∨ h.rd (SRD_MDIO_CMD.OP i) = 3 →
  undriven = true →
  exec (.mdioDone i undriven data) s = .next (s.finish (((g.raise 0x200000 EV_SRD.MDIO_DONE).raise 0x200000 EV_SRD.MDIO_ERR).mdioNext i))

/-- MDIO_DONE of a write or an address frame: BUSY and ERR clear and MDIO_DONE is signalled (R292). -/
def mdioDone_write : Prop := ∀ (i : Fin 4) (undriven : Bool) (data : Fin 65536) (s : State),
  let h := s.hw
  let g := (h.wr (SRD_MDIO_CMD.BUSY i) 0).wr (SRD_MDIO_CMD.ERR i) 0
  (h.mdio i).run = .cmd →
  h.rd (SRD_MDIO_CMD.OP i) ≠ 1 →
  h.rd (SRD_MDIO_CMD.OP i) ≠ 3 →
  exec (.mdioDone i undriven data) s = .next (s.finish ((g.raise 0x200000 EV_SRD.MDIO_DONE).mdioNext i))

/-! ## MDIO polling and received frames -/

/-- MDIO_POLL_ROUND with polling on: a round waits for the bus, and begins at once where it is idle (R293). -/
def mdioPollRound : Prop := ∀ (i : Fin 4) (s : State),
  let h := s.hw
  h.rd (SRD_MDIO_CFG.POLL_MS i) ≠ 0 →
  exec (.mdioPollRound i) s = .next (s.finish ((h.modMdio i (fun x => { x with roundWaits := true })).mdioKick i))

/-- MDIO_POLL_FRAME_DONE answered by the PHY: PHY_LINK of the port polled takes the bit that its entry named as the round began, and LINK follows (R293, R294, R313). -/
def mdioPollFrameDone : Prop := ∀ (i : Fin 4) (undriven : Bool) (data : Fin 65536) (p : Nat) (w : Word) (s : State),
  let h := s.hw
  (h.mdio i).run = .poll p w →
  undriven = false →
  exec (.mdioPollFrameDone i undriven data) s = .next (s.finish (((h.wr (SUB_PORT_STATUS.PHY_LINK p) (bitN data (pollField w (MDIO_POLL.BIT 0)))).linkUpdate p).mdioNext i))

/-- MDIO_POLL_FRAME_DONE that no PHY answered: it is counted in POLL_ERR, and the round goes on (R293). -/
def mdioPollFrameDone_undriven : Prop := ∀ (i : Fin 4) (undriven : Bool) (data : Fin 65536) (p : Nat) (w : Word) (s : State),
  let h := s.hw
  (h.mdio i).run = .poll p w →
  undriven = true →
  exec (.mdioPollFrameDone i undriven data) s = .next (s.finish ((h.count (SRD_MDIO_CFG.POLL_ERR i)).mdioNext i))

/-- SPIKELET_FRAME_RX with a good tag of a port that is ON: the frame is received at that port's MAC (R286, R287). -/
def spikeletFrameRx : Prop := ∀ (l : Fin 64) (t0 t1 : Byte) (bs : Bytes) (codeErr : Bool) (s : State),
  let h := s.hw
  h.laneOn l = true →
  4 ≤ h.capRd (SRD_LANE_CTRL.MODE l) →
  h.rd (SRD_LANE_STATUS.LOCK l) ≠ 0 →
  t0.toNat / 16 = 0xA →
  t0.toNat % 2 = 0 →
  t1.toNat = crc8 [BitVec.ofNat 8 t0.toNat] →
  t0.toNat / 2 % 8 < modePorts (h.capRd (SRD_LANE_CTRL.MODE l)) →
  h.portState (8 * l + t0.toNat / 2 % 8) = 2 →
  exec (.spikeletFrameRx l t0 t1 bs codeErr) s = .next (s.finish (h.macRx (8 * l + t0.toNat / 2 % 8) bs codeErr))

/-- SPIKELET_FRAME_RX with a tag that fails its checks: the frame is discarded, counted and TAG_ERR_EV signalled (R287). -/
def spikeletFrameRx_tag : Prop := ∀ (l : Fin 64) (t0 t1 : Byte) (bs : Bytes) (codeErr : Bool) (s : State),
  let h := s.hw
  h.laneOn l = true →
  4 ≤ h.capRd (SRD_LANE_CTRL.MODE l) →
  h.rd (SRD_LANE_STATUS.LOCK l) ≠ 0 →
  t1.toNat ≠ crc8 [BitVec.ofNat 8 t0.toNat] →
  exec (.spikeletFrameRx l t0 t1 bs codeErr) s = .next (s.finish ((h.count (SRD_LANE_CNT.COUNT l 0)).laneRaise l EV_LANE.TAG_ERR_EV))

/-- MAC_FRAME_RX of a good data frame at a port whose lane has no MACsec of its own: it goes with its source port, and its timestamp where TS_RX_EN is set, into pipeline B's input FIFO, and is counted there (R298, R299, R342). -/
def macFrameRx : Prop := ∀ (p : Fin 512) (bs : Bytes) (codeErr : Bool) (s : State),
  let h := s.hw
  let t := h.tim.now.addPs (h.rdS (SUB_TS_ADJ.RX_ADJ p))
  let ts := if h.rd (SUB_TS_CFG.TS_RX_EN p) = 1 then some (t.sec % 2 ^ 32, t.ns) else none
  h.portExists p = true →
  h.rd (SRD_LANE_STATUS.LOCK (p / 8)) = 1 →
  h.portState p = 2 →
  (h.lane (p / 8)).stepWritten = false →
  codeErr = false →
  fcsOk bs = true →
  64 ≤ bs.length →
  bs.length ≤ h.capRd (SUB_PORT_CTRL.MAX_LEN p) →
  beAt bs 12 2 ≠ 0x8808 →
  h.slotAt bs = none →
  h.securePort p = false →
  exec (.macFrameRx p bs codeErr) s = .next (s.finish ((h.rxFifo p bs.length { bytes := bs, source := p, rxTs := ts }).1))

/-- MAC_FRAME_RX of a frame whose FCS is wrong: it is discarded and counted (R298). -/
def macFrameRx_fcs : Prop := ∀ (p : Fin 512) (bs : Bytes) (codeErr : Bool) (s : State),
  let h := s.hw
  h.portExists p = true →
  h.rd (SRD_LANE_STATUS.LOCK (p / 8)) = 1 →
  h.portState p = 2 →
  (h.lane (p / 8)).stepWritten = false →
  codeErr = false →
  fcsOk bs = false →
  exec (.macFrameRx p bs codeErr) s = .next (s.finish (h.subCount p SUB_N.RX_FCS_ERR))

/-- MACSEC_ICV_FAIL of a frame of the entity that is still pending: it is counted and signalled at its port, and with no other pending the packets of the entity are UNTRUSTED (R308). -/
def macsecIcvFail : Prop := ∀ (e : Fin 65) (s : State),
  let h := s.hw
  let g := ({ h with cip := { h.cip with icvDue := h.cip.icvDue.set 0 e 0 } }).msCount e MS_N.RX_ICV_FAIL
  h.cip.icvDue.get 0 e = 1 →
  e.val < 64 →
  exec (.macsecIcvFail e) s = .next (s.finish ((g.raise (0x4000000 + 8 * e * 0x1000) EV_SUB.MACSEC_UNTRUSTED_EV).eachPkt (fun p => if p.icv = some e.val then { p with untrusted := true, icv := none } else p)))

/-- PFC_FRAME_RX at a port that is ON: of every priority the enable vector names the pause time is loaded and PFC_RX_MASK follows; PFC_RX_EV is signalled where a time is not 0 (R302). -/
def pfcFrameRx : Prop := ∀ (p : Fin 512) (bs : Bytes) (s : State),
  let h := s.hw
  let en := beAt bs 16 2
  let g := (h.subCount p SUB_N.RX_PFC).forAll ((List.range 8).filter (fun i => bitN en i == 1)) (fun x i => (x.modPort p (fun y => { y with pause := y.pause.set 0 i (if beAt bs (18 + 2 * i) 2 = 0 then 0 else x.clk + ceilDiv (beAt bs (18 + 2 * i) 2 * 512000) (x.portRate p)) })).wr ⟨SUB_PORT_STATUS.A p, 8 + i, 1⟩ (b2n (decide (beAt bs (18 + 2 * i) 2 ≠ 0))))
  h.portState p = 2 →
  exec (.pfcFrameRx p bs) s = .next (s.finish (if (List.range 8).any (fun i => bitN en i == 1 && beAt bs (18 + 2 * i) 2 != 0) = true then g.subRaise p EV_SUB.PFC_RX_EV else g))

/-- PFC_PAUSE_EXPIRE once the timer, as last loaded, has run out: the priority may send again (R302). -/
def pfcPauseExpire : Prop := ∀ (p : Fin 512) (i : Fin 8) (s : State),
  let h := s.hw
  (h.port p).pause.get 0 i ≤ h.clk →
  exec (.pfcPauseExpire p i) s = .next (s.finish ((h.modPort p (fun x => { x with pause := x.pause.set 0 i 0 })).wr ⟨SUB_PORT_STATUS.A p, 8 + i, 1⟩ 0))

/-- PFC_PAUSE_EXPIRE of a timer loaded anew since: it runs on (R302). -/
def pfcPauseExpire_early : Prop := ∀ (p : Fin 512) (i : Fin 8) (s : State),
  let h := s.hw
  h.clk < (h.port p).pause.get 0 i →
  exec (.pfcPauseExpire p i) s = .next (s.finish (h))

/-- PFC_REFRESH while priorities are in XOFF at a port that is ON: a PFC frame with QUANTA for them waits for the lane, and starts at once where it is free (R301). -/
def pfcRefresh : Prop := ∀ (p : Fin 512) (s : State),
  let h := s.hw
  h.rd (SUB_PORT_STATUS.PFC_TX_XOFF p) ≠ 0 →
  h.portState p = 2 →
  exec (.pfcRefresh p) s = .next (s.finish ((h.modPort p (fun x => { x with pfcDue := x.pfcDue || true, pfcOwed := x.pfcOwed ||| 0 })).macPump p))

/-! ## priority flow control, low power idle, rate steps and recalibration -/

/-- LPI_ENTER of a port that is ON, the last of its lane's to fall idle, where every port of the lane that is ON has LPI_EN: LPI_TX sets, and each of them counts an entry (R303). -/
def lpiEnter : Prop := ∀ (p : Fin 512) (s : State),
  let h := s.hw
  let l := p.val / 8
  let g := h.modPort p (fun x => { x with idle := true })
  h.portState p = 2 →
  g.lpiAllowed l = true →
  g.rd (SRD_LANE_STATUS.LPI_TX l) = 0 →
  (g.onPorts l).all (fun q => (g.port q).idle && !(g.port q).waking) = true →
  exec (.lpiEnter p) s = .next (s.finish (((g.wr (SRD_LANE_STATUS.LPI_TX l) 1).laneSync l).forAll (g.onPorts l) (fun x q => x.subCount q SUB_N.TX_LPI_ENTRIES)))

/-- LPI_ENTER of a port that is ON while another of its lane's is not idle, or is waking: the port is idle, and the lane waits (R303). -/
def lpiEnter_waits : Prop := ∀ (p : Fin 512) (s : State),
  let h := s.hw
  let l := p.val / 8
  let g := h.modPort p (fun x => { x with idle := true })
  h.portState p = 2 →
  g.lpiAllowed l = true →
  (g.onPorts l).all (fun q => (g.port q).idle && !(g.port q).waking) = false →
  exec (.lpiEnter p) s = .next (s.finish (g))

/-- LPI_WAKE_DONE: the port may send again, and the lane's low-power idle is judged anew (R303). -/
def lpiWakeDone : Prop := ∀ (p : Fin 512) (s : State),
  let h := s.hw
  exec (.lpiWakeDone p) s = .next (s.finish ((h.modPort p (fun x => { x with waking := false })).lpiSync (p / 8)))

/-- LPI_RX_CHANGE on a lane that is ON: LPI_RX shows the level (R304). -/
def lpiRxChange : Prop := ∀ (l : Fin 64) (v : Bool) (s : State),
  let h := s.hw
  h.laneOn l = true →
  exec (.lpiRxChange l v) s = .next (s.finish (h.wr (SRD_LANE_STATUS.LPI_RX l) (b2n v)))

/-- RATE_DOWN_EVAL with the octets of the past interval above RD_HI_PCT of the present rate and a higher mode allowed: a step up begins (R305, R306). -/
def rateDownEval : Prop := ∀ (l : Fin 64) (load : Nat) (s : State),
  let h := s.hw
  let o := (h.rateOctets l).1
  let g := (h.rateOctets l).2
  let k := g.rd (SRD_LANE_STATUS.CUR_MODE l)
  g.laneOn l = true →
  g.capRd (SRD_LANE_CTRL.MODE l) ≤ 3 →
  g.rd (SRD_LANE_CTRL.RD_EN l) ≠ 0 →
  g.portState (8 * l) = 2 →
  (g.lane l).step = none →
  g.rd (SRD_RD_CFG.RD_FLOOR l) ≤ k →
  k < g.rd (SRD_RD_CFG.RD_CEIL l) →
  k < 3 →
  g.rateAbove l o (modeRate k) (g.capRd (SRD_RD_CFG.RD_HI_PCT l)) = true →
  exec (.rateDownEval l load) s = .next (s.finish ((g.modLane l (fun x => { x with lows := 0 })).stepStart l (k + 1)))

/-- RATE_DOWN_EVAL with the octets low for the RD_HOLDth time in a row: a step down begins (R305, R306). -/
def rateDownEval_low : Prop := ∀ (l : Fin 64) (load : Nat) (s : State),
  let h := s.hw
  let o := (h.rateOctets l).1
  let g := (h.rateOctets l).2
  let k := g.rd (SRD_LANE_STATUS.CUR_MODE l)
  let n := g.modLane l (fun x => { x with lows := x.lows + 1 })
  g.laneOn l = true →
  g.capRd (SRD_LANE_CTRL.MODE l) ≤ 3 →
  g.rd (SRD_LANE_CTRL.RD_EN l) ≠ 0 →
  g.portState (8 * l) = 2 →
  (g.lane l).step = none →
  g.rd (SRD_RD_CFG.RD_FLOOR l) < k →
  k ≤ g.rd (SRD_RD_CFG.RD_CEIL l) →
  ¬ (k < 3 ∧ g.rateAbove l o (modeRate k) (g.capRd (SRD_RD_CFG.RD_HI_PCT l)) = true) →
  g.rateBelow l o (modeRate (k - 1)) (g.capRd (SRD_RD_CFG.RD_LO_PCT l)) = true →
  n.capRd (SRD_RD_CFG.RD_HOLD l) ≤ (n.lane l).lows →
  exec (.rateDownEval l load) s = .next (s.finish (n.stepStart l (k - 1)))

/-- RATE_DOWN_EVAL with the present mode below RD_FLOOR: the clamp is counted and a step up begins (R305). -/
def rateDownEval_clamp : Prop := ∀ (l : Fin 64) (load : Nat) (s : State),
  let h := s.hw
  let g := (h.rateOctets l).2
  let k := g.rd (SRD_LANE_STATUS.CUR_MODE l)
  g.laneOn l = true →
  g.capRd (SRD_LANE_CTRL.MODE l) ≤ 3 →
  g.rd (SRD_LANE_CTRL.RD_EN l) ≠ 0 →
  g.portState (8 * l) = 2 →
  (g.lane l).step = none →
  k < g.rd (SRD_RD_CFG.RD_FLOOR l) →
  exec (.rateDownEval l load) s = .next (s.finish ((g.count (SRD_LANE_CLAMP_COUNT.POLICY_CLAMP_COUNT l)).stepStart l (k + 1)))

/-- RATE_STEP_PHY_WRITTEN: the PHY has the step's write, CUR_MODE is the new mode, lock is lost, and the bus goes on (R306). -/
def rateStepPhyWritten : Prop := ∀ (l : Fin 64) (k : Nat) (s : State),
  let h := s.hw
  let g := h.modLane l (fun x => { x with stepWritten := true })
  (h.lane l).step = some k →
  (h.lane l).stepWritten = false →
  (h.mdio (l / 16)).run = .write l →
  exec (.rateStepPhyWritten l) s = .next (s.finish (((g.wr (SRD_LANE_STATUS.CUR_MODE l) k).lockLost l).mdioNext (l / 16)))

/-- RATE_STEP_PHY_WRITTEN of a step whose PHY write neither runs nor waits, its RD_PHY entry not being valid when it was due: the step is abandoned and counted in POLL_ERR (R306). -/
def rateStepPhyWritten_none : Prop := ∀ (l : Fin 64) (k : Nat) (s : State),
  let h := s.hw
  (h.lane l).step = some k →
  (h.lane l).stepWritten = false →
  (h.mdio (l / 16)).run ≠ .write l →
  (h.mdio (l / 16)).writes.contains l.val = false →
  exec (.rateStepPhyWritten l) s = .next (s.finish ((h.count (SRD_MDIO_CFG.POLL_ERR (l / 16))).stepEnd l))

/-- RATE_STEP_LOCKED: lock at the new rate, the step ends, RATE_CHANGE is signalled, and the lane's links follow (R306). -/
def rateStepLocked : Prop := ∀ (l : Fin 64) (s : State),
  let h := s.hw
  let g := (h.wr (SRD_LANE_STATUS.LOCK l) 1).laneRaise l EV_LANE.LOCK_CHANGE
  (h.lane l).stepWritten = true →
  exec (.rateStepLocked l) s = .next (s.finish (((g.stepEnd l).laneRaise l EV_LANE.RATE_CHANGE).laneLinks l))

/-- RATE_STEP_TIMEOUT: without lock at the new rate the lane is back in MODE, the step ends, and the links follow (R306). -/
def rateStepTimeout : Prop := ∀ (l : Fin 64) (k : Nat) (s : State),
  let h := s.hw
  let g := h.wr (SRD_LANE_STATUS.CUR_MODE l) (h.capRd (SRD_LANE_CTRL.MODE l))
  (h.lane l).step = some k →
  (h.lane l).stepWritten = true →
  exec (.rateStepTimeout l) s = .next (s.finish (((g.modMdio (l / 16) (fun x => { x with writes := x.writes.filter (· != l.val) })).stepEnd l).laneLinks l))

/-- RECAL_GO on a lane that is ON, in no rate step and not recalibrating: RECAL_BUSY sets (R309). -/
def recalGo : Prop := ∀ (m : Master) (l : Fin 72) (v : Word) (s : State),
  let h := s.hw.reached m (SRD_RECAL.A l)
  let g := h.plainWrite (SRD_RECAL.A l) v
  s.hw.admits m (SRD_RECAL.A l) true →
  getField v 0 1 = 1 →
  g.laneOn l = true →
  g.rd (SRD_LANE_STATUS.RECAL_BUSY l) = 0 →
  (g.lane l).step = none →
  exec (.recalGo m l v) s = .next (s.finish (g.wr (SRD_LANE_STATUS.RECAL_BUSY l) 1))

/-- RECAL_PERIOD_EXPIRE: a recalibration starts as one asked for does (R309). -/
def recalPeriodExpire : Prop := ∀ (l : Fin 72) (s : State),
  let h := s.hw
  h.rd (SRD_RECAL.RECAL_PERIOD l) ≠ 0 →
  h.laneOn l = true →
  h.rd (SRD_LANE_STATUS.RECAL_BUSY l) = 0 →
  (h.lane l).step = none →
  exec (.recalPeriodExpire l) s = .next (s.finish (h.wr (SRD_LANE_STATUS.RECAL_BUSY l) 1))

/-- RECAL_DONE: the equaliser code found is taken within its bounds, a clamp counted, the taps and the offset found are in force, RECAL_BUSY clears, RECAL_DONE is signalled, and one that waited starts (R72, R291, R309). -/
def recalDone : Prop := ∀ (l : Fin 72) (ctle : Fin 16) (dfe : List Int) (offset : Int) (s : State),
  let h := s.hw
  let k := min (h.rd (SRD_LANE_EQ.CTLE_MAX l)) (max (h.rd (SRD_LANE_EQ.CTLE_MIN l)) ctle)
  let e := h.modLane l (fun x => { x with dfe := dfe, offset := offset })
  let g := (e.wr (SRD_LANE_EQ.CTLE l) k).onlyIf (k ≠ ctle) (fun x => x.count (SRD_LANE_CLAMP_COUNT.POLICY_CLAMP_COUNT l))
  h.rd (SRD_LANE_STATUS.RECAL_BUSY l) ≠ 0 →
  exec (.recalDone l ctle dfe offset) s = .next (s.finish (((g.wr (SRD_LANE_STATUS.RECAL_BUSY l) 0).laneRaise l EV_LANE.RECAL_DONE).recalNext l))

/-! ## power-state requests, wakes and restarts -/

/-- STATE_REQUEST with GO, nothing busy and a target that differs from the state in force, which is not Rest; Rest with a wake source, and with its channel for a trunk wake: every write on its way to AON has arrived, RESULT clears and the change is armed with the domains it stops and restarts, BUSY set; its first stop begins, but a GPIO already at its wake level wins against Rest (R34, R473, R474, R475, R478, R480). -/
def stateRequest : Prop := ∀ (m : Master) (v : Word) (s : State),
  let h := s.hw.reached m PWR_STATE_REQ.A
  let t := getField v 0 2
  let n := h.aonFlush
  let g := n.fullWrite PWR_STATE_REQ.A v
  let r := g.wr PWR_STATE_STATUS.RESULT 0
  let a := r.changeArm t (g.changeLists t)
  s.hw.admits m PWR_STATE_REQ.A true →
  getField v 31 1 = 1 →
  n.rd PWR_STATE_STATUS.BUSY ≠ 1 →
  (t = 3 → n.rd PWR_WAKE_EN.EN ≠ 0) →
  (t = 3 → bitN (n.rd PWR_WAKE_EN.EN) 5 = 1 → n.rd PWR_REST_CFG.REST_CH_EN ≠ 0) →
  g.powerState ≠ t →
  g.powerState ≠ 3 →
  exec (.stateRequest m v) s = .next (s.finish (if t = 3 ∧ a.wakeSeen 1 = true then a.wakeFire 1 else a.stopBegin))

/-- STATE_REQUEST with GO while a change is under way, to Rest without a wake source, or to Rest with a trunk wake and no channel left in Rest: every write on its way to AON has arrived, RESULT says rejected and nothing else happens (R34, R474). -/
def stateRequest_rejected : Prop := ∀ (m : Master) (v : Word) (s : State),
  let h := s.hw.reached m PWR_STATE_REQ.A
  let t := getField v 0 2
  let n := h.aonFlush
  s.hw.admits m PWR_STATE_REQ.A true →
  getField v 31 1 = 1 →
  n.rd PWR_STATE_STATUS.BUSY = 1 ∨ (t = 3 ∧ n.rd PWR_WAKE_EN.EN = 0) ∨ (t = 3 ∧ bitN (n.rd PWR_WAKE_EN.EN) 5 = 1 ∧ n.rd PWR_REST_CFG.REST_CH_EN = 0) →
  exec (.stateRequest m v) s = .next (s.finish (n.wr PWR_STATE_STATUS.RESULT 3))

/-- DOMAIN_AGREE of the domain being stopped, which is not OFF, when it neither refuses nor has work left: it enters its condition and the next domain's stop begins (R475, R476). -/
def domainAgree : Prop := ∀ (d : Nat) (t : List Nat) (s : State),
  let h := s.hw
  let g := h.holdAll
  h.pwr.todo.isEmpty = false →
  g.pwr.todo = d :: t →
  g.cond d ≠ 2 →
  g.refusal g.pwr.target d = none →
  g.agrees g.pwr.target d = true →
  exec .domainAgree s = .next (s.finish (g.domainStopped d))

/-- DOMAIN_AGREE of a domain that refuses: entry is aborted with its reason and the domains stopped so far are restarted (R476, R477). -/
def domainAgree_refuses : Prop := ∀ (d why : Nat) (t : List Nat) (s : State),
  let h := s.hw
  let g := h.holdAll
  h.pwr.todo.isEmpty = false →
  g.pwr.todo = d :: t →
  g.cond d ≠ 2 →
  g.refusal g.pwr.target d = some why →
  exec .domainAgree s = .next (s.finish (g.refuse d why))

/-- ENTRY_TIMEOUT of the domain being stopped, not OFF, that has neither agreed nor another reason to refuse: entry is aborted for reason 1 (R476, R477). -/
def entryTimeout : Prop := ∀ (d : Nat) (t : List Nat) (s : State),
  let h := s.hw
  h.pwr.todo = d :: t →
  h.cond d ≠ 2 →
  h.refusal h.pwr.target d = none →
  (d != 2 && h.agrees h.pwr.target d) = false →
  exec .entryTimeout s = .next (s.finish (h.refuse d 1))

/-- WAKE_SOURCE_FIRE in Rest of a source that AON has enabled and that shows: its status bit sets, WAKE_EV is signalled and the terminal returns to Run (R479, R480). -/
def wakeSourceFire : Prop := ∀ (src : Fin 6) (s : State),
  let h := s.hw
  h.wakeSeen src = true →
  h.powerState = 3 →
  h.rd PWR_STATE_STATUS.BUSY ≠ 1 →
  exec (.wakeSourceFire src) s = .next (s.finish (((h.wr ⟨PWR_WAKE_STATUS.A, src, 1⟩ 1).pwrRaise EV_PWR.WAKE_EV).changeBegin 0))

/-- WAKE_SOURCE_FIRE of a source other than the timer that shows while entry to Rest stops domains: entry is aborted in the source's name for reason 8 (R477, R478). -/
def wakeSourceFire_entry : Prop := ∀ (src : Fin 6) (s : State),
  let h := s.hw
  h.wakeSeen src = true →
  h.rd PWR_STATE_STATUS.BUSY = 1 →
  h.pwr.target = 3 →
  h.pwr.todo ≠ [] →
  src.val ≠ 0 →
  exec (.wakeSourceFire src) s = .next (s.finish (((h.wr ⟨PWR_WAKE_STATUS.A, src, 1⟩ 1).pwrRaise EV_PWR.WAKE_EV).refuse (0x20 + src) 8))

/-- WAKE_TIMER_EXPIRE in Rest with WAKE_MS set and its source enabled, as AON has them: source 0 wakes the terminal (R34, R479, R480). -/
def wakeTimerExpire : Prop := ∀ (s : State),
  let h := s.hw
  h.powerState = 3 →
  h.rd PWR_STATE_STATUS.BUSY = 0 →
  bitN (h.aonRd PWR_WAKE_EN.EN) 0 = 1 →
  h.aonRd PWR_WAKE_TIMER.WAKE_MS ≠ 0 →
  exec .wakeTimerExpire s = .next (s.finish (((h.wr ⟨PWR_WAKE_STATUS.A, 0, 1⟩ 1).pwrRaise EV_PWR.WAKE_EV).changeBegin 0))

/-- DOMAIN_RESTART_NEXT with more domains to restart after this one: the domain restarts, in order (R475, R477, R480). -/
def domainRestartNext : Prop := ∀ (d e : Nat) (t : List Nat) (s : State),
  let h := s.hw
  let g := (h.modPwr (fun p => { p with restart := e :: t })).wr PWR_STATE_STATUS.CUR_DOM d
  h.pwr.restart = d :: e :: t →
  exec .domainRestartNext s = .next (s.finish (g.domainRestart d))

/-- DOMAIN_RESTART_NEXT of the last domain of a change that has none left to stop: the domain restarts and the change, or its abort, is over (R475, R477, R480). -/
def domainRestartNext_last : Prop := ∀ (d : Nat) (s : State),
  let h := s.hw
  let g := (h.modPwr (fun p => { p with restart := [] })).wr PWR_STATE_STATUS.CUR_DOM d
  h.pwr.restart = [d] →
  (g.domainRestart d).pwr.todo = [] →
  exec .domainRestartNext s = .next (s.finish ((g.domainRestart d).changeDone))

/-! ## Trim masks, domains, the voltage loop and the thermal guard -/

/-- TRIM_MASK_WRITE outside Trim and the entry to it: the register takes the mask and no domain changes (R473). -/
def trimMaskWrite : Prop := ∀ (m : Master) (v : Word) (s : State),
  let h := s.hw.reached m PWR_TRIM_MASK.A
  let g := h.fullWrite PWR_TRIM_MASK.A v
  s.hw.admits m PWR_TRIM_MASK.A true →
  g.powerState ≠ 1 →
  g.rd PWR_STATE_STATUS.BUSY = 0 ∨ g.pwr.target ≠ 1 →
  exec (.trimMaskWrite m v) s = .next (s.finish (g))

/-- TRIM_MASK_WRITE in Trim with no change under way and domains to stop or restart among those whose bit changed: the change begins (R473). -/
def trimMaskWrite_live : Prop := ∀ (m : Master) (v : Word) (s : State),
  let h := s.hw.reached m PWR_TRIM_MASK.A
  let g := h.fullWrite PWR_TRIM_MASK.A v
  let l := watchOrder.filter (fun d => bitN (h.word PWR_TRIM_MASK.A ^^^ g.word PWR_TRIM_MASK.A).toNat d == 1)
  s.hw.admits m PWR_TRIM_MASK.A true →
  g.powerState = 1 →
  g.rd PWR_STATE_STATUS.BUSY = 0 →
  g.trimLists l ≠ ([], []) →
  exec (.trimMaskWrite m v) s = .next (s.finish ((g.changeArm 1 (g.trimLists l)).stopBegin))

/-- DOM_OFF_WRITE: the register takes the mask, domains of it that are ready to be turned off are, and OFF domains no longer in it are turned on, their generation advanced (R471). -/
def domOffWrite : Prop := ∀ (m : Master) (v : Word) (s : State),
  let h := s.hw.reached m PWR_DOM_OFF.A
  let g := (h.fullWrite PWR_DOM_OFF.A v).offAll
  s.hw.admits m PWR_DOM_OFF.A true →
  exec (.domOffWrite m v) s = .next (s.finish (g.forAll ((List.range 32).filter (fun d => g.cond d == 2 && bitN (g.word PWR_DOM_OFF.A).toNat d == 0)) (fun x d => x.domainOn d)))

/-- AVS_STEP of the loop, enabled as AON has it, with VREQ within VMAX and no override behind it, the voltage inside its bounds and the wanted step inside them: VREQ is shown, SAFETY clears and VCORE moves one step toward two above VREQ (R34, R483). -/
def avsStep : Prop := ∀ (vreq : Fin 64) (s : State),
  let h := s.hw
  let n := (h.wr PWR_AVS_STATUS.VREQ vreq).wr PWR_AVS_STATUS.SAFETY 0
  let g := n.modPwr (fun p => { p with vOver := false })
  let cur := h.rd PWR_AVS_STATUS.VCORE
  let want := if cur < vreq.val + 2 then cur + 1 else if vreq.val + 2 < cur then cur - 1 else cur
  h.aonRd PWR_AVS_CFG.AVS_EN ≠ 0 →
  vreq.val ≤ h.aonRd PWR_AVS_CFG.VMAX →
  h.aonRd PWR_AVS_CFG.VMIN ≤ cur →
  cur ≤ h.aonRd PWR_AVS_CFG.VMAX →
  h.aonRd PWR_AVS_CFG.VMIN ≤ want →
  want ≤ h.aonRd PWR_AVS_CFG.VMAX →
  exec (.avsStep vreq) s = .next (s.finish (g.wr PWR_AVS_STATUS.VCORE (max vreq.val want)))

/-- AVS_STEP with the loop off as AON has it: VCORE is 0.85 V, SAFETY clears and nothing is left of an override (R34, R483). -/
def avsStep_off : Prop := ∀ (vreq : Fin 64) (s : State),
  let h := s.hw
  let g := (h.wr PWR_AVS_STATUS.VCORE 40).wr PWR_AVS_STATUS.SAFETY 0
  h.aonRd PWR_AVS_CFG.AVS_EN = 0 →
  exec (.avsStep vreq) s = .next (s.finish ({ g with pwr := { h.pwr with vOver := false } }))

/-- AVS_STEP of the enabled loop with VREQ above VMAX: the safety override sets VCORE to VREQ at once; its entry counts VMIN_OVERRIDES and signals SAFETY_EV (R483). -/
def avsStep_safety : Prop := ∀ (vreq : Fin 64) (s : State),
  let h := s.hw
  let n := ((h.wr PWR_AVS_STATUS.VREQ vreq).wr PWR_AVS_STATUS.VCORE vreq).wr PWR_AVS_STATUS.SAFETY 1
  let g := n.modPwr (fun p => { p with vOver := true })
  h.aonRd PWR_AVS_CFG.AVS_EN ≠ 0 →
  h.aonRd PWR_AVS_CFG.VMAX < vreq.val →
  exec (.avsStep vreq) s = .next (s.finish (if h.rd PWR_AVS_STATUS.SAFETY = 1 then g else (g.count PWR_SAFETY_CNT.VMIN_OVERRIDES).pwrRaise EV_PWR.SAFETY_EV))

/-- AVS_STEP after an override, VREQ within VMAX again and VCORE still above it: VCORE falls one step, no further than VREQ, and no clamp is counted (R483). -/
def avsStep_falls : Prop := ∀ (vreq : Fin 64) (s : State),
  let h := s.hw
  h.aonRd PWR_AVS_CFG.AVS_EN ≠ 0 →
  vreq.val ≤ h.aonRd PWR_AVS_CFG.VMAX →
  h.pwr.vOver = true →
  h.aonRd PWR_AVS_CFG.VMAX < h.rd PWR_AVS_STATUS.VCORE →
  exec (.avsStep vreq) s = .next (s.finish (((h.wr PWR_AVS_STATUS.VREQ vreq).wr PWR_AVS_STATUS.SAFETY 0).wr PWR_AVS_STATUS.VCORE (max vreq.val (h.rd PWR_AVS_STATUS.VCORE - 1))))

/-- THERMAL_SAMPLE below the alert threshold, as AON has it, by more than 5 °C, the terminal running with no sensor three times at 115 °C: TEMP_MAX and TEMP_PEAK are shown, each sensor's samples at 115 °C counted, and the alert ends (R34, R484). -/
def thermalSample : Prop := ∀ (temps : Vector (BitVec 8) 16) (s : State),
  let h := s.hw
  let l := temps.toList.map BitVec.toInt
  let top := l.foldl max (l.headD 0)
  let g := (h.wr PWR_THERM.TEMP_MAX (unsigned 8 top)).wr PWR_THERM.TEMP_PEAK (unsigned 8 (max top (h.rdS PWR_THERM.TEMP_PEAK)))
  let hot := (List.range l.length).foldl (fun (m : Sparse Nat) i => m.set 0 i (if 115 ≤ l.getD i 0 then g.pwr.hot.get 0 i + 1 else 0)) []
  let k := g.modPwr (fun p => { p with hot := hot })
  k.pwr.trip = false →
  top < Int.ofNat (k.aonRd PWR_THERM.ALERT_TH) - 5 →
  hot.any (fun e => decide (3 ≤ e.2)) = false →
  exec (.thermalSample temps) s = .next (s.finish (k.modPwr (fun p => { p with alert := false })))

/-- THERMAL_SAMPLE with a sensor at 115 °C or above for the third sample in a row and PORN high: every domain but AON is held in reset, and TEMP_ALERT_EV is signalled unless the alert stands already (R484). -/
def thermalSample_trip : Prop := ∀ (temps : Vector (BitVec 8) 16) (s : State),
  let h := s.hw
  let l := temps.toList.map BitVec.toInt
  let top := l.foldl max (l.headD 0)
  let g := (h.wr PWR_THERM.TEMP_MAX (unsigned 8 top)).wr PWR_THERM.TEMP_PEAK (unsigned 8 (max top (h.rdS PWR_THERM.TEMP_PEAK)))
  let hot := (List.range l.length).foldl (fun (m : Sparse Nat) i => m.set 0 i (if 115 ≤ l.getD i 0 then g.pwr.hot.get 0 i + 1 else 0)) []
  let k := g.modPwr (fun p => { p with hot := hot })
  k.pwr.trip = false →
  k.pwr.alert = true →
  Int.ofNat (k.aonRd PWR_THERM.ALERT_TH) - 5 ≤ top →
  k.effPorn = true →
  hot.any (fun e => decide (3 ≤ e.2)) = true →
  exec (.thermalSample temps) s = .next (s.finish (k.thermalTrip))

/-- THERMAL_RECOVER of a tripped terminal whose last sample was below 100 °C: the hold ends with everything but AON reset, RESET_CAUSE records THERMAL, the trip is counted and Husk starts (R484). -/
def thermalRecover : Prop := ∀ (s : State),
  let h := s.hw
  let g := (h.aonKeptReset.modPwr (fun p => { p with trip := false, hot := [] })).wr GLB_RESET_CAUSE.THERMAL 1
  h.pwr.trip = true →
  h.rdS PWR_THERM.TEMP_MAX < 100 →
  exec .thermalRecover s = .next (s.finish ((g.count PWR_SAFETY_CNT.THERMAL_TRIPS).bootStart))

/-- ENERGY_DETECT on a lane whose domain's functions the power controller holds and whose ED_EN is 1: ENERGY sets, ENERGY_EV is signalled, and the energy wake source fires (R311, R479). -/
def energyDetect : Prop := ∀ (l : Fin 64) (s : State),
  let h := s.hw
  let g := (h.wr (SRD_LANE_STATUS.ENERGY l) 1).laneRaise l EV_LANE.ENERGY_EV
  h.pwr.held.contains (19 + l.val / 8) = true →
  h.rd (SRD_LANE_CTRL.ED_EN l) = 1 →
  exec (.energyDetect l) s = .next (s.finish (g.onlyIf (g.rd (SRD_LANE_STATUS.ENERGY l) = 1) (fun x => x.wakeFire 3)))

/-! ## bonded frames, joins, leaves and shedding -/

/-- BONDED_FRAME_RX of a data frame in its turn, on the channel of the rotation's turn, with nothing held: it goes on to pipeline A, its octets count downstream and NEXT_SN advances (R160, R176, R179, R180). -/
def bondedFrameRx : Prop := ∀ (c : Fin 4) (b : Bonded) (t : List Bonded) (d : Fin 4) (s : State),
  let h := s.hw
  let g := { h with shf := { h.shf with inbox := h.shf.inbox.set [] c t, turn := (c + 1) % 4 } }
  let w := beAt b.bytes 0 4
  let n := g.wr (SHF_GRP_RX_STATUS.NEXT_SN b.group) (g.nextSn b.group + 1)
  h.bondedTurn = some c.val →
  h.shf.inbox.get [] c = b :: t →
  4 ≤ b.bytes.length →
  bitsOf w 28 4 = b.group →
  bitsOf w 24 3 = c.val →
  bitN w 27 = 0 →
  g.st (memberFn b.group c) ≠ 0 →
  g.rd (SHF_GRP_RX_STATUS.SN_SYNCED b.group) ≠ 0 →
  bitsOf w 0 24 = g.nextSn b.group →
  (g.grp b.group).held = [] →
  exec (.bondedFrameRx d) s = .next (s.finish (((n.modGrp b.group (fun x => { x with dsOctets := x.dsOctets + (b.bytes.drop 4).length })).fifoPush pipeA { bytes := b.bytes.drop 4, source := 520 + c }).1.poolUpdate 512))

/-- BONDED_FRAME_RX of the first data frame of a group not yet synchronised: NEXT_SN is taken from it, SN_SYNCED sets, and it is delivered (R176). -/
def bondedFrameRx_first : Prop := ∀ (c : Fin 4) (b : Bonded) (t : List Bonded) (d : Fin 4) (s : State),
  let h := s.hw
  let g := { h with shf := { h.shf with inbox := h.shf.inbox.set [] c t, turn := (c + 1) % 4 } }
  let w := beAt b.bytes 0 4
  let y := (g.wr (SHF_GRP_RX_STATUS.NEXT_SN b.group) (bitsOf w 0 24)).wr (SHF_GRP_RX_STATUS.SN_SYNCED b.group) 1
  let n := y.wr (SHF_GRP_RX_STATUS.NEXT_SN b.group) (y.nextSn b.group + 1)
  h.bondedTurn = some c.val →
  h.shf.inbox.get [] c = b :: t →
  4 ≤ b.bytes.length →
  bitsOf w 28 4 = b.group →
  bitsOf w 24 3 = c.val →
  bitN w 27 = 0 →
  g.st (memberFn b.group c) ≠ 0 →
  g.rd (SHF_GRP_RX_STATUS.SN_SYNCED b.group) = 0 →
  exec (.bondedFrameRx d) s = .next (s.finish (((n.modGrp b.group (fun x => { x with dsOctets := x.dsOctets + (b.bytes.drop 4).length })).fifoPush pipeA { bytes := b.bytes.drop 4, source := 520 + c }).1.poolUpdate 512))

/-- BONDED_FRAME_RX of a frame shorter than its shim: it is counted SHIM_SHORT and discarded (R160). -/
def bondedFrameRx_short : Prop := ∀ (c : Fin 4) (b : Bonded) (t : List Bonded) (d : Fin 4) (s : State),
  let h := s.hw
  let g := { h with shf := { h.shf with inbox := h.shf.inbox.set [] c t, turn := (c + 1) % 4 } }
  h.bondedTurn = some c.val →
  h.shf.inbox.get [] c = b :: t →
  b.bytes.length < 4 →
  exec (.bondedFrameRx d) s = .next (s.finish ((g.shfCount b.group SHF_N.SHIM_SHORT).poolUpdate 512))

/-- REORDER_TIMEOUT with frames held: the gap before the lowest is skipped, its numbers lost and counted TIMEOUT_SKIP, the run after it delivered (R177). -/
def reorderTimeout : Prop := ∀ (g : Fin 16) (f : HeldFrame) (s : State),
  let h := s.hw
  let k := (h.shfSkipTo g f.sn).shfCount g SHF_N.TIMEOUT_SKIP
  (h.grp g).held ≠ [] →
  h.shfLowest g = some f →
  exec (.reorderTimeout g) s = .next (s.finish ((k.shfRun g (h.grp g).held.length).poolUpdate 512))

/-- JOIN_ACK_RX with the member's token in JOIN_WAIT on a channel still ready: the request is withdrawn, the member is ACTIVE and its function ON (R165). -/
def joinAckRx : Prop := ∀ (g : Fin 16) (c : Fin 4) (token : Nat) (s : State),
  let h := s.hw
  let k := (h.joinWithdraw g c).modMbr g c (fun m => { m with outstanding := false, placed := false })
  let n := ((k.setPhase g c 2).shfRaise EV_SHF.JOIN_DONE).lcOn (memberFn g c)
  h.phase g c = 1 →
  h.rd (SHF_MBR_STATUS.TOKEN g c) = token →
  n.ready c = true →
  exec (.joinAckRx g c token) s = .next (s.finish (n))

/-- JOIN_ACK_RX in another phase, or with another token: it is unexpected (R164). -/
def joinAckRx_unexpected : Prop := ∀ (g : Fin 16) (c : Fin 4) (token : Nat) (s : State),
  let h := s.hw
  h.phase g c ≠ 1 ∨ h.rd (SHF_MBR_STATUS.TOKEN g c) ≠ token →
  exec (.joinAckRx g c token) s = .next (s.finish ((h.shfCount g SHF_N.MARKER_UNEXPECTED).shfRaise EV_SHF.MARKER_UNEXP))

/-- LEAVE_RX of a member in JOIN_WAIT or ACTIVE: it is in HOLDOFF, and a LEAVE_ACK with the head end's token and reason, a reserved one as 0, waits (R165, R168). -/
def leaveRx : Prop := ∀ (g : Fin 16) (c : Fin 4) (reason : Nat) (token : Nat) (s : State),
  let h := s.hw
  let k := (h.joinWithdraw g c).modMbr g c (fun m => { m with outstanding := false, placed := false })
  h.phase g c = 1 ∨ h.phase g c = 2 →
  exec (.leaveRx g c reason token) s = .next (s.finish ((k.setPhase g c 6).leaveMarker g c 4 (if reason < 5 then reason else 0) token))

/-- LEAVE_ACK_RX with the token of a LEAVE that has been sent, in LEAVE_WAIT: the member is IDLE and its function stops (R165, R167). -/
def leaveAckRx : Prop := ∀ (g : Fin 16) (c : Fin 4) (token : Nat) (s : State),
  let h := s.hw
  h.phase g c = 4 →
  (h.mbr g c).leaveSent = true →
  h.rd (SHF_MBR_STATUS.TOKEN g c) = token →
  exec (.leaveAckRx g c token) s = .next (s.finish (h.memberLeft g c))

/-- JOIN_RETRY_EXPIRE with tries left: a further JOIN_REQ waits (R61, R165). -/
def joinRetryExpire_again : Prop := ∀ (g : Fin 16) (c : Fin 4) (s : State),
  let h := s.hw
  let k := h.modMbr g c (fun m => { m with outstanding := false, placed := false })
  h.phase g c = 1 →
  h.ready c = true →
  (h.mbr g c).outstanding = true →
  (h.mbr g c).placed = true →
  k.rd (SHF_MBR_STATUS.TRIES g c) < k.joinTries g c →
  exec (.joinRetryExpire g c) s = .next (s.finish (k.joinSend g c))

/-- JOIN_RETRY_EXPIRE after the last try: the member has failed to join (R165). -/
def joinRetryExpire : Prop := ∀ (g : Fin 16) (c : Fin 4) (s : State),
  let h := s.hw
  let k := h.modMbr g c (fun m => { m with outstanding := false, placed := false })
  h.phase g c = 1 →
  h.ready c = true →
  (h.mbr g c).outstanding = true →
  (h.mbr g c).placed = true →
  k.joinTries g c ≤ k.rd (SHF_MBR_STATUS.TRIES g c) →
  exec (.joinRetryExpire g c) s = .next (s.finish ((k.setPhase g c 5).shfRaise EV_SHF.JOIN_FAIL))

/-- JOIN_RETRY on a member in JOIN_FAILED: it begins to join again (R165). -/
def joinRetry : Prop := ∀ (m : Master) (g : Fin 16) (c : Fin 4) (v : Word) (s : State),
  let h := s.hw.reached m (SHF_MBR_CTRL.A g c)
  s.hw.admits m (SHF_MBR_CTRL.A g c) true →
  getField v 1 1 = 1 →
  h.phase g c = 5 →
  exec (.joinRetry m g c v) s = .next (s.finish ((h.plainWrite (SHF_MBR_CTRL.A g c) v).joinStart g c))

/-- REJOIN_HOLD_EXPIRE in HOLDOFF: the member begins to join (R165). -/
def rejoinHoldExpire : Prop := ∀ (g : Fin 16) (c : Fin 4) (s : State),
  let h := s.hw
  h.phase g c = 6 →
  exec (.rejoinHoldExpire g c) s = .next (s.finish (h.joinStart g c))

/-- LEAVE_FLUSH_DRAINED: a transmitting member in LEAVE_WAIT with empty queues sends its LEAVE (R167). -/
def leaveFlushDrained : Prop := ∀ (g : Fin 16) (c : Fin 4) (s : State),
  let h := s.hw
  let k := h.newToken g c
  h.phase g c = 4 →
  (h.mbr g c).leaveSent = false →
  h.leaveWaits g c = false →
  h.transmits c = true →
  h.memberQueues g c = [] →
  exec (.leaveFlushDrained g c) s = .next (s.finish (k.leaveMarker g c 3 (if k.rd (SHF_MBR_STATUS.HELD g c) = 1 then 2 else 1) (k.rd (SHF_MBR_STATUS.TOKEN g c))))

/-- LEAVE_TIMEOUT_EXPIRE after the LEAVE has been sent: the member is IDLE and its function stops (R165, R167). -/
def leaveTimeoutExpire : Prop := ∀ (g : Fin 16) (c : Fin 4) (s : State),
  let h := s.hw
  h.phase g c = 4 →
  (h.mbr g c).leaveSent = true →
  exec (.leaveTimeoutExpire g c) s = .next (s.finish (h.memberLeft g c))

/-- SHED_EVALUATE with more ACTIVE members than CEIL and one that may be shed: it is shed, and the clamp counted (R180, R181, R482; log entry 154). -/
def shedEvaluate_shed : Prop := ∀ (g : Fin 16) (load : Nat) (s : State),
  let h := s.hw
  let octets := max (h.grp g).dsOctets (h.grp g).usOctets
  let k := h.modGrp g (fun x => { x with dsOctets := 0, usOctets := 0 })
  let n := (k.activeMembers g).length
  k.rd (SHF_SHED_CFG.SHED_EN g) ≠ 0 →
  k.shedUnstable g = false →
  k.loadBelow g octets n (k.rd (SHF_SHED_CFG.LO_PCT g)) = false →
  k.rd (SHF_SHED_CFG.CEIL g) < n →
  (k.shedPick g).isSome = true →
  exec (.shedEvaluate g load) s = .next (s.finish ((k.shedClamp g).shedOne g))

/-- SHED_EVALUATE over octets below what one member fewer would carry, the hold not yet over: the run of low intervals is one longer; repeated sleep requests go out first (R180, R184). -/
def shedEvaluate_low : Prop := ∀ (g : Fin 16) (load : Nat) (s : State),
  let h := s.hw
  let octets := max (h.grp g).dsOctets (h.grp g).usOctets
  let o := h.modGrp g (fun x => { x with dsOctets := 0, usOctets := 0 })
  let n := (o.activeMembers g).length
  let k := o.sleepAgain g
  o.rd (SHF_SHED_CFG.SHED_EN g) ≠ 0 →
  o.shedUnstable g = false →
  o.loadBelow g octets n (o.rd (SHF_SHED_CFG.LO_PCT g)) = true →
  n ≤ k.rd (SHF_SHED_CFG.CEIL g) →
  k.rd (SHF_SHED_CFG.FLOOR g) ≤ n →
  k.loadAbove g octets n (k.rd (SHF_SHED_CFG.HI_PCT g)) = false →
  k.loadBelow g octets (n - 1) (k.rd (SHF_SHED_CFG.LO_PCT g)) = true →
  (k.grp g).shedCnt + 1 < k.rd (SHF_SHED_CFG.SHED_HOLD g) →
  exec (.shedEvaluate g load) s = .next (s.finish (k.modGrp g (fun x => { x with shedCnt := (k.grp g).shedCnt + 1 })))

/-! ## slot containers, playout and page changes -/

/-- CONTAINER_RX of a container that passes its checks: it is counted, recorded and demapped; with TWIN_EN, its channel in SLOT_FWD_MASK and the twin link UP it is also forwarded (R316, R317, R440, R457). -/
def containerRx : Prop := ∀ (c : Fin 4) (bs : Bytes) (t : List Bytes) (s : State),
  let h := s.hw
  let g := { h with slt := { h.slt with inbox := h.slt.inbox.set [] c t } }
  let d := ((g.count (SLT_CH_CNT.COUNT c 0)).contSeen c (beAt bs 2 2)).demap c bs
  h.slt.inbox.get [] c = bs :: t →
  g.sltOn = true →
  g.contCheck c bs = 0 →
  exec (.containerRx c) s = .next (s.finish (if d.rd GLB_STRAP.TWIN_EN = 1 ∧ bitN (d.rd TWN_COVER.SLOT_FWD_MASK) c = 1 ∧ d.rd TWN_STATUS.LINK_STATE = 2 then { d with twn := { d.twn with slots := d.twn.slots ++ [(true, c.val, bs)] } } else d))

/-- CONTAINER_RX of a container that fails a check: the failing check is counted and CONTAINER_ERR signalled (R317). -/
def containerRx_bad : Prop := ∀ (c : Fin 4) (bs : Bytes) (t : List Bytes) (n : Nat) (s : State),
  let h := s.hw
  let g := { h with slt := { h.slt with inbox := h.slt.inbox.set [] c t } }
  h.slt.inbox.get [] c = bs :: t →
  g.sltOn = true →
  g.contCheck c bs = n + 1 →
  exec (.containerRx c) s = .next (s.finish ((g.count (SLT_CH_CNT.COUNT c n)).sltRaise EV_SLT.CONTAINER_ERR))

/-- SLOT_FRAME_BOUNDARY with no page serving the new slot frame, or the twin link down: a local channel that accepted no container in the frame that ended counts it missing, one without its slot grant counts that, frames not taken are lost, commits come into force, and the circuits' defects are taken anew (R315, R317, R318, R322, R328). -/
def slotFrameBoundary : Prop := ∀ (s : State),
  let h := s.hw
  let f := h.fLoc
  let g := h.forAll (List.range 8) (fun x k => ((x.onlyIf ((!(x.slotCh k).got) = true ∧ k < 4) (fun y => y.count (SLT_CH_CNT.COUNT k 4))).onlyIf (k < 4 ∧ (x.onlyIf ((!(x.slotCh k).got) = true ∧ k < 4) (fun y => y.count (SLT_CH_CNT.COUNT k 4))).rd (SLT_CH_CFG.US_EN k) = 1 ∧ (x.slotCh k).granted = false) (fun y => y.count (SLT_CH_CNT.COUNT k 5))).modSlotCh k (fun y => { y with got := false, granted := false, missing := if (!(x.slotCh k).got) = true then min 15 (y.missing + 1) else 0 }))
  let o : Hw := g.loseFrames ((f + 65535) % 65536)
  let d := (({ o with slt := { o.slt with old := [] } } : Hw)).slotDefects
  h.sltOn = true →
  d.pageFor f = none ∨ d.linkUp = false →
  exec .slotFrameBoundary s = .next (s.finish (d))

/-- SLOT_FRAME_BOUNDARY with a page serving the new slot frame and the twin link up and TWIN_EN: after what every boundary does, the container of each channel that protects a circuit over the twin goes to the mate (R318, R457). -/
def slotFrameBoundary_twin : Prop := ∀ (q : Nat) (s : State),
  let h := s.hw
  let f := h.fLoc
  let g := h.forAll (List.range 8) (fun x k => ((x.onlyIf ((!(x.slotCh k).got) = true ∧ k < 4) (fun y => y.count (SLT_CH_CNT.COUNT k 4))).onlyIf (k < 4 ∧ (x.onlyIf ((!(x.slotCh k).got) = true ∧ k < 4) (fun y => y.count (SLT_CH_CNT.COUNT k 4))).rd (SLT_CH_CFG.US_EN k) = 1 ∧ (x.slotCh k).granted = false) (fun y => y.count (SLT_CH_CNT.COUNT k 5))).modSlotCh k (fun y => { y with got := false, granted := false, missing := if (!(x.slotCh k).got) = true then min 15 (y.missing + 1) else 0 }))
  let o : Hw := g.loseFrames ((f + 65535) % 65536)
  let d := (({ o with slt := { o.slt with old := [] } } : Hw)).slotDefects
  h.sltOn = true →
  d.pageFor f = some q →
  (d.linkUp && d.rd GLB_STRAP.TWIN_EN == 1) = true →
  exec .slotFrameBoundary s = .next (s.finish (d.forAll d.twinChans (fun x c => { (x.buildContainer q c f).1 with twn := { (x.buildContainer q c f).1.twn with slots := (x.buildContainer q c f).1.twn.slots ++ [(false, c, (x.buildContainer q c f).2)] } })))

/-- FRAME_PLAYOUT of the last frame of a slot packet that is in the store and due: the frames gathered leave as one slot packet by the circuit's port (R323, R324, R326). -/
def framePlayout : Prop := ∀ (x : Fin 1024) (f0 at' pg : Nat) (fr : SlotFrame) (s : State),
  let h := s.hw
  let f := (f0 + (h.circ x).played) % 65536
  let cap := h.circCap pg x
  let n := h.modCirc x (fun k => { k with played := k.played + 1 })
  let g := n.modCirc x (fun k => { k with gather := k.gather ++ [fr.circuit x cap.1], defect := k.defect || false })
  h.sltOn = true →
  h.playoutDue x = true →
  (h.circ x).start = some (f0, at') →
  h.pageNear f = some pg →
  h.t (CIRCUIT_STATE.ACTIVE_PATH x) = 0 →
  h.t (CIRCUIT_STATE.SF_W x) = 0 →
  h.t (CIRCUIT_STATE.PLM x) = 0 →
  (h.slotCh (h.pathCh x 0)).store.get none (f % 32) = some fr →
  fr.no = f →
  n.cf x (CIRCUIT.VALID x) = 1 →
  n.cf x (CIRCUIT.DS_EN x) = 1 →
  cap.2.1 ≤ (g.circ x).gather.length →
  exec (.framePlayout x) s = .next (s.finish (g.slotSend x cap.2.2 (g.slotPacket x cap.2.2 (g.circ x).gather (g.circ x).defect)))

/-- FRAME_PLAYOUT of a due frame that was not accepted, short of a whole slot packet: the frame is counted missing and N octets of 0xFF stand in its place (R326). -/
def framePlayout_missing : Prop := ∀ (x : Fin 1024) (f0 at' pg : Nat) (s : State),
  let h := s.hw
  let f := (f0 + (h.circ x).played) % 65536
  let cap := h.circCap pg x
  let n := h.modCirc x (fun k => { k with played := k.played + 1 })
  let g := ((n.circCount (CIRCUIT_STATE.DS_MISSING x) (some (x.val, 2))).note (4 + x) 22).modCirc x (fun k => { k with gather := k.gather ++ [List.replicate cap.1 (0xFF#8)], defect := k.defect || false })
  h.sltOn = true →
  h.playoutDue x = true →
  (h.circ x).start = some (f0, at') →
  h.pageNear f = some pg →
  h.t (CIRCUIT_STATE.ACTIVE_PATH x) = 0 →
  h.t (CIRCUIT_STATE.SF_W x) = 0 →
  h.t (CIRCUIT_STATE.PLM x) = 0 →
  (h.slotCh (h.pathCh x 0)).store.get none (f % 32) = none →
  n.cf x (CIRCUIT.VALID x) = 1 →
  n.cf x (CIRCUIT.DS_EN x) = 1 →
  (g.circ x).gather.length < cap.2.1 →
  exec (.framePlayout x) s = .next (s.finish (g))

/-- FRAME_PLAYOUT of a due frame of a circuit that plays nothing downstream: the frame passes, and nothing is counted (R326). -/
def framePlayout_silent : Prop := ∀ (x : Fin 1024) (f0 at' pg : Nat) (s : State),
  let h := s.hw
  let f := (f0 + (h.circ x).played) % 65536
  let n := h.modCirc x (fun k => { k with played := k.played + 1 })
  h.sltOn = true →
  h.playoutDue x = true →
  (h.circ x).start = some (f0, at') →
  h.pageNear f = some pg →
  n.cf x (CIRCUIT.VALID x) = 0 ∨ n.cf x (CIRCUIT.DS_EN x) = 0 →
  exec (.framePlayout x) s = .next (s.finish (n))

/-- SLOT_PACKET_RX of the packet expected next from the circuit's port, with room for its frames: they join the jitter buffer (R325). -/
def slotPacketRx : Prop := ∀ (p : Fin 512) (bs : Bytes) (o pg : Nat) (s : State),
  let h := s.hw
  let w := beAt bs (o + 2) 4
  let x := w / 2 ^ 22
  let seq := w % 4096
  let body := (bs.take (bs.length - 4)).drop (o + 6)
  let cap := h.circCap pg x
  let g := h.modCirc x (fun q => { q with expect := some ((seq + 1) % 4096) })
  h.slotAt bs = some o →
  h.sltOn = true →
  h.cf x (CIRCUIT.VALID x) ≠ 0 →
  h.pageNear h.fLoc = some pg →
  h.cf x (CIRCUIT.US_EN x) ≠ 0 →
  cap.2.2 = p.val →
  body.length = cap.2.1 * cap.1 →
  (h.circ x).expect = some seq →
  (g.circ x).jitter.length + (slotFrames cap.1 body cap.2.1).length ≤ g.cf x (CIRCUIT.JB_FRAMES x) →
  exec (.slotPacketRx p bs) s = .next (s.finish (g.modCirc x (fun q => { q with jitter := q.jitter ++ slotFrames cap.1 body cap.2.1 })))

/-! ## page retirement and the path selectors -/

/-- PAGE_SCAN_DONE: the entries the scan rejects are known and counted in BAD_ENTRIES, the page is armed, and it goes ON at once while the other is not ON (R320, R321). -/
def pageScanDone : Prop := ∀ (p : Fin 2) (s : State),
  let h := s.hw
  let ds := (h.listed 9 1).filter (fun i => decide (i / 16384 = p.val) && h.t (CMEM_DS.VALID i) == 1 && h.badEntry p (i % 16384 / 4096) (h.t (CMEM_DS.CIRCUIT i)) (h.t (CMEM_DS.OCTET i)))
  let us := (h.listed 9 2).filter (fun i => decide (i / 16384 = p.val) && h.t (CMEM_US.VALID i) == 1 && h.badEntry p (i % 16384 / 4096) (h.t (CMEM_US.CIRCUIT i)) (h.t (CMEM_US.OCTET i)))
  let g := h.modSlotPage p (fun x => { x with badDs := ds, badUs := us, armed := true })
  h.sltOn = true →
  h.pageState p = 1 →
  (h.slotPage p).armed = false →
  exec (.pageScanDone p) s = .next (s.finish ((g.wr (SLT_PAGE_STATUS.BAD_ENTRIES p) (min 4095 (ds.length + us.length))).pageTry p))

/-- PAGE_RETIRE of a page that is to start again: its circuits are captured, and an armed other page may go ON (R60, R320). -/
def pageRetire : Prop := ∀ (p : Fin 2) (s : State),
  let h := s.hw
  let g := h.lcOff (.page p)
  h.pageState p = 3 →
  g.pageState p = 1 →
  exec (.pageRetire p) s = .next (s.finish ((g.pageStarting p).pageTry (1 - p)))

/-- PAGE_RETIRE of a page that stops for good: it is OFF, and an armed other page may go ON (R60, R321). -/
def pageRetire_off : Prop := ∀ (p : Fin 2) (s : State),
  let h := s.hw
  let g := h.lcOff (.page p)
  h.pageState p = 3 →
  g.pageState p ≠ 1 →
  exec (.pageRetire p) s = .next (s.finish (g.pageTry (1 - p)))

/-- PSW_CLEAR with GO: command 0 is in force on the circuit named, its selector follows, and its defects are taken anew (R329). -/
def pswClear : Prop := ∀ (m : Master) (v : Word) (s : State),
  let h := s.hw.reached m SLT_PSW_CMD.A
  let g := h.plainWrite SLT_PSW_CMD.A (setField v 10 3 0)
  s.hw.admits m SLT_PSW_CMD.A true →
  getField (setField v 10 3 0) 31 1 = 1 →
  exec (.pswClear m v) s = .next (s.finish (((g.ts (CIRCUIT_STATE.CMD_IN_FORCE (g.rd SLT_PSW_CMD.CIRCUIT)) 0).select1p1 (g.rd SLT_PSW_CMD.CIRCUIT)).circDefects (g.rd SLT_PSW_CMD.CIRCUIT)))

/-- PSW_LOCKOUT with GO: command 1 is in force on the circuit named, its selector follows, and its defects are taken anew (R329). -/
def pswLockout : Prop := ∀ (m : Master) (v : Word) (s : State),
  let h := s.hw.reached m SLT_PSW_CMD.A
  let g := h.plainWrite SLT_PSW_CMD.A (setField v 10 3 1)
  s.hw.admits m SLT_PSW_CMD.A true →
  getField (setField v 10 3 1) 31 1 = 1 →
  exec (.pswLockout m v) s = .next (s.finish (((g.ts (CIRCUIT_STATE.CMD_IN_FORCE (g.rd SLT_PSW_CMD.CIRCUIT)) 1).select1p1 (g.rd SLT_PSW_CMD.CIRCUIT)).circDefects (g.rd SLT_PSW_CMD.CIRCUIT)))

/-- PSW_FORCE_WORK with GO: command 2 is in force on the circuit named, its selector follows, and its defects are taken anew (R329). -/
def pswForceWork : Prop := ∀ (m : Master) (v : Word) (s : State),
  let h := s.hw.reached m SLT_PSW_CMD.A
  let g := h.plainWrite SLT_PSW_CMD.A (setField v 10 3 2)
  s.hw.admits m SLT_PSW_CMD.A true →
  getField (setField v 10 3 2) 31 1 = 1 →
  exec (.pswForceWork m v) s = .next (s.finish (((g.ts (CIRCUIT_STATE.CMD_IN_FORCE (g.rd SLT_PSW_CMD.CIRCUIT)) 2).select1p1 (g.rd SLT_PSW_CMD.CIRCUIT)).circDefects (g.rd SLT_PSW_CMD.CIRCUIT)))

/-- PSW_FORCE_PROT with GO: command 3 is in force on the circuit named, its selector follows, and its defects are taken anew (R329). -/
def pswForceProt : Prop := ∀ (m : Master) (v : Word) (s : State),
  let h := s.hw.reached m SLT_PSW_CMD.A
  let g := h.plainWrite SLT_PSW_CMD.A (setField v 10 3 3)
  s.hw.admits m SLT_PSW_CMD.A true →
  getField (setField v 10 3 3) 31 1 = 1 →
  exec (.pswForceProt m v) s = .next (s.finish (((g.ts (CIRCUIT_STATE.CMD_IN_FORCE (g.rd SLT_PSW_CMD.CIRCUIT)) 3).select1p1 (g.rd SLT_PSW_CMD.CIRCUIT)).circDefects (g.rd SLT_PSW_CMD.CIRCUIT)))

/-- PSW_MANUAL_WORK with GO toward a path that is not in signal fail: command 4 is in force on the circuit named, its selector follows, and its defects are taken anew (R329). -/
def pswManualWork : Prop := ∀ (m : Master) (v : Word) (s : State),
  let h := s.hw.reached m SLT_PSW_CMD.A
  let g := h.plainWrite SLT_PSW_CMD.A (setField v 10 3 4)
  s.hw.admits m SLT_PSW_CMD.A true →
  getField (setField v 10 3 4) 31 1 = 1 →
  g.t (CIRCUIT_STATE.SF_W (g.rd SLT_PSW_CMD.CIRCUIT)) ≠ 1 →
  exec (.pswManualWork m v) s = .next (s.finish (((g.ts (CIRCUIT_STATE.CMD_IN_FORCE (g.rd SLT_PSW_CMD.CIRCUIT)) 4).select1p1 (g.rd SLT_PSW_CMD.CIRCUIT)).circDefects (g.rd SLT_PSW_CMD.CIRCUIT)))

/-- PSW_MANUAL_WORK while the working path is in signal fail: the command is discarded (R329). -/
def pswManualWork_refused : Prop := ∀ (m : Master) (v : Word) (s : State),
  let h := s.hw.reached m SLT_PSW_CMD.A
  let g := h.plainWrite SLT_PSW_CMD.A (setField v 10 3 4)
  s.hw.admits m SLT_PSW_CMD.A true →
  getField (setField v 10 3 4) 31 1 = 1 →
  g.t (CIRCUIT_STATE.SF_W (g.rd SLT_PSW_CMD.CIRCUIT)) = 1 →
  exec (.pswManualWork m v) s = .next (s.finish (g))

/-- PSW_MANUAL_PROT with GO toward a path that is not in signal fail: command 5 is in force on the circuit named, its selector follows, and its defects are taken anew (R329). -/
def pswManualProt : Prop := ∀ (m : Master) (v : Word) (s : State),
  let h := s.hw.reached m SLT_PSW_CMD.A
  let g := h.plainWrite SLT_PSW_CMD.A (setField v 10 3 5)
  s.hw.admits m SLT_PSW_CMD.A true →
  getField (setField v 10 3 5) 31 1 = 1 →
  g.t (CIRCUIT_STATE.SF_P (g.rd SLT_PSW_CMD.CIRCUIT)) ≠ 1 →
  exec (.pswManualProt m v) s = .next (s.finish (((g.ts (CIRCUIT_STATE.CMD_IN_FORCE (g.rd SLT_PSW_CMD.CIRCUIT)) 5).select1p1 (g.rd SLT_PSW_CMD.CIRCUIT)).circDefects (g.rd SLT_PSW_CMD.CIRCUIT)))

/-- PSW_HOLDOFF_EXPIRE: the path whose failing alone lasted the hold-off is known, and the selector and the defects follow (R329). -/
def pswHoldoffExpire : Prop := ∀ (x : Fin 1024) (s : State),
  let h := s.hw
  let w := h.t (CIRCUIT_STATE.SF_W x)
  let p := h.t (CIRCUIT_STATE.SF_P x)
  exec (.pswHoldoffExpire x) s = .next (s.finish (((h.modCirc x (fun k => { k with heldOff := if w = 1 ∧ p = 0 then some 0 else if w = 0 ∧ p = 1 then some 1 else none })).select1p1 x).circDefects x))

/-- PSW_WTR_EXPIRE with no command that keeps path 1: the selector is on path 0 again, and the switch is counted and signalled (R329). -/
def pswWtrExpire : Prop := ∀ (x : Fin 1024) (s : State),
  let h := s.hw
  let g := h.ts (CIRCUIT_STATE.WTR_RUN x) 0
  h.t (CIRCUIT_STATE.WTR_RUN x) ≠ 0 →
  g.t (CIRCUIT_STATE.CMD_IN_FORCE x) ≠ 3 →
  g.t (CIRCUIT_STATE.CMD_IN_FORCE x) ≠ 5 →
  g.t (CIRCUIT_STATE.ACTIVE_PATH x) ≠ 0 →
  exec (.pswWtrExpire x) s = .next (s.finish ((((g.ts (CIRCUIT_STATE.ACTIVE_PATH x) 0).circCount (CIRCUIT_STATE.SWITCH_COUNT x) (some (x.val, 6))).sltRaise EV_SLT.PATH_SWITCH).circDefects x))

/-! ## the local clock, time of day and its sources -/

/-- TIME_SET with a legal nanosecond value while TIM runs: the local clock steps to the time set, its fraction 0 (R334). -/
def timeSet : Prop := ∀ (m : Master) (s : State),
  let h := s.hw.reached m TIM_SET_CMD.A
  s.hw.admits m TIM_SET_CMD.A true →
  h.timRuns = true →
  h.rd TIM_SET_NS.NS < 1000000000 →
  exec (.timeSet m) s = .next (s.finish (h.timStep { sec := h.rd TIM_SET_SEC_HI.SEC * 2 ^ 32 + h.rd TIM_SET_SEC_LO.SEC, ns := h.rd TIM_SET_NS.NS, frac := 0 }))

/-- TIME_ADD while TIM runs: the local clock steps by the signed nanoseconds of TIM_SET_NS (R334). -/
def timeAdd : Prop := ∀ (m : Master) (s : State),
  let h := s.hw.reached m TIM_SET_CMD.A
  s.hw.admits m TIM_SET_CMD.A true →
  h.timRuns = true →
  exec (.timeAdd m) s = .next (s.finish (h.timStep (LTime.ofInt (Int.ofNat h.tim.now.parts + h.rdS TIM_SET_NS.NS * 2 ^ 32))))

/-- TIME_READ_LATCH: the nanoseconds are answered, and the rest of the same tick's time is latched for the reading master (R334). -/
def timeReadLatch : Prop := ∀ (m : Master) (s : State),
  let h := s.hw.reached m TIM_NOW_NS.A
  let g := { h with tim := { h.tim with latched := h.tim.latched.set {} m.latch h.tim.now } }
  s.hw.admits m TIM_NOW_NS.A false →
  exec (.timeReadLatch m) s = .next (s.finish (g.answer (BitVec.ofNat 32 g.tim.now.ns)))

/-- TOD_ARM with ARM and a count still to come: the update is armed (R337). -/
def todArm : Prop := ∀ (m : Master) (v : Word) (s : State),
  let h := s.hw.reached m TIM_TOD_ARM.A
  let g := (h.plainWrite TIM_TOD_ARM.A v).wr TIM_TOD_ARM.FORCE (getField v 1 1)
  s.hw.admits m TIM_TOD_ARM.A true →
  getField v 0 1 = 1 →
  (g.todSfc + 2 ^ 51 - g.sfc (g.rd TIM_CTRL.SRC_CH)) % 2 ^ 51 < 2 ^ 50 →
  exec (.todArm m v) s = .next (s.finish (g.wr TIM_TOD_ARM.ARM 1))

/-- TOD_ARM whose count has passed: the update ends at once, counted and signalled as late (R338). -/
def todArm_late : Prop := ∀ (m : Master) (v : Word) (s : State),
  let h := s.hw.reached m TIM_TOD_ARM.A
  let g := (h.plainWrite TIM_TOD_ARM.A v).wr TIM_TOD_ARM.FORCE (getField v 1 1)
  s.hw.admits m TIM_TOD_ARM.A true →
  getField v 0 1 = 1 →
  2 ^ 50 ≤ (g.todSfc + 2 ^ 51 - g.sfc (g.rd TIM_CTRL.SRC_CH)) % 2 ^ 51 →
  exec (.todArm m v) s = .next (s.finish (((g.wr TIM_TOD_ARM.ARM 0).timCount 2).timRaise EV_TIM.TOD_LATE_EV))

/-- TOD_UPDATE with the source channel in sync at the armed superframe count: ARM clears, and the offset of the time carried, with the delay, from the local time is judged (R335, R337). -/
def todUpdate : Prop := ∀ (s : State),
  let h := s.hw
  let g := h.wr TIM_TOD_ARM.ARM 0
  let tod := ({ sec := g.rd TIM_TOD_SEC_HI.SEC * 2 ^ 32 + g.rd TIM_TOD_SEC.SEC, ns := g.rd TIM_TOD_NS.NS, frac := 0 } : LTime)
  h.rd TIM_TOD_ARM.ARM ≠ 0 →
  h.timRuns = true →
  h.rd TIM_CTRL.SRC_EN ≠ 0 →
  h.todOther = false →
  g.inSync (g.rd TIM_CTRL.SRC_CH) = true →
  exec .todUpdate s = .next (s.finish (g.todJudge (Int.ofNat tod.parts + g.todDelay - Int.ofNat g.tim.now.parts)))

/-- TOD_UPDATE with the source channel out of sync: ARM clears and the update is counted as lost (R338). -/
def todUpdate_lost : Prop := ∀ (s : State),
  let h := s.hw
  let g := h.wr TIM_TOD_ARM.ARM 0
  h.rd TIM_TOD_ARM.ARM ≠ 0 →
  h.timRuns = true →
  h.rd TIM_CTRL.SRC_EN ≠ 0 →
  h.todOther = false →
  g.inSync (g.rd TIM_CTRL.SRC_CH) = false →
  exec .todUpdate s = .next (s.finish (g.timCount 3))

/-- TIM_SOURCE_WRITE: the register takes the word, an armed update ends as lost, and holdover begins when the new source is not in sync, and CLKOUT follows the fields written (R335, R338, R340, R347). -/
def timSourceWrite : Prop := ∀ (m : Master) (v : Word) (s : State),
  let h := s.hw.reached m TIM_CTRL.A
  let g := h.fullWrite TIM_CTRL.A v
  s.hw.admits m TIM_CTRL.A true →
  g.rd TIM_TOD_ARM.ARM = 0 →
  exec (.timSourceWrite m v) s = .next (s.finish ((if g.srcSync then g.timSource else g.clockHoldover.timSource).clkSync))

/-- TIM_SOURCE_WRITE while an update is armed: the update ends, counted as lost (R338). -/
def timSourceWrite_armed : Prop := ∀ (m : Master) (v : Word) (s : State),
  let h := s.hw.reached m TIM_CTRL.A
  let g := h.fullWrite TIM_CTRL.A v
  let u := (g.wr TIM_TOD_ARM.ARM 0).timCount 3
  s.hw.admits m TIM_CTRL.A true →
  g.rd TIM_TOD_ARM.ARM = 1 →
  exec (.timSourceWrite m v) s = .next (s.finish ((if u.srcSync then u.timSource else u.clockHoldover.timSource).clkSync))

/-- FREQ_MEASUREMENT with the source in sync: the frequency memory takes the correction FREQ_MEM_VALID sets, whether the source is within 50 ppm is kept for the DPLL, and the clock source is judged anew (R340, R346). -/
def freqMeasurement : Prop := ∀ (inc : Word) (off : Bool) (s : State),
  let h := s.hw
  h.timRuns = true →
  h.srcSync = true →
  exec (.freqMeasurement inc off) s = .next (s.finish ((({ h with tim := { h.tim with freqMem := some inc.toNat, offRate := off } }).wr TIM_STATUS.FREQ_MEM_VALID 1).timSource))

/-! ## captures, timestamp queues, timed slots and gate lists -/

/-- PPS_PULSE with PPS_OUT_EN while TIM runs, at a second the clock reached and has not yet pulsed: PPS_OUT rises for PPS_WIDTH (R348). -/
def ppsPulse : Prop := ∀ (s : State),
  let h := s.hw
  h.rd TIM_CTRL.PPS_OUT_EN = 1 →
  h.timRuns = true →
  h.tim.pps < h.tim.now.sec →
  exec .ppsPulse s = .next (s.finish (({ h with tim := { h.tim with pps := h.tim.now.sec } }).emit (.pps (h.rd TIM_CTRL.PPS_WIDTH))))

/-- EDGE_CAPTURE of an edge looked for at an event input with room: the local time and the clock's state join its captures and CAPTURE is signalled (R349). -/
def edgeCapture : Prop := ∀ (i : Fin 5) (falling : Bool) (s : State),
  let h := s.hw
  h.timRuns = true →
  h.rd (TIM_CAP.CAP_EN i) ≠ 0 →
  h.rd (TIM_CAP.EDGE i) = b2n falling →
  i.val ≠ 4 →
  (h.tim.caps.get [] i).length < 8 →
  exec (.edgeCapture i falling) s = .next (s.finish (({ h with tim := { h.tim with caps := h.tim.caps.set [] i (h.tim.caps.get [] i ++ [CapEntry.mk h.tim.now.ns (h.tim.now.sec % 2 ^ 32) (h.rd TIM_STATUS.STATE)]) } }).timRaise EV_TIM.CAPTURE))

/-- EDGE_CAPTURE with eight captures waiting: it is counted as lost (R349). -/
def edgeCapture_full : Prop := ∀ (i : Fin 5) (falling : Bool) (s : State),
  let h := s.hw
  h.timRuns = true →
  h.rd (TIM_CAP.CAP_EN i) ≠ 0 →
  h.rd (TIM_CAP.EDGE i) = b2n falling →
  i.val ≠ 4 →
  8 ≤ (h.tim.caps.get [] i).length →
  exec (.edgeCapture i falling) s = .next (s.finish (h.timCount 6))

/-- CAPTURE_POP: the oldest capture of the input leaves (R349). -/
def capturePop : Prop := ∀ (m : Master) (i : Fin 5) (v : Word) (s : State),
  let h := s.hw.reached m (TIM_CAP.A i)
  let g := h.plainWrite (TIM_CAP.A i) v
  s.hw.admits m (TIM_CAP.A i) true →
  getField v 2 1 = 1 →
  exec (.capturePop m i v) s = .next (s.finish ({ g with tim := { g.tim with caps := g.tim.caps.set [] i ((g.tim.caps.get [] i).drop 1) } }))

/-- TS_QUEUE_POP: the oldest timestamp of the queue leaves (R344). -/
def tsQueuePop : Prop := ∀ (m : Master) (q : Fin 16) (v : Word) (s : State),
  let h := s.hw.reached m (TIM_TSQ.A q)
  let g := h.plainWrite (TIM_TSQ.A q) v
  s.hw.admits m (TIM_TSQ.A q) true →
  getField v 8 1 = 1 →
  exec (.tsQueuePop m q v) s = .next (s.finish ({ g with tim := { g.tim with tsq := g.tim.tsq.set [] q ((g.tim.tsq.get [] q).drop 1) } }))

/-- SLOT_FIRE of a periodic slot that was not committed late: its time advances by its period, and its pin, event, count and consumers follow (R350, R351, R353). -/
def slotFire : Prop := ∀ (x : Fin 64) (s : State),
  let h := s.hw
  let g := { h with tim := { h.tim with late := h.tim.late.filter (· != x.val) } }
  h.t (SLOT.VALID x) ≠ 0 →
  h.timRuns = true →
  h.slotTime x ≤ h.tim.now.abs →
  h.t (SLOT.PERIOD x) ≠ 0 →
  h.tim.late.contains x.val = false →
  exec (.slotFire x) s = .next (s.finish ((g.setSlotTime x (h.slotTime x + h.t (SLOT.PERIOD x))).slotAct x))

/-- SLOT_FIRE of a slot without a period, not committed late: VALID clears, and its pin, event, count and consumers follow (R350, R351). -/
def slotFire_once : Prop := ∀ (x : Fin 64) (s : State),
  let h := s.hw
  let g := { h with tim := { h.tim with late := h.tim.late.filter (· != x.val) } }
  h.t (SLOT.VALID x) ≠ 0 →
  h.timRuns = true →
  h.slotTime x ≤ h.tim.now.abs →
  h.t (SLOT.PERIOD x) = 0 →
  h.tim.late.contains x.val = false →
  exec (.slotFire x) s = .next (s.finish ((g.ts (SLOT.VALID x) 0).slotAct x))

/-- SLOT_FIRE of a periodic slot committed late: its time is the first one still to come, and the firing with those skipped is counted (R351). -/
def slotFire_late : Prop := ∀ (x : Fin 64) (s : State),
  let h := s.hw
  let g := { h with tim := { h.tim with late := h.tim.late.filter (· != x.val) } }
  let n := nextSlot (h.slotTime x) (h.t (SLOT.PERIOD x)) h.tim.now.abs
  h.t (SLOT.VALID x) ≠ 0 →
  h.timRuns = true →
  h.slotTime x ≤ h.tim.now.abs →
  h.t (SLOT.PERIOD x) ≠ 0 →
  h.tim.late.contains x.val = true →
  exec (.slotFire x) s = .next (s.finish (((g.setSlotTime x n.1).timCount 5 (1 + n.2)).slotAct x))

/-- GATE_CONFIG_CHANGE with a list that has entries: its base, cycle and length are taken, CHANGE_PENDING sets, and its start is scheduled (R355). -/
def gateConfigChange : Prop := ∀ (m : Master) (p : Fin 512) (v : Word) (s : State),
  let h := s.hw.reached m (SUB_GATE_CTRL.A p)
  let g := h.fullWrite (SUB_GATE_CTRL.A p) v
  let base := (g.rd (SUB_GATE_BASE_SEC_HI.SEC p) * 2 ^ 32 + g.rd (SUB_GATE_BASE_SEC_LO.SEC p)) * 1000000000 + g.rd (SUB_GATE_BASE_NS.NS p)
  let n := g.modPort p (fun x => { x with gate := { x.gate with base := base, newCycle := g.rd (SUB_GATE_CYCLE.CYCLE p), newLen := g.rd (SUB_GATE_LEN.LEN p) } })
  s.hw.admits m (SUB_GATE_CTRL.A p) true →
  getField v 1 1 = 1 →
  g.rd (SUB_GATE_LEN.LEN p) ≠ 0 →
  exec (.gateConfigChange m p v) s = .next (s.finish ((n.wr (SUB_GATE_STATUS.CHANGE_PENDING p) 1).gateSchedule p))

/-- GATE_LIST_START at the scheduled time: the pending list runs, ACTIVE_LIST changes over, CHANGE_PENDING clears, the switch is counted and signalled, and the gates are where the list puts them (R355, R356). -/
def gateListStart : Prop := ∀ (p : Fin 512) (t : Nat) (s : State),
  let h := s.hw
  let g := h.modPort p (fun x => { x with gate := { x.gate with running := true, start := Int.ofNat t, cycle := x.gate.newCycle, len := x.gate.newLen, pend := none } })
  let n := (g.wr (SUB_GATE_STATUS.ACTIVE_LIST p) (1 - g.rd (SUB_GATE_STATUS.ACTIVE_LIST p))).wr (SUB_GATE_STATUS.CHANGE_PENDING p) 0
  (h.port p).gate.pend = some t →
  h.timRuns = true →
  h.rd TIM_STATUS.STATE ≠ 0 →
  t ≤ h.tim.now.abs →
  exec (.gateListStart p) s = .next (s.finish (((n.count (SUB_GATE_CNT.GATE_SWITCH_COUNT p)).raise (0x4000000 + p * 0x1000) EV_SUB.GATE_SWITCHED).gateAt p t))

/-- GATE_ENTRY_ADVANCE at the end of the entry in force: the list stands where that time puts it, and the gates are those of the entry there (R354). -/
def gateEntryAdvance : Prop := ∀ (p : Fin 512) (s : State),
  let h := s.hw
  h.timRuns = true →
  (h.port p).gate.running = true →
  (h.port p).gate.entryEnd ≤ h.tim.now.abs →
  exec (.gateEntryAdvance p) s = .next (s.finish (h.gateAt p (h.port p).gate.entryEnd))

/-! ## roles, claims and handovers of the twins -/

/-- TWN_ACT_IN falls while a claim has outlasted its contention window: the twin becomes ACTIVE, ROLE_CHANGE is signalled and every MDIO master begins its takeover actions (R443, R465). -/
def twnActInChange : Prop := ∀ (s : State),
  let h := s.hw
  let g := h.wr TWN_STATUS.ACT_IN 0
  h.actIn = true →
  g.paired = true →
  g.role = 2 →
  g.twn.windowOver = true →
  exec (.twnActInChange false) s = .next (s.finish (((g.setRole 3).twnRaise EV_TWN.ROLE_CHANGE).takeover))

/-- TWN_ACT_IN rises at twin B during the contention window of a claim that is no handover: it withdraws to STANDBY, counts CONTEND_LOST and signals it (R443). -/
def twnActInChange_lost : Prop := ∀ (s : State),
  let h := s.hw
  let g := h.wr TWN_STATUS.ACT_IN 1
  h.actIn = false →
  g.paired = true →
  g.role = 2 →
  g.isB = true →
  g.twn.handover = false →
  g.twn.windowOver = false →
  exec (.twnActInChange true) s = .next (s.finish (((g.setRole 1).twnCount 2).twnRaise EV_TWN.CONTEND_LOST_EV))

/-- TWN_ACT_IN rises while the twin is ACTIVE: B falls back to STANDBY and counts a split, A signals SPLIT_EV and stays (R443). -/
def twnActInChange_split : Prop := ∀ (s : State),
  let h := s.hw
  let g := h.wr TWN_STATUS.ACT_IN 1
  h.actIn = false →
  g.paired = true →
  g.role = 3 →
  exec (.twnActInChange true) s = .next (s.finish (if g.isB = true then (g.setRole 1).twnCount 3 else g.twnRaise EV_TWN.SPLIT_EV))

/-- CLAIM_HOLD_EXPIRE with AUTO_TAKEOVER, the link not UP and TWN_ACT_IN low: an enabled STANDBY twin without a role conflict claims activity, raising TWN_ACT_OUT (R441, R442). -/
def claimHoldExpire : Prop := ∀ (s : State),
  let h := s.hw
  let g := h.setRole 2
  h.rd TWN_CTRL.AUTO_TAKEOVER = 1 →
  h.linkUp = false →
  h.actIn = false →
  h.paired = true →
  h.role = 1 →
  h.rd TWN_CTRL.CLAIM_EN = 1 →
  h.rd TWN_STATUS.ROLE_CONFLICT = 0 →
  exec .claimHoldExpire s = .next (s.finish ({ g with twn := { g.twn with handover := false } }))

/-- CONTENTION_WINDOW_END of a claim that sees TWN_ACT_IN low, or of a handover: the twin becomes ACTIVE, ROLE_CHANGE is signalled and the MDIO masters begin their takeover actions (R443, R465, R467). -/
def contentionWindowEnd : Prop := ∀ (s : State),
  let h := s.hw
  h.role = 2 →
  h.actIn = false ∨ h.twn.handover = true →
  exec .contentionWindowEnd s = .next (s.finish (((h.setRole 3).twnRaise EV_TWN.ROLE_CHANGE).takeover))

/-- CONTENTION_WINDOW_END of a claim that still sees TWN_ACT_IN high: it waits for the wire to fall (R443). -/
def contentionWindowEnd_wait : Prop := ∀ (s : State),
  let h := s.hw
  h.role = 2 →
  h.actIn = true →
  h.twn.handover = false →
  exec .contentionWindowEnd s = .next (s.finish ({ h with twn := { h.twn with windowOver := true } }))

/-- HANDOVER_CLAIM_TIMEOUT of a claim that still sees TWN_ACT_IN high: STANDBY, WIRE_FAULT and its event (R443). -/
def handoverClaimTimeout : Prop := ∀ (s : State),
  let h := s.hw
  h.role = 2 →
  h.twn.handover = true →
  h.actIn = true →
  exec .handoverClaimTimeout s = .next (s.finish (((h.setRole 1).wr TWN_STATUS.WIRE_FAULT 1).twnRaise EV_TWN.WIRE_FAULT_EV))

/-- HANDOVER by an ACTIVE twin whose peer is a claimable, synchronised STANDBY over an UP link: the twin enters YIELDING and its next heartbeat asks for the handover (R467). -/
def handover : Prop := ∀ (m : Master) (v : Word) (s : State),
  let h := s.hw.reached m TWN_CTRL.A
  let g := h.plainWrite TWN_CTRL.A v
  let y := g.setRole 4
  s.hw.admits m TWN_CTRL.A true →
  g.role = 3 →
  g.linkUp = true →
  g.rd TWN_STATUS.PEER_STATE = 1 →
  g.rd TWN_STATUS.PEER_CLAIM_EN = 1 →
  g.rd TWN_STATUS.PEER_MIRROR_SYNC = 1 →
  exec (.handover m v) s = .next (s.finish ({ y with twn := { y.twn with cmd := 1 } }))

/-- HANDOVER_REQ_RX over an UP link: the next heartbeat carries the acknowledgement (R467). -/
def handoverReqRx : Prop := ∀ (s : State),
  let h := s.hw
  h.linkUp = true →
  h.paired = true →
  exec .handoverReqRx s = .next (s.finish ({ h with twn := { h.twn with cmd := 2 } }))

/-- HANDOVER_ACK_RX by a YIELDING twin: its port nodes forward to the peer from now on (R454, R467). -/
def handoverAckRx : Prop := ∀ (s : State),
  let h := s.hw
  h.linkUp = true →
  h.role = 4 →
  exec .handoverAckRx s = .next (s.finish ({ h with twn := { h.twn with forward := true } }))

/-- YIELD_RX: an enabled STANDBY twin without a role conflict claims activity as a handover (R442, R467). -/
def yieldRx : Prop := ∀ (s : State),
  let h := s.hw
  let g := h.setRole 2
  h.linkUp = true →
  h.paired = true →
  h.role = 1 →
  h.rd TWN_CTRL.CLAIM_EN = 1 →
  h.rd TWN_STATUS.ROLE_CONFLICT = 0 →
  exec .yieldRx s = .next (s.finish ({ g with twn := { g.twn with handover := true } }))

/-- HANDOVER_ACK_TIMEOUT of a YIELDING twin not yet acknowledged: it is ACTIVE again, the refusal is counted and signalled, and held functions are judged anew (R443, R467). -/
def handoverAckTimeout : Prop := ∀ (s : State),
  let h := s.hw
  h.role = 4 →
  h.twn.forward = false →
  exec .handoverAckTimeout s = .next (s.finish ((({ h with twn := { h.twn with forward := false, drained := false, cmd := 0 } } : Hw).wr TWN_STATUS.ROLE_STATE 3 |>.twnCount 4 |>.twnRaise EV_TWN.HANDOVER_REFUSED_EV).holdAll))

/-! ## the end of handovers, heartbeats and link training -/

/-- HANDOVER_DRAIN_EXPIRE of an acknowledged YIELDING twin: its ports are held off from now on (R467). -/
def handoverDrainExpire : Prop := ∀ (s : State),
  let h := s.hw
  h.role = 4 →
  h.twn.forward = true →
  exec .handoverDrainExpire s = .next (s.finish (({ h with twn := { h.twn with drained := true } } : Hw).holdAll))

/-- HANDOVER_PORTS_OFF of a drained YIELDING twin with every port OFF: YIELD is sent, activity is released to STANDBY and HANDOVER_DONE is signalled (R443, R467). -/
def handoverPortsOff : Prop := ∀ (s : State),
  let h := s.hw
  h.role = 4 →
  h.twn.drained = true →
  (List.range 512).all (fun p => h.portState p == 0) = true →
  exec .handoverPortsOff s = .next (s.finish (((h.beat 3).setRole 1).twnRaise EV_TWN.HANDOVER_DONE))

/-- HEARTBEAT_TX of a link that is ON and out of DOWN: out of idle with a TRAIN burst first, a BEAT block with the twin's state and the command in hand leaves on every lane, BEAT_SEQ and the reported generation's domain advance, and the command is spent (R447, R449, R450). -/
def heartbeatTx : Prop := ∀ (s : State),
  let h := s.hw
  let w := h.twinWake
  let g := w.emit (.twin ((List.range 8).map (fun n => (n, .beat n (w.beatBytes h.twn.cmd)))))
  h.linkSends = true →
  exec .heartbeatTx s = .next (s.finish ({ g with twn := { g.twn with seq := (g.twn.seq + 1) % 65536, genDom := (g.twn.genDom + 1) % 32, cmd := 0 } }))

/-- HEARTBEAT_RX over an UP link: differing copies and blocks of no kind are counted, the peer's state is taken into TWN_STATUS with PEER_TRUNK_EV at the rise of TRUNK_FAIL, the misses restart, the peer's generation is kept, and redirection ends unless the peer is in STANDBY; a paired twin then sees a peer of its own role as a conflict, a claiming or active peer as a split, acts on the command and negotiates (R443, R445, R449, R463, R467). -/
def heartbeatRx : Prop := ∀ (bs : Vector Byte 6) (d : Fin 8) (n : Nat) (s : State),
  let h := s.hw
  let b := byteAt bs.toList 0
  let g := (h.twnCount 14 (d + n)).onlyIf (b / 4 % 2 = 1 ∧ h.rd TWN_STATUS.PEER_TRUNK_FAIL = 0) (fun x => x.twnRaise EV_TWN.PEER_TRUNK_EV)
  let p := ((g.wr TWN_STATUS.PEER_STATE (b / 32)).wr TWN_STATUS.PEER_CLAIM_EN (b / 8 % 2)).wr TWN_STATUS.PEER_TRUNK_FAIL (b / 4 % 2)
  let q := (p.wr TWN_STATUS.PEER_MIRROR_SYNC (b % 2)).wr TWN_STATUS.PEER_CH_O5 (byteAt bs.toList 1 / 16)
  let k := { q with twn := { q.twn with misses := 0, peerGen := q.twn.peerGen.set 0 (byteAt bs.toList 2 / 8) (byteAt bs.toList 3) } }
  let r := k.onlyIf (b / 32 ≠ 1) (fun x => x.setRedirect 0)
  let c := r.onlyIf (b / 16 % 2 = r.rd TWN_STATUS.ROLE) (fun x => (x.wr TWN_STATUS.ROLE_CONFLICT 1).twnRaise EV_TWN.ROLE_CONFLICT_EV)
  let y := c.onlyIf (b / 32 = 2 ∨ b / 32 = 3) (fun x => x.roleSplit)
  h.linkUp = true →
  exec (.heartbeatRx bs d n) s = .next (s.finish (if r.paired = true then (y.beatCommand (byteAt bs.toList 1 % 16)).negotiate else r))

/-- HEARTBEAT_MISS of an UP link, the fifth in a row not yet: it is counted (R449). -/
def heartbeatMiss : Prop := ∀ (s : State),
  let h := s.hw
  let g := h.twnCount 1
  h.linkUp = true →
  h.twn.misses + 1 < 5 →
  exec .heartbeatMiss s = .next (s.finish ({ g with twn := { h.twn with misses := h.twn.misses + 1 } }))

/-- HEARTBEAT_MISS of an UP link, the fifth in a row: the miss is counted and the link goes DOWN, with LINK_DOWN counted, its queues emptied, redirection and synchronisation ended and LINK_CHANGE signalled (R446, R449). -/
def heartbeatMiss_fifth : Prop := ∀ (s : State),
  let h := s.hw
  let g := h.twnCount 1
  let k := { g with twn := { h.twn with misses := h.twn.misses + 1 } }
  h.linkUp = true →
  4 ≤ h.twn.misses →
  k.rd TWN_STATUS.LINK_STATE = 2 →
  exec .heartbeatMiss s = .next (s.finish (((k.linkLost.twnCount 0).twnRaise EV_TWN.LINK_CHANGE).holdAll))

/-- TWIN_TRAIN_COMPLETE of the training link, no lane of it in test, with a lane order found and a skew within 16 blocks: the lanes' results are shown, the link is UP with LINK_CHANGE, its lanes carry frames from lane 0 on, an enabled sweep of the ACTIVE twin begins, and slot defects follow (R447, R448, R460). -/
def twinTrainComplete : Prop := ∀ (inv : Fin 256) (r : Bool) (k : Fin 32) (s : State),
  let h := s.hw
  let a := (h.wr TWN_LANE_STATUS.LOCK 255).wr TWN_LANE_STATUS.INVERT inv
  let g := (((a.wr TWN_LANE_STATUS.REVERSED (b2n r)).wr TWN_LANE_STATUS.SKEW k).wr TWN_STATUS.LINK_STATE 2).twinLaneSync
  let u := g.twnRaise EV_TWN.LINK_CHANGE
  h.st .twinLink = 2 →
  h.rd TWN_STATUS.LINK_STATE = 1 →
  (List.range 8).any (fun i => h.capRd (SRD_LANE_CTRL.TEST (64 + i)) == 1) = false →
  k.val ≤ 16 →
  exec (.twinTrainComplete inv (some r) k) s = .next (s.finish (({ u with twn := { u.twn with misses := 0, lane := 0 } } : Hw).sweepStart.slotDefects))

/-- TWIN_TRAIN_COMPLETE with neither lane order: LANE_ORDER_ERR is signalled and the link goes on training (R448). -/
def twinTrainComplete_order : Prop := ∀ (inv : Fin 256) (k : Fin 32) (s : State),
  let h := s.hw
  h.st .twinLink = 2 →
  h.rd TWN_STATUS.LINK_STATE = 1 →
  (List.range 8).any (fun i => h.capRd (SRD_LANE_CTRL.TEST (64 + i)) == 1) = false →
  exec (.twinTrainComplete inv none k) s = .next (s.finish (h.twnRaise EV_TWN.LANE_ORDER_ERR))

/-! ## the twin link and received twin frames -/

/-- TWIN_LINK_RETRAIN of a link that is ON and DOWN: it trains, every lane of it sending its training pattern (R446, R448). -/
def twinLinkRetrain : Prop := ∀ (s : State),
  let h := s.hw
  h.st .twinLink = 2 →
  h.rd TWN_STATUS.LINK_STATE = 0 →
  exec .twinLinkRetrain s = .next (s.finish ((h.wr TWN_STATUS.LINK_STATE 1).twinLaneSync))

/-- TWIN_LANE_FAULT of an UP link with a lane out of lock or the skew above 16 blocks: the lanes' state is shown and the link goes DOWN as after missed heartbeats (R446, R448). -/
def twinLaneFault : Prop := ∀ (lock : Fin 256) (k : Nat) (s : State),
  let h := s.hw
  let g := (h.wr TWN_LANE_STATUS.LOCK lock).wr TWN_LANE_STATUS.SKEW (min k 31)
  h.linkUp = true →
  lock.val ≠ 255 ∨ 16 < k →
  exec (.twinLaneFault lock k) s = .next (s.finish (g.linkFault.holdAll))

/-- TWIN_IDLE_ENTRY with IDLE_EN, the link UP and nothing waiting for it: the link idles, its lanes in electrical idle (R450). -/
def twinIdleEntry : Prop := ∀ (s : State),
  let h := s.hw
  h.rd TWN_CTRL.IDLE_EN = 1 →
  h.linkUp = true →
  h.twinQuiet = true →
  exec .twinIdleEntry s = .next (s.finish (({ h with twn := { h.twn with idle := true } } : Hw).twinLaneSync))

/-- PORT_FRAME_RX of an unprotected frame: its packet, of source 514, enters the first pipeline (R451, R454). -/
def portFrameRx : Prop := ∀ (bs : Bytes) (s : State),
  let h := s.hw
  TwinPlain h 0 bs →
  exec (.portFrameRx bs) s = .next (s.finish ((h.fifoPush pipeA (twinPkt (bs.drop 7, false))).1))

/-- DS_PORT_RX of an unprotected frame for a port whose DS_Q entry is valid: its packet is enqueued to that entry's queue with the traffic class and colour of the header (R451, R454). -/
def dsPortRx : Prop := ∀ (bs : Bytes) (s : State),
  let h := s.hw
  let x := beAt bs 0 7
  TwinPlain h 1 bs →
  bitsOf x 22 10 < 512 →
  h.t (DS_Q.VALID (bitsOf x 22 10)) = 1 →
  exec (.dsPortRx bs) s = .next (s.finish (h.enqueue (h.t (DS_Q.QUEUE (bitsOf x 22 10))) { twinPkt (bs.drop 7, false) with tc := bitsOf x 34 3, color := bitsOf x 32 2 }))

/-- US_QUEUE_RX of an unprotected frame for a queue of the first 65,536: its packet is enqueued there with the traffic class and colour of the header (R451, R455). -/
def usQueueRx : Prop := ∀ (bs : Bytes) (s : State),
  let h := s.hw
  let x := beAt bs 0 7
  TwinPlain h 2 bs →
  bitsOf x 14 18 < 65536 →
  exec (.usQueueRx bs) s = .next (s.finish (h.enqueue (bitsOf x 14 18) { twinPkt (bs.drop 7, false) with tc := bitsOf x 34 3, color := bitsOf x 32 2 }))

/-- MIRROR_RX by a STANDBY twin of a record of KIND 0 whose block's domain runs, whose table and entry exist and allow a commit: a gate command in progress completes, and the record is committed to its segment (R458, R459). -/
def mirrorRx : Prop := ∀ (bs : Bytes) (b : Nat) (t : Nat × TabRow) (s : State),
  let h := s.hw
  let r := bs.drop 7
  let d := beAt r 0 4
  let g := (h.settle (b + 0x48)).gateFinish b
  let k := ({ base := b, gate := t.1, row := t.2, x := beAt r 4 4, seg := bitsOf d 3 4 } : GateSel)
  TwinPlain h 3 bs →
  h.role = 1 →
  bitsOf d 29 3 = 0 →
  mirrorBase (bitsOf d 0 3) (bitsOf d 16 10) = some b →
  h.domOff (b + 0x48) = false →
  bitsOf d 0 3 ≠ 7 →
  bitsOf d 0 3 ≠ 6 →
  gateTable b (bitsOf d 8 8) = some t →
  g.entryErr k 3 = 0 →
  exec (.mirrorRx bs) s = .next (s.finish (g.commitSeg k ((List.range 16).map (fun i => BitVec.ofNat 32 (beAt r (8 + 4 * i) 4)))))

/-- MIRROR_RX by a STANDBY twin of a record of KIND 3 after a sweep received without a loss: the twin is synchronised (R460). -/
def mirrorRx_end : Prop := ∀ (bs : Bytes) (s : State),
  let h := s.hw
  TwinPlain h 3 bs →
  h.role = 1 →
  bitsOf (beAt (bs.drop 7) 0 4) 29 3 = 3 →
  h.twn.clean = true →
  exec (.mirrorRx bs) s = .next (s.finish (h.setMirrorSync 1))

/-- MAILBOX_RX of a message for a channel below 128 whose receiver is on this twin and that takes it: the message is stored as master 0x70 with the mode, generation and originator of the header, and a RESULT frame of status 0 waits to be sent (R456). -/
def mailboxRx : Prop := ∀ (bs : Bytes) (s : State),
  let h := s.hw
  let x := beAt bs 0 7
  let ch := bitsOf x 29 8
  let words := (List.range 8).map (fun i => BitVec.ofNat 32 (beAt (bs.drop 7) (4 * i) 4))
  TwinPlain h 4 bs →
  h.t (MBX_CFG.RX_DOM ch) ≠ 28 →
  ch < 128 →
  h.postStatus 0x70 ch = 0 →
  exec (.mailboxRx bs) s = .next (s.finish ((h.mbxStoreAs ch { words := words, master := 0x70, mode := bitsOf x 10 3, gen := bitsOf x 13 8, seq := 0, orig := bitsOf x 21 8 }).twinMbx (.result ch 0)))

/-! ## resent messages, slot frames, mirroring and redirection -/

/-- MBX_RESULT_RX of status 0 for a forwarded message: MBX_FWD is counted, the message leaves its channel and the next one is forwarded (R456). -/
def mbxResultRx : Prop := ∀ (bs : Bytes) (s : State),
  let h := s.hw
  let ch := bitsOf (beAt bs 0 7) 29 8
  let g := { h with twn := { h.twn with sent := h.twn.sent.erase ch } }
  TwinPlain h 5 bs →
  h.twn.sent.contains ch = true →
  h.twn.full.contains ch = false →
  bitsOf (beAt bs 0 7) 27 2 = 0 →
  exec (.mbxResultRx bs) s = .next (s.finish (((g.twnCount 9).mbxRemove ch).mbxForward ch))

/-- MBX_RESULT_RX of status FULL for a forwarded message: it waits to be sent again (R456). -/
def mbxResultRx_full : Prop := ∀ (bs : Bytes) (s : State),
  let h := s.hw
  let ch := bitsOf (beAt bs 0 7) 29 8
  TwinPlain h 5 bs →
  h.twn.sent.contains ch = true →
  h.twn.full.contains ch = false →
  bitsOf (beAt bs 0 7) 27 2 = 1 →
  exec (.mbxResultRx bs) s = .next (s.finish ({ h with twn := { h.twn with full := ch :: h.twn.full } }))

/-- MBX_RESEND_TIMER of a message that was answered FULL: it is sent again (R456). -/
def mbxResendTimer : Prop := ∀ (ch : Fin 256) (s : State),
  let h := s.hw
  h.twn.full.contains ch.val = true →
  exec (.mbxResendTimer ch) s = .next (s.finish (({ h with twn := { h.twn with full := h.twn.full.erase ch.val, sent := h.twn.sent.erase ch.val } } : Hw).mbxForward ch))

/-- SLOT_DS_RX of an unprotected container of a frame not seen before, with a slot page ON: it is accepted on the twin channel and demapped (R317, R457). -/
def slotDsRx : Prop := ∀ (bs : Bytes) (s : State),
  let h := s.hw
  let k := 4 + bitsOf (beAt bs 0 7) 35 2
  let f := beAt (bs.drop 7) 2 2
  TwinPlain h 6 bs →
  h.sltOn = true →
  h.pageOn.isSome = true →
  h.contFresh k f = true →
  exec (.slotDsRx bs) s = .next (s.finish ((h.contSeen k f).demap k (bs.drop 7)))

/-- SLOT_US_RX of an unprotected container, with none waiting on its channel: it waits to be sent on that channel (R457). -/
def slotUsRx : Prop := ∀ (bs : Bytes) (s : State),
  let h := s.hw
  let c := bitsOf (beAt bs 0 7) 35 2
  TwinPlain h 7 bs →
  h.sltOn = true →
  (h.slotCh c).twinUs.isSome = false →
  exec (.slotUsRx bs) s = .next (s.finish (h.modSlotCh c (fun x => { x with twinUs := some (h.clk, bs.drop 7) })))

/-- MIRROR_SWEEP with SWEEP 1 by an ACTIVE twin that mirrors over an UP link: a sweep begins and SWEEP_BUSY sets (R460). -/
def mirrorSweep : Prop := ∀ (m : Master) (v : Word) (s : State),
  let h := s.hw.reached m TWN_MIRROR_CFG.A
  let g := h.plainWrite TWN_MIRROR_CFG.A v
  s.hw.admits m TWN_MIRROR_CFG.A true →
  getField v 31 1 = 1 →
  g.role = 3 →
  g.rd TWN_CTRL.MIRROR_EN = 1 →
  g.linkUp = true →
  exec (.mirrorSweep m v) s = .next (s.finish (({ g with twn := { g.twn with sweep := some (0, 0, 0), sweepBegun := false, octets := 0, sweepOctets := 0 } } : Hw).wr TWN_MIRROR_STATUS.SWEEP_BUSY 1))

/-- REVERT_HOLD_EXPIRE with REVERT_EN and a covered channel in O5: redirection ends (R463). -/
def revertHoldExpire : Prop := ∀ (s : State),
  let h := s.hw
  h.rd TWN_CTRL.REVERT_EN = 1 →
  h.coveredO5 = true →
  exec .revertHoldExpire s = .next (s.finish (h.setRedirect 0))

/-- CLEAR_REDIRECT with a covered channel in O5: redirection ends (R463). -/
def clearRedirect : Prop := ∀ (m : Master) (v : Word) (s : State),
  let h := s.hw.reached m TWN_CTRL.A
  let g := h.plainWrite TWN_CTRL.A v
  s.hw.admits m TWN_CTRL.A true →
  h.coveredO5 = true →
  exec (.clearRedirect m v) s = .next (s.finish (g.setRedirect 0))

/-- REDIRECT_SERVE while REDIRECT is set: the head packet of the next mapped upstream queue that no frame has been cut from, found in round robin, leaves for the peer's queue when the transmit FIFO has room for it (R462, R463). -/
def redirectServe : Prop := ∀ (k : Pkt) (s : State),
  let h := s.hw
  let parts := ((List.range 4).map (fun c => (h.act c).frags.map (fun f => f.q))).flatten
  let lst := ((h.backlog false ++ parts).eraseDups).filter (fun q => h.t (QMAP.VALID q) == 1)
  let q := nextAfter lst h.twn.redirRr
  let g := (h.take q).twinPut (.usQueue (h.t (QMAP.QUEUE q)) { k with sent := 0 })
  h.rd TWN_STATUS.REDIRECT ≠ 0 →
  lst ≠ [] →
  h.fragsOf q = none →
  h.headPkt q = some k →
  h.twinRoom k.len = true →
  exec .redirectServe s = .next (s.finish ({ g with twn := { g.twn with redirRr := q + 1 } }))

/-- TWIN_FRAME_TX of an UP link with a container waiting: it leaves first, as a SLOT_DS or SLOT_US frame of its channel (R452, R457). -/
def twinFrameTx : Prop := ∀ (ds : Bool) (c : Nat) (bs : Bytes) (t : List (Bool × Nat × Bytes)) (s : State),
  let h := s.hw
  h.linkUp = true →
  h.twn.slots = (ds, c, bs) :: t →
  exec .twinFrameTx s = .next (s.finish (({ h with twn := { h.twn with slots := t } } : Hw).twinFrame (if ds then 6 else 7) (c * 2 ^ 35) bs))

/-- TWIN_FRAME_TX with no container waiting and a mailbox message in front: a MAILBOX frame leaves with the message's channel, master, generation, mode and words (R452, R456). -/
def twinFrameTx_message : Prop := ∀ (ch : Nat) (msg : Msg) (t : List TwinMbx) (s : State),
  let h := s.hw
  h.linkUp = true →
  h.twn.slots = [] →
  h.twn.mbx = .message ch msg :: t →
  exec .twinFrameTx s = .next (s.finish (({ h with twn := { h.twn with mbx := t } } : Hw).twinFrame 4 (ch * 2 ^ 29 + msg.master % 256 * 2 ^ 21 + msg.gen % 256 * 2 ^ 13 + msg.mode % 8 * 2 ^ 10) ((msg.words.map (fun (w : Word) => beBytes 4 w.toNat)).flatten)))

/-- TWIN_FRAME_TX with neither containers nor mailbox frames waiting, nothing lost and a record in front: a MIRROR frame leaves with it and QUEUED follows (R452, R458). -/
def twinFrameTx_mirror : Prop := ∀ (r : MirRec) (t : List MirRec) (s : State),
  let h := s.hw
  h.linkUp = true →
  h.twn.slots = [] →
  h.twn.mbx = [] →
  h.twn.mirrorLost = false →
  h.twn.mirror = r :: t →
  exec .twinFrameTx s = .next (s.finish ((h.setMirror t).twinFrame 3 0 r.bytes))

end Sys2Proof.Claims

open Sys2Proof Sys2Proof.Machine Sys2Proof.Claims in
/-- A step takes the command at the front of the queue; with none waiting it is one cycle of the time counter (spec/01_terminal_architecture.md, spec/13_time_and_synchronisation.md). -/
def Obligations.StepTakesTheFrontCommand : Prop :=
  (∀ (c : Instr) (rest : List Instr) (s : State), step { s with pending := c :: rest } = exec c { s with pending := rest }) ∧
  ∀ s : State, step { s with pending := [] } = .next (({ s with pending := [] } : State).finish s.hw.tick)

open Sys2Proof Sys2Proof.Machine Sys2Proof.Claims in
/-- One cycle adds 4 ns and INC_FRAC to the local clock, with both carries and the wrap of the seconds (spec/13_time_and_synchronisation.md). -/
def Obligations.TickAdvancesTheLocalClock : Prop :=
  ∀ s : State, s.pending = [] → s.hw.timRuns = true → s.hw.rd PWR_STATE_STATUS.BUSY ≠ 1 → s.hw.powerState ≠ 3 →
    s.hw.pwr.todo = [] → s.hw.pwr.trimDue = [] → s.hw.offDue = [] →
    let n := s.hw.tim.now
    n.ns < 1000000000 → n.frac < 2 ^ 32 → n.sec < 2 ^ 48 →
    let f := n.frac + s.hw.rd TIM_INC_FRAC.INC
    let x := n.ns + 4 + f / 2 ^ 32
    ∃ t, step s = .next t ∧ t.hw.tim.now.frac = f % 2 ^ 32 ∧
      t.hw.tim.now.ns = (if 1000000000 ≤ x then x - 1000000000 else x) ∧
      t.hw.tim.now.sec = (if 1000000000 ≤ x then (n.sec + 1) % 2 ^ 48 else n.sec)

open Sys2Proof Sys2Proof.Machine Sys2Proof.Claims in
/-- Every step of a sound state goes on to a sound state (spec/02_address_map_and_common_mechanisms.md, spec/20_alarms_and_performance_bins.md). -/
def Obligations.EveryStepGoesOn : Prop :=
  ∀ s : State, s.Sound → SafeStep s

open Sys2Proof Sys2Proof.Machine Sys2Proof.Claims in
/-- The state after reset is sound and has no command waiting (spec/02_address_map_and_common_mechanisms.md). -/
def Obligations.ResetIsSound : Prop :=
  State.reset.Sound ∧ State.reset.mem = [] ∧ State.reset.pending = []

open Sys2Proof Sys2Proof.Machine Sys2Proof.Claims in
/-- No command changes the queue of the commands that wait behind it (spec/01_terminal_architecture.md). -/
def Obligations.NoCommandTouchesTheQueue : Prop :=
  ∀ (c : Instr) (s t : State), exec c s = .next t → t.pending = s.pending

open Sys2Proof Sys2Proof.Machine Sys2Proof.Claims in
/-- The opcode table gives no command any bits, so no word spells one (spec/INDEX.md). -/
def Obligations.NoWordSpellsACommand : Prop :=
  (∀ nbits w, decodeTableWord nbits w = none) ∧ ∀ (s : State) (nbits w : Nat), s.withFetchWord nbits w = s

open Sys2Proof Sys2Proof.Machine Sys2Proof.Claims in
/-- An access that meets an error reads 0, writes nothing, completes, and is logged with its reason code (R46). -/
def Obligations.AccessErrorsReadZeroAndWriteNothing : Prop :=
  (∀ (h : Hw) (m : Master) (a size : Nat) (w : Bool), size ≠ 4 ∨ a % 4 ≠ 0 → h.accessError m a size w = 1) ∧
  (∀ (h : Hw) (m : Master) (a : Nat) (w : Bool), a % 4 = 0 → a < 0x10000000 → (rowAt a = none ∨ h.reservedFor m a w = true) →
    h.accessError m a 4 w = 2) ∧
  (∀ (h : Hw) (m : Master) (a : Nat) (w : Bool), a % 4 = 0 → 0x10000000 ≤ a → (a < extBase ∨ extBase + 0x800000000 ≤ a) →
    h.accessError m a 4 w = 2) ∧
  (∀ (h : Hw) (m : Master) (a : Nat) (w : Bool), a % 4 = 0 → extBase ≤ a → (m = .host ∨ m = .twin) →
    h.accessError m a 4 w = 2) ∧
  (∀ (h : Hw) (m : Master) (a : Nat) (w : Bool), a % 4 = 0 → a < 0x10000000 → rowAt a ≠ none → h.reservedFor m a w = false →
    h.domOff a = true → h.accessError m a 4 w = 3) ∧
  (∀ (h : Hw) (m : Master) (a : Nat) (w : Bool), a % 4 = 0 → a < 0x10000000 → rowAt a ≠ none → h.reservedFor m a w = false →
    h.domOff a = false → secureAddr a = true → h.secure m = false → h.accessError m a 4 w = 4) ∧
  (∀ (h : Hw) (m : Master) (a : Nat) (w : Bool), a % 4 = 0 → extBase ≤ a → a < extBase + 0x800000000 → m ≠ .host → m ≠ .twin →
    h.extBytes ≤ a - extBase → h.accessError m a 4 w = 5) ∧
  (∀ (c : Instr) (s : State) (m : Master) (a r : Nat) (w : Bool), accessOf c = some (m, a, w) → s.hw.deaf m = false →
    (s.hw.counted m).accessError m a 4 w = r + 1 →
    exec c s = .next (s.finish (((s.hw.counted m).busError m a w (r + 1)).answer 0#32))) ∧
  (∀ (m : Master) (a : Fin 1099511627776) (size : Nat) (acc : Access) (s : State) (r : Nat), s.hw.deaf m = false →
    let b := busAddr m a
    s.hw.stages m b size acc = false → s.hw.msixArea m b size = false → (s.hw.counted m).accessError m b size (acc != .read) = r + 1 →
    exec (.registerWrite m a size acc) s =
      .next (s.finish (((s.hw.counted m).busError m b (acc != .read) (r + 1)).answer 0#32)))

open Sys2Proof Sys2Proof.Machine Sys2Proof.Claims in
/-- What an access error leaves: the count, and the first error's master, direction, reason and address (spec/02_address_map_and_common_mechanisms.md). -/
def Obligations.AnAccessErrorChangesOnlyTheCapture : Prop :=
  ∀ (c : Instr) (s t : State) (m : Master) (a r : Nat) (w : Bool), s.Quiet → accessOf c = some (m, a, w) → (∀ e, m ≠ .engine e) →
    s.hw.deaf m = false → s.hw.accessError m a 4 w = r + 1 → r + 1 < 8 → exec c s = .next t →
    t.hw.rdata = 0#32 ∧
    t.hw.rd GLB_BUS_ERR_COUNT.COUNT = min (s.hw.rd GLB_BUS_ERR_COUNT.COUNT + 1) (2 ^ GLB_BUS_ERR_COUNT.COUNT.width - 1) ∧
    (s.hw.rd GLB_BUS_ERR_INFO.VALID = 1 → s.KeepsRegs t [GLB_BUS_ERR_COUNT.A]) ∧
    (s.hw.rd GLB_BUS_ERR_INFO.VALID ≠ 1 →
      t.hw.rd GLB_BUS_ERR_INFO.MASTER = m.id ∧ t.hw.rd GLB_BUS_ERR_INFO.WRITE = b2n w ∧
      t.hw.rd GLB_BUS_ERR_INFO.REASON = r + 1 ∧ t.hw.rd GLB_BUS_ERR_INFO.VALID = 1 ∧
      t.hw.word GLB_BUS_ERR_ADDR.A = BitVec.ofNat 32 a ∧ t.hw.rd GLB_BUS_ERR_ADDR_HI.ADDR_HI = a / 2 ^ 32 % 32 ∧
      t.hw.rd ⟨0, EV_GLB.BUS_ERR, 1⟩ = 1) ∧
    s.KeepsRegs t [0, GLB_BUS_ERR_COUNT.A, GLB_BUS_ERR_INFO.A, GLB_BUS_ERR_ADDR.A, GLB_BUS_ERR_ADDR_HI.A] ∧
    s.KeepsMem t

open Sys2Proof Sys2Proof.Machine Sys2Proof.Claims in
/-- A read of a counter's lo half latches its hi half for the reading master, whose next hi read returns it (R50). -/
def Obligations.HiHalvesComeFromTheMastersLatch : Prop :=
  (∀ (m : Master) (a : Fin 268435456) (s : State), s.hw.admits m a false → isLo a = true →
    let h := s.hw.reached m a
    h.perfClosed m a = false →
    ∃ t, exec (.counterLoRead m a) s = .next t ∧ t.hw.rdata = h.word a ∧ t.hw.latch.get 0#32 (latchOf m a) = h.word (a + 4) ∧
      ∀ k, k ≠ latchOf m a → t.hw.latch.get 0#32 k = h.latch.get 0#32 k) ∧
  (∀ (m : Master) (a : Fin 268435456) (s : State), s.hw.admits m a false → isHi a = true →
    let h := s.hw.reached m a
    h.perfClosed m a = false →
    ∃ t, exec (.counterHiRead m a) s = .next t ∧ t.hw.rdata = h.latch.get 0#32 (latchOf m a) ∧ t.hw.latch = h.latch) ∧
  (∀ (m n : Master) (a b : Nat), (a < 0x6000000 ∨ 0x7000000 ≤ a) → (b < 0x6000000 ∨ 0x7000000 ≤ b) →
    (latchOf m a = latchOf n b ↔ (m = n ∨ ((∃ e, m = .engine e) ∧ ∃ f, n = .engine f)))) ∧
  ∀ k, State.reset.hw.latch.get 0#32 k = 0#32

open Sys2Proof Sys2Proof.Machine Sys2Proof.Claims in
/-- 64-bit counters wrap at 2^64; a write of 0 to the lo half clears both halves, and no other write does anything (R51). -/
def Obligations.WideCountersWrapAndClear : Prop :=
  (∀ (h : Hw) (a n : Nat), (h.count64 a n).val64 a = (h.val64 a + n) % 2 ^ 64 ∧
    ∀ b, b ≠ a → b ≠ a + 4 → (h.count64 a n).word b = h.word b) ∧
  (∀ (m : Master) (a : Fin 268435456) (s : State), s.hw.admits m a true → accOf a = .c64lo →
    (∃ t, exec (.counterClear m a 0#32) s = .next t ∧ t.hw.val64 a = 0 ∧
      ∀ b, b < 0x9000000 → b ≠ a → b ≠ a + 4 → t.hw.word b = (s.hw.reached m a).word b) ∧
    ∀ v, v ≠ 0#32 → exec (.counterClear m a v) s = .next (s.finish (s.hw.reached m a))) ∧
  (∀ (h : Hw) (m : Master) (a : Nat), accOf a = .c64lo → isCve a = false → aliasCloses m a = false →
    (h.writeReg m a 0#32).val64 a = 0 ∧ ∀ v, v ≠ 0#32 → h.writeReg m a v = h) ∧
  (∀ (h : Hw) (m : Master) (a : Nat) (v : Word), isHi a = true → (h.writeReg m a v).word a = h.word a)

open Sys2Proof Sys2Proof.Machine Sys2Proof.Claims in
/-- A status bit latches whatever its enable, is pending when both are 1, and raises the block's interrupt (R49). -/
def Obligations.PendingMeansStatusAndEnable : Prop :=
  (∀ (h : Hw) (b : Nat), h.blkPending b = true ↔ ∃ i < 32, h.rd ⟨b, i, 1⟩ = 1 ∧ h.rd ⟨b + 4, i, 1⟩ = 1) ∧
  (∀ (h : Hw) (b i : Nat), i < 32 → (h.raise b i).rd ⟨b, i, 1⟩ = 1 ∧ (h.raise b i).word (b + 4) = h.word (b + 4)) ∧
  (∀ (h : Hw) (b i : Nat), i < 32 → h.rd ⟨b, i, 1⟩ = 1 → (h.wr ⟨b + 4, i, 1⟩ 1).blkPending b = true) ∧
  (∀ (h : Hw) (b : Blk), h.blkPending b.base = true → h.summary (summaryBit b.base) = true) ∧
  (∀ (h : Hw) (n : Nat), h.summary n = true → ∃ b, isStatusAddr b = true ∧ summaryBit b = n ∧ h.blkPending b = true)

open Sys2Proof Sys2Proof.Machine Sys2Proof.Claims in
/-- A write of GLB_INT_EOI sends a further MSI-X message exactly while the summary bit is still 1 (R58). -/
def Obligations.EndOfInterruptSendsAgain : Prop :=
  ∀ (m : Master) (v : Word) (s : State), s.Quiet → s.hw.admits m GLB_INT_EOI.A true →
    let h := s.hw.reached m GLB_INT_EOI.A
    let b := getField v 0 5
    ∃ t, exec (.intEoi m v) s = .next t ∧
      let x := h.rd (GLB_INT_ROUTE.MSIX_VEC b)
      let sends := h.summary b = true ∧ h.rd (GLB_INT_ROUTE.MSIX_EN b) = 1
      let masked := (h.msixWord x 3).toNat % 2 = 1
      t.hw.outs = (if sends ∧ ¬masked then
        .msix x ((h.msixWord x 1).toNat * 2 ^ 32 + (h.msixWord x 0).toNat) (h.msixWord x 2).toNat :: h.outs else h.outs) ∧
      (∀ y, y ∈ t.hw.ctl.msixPend ↔ y ∈ h.ctl.msixPend ∨ (sends ∧ masked ∧ y = x)) ∧
      (∀ a, a < 0x9000000 → t.hw.word a = h.word a) ∧ s.KeepsMem t

open Sys2Proof Sys2Proof.Machine Sys2Proof.Claims in
/-- A read of a free lock grants it to one reader, chosen by the rotating pointer; a held lock names its owner (R407, R408). -/
def Obligations.LocksAreGrantedToOneReader : Prop :=
  (∀ (m : Master) (n : Fin 64) (rivals : List Master) (s : State), s.hw.admits m (HW_LOCK.A n) false →
    let h := s.hw.reached m (HW_LOCK.A n)
    let p := h.ctl.lockPtr.get 0 n
    let ids := m.id :: rivals.map Master.id
    (h.rd (HW_LOCK.HELD n) = 0 → ∃ t w, exec (.lockAcquire m n rivals) s = .next t ∧
      w ∈ ids ∧ (∀ i ∈ ids, (w + 256 - p) % 256 ≤ (i + 256 - p) % 256) ∧
      getField t.hw.rdata 0 1 = (if w = m.id then 1 else 0) ∧ getField t.hw.rdata 1 1 = 1 ∧ getField t.hw.rdata 8 8 = w ∧
      t.hw.rd (HW_LOCK.HELD n) = 1 ∧ t.hw.rd (HW_LOCK.OWNER n) = w ∧ t.hw.ctl.lockPtr.get 0 n = (w + 1) % 256 ∧
      (∀ k, k ≠ n.val → t.hw.ctl.lockPtr.get 0 k = h.ctl.lockPtr.get 0 k) ∧
      ∀ a, a < 0x9000000 → a ≠ HW_LOCK.A n → t.hw.word a = h.word a) ∧
    (h.rd (HW_LOCK.HELD n) = 1 → ∃ t, exec (.lockAcquire m n rivals) s = .next t ∧
      getField t.hw.rdata 0 1 = 0 ∧ getField t.hw.rdata 1 1 = 1 ∧ getField t.hw.rdata 8 8 = h.rd (HW_LOCK.OWNER n) ∧
      t.hw.ctl.lockPtr = h.ctl.lockPtr ∧ ∀ a, a < 0x9000000 → t.hw.word a = h.word a)) ∧
  ∀ n, State.reset.hw.ctl.lockPtr.get 0 n = 0

open Sys2Proof Sys2Proof.Machine Sys2Proof.Claims in
/-- A read of MBX_SEND posts the reader's own staged message and answers why not (R399). -/
def Obligations.APostStoresOnlyWithStatusOk : Prop :=
  (∀ (m : Master) (ch : Fin 256) (s : State), s.hw.admits m (MBX_SEND.A ch) false →
    let h := s.hw.reached m (MBX_SEND.A ch)
    let wrong := h.t (MBX_CFG.VALID ch) = 0 ∨ (h.t (MBX_CFG.TX_MASTER ch) ≠ 255 ∧ h.t (MBX_CFG.TX_MASTER ch) ≠ m.id)
    let down := h.domDown (h.t (MBX_CFG.RX_DOM ch)) = true
    let full := 16 ≤ (h.mbx ch).msgs.length
    ∃ t st, exec (.mbxSend m ch) s = .next t ∧ t.hw.rdata = BitVec.ofNat 32 st ∧
      (wrong → st = 3) ∧ (¬wrong → down → st = 2) ∧
      (¬wrong → ¬down → h.t (MBX_CFG.RX_DOM ch) ≠ 28 → st = if full then 1 else 0) ∧
      (st = 0 → ∃ x, (t.hw.mbx ch).msgs = (h.mbx ch).msgs ++ [x] ∧ x.master = m.id ∧
        x.words = (List.range 8).map (fun i => h.ctl.stage.get 0#32 (m.id * 8 + i))) ∧
      (st ≠ 0 → t.hw.ctl.mbx = h.ctl.mbx ∧ ∀ a, a < 0x9000000 → a ≠ MBX_POST_ERR.A → t.hw.word a = h.word a) ∧
      t.hw.rd MBX_POST_ERR.COUNT =
        if st = 2 then min (h.rd MBX_POST_ERR.COUNT + 1) (2 ^ MBX_POST_ERR.COUNT.width - 1) else h.rd MBX_POST_ERR.COUNT) ∧
  ∀ (m n : Master) (i j : Nat), i < 8 → j < 8 → m.id * 8 + i = n.id * 8 + j → m = n ∧ i = j

open Sys2Proof Sys2Proof.Machine Sys2Proof.Claims in
/-- FLOW_MODE selects the packet's flow; with CTX_EN = 0 there is none (R219). -/
def Obligations.TheActionSelectsTheFlow : Prop :=
  ∀ (h : Hw) (e : Nat) (r : ParseRec),
    (h.rd THR_CTX_BASE.CTX_EN = 0 → h.flowOf e r = none) ∧
    (h.rd THR_CTX_BASE.CTX_EN = 1 →
      (actF e (ACTION.FLOW_MODE 0) = 0 → h.flowOf e r = none) ∧
      (actF e (ACTION.FLOW_MODE 0) = 1 → h.flowOf e r = some (actF e (ACTION.FLOW_ID 0))) ∧
      (actF e (ACTION.FLOW_MODE 0) = 2 →
        h.flowOf e r = some ((actF e (ACTION.FLOW_ID 0) + (r.user.getD 0 0 &&& actF e (ACTION.FLOW_MASK 0))) % 2 ^ 20)))

open Sys2Proof Sys2Proof.Machine Sys2Proof.Claims in
/-- A transmit timestamp that finds its queue full is lost and said to be; after a pop there is room (spec/13_time_and_synchronisation.md). -/
def Obligations.AFullTimestampQueueKeepsItsEntries : Prop :=
  ∀ (h : Hw) (p id : Nat) (at' : Option LTime), p < 512 → id < 65536 → h.cond 31 = 0 →
    let q := h.rd (SUB_TS_CFG.TS_Q p)
    let l := h.tim.tsq.get [] q
    (128 ≤ l.length → (h.tsPush p id at').tim = h.tim ∧
      (h.tsPush p id at').rd (TIM_TSQ_OVF.TS_OVERFLOW_COUNT q) =
        min (h.rd (TIM_TSQ_OVF.TS_OVERFLOW_COUNT q) + 1) (2 ^ (TIM_TSQ_OVF.TS_OVERFLOW_COUNT q).width - 1) ∧
      (h.tsPush p id at').rd (TIM_TSQ_FRAC.LAST_LOST_ID q) = id ∧ (h.tsPush p id at').rd (TIM_TSQ.OVF_STICKY q) = 1 ∧
      (h.tsPush p id at').rd ⟨0x5000000, EV_TIM.TS_OVERFLOW, 1⟩ = 1) ∧
    (l.length < 128 → ∃ e, (h.tsPush p id at').tim.tsq.get [] q = l ++ [e] ∧ e.id = id ∧ e.port = p ∧ e.notSent = at'.isNone) ∧
    (l.length = 128 → (l.drop 1).length < 128)

open Sys2Proof Sys2Proof.Machine Sys2Proof.Claims in
/-- TX_ALLOW cannot be set while the module is absent, and a removal clears it (R86). -/
def Obligations.TxAllowFallsWithTheModule : Prop :=
  (∀ (m : Master) (c : Fin 4) (v : Word) (s : State) (a : Fin 1099511627776), a.val = TRK_PMA_CTRL.A c →
    s.hw.admits m a true →
    let h := s.hw.reached m a
    h.rd (TRK_PMA_STATUS.MOD_ABS c) = 1 → getField v 1 1 = 1 →
    ∃ t, exec (.registerWrite m a 4 (.write v)) s = .next t ∧ t.hw.rd (TRK_PMA_CTRL.TX_ALLOW c) = h.rd (TRK_PMA_CTRL.TX_ALLOW c) ∧
      t.hw.rd (TRK_PMA_CTRL.LOOPBACK c) = getField v 4 1 ∧ t.hw.rd (TRK_PMA_CTRL.TX_INVERT c) = getField v 6 1 ∧
      (getField v 2 2 ≠ 3 → t.hw.rd (TRK_PMA_CTRL.US_RATE c) = getField v 2 2)) ∧
  (∀ (c : Fin 4) (v : Word) (h : Hw), h.rd (TRK_PMA_STATUS.MOD_ABS c) = 1 → getField v 1 1 = 1 →
    (h.fullWrite (TRK_PMA_CTRL.A c) v).rd (TRK_PMA_CTRL.TX_ALLOW c) = h.rd (TRK_PMA_CTRL.TX_ALLOW c)) ∧
  (∀ (c : Fin 4) (s : State), s.hw.rd (TRK_PMA_STATUS.MOD_ABS c) = 0 →
    ∃ t, exec (.moduleRemoved c) s = .next t ∧ t.hw.rd (TRK_PMA_CTRL.TX_ALLOW c) = 0)

open Sys2Proof Sys2Proof.Machine Sys2Proof.Claims in
/-- A store into the window writes its four octets, lowest first, and nothing else (spec/02_address_map_and_common_mechanisms.md, spec/09_granary_buffers_and_meters.md). -/
def Obligations.StoresReachTheMemoryAlone : Prop :=
  ∀ (m : Master) (a : Fin 1099511627776) (v : Word) (s : State), s.Quiet → s.hw.admits m a true → extBase ≤ a.val →
    let off := a.val - extBase
    let h := (s.hw.counted m).wakeByAccess 14
    ∃ t, exec (.registerWrite m a 4 (.write v)) s = .next t ∧
      (∀ b, Memory.read t.mem b =
        if off ≤ b ∧ b < off + 4 then BitVec.ofNat 8 (v.toNat / 256 ^ (b - off))
        else if b / 64 = off / 64 ∧ h.grn.linePoisoned h.clean (b / 64) = true then 0 else Memory.read s.mem b) ∧
      (∀ b, b < 0x9000000 → t.hw.word b = h.word b) ∧
      (h.grn.lineLost (off / 64) = false → t.hw.admits m a false →
        ∃ u, exec (.registerWrite m a 4 .read) t = .next u ∧ u.hw.rdata = v ∧ u.mem = t.mem)

open Sys2Proof Sys2Proof.Machine Sys2Proof.Claims in
/-- What a plain write leaves in a field, by its access type (spec/00_scope.md, spec/02_address_map_and_common_mechanisms.md). -/
def Obligations.FieldsFollowTheirAccessTypes : Prop :=
  ∀ (f : FieldRow) (w v : Word), f.lo + f.width ≤ 32 →
    (f.acc = .rw → f.own = false → f.accepts (getField v f.lo f.width) = true →
      getField (f.write w v) f.lo f.width = getField v f.lo f.width) ∧
    (f.acc = .rw → f.own = false → f.accepts (getField v f.lo f.width) = false → f.write w v = w) ∧
    (f.acc = .w1c → f.own = false → ∀ i < 32, f.lo ≤ i → i < f.lo + f.width →
      (f.write w v).getLsbD i = (w.getLsbD i && !v.getLsbD i)) ∧
    ((f.acc = .ro ∨ f.acc = .rc ∨ f.acc = .wo ∨ f.own = true) → f.write w v = w) ∧
    (∀ i < 32, ¬ (f.lo ≤ i ∧ i < f.lo + f.width) → (f.write w v).getLsbD i = w.getLsbD i)

open Sys2Proof Sys2Proof.Machine Sys2Proof.Claims in
/-- An alarm is raised by a defect that lasts its raise soak, cleared by an absence that lasts its clear soak (spec/20_alarms_and_performance_bins.md). -/
def Obligations.AlarmsWaitForTheirSoak : Prop :=
  ∀ (t : Fin 25) (i : Fin 1024) (h : Hw) (d : Bool), h.alarmActive t i = !d →
    (h.pm.soak.get 0 (alarmIdx t i) = 0) →
    let soak := 10 * (if d then h.t (ALARM_TYPE.RAISE_SOAK t) else h.t (ALARM_TYPE.CLEAR_SOAK t))
    let after := fun n => (fun x : Hw => x.alarmSample t i)^[n] h
    ((∀ n ≤ soak, (after n).defect t i = d) → (∀ n ≤ soak, (after n).alarmActive t i = !d) ∧ (after (soak + 1)).alarmActive t i = d) ∧
    ∀ g : Hw, g.defect t i = g.alarmActive t i → (g.alarmSample t i).pm.soak.get 0 (alarmIdx t i) = 0

open Sys2Proof Sys2Proof.Machine Sys2Proof.Claims in
/-- GLB_CHIP_ID reads 0x45120A01 (R3). -/
def Obligations.TheChipIdentifiesItself : Prop :=
  State.reset.hw.word GLB_CHIP_ID.A = 0x45120A01#32 ∧
  (∀ (m : Master) (s : State), s.hw.admits m GLB_CHIP_ID.A false →
    (s.hw.reached m GLB_CHIP_ID.A).word GLB_CHIP_ID.A = 0x45120A01#32 →
    ∃ t, exec (.registerWrite m 0x100 4 .read) s = .next t ∧ t.hw.rdata = 0x45120A01#32 ∧
      getField t.hw.rdata 16 16 = 0x4512 ∧ getField t.hw.rdata 0 16 = 0x0A01) ∧
  (∀ (m : Master) (v : Word) (h : Hw), (h.writeReg m GLB_CHIP_ID.A v).word GLB_CHIP_ID.A = h.word GLB_CHIP_ID.A)

open Sys2Proof Sys2Proof.Machine Sys2Proof.Claims in
/-- After reset every startable function is OFF and every power domain ON, and Husk has not handed over (spec/02_address_map_and_common_mechanisms.md, spec/19_start_up_and_in_service_change.md). -/
def Obligations.ResetLeavesEverythingOff : Prop :=
  (∀ c : Fin 4, State.reset.hw.st (.trk c) = 0) ∧ (∀ (g : Fin 16) (c : Fin 4), State.reset.hw.st (.member g c) = 0) ∧
  (∀ l : Fin 64, State.reset.hw.st (.lane l) = 0) ∧ (∀ p : Fin 512, State.reset.hw.st (.port p) = 0) ∧
  (∀ p : Fin 2, State.reset.hw.st (.page p) = 0) ∧ (∀ e : Fin 64, State.reset.hw.st (.engine e) = 0) ∧
  (∀ (d : Fin 2) (r : Fin 1024), State.reset.hw.st (.ring d r) = 0) ∧ State.reset.hw.st .twinLink = 0 ∧
  (∀ d : Fin 32, State.reset.hw.cond d = 0) ∧ State.reset.hw.rd PWR_STATE_STATUS.CUR_STATE = 0 ∧
  State.reset.hw.rd HSK_STATUS.HANDOFF = 0 ∧
  (∀ m : Master, State.reset.hw.deaf m = match m with | .core _ => true | _ => false)

open Sys2Proof Sys2Proof.Machine Sys2Proof.Claims in
/-- What the events of the trunk, the lanes, the local time and the external memory leave unchanged (spec/03_trunk_optics_interface.md, spec/09_granary_buffers_and_meters.md, spec/11_subscriber_lanes_and_ports.md, spec/13_time_and_synchronisation.md). -/
def Obligations.LineEventsLeaveTheRestAlone : Prop :=
  (∀ c, Leaves (.moduleInserted c) [0x1000000 + c * 0x100000, TRK_PMA_STATUS.A c]) ∧
  (∀ c, Leaves (.cdrUnlock c) [0x1000000 + c * 0x100000, TRK_PMA_STATUS.A c]) ∧
  (∀ l v, Leaves (.lpiRxChange l v) [SRD_LANE_STATUS.A l]) ∧
  (∀ (l : Fin 64) (s t : State), s.Quiet → s.hw.powerState ≠ 3 → s.hw.rd PWR_STATE_STATUS.BUSY ≠ 1 →
    exec (.energyDetect l) s = .next t → s.KeepsMem t ∧ s.KeepsRegs t [SRD_LANE_STATUS.A l, 0x210000 + l * 0x10000]) ∧
  (∀ p, Leaves (.lpiWakeDone p) (SRD_LANE_STATUS.A (p / 8) :: (lanePorts (p / 8)).map (fun q => (SUB_PORT_CNT.COUNT q 9).addr))) ∧ Leaves .ppsPulse [] ∧ (∀ r, Leaves (.dramPageCopyDone r) []) ∧
  (∀ i v, Leaves (.edgeCapture i v) [TIM_CNT.A 6, TIM_CNT.A 7, 0x5000000]) ∧
  (∀ v o, Leaves (.freqMeasurement v o) [TIM_STATUS.A, TIM_INC_FRAC.A, 0x5000000]) ∧
  (∀ r v, Leaves (.refreshAdjust r v) [GRN_DRAM_CLAMP_COUNT.A, GRN_DRAM_CH_STATUS.A r])

open Sys2Proof Sys2Proof.Machine Sys2Proof.Claims in
/-- What the events of the control complex, Husk, the ciphers, power, the pins and the twin link leave unchanged (spec/08_thresher_classifier.md, spec/15_control_complex_and_mailboxes.md, spec/16_husk_security_and_ciphers.md, spec/18_power_states.md, spec/21_pins_and_ballout.md). -/
def Obligations.ControlEventsLeaveTheRestAlone : Prop :=
  (∀ n, Leaves (.wdogWarn n) [0x7000000]) ∧
  (∀ (j : Fin 16) (v : Bool) (s t : State), s.Quiet → s.hw.powerState ≠ 3 → s.hw.rd PWR_STATE_STATUS.BUSY ≠ 1 →
    exec (.gpioChange j v) s = .next t → s.KeepsMem t ∧ s.KeepsRegs t [GLB_GPIO_IN.A, 0]) ∧
  (∀ s t : State, s.Quiet → s.hw.powerState ≠ 3 → s.hw.rd PWR_STATE_STATUS.BUSY ≠ 1 → s.hw.pwr.todo = [] → s.hw.pwr.trimDue = [] →
    exec .aonWriteArrive s = .next t → s.KeepsMem t ∧ s.KeepsRegs t [PWR_AVS_STATUS.A]) ∧ (∀ b v, Leaves (.crossingFifoError b v) [b.base]) ∧
  Leaves .rngHealthFail [HSK_STATUS.A, 0x7800000] ∧ Leaves .rngRecover [HSK_STATUS.A] ∧ Leaves .hskCmdDone [HSK_CMD.A, HSK_STATUS.A, 0x7800000] ∧
  Leaves .zeroiseDone [0x8000000] ∧ (∀ d r, Leaves (.ringIntTimer d r) []) ∧ Leaves .twinIdleEntry [] ∧
  (∀ o, Leaves (.bwWindowEnd o) []) ∧ (∀ b v, Leaves (.uartByteRx b v) [CTL_UART_STATUS.A]) ∧ Leaves .uartByteSent [CTL_UART_STATUS.A] ∧
  Leaves .epochDrainComplete [THR_EPOCH_STATUS.A, 0x2000000] ∧ Leaves .ctxCmdDone [THR_CTX_STATUS.A, 0x2000000] ∧
  (∀ v, Leaves (.avsStep v) [PWR_AVS_STATUS.A, PWR_SAFETY_CNT.A, PWR_AVS_CLAMP_COUNT.A, 0x100000]) ∧
  Leaves .twinLinkRetrain [TWN_STATUS.A]

open Sys2Proof Sys2Proof.Machine Sys2Proof.Claims in
/-- Commands of alarms, masks, the event log, histories, bandwidth windows and the console: where they complete, and with what effect (spec/20_alarms_and_performance_bins.md, spec/15_control_complex_and_mailboxes.md; each clause cites its rules). -/
def Obligations.AlarmAndBinCommandsComplete : Prop :=
  alarmSample ∧ alarmMaskWrite ∧ alarmMaskWrite_type ∧ logPop ∧ historyWriteDone ∧ historyWriteDone_daily ∧
  bwWindowEnd ∧ uartDataWrite ∧ uartDataRead ∧ uartDataRead_empty ∧ uartByteRx ∧ uartByteRx_full ∧ uartByteSent

open Sys2Proof Sys2Proof.Machine Sys2Proof.Claims in
/-- Commands of image verification, start-up records, hand-off and image loading: where they complete, and with what effect (spec/19_start_up_and_in_service_change.md; each clause cites its rules). -/
def Obligations.StartUpCommandsComplete : Prop :=
  imageVerifyDone ∧ recordWrite ∧ recordWait ∧ recordWaitDone ∧ recordWaitDone_timeout ∧ recordDelay ∧ recordTable
  ∧ recordSections ∧ handoff ∧ handoff_newer ∧ confirm ∧ pcieLoadWord ∧ xmodemBlockRx ∧ xmodemBlockRx_end ∧
  recoveryTimeout

open Sys2Proof Sys2Proof.Machine Sys2Proof.Claims in
/-- Commands of activation, ranging timers, PLOAM transmission and burst assembly: where they complete, and with what effect (spec/05_activation_and_upstream_bursts.md; each clause cites its rules). -/
def Obligations.ActivationCommandsComplete : Prop :=
  enterO4 ∧ enterO4_reject ∧ enterO5 ∧ enterO5_reject ∧ deactivate ∧ deactivate_reject ∧ restart ∧ restart_reject ∧
  serialNumberAdvance ∧ to1Expire ∧ to2Expire ∧ ploamPush ∧ ploamPush_full ∧ assemblyCutoff_ranging ∧
  assemblyCutoff ∧ assemblyCutoff_dark ∧ assemblyCutoff_state

open Sys2Proof Sys2Proof.Machine Sys2Proof.Claims in
/-- Commands of load estimates, upstream selection, key switches, watchful sleep, delays and test holds: where they complete, and with what effect (spec/05_activation_and_upstream_bursts.md; each clause cites its rules). -/
def Obligations.UpstreamAndSleepCommandsComplete : Prop :=
  laEstimateUpdate ∧ upstreamSelect ∧ upstreamSelect_frame ∧ upstreamSelect_idle ∧ upstreamSelect_underrun ∧
  upstreamSelect_full ∧ keySwitchArm ∧ keySwitchArm_late ∧ wsAllowedWrite ∧ wsAllowedWrite_wake ∧ awareToWatch ∧
  watchIntervalStart ∧ watchIntervalEnd ∧ watchSyncTimeout ∧ testHoldWrite ∧ eqdWrite

open Sys2Proof Sys2Proof.Machine Sys2Proof.Claims in
/-- Commands of the input FIFO, the pipelines, their contexts and tasks: where they complete, and with what effect (spec/08_thresher_classifier.md, spec/07_thresher_parser.md; each clause cites its rules). -/
def Obligations.PipelineCommandsComplete : Prop :=
  inputFifoArrival ∧ inputFifoArrival_full ∧ inputFifoArrival_other ∧ pipelineInputGrant ∧ contextReadReturn ∧
  contextReadReturn_err ∧ taskAccepted ∧ epochSwap ∧ epochSwap_early ∧ epochDrainComplete

open Sys2Proof Sys2Proof.Machine Sys2Proof.Claims in
/-- Commands of epochs, the context cache, ageing, spread windows, throttling, performance counters and Gleaner: where they complete, and with what effect (spec/08_thresher_classifier.md, spec/14_engines_and_tiller.md; each clause cites its rules). -/
def Obligations.EpochAndContextCommandsComplete : Prop :=
  ctxUpdate ∧ ctxRead ∧ ctxRead_memory ∧ ctxInval ∧ ctxCmdDone ∧ ageSweep ∧ spreadRrTimeout ∧ throttleStep ∧
  perfCounterWrap ∧ gleanerSample ∧ gleanerSample_full ∧ gleanerSample_between

open Sys2Proof Sys2Proof.Machine Sys2Proof.Claims in
/-- Commands of register and window accesses, counters, interrupts and table gates: where they complete, and with what effect (spec/02_address_map_and_common_mechanisms.md, spec/18_power_states.md, spec/21_pins_and_ballout.md; each clause cites its rules). -/
def Obligations.RegisterAndGateCommandsComplete : Prop :=
  registerWrite_reg ∧ registerWrite_read ∧ registerWrite_store ∧ registerWrite_msix ∧ counterLoRead ∧ counterHiRead
  ∧ counterClear ∧ counterClear_other ∧ intSet ∧ intEoi ∧ intEoi_clear ∧ tableRead ∧ tableCommit

open Sys2Proof Sys2Proof.Machine Sys2Proof.Claims in
/-- Commands of gate writes, the end of gate commands and the start of functions: where they complete, and with what effect (spec/02_address_map_and_common_mechanisms.md, spec/18_power_states.md, spec/21_pins_and_ballout.md; each clause cites its rules). -/
def Obligations.LifecycleCommandsComplete : Prop :=
  tableWrite ∧ tableCmdComplete ∧ tableCmdComplete_write ∧ tableCmdComplete_ecc ∧ functionEnable ∧
  functionEnable_pending ∧ functionEnable_member ∧ functionEnable_released ∧ functionEnable_alias ∧ functionDisable
  ∧ functionDisable_pending ∧ functionDisable_held ∧ functionDisable_alias ∧ startConditionMet ∧
  startConditionMet_page

open Sys2Proof Sys2Proof.Machine Sys2Proof.Claims in
/-- Commands of stops, resets, supplies, reference clocks, access wakes and crossing FIFOs: where they complete, and with what effect (spec/02_address_map_and_common_mechanisms.md, spec/18_power_states.md, spec/21_pins_and_ballout.md; each clause cites its rules). -/
def Obligations.ResetAndSupplyCommandsComplete : Prop :=
  stopFlushComplete ∧ stopFlushComplete_restart ∧ stopFlushComplete_page ∧ domainSoftReset ∧ domainSoftReset_many ∧
  softResetComplete ∧ chipReset ∧ chipReset_other ∧ pornAssert ∧ pornRelease ∧ vinUvloFall ∧ vinGood ∧ clockLoss ∧
  clockRecover ∧ accessWakeReturn ∧ crossingFifoError

open Sys2Proof Sys2Proof.Machine Sys2Proof.Claims in
/-- Commands of the watchdog, PCIe, the supply of AON, the pins and the rings: where they complete, and with what effect (spec/15_control_complex_and_mailboxes.md, spec/21_pins_and_ballout.md; each clause cites its rules). -/
def Obligations.WatchdogPcieAndRingCommandsComplete : Prop :=
  wdogKick ∧ wdogKick_other ∧ wdogWarn ∧ wdogExpire ∧ pcieFunctionReset ∧ perstAssert ∧ perstRelease ∧ pcieLinkUp ∧
  pcieLinkDown ∧ vkeepLoss ∧ vkeepReturn ∧ gpioChange ∧ ringTailWrite ∧ ringTailWrite_tx ∧ txRingFetch ∧
  txRingFetch_bad

open Sys2Proof Sys2Proof.Machine Sys2Proof.Claims in
/-- Commands of ring interrupts, mailboxes, doorbells, locks and the writes to AON: where they complete, and with what effect (spec/15_control_complex_and_mailboxes.md, spec/21_pins_and_ballout.md; each clause cites its rules). -/
def Obligations.MailboxLockAndConsoleCommandsComplete : Prop :=
  ringIntTimer ∧ ringIntAck ∧ mbxSend ∧ mbxSend_refused ∧ mbxSend_domain ∧ mbxPop ∧ mbxPop_last ∧
  mbxEmptyStatusRead ∧ mbxEmptyStatusRead_other ∧ dbSet ∧ dbSet_merged ∧ lockAcquire ∧ lockAcquire_held ∧
  lockRelease ∧ lockRelease_bad ∧ lockBreak ∧ aonWriteArrive

open Sys2Proof Sys2Proof.Machine Sys2Proof.Claims in
/-- Commands of frame search, superframes and codewords: where they complete, and with what effect (spec/04_downstream_delineation.md; each clause cites its rules). -/
def Obligations.DelineationCommandsComplete : Prop :=
  psyncMatch ∧ psyncMatch_table ∧ candidateStale ∧ framePosition_confirm ∧ framePosition_false ∧ framePosition ∧
  framePosition_lost ∧ framePosition_run ∧ framePosition_expected ∧ resync ∧ codewordDecoded ∧
  codewordDecoded_presync

open Sys2Proof Sys2Proof.Machine Sys2Proof.Claims in
/-- Commands of allocation structures, PLOAM and GEM frames: where they complete, and with what effect (spec/04_downstream_delineation.md; each clause cites its rules). -/
def Obligations.GrantPloamAndGemCommandsComplete : Prop :=
  hlendRx ∧ hlendRx_good ∧ allocationStructure ∧ allocationStructure_hec ∧ allocationStructure_foreign ∧
  ploamMessageRx ∧ ploamMessageRx_errored ∧ ploamPop ∧ ploamPop_more ∧ gemFrameRx ∧ gemFrameRx_lost

open Sys2Proof Sys2Proof.Machine Sys2Proof.Claims in
/-- Commands of the packet instructions of the engines: where they complete, and with what effect (spec/14_engines_and_tiller.md; each clause cites its rules). -/
def Obligations.PacketInstructionsComplete : Prop :=
  emit ∧ emit_no_pkt ∧ emitCopy ∧ emitCopy_cells ∧ drop ∧ new ∧ new_bad ∧ post ∧ post_no_engine ∧ post_delay ∧
  post_bad ∧ cancel ∧ cancel_not_found ∧ endTask ∧ endTask_init

open Sys2Proof Sys2Proof.Machine Sys2Proof.Claims in
/-- Commands of engine faults and accesses, Tiller and the drain of a cluster: where they complete, and with what effect (spec/14_engines_and_tiller.md; each clause cites its rules). -/
def Obligations.TillerAndEngineEventsComplete : Prop :=
  engineFault ∧ engineFault_held ∧ engineDataAccess ∧ engineDataAccess_store ∧ engineDataAccess_fault ∧
  engineDataAccess_register ∧ engineDataAccess_reserved ∧ taskDispatch ∧ tillerTick ∧ tillerTick_fallback ∧
  delayDue ∧ delayDue_waits ∧ clusterDrainDone

open Sys2Proof Sys2Proof.Machine Sys2Proof.Claims in
/-- Commands of meters, queue flushes, spill and refill, DRAM start and training: where they complete, and with what effect (spec/09_granary_buffers_and_meters.md; each clause cites its rules). -/
def Obligations.QueueMeterAndDramCommandsComplete : Prop :=
  meterStatWrite ∧ queueFlush ∧ flushOnchipRelease ∧ queueFlushDone ∧ spillMove ∧ refillMove ∧ dramInit ∧ dramUp ∧
  dramRetrain ∧ dramRetrainComplete ∧ dramRetrainComplete_fail

open Sys2Proof Sys2Proof.Machine Sys2Proof.Claims in
/-- Commands of retired channels, memory errors, refresh and shaper debts: where they complete, and with what effect (spec/09_granary_buffers_and_meters.md; each clause cites its rules). -/
def Obligations.DramRepairAndShaperCommandsComplete : Prop :=
  dramRetire ∧ dramPageCopyDone ∧ dramRelocationDone ∧ dramUncorrError ∧ dramUncorrError_packet ∧
  dramUncorrError_context ∧ dramUncorrError_fail ∧ refreshAdjust ∧ refreshAdjust_clamp ∧ clearDebt ∧ clearDebt_bad

open Sys2Proof Sys2Proof.Machine Sys2Proof.Claims in
/-- Commands of the commands of Husk and its random generator: where they complete, and with what effect (spec/16_husk_security_and_ciphers.md; each clause cites its rules). -/
def Obligations.HuskCommandsComplete : Prop :=
  getId ∧ getId_mem ∧ attest ∧ attest_rng ∧ measExtend ∧ revoke ∧ advanceSvn ∧ advanceSvn_refused ∧ setProduction ∧
  hskCmdDone ∧ hskRngRead ∧ hskRngRead_fail ∧ rngHealthFail

open Sys2Proof Sys2Proof.Machine Sys2Proof.Claims in
/-- Commands of the check-value engine and zeroisation: where they complete, and with what effect (spec/16_husk_security_and_ciphers.md; each clause cites its rules). -/
def Obligations.CheckValueAndZeroiseCommandsComplete : Prop :=
  rngRecover ∧ cveDone_generate ∧ cveDone ∧ zeroise ∧ zeroiseDone ∧ cveGenerate ∧ cveGenerate_refused ∧ cveVerify ∧
  cveVerify_refused ∧ cveDerive ∧ cveDerive_refused

open Sys2Proof Sys2Proof.Machine Sys2Proof.Claims in
/-- Commands of the trunk receivers, loss of signal and the optical modules: where they complete, and with what effect (spec/03_trunk_optics_interface.md; each clause cites its rules). -/
def Obligations.TrunkReceiverAndModuleCommandsComplete : Prop :=
  cdrLockAcquired ∧ cdrUnlock ∧ adaptStep_within ∧ adaptStep_clamp ∧ adaptStep_lane ∧ rxBoundsWrite ∧
  rxBoundsWrite_frozen ∧ losCfgWrite ∧ losSourceChange ∧ losSourceChange_stopped ∧ losDeclare

open Sys2Proof Sys2Proof.Machine Sys2Proof.Claims in
/-- Commands of the bursts at the pins and the guard: where they complete, and with what effect (spec/03_trunk_optics_interface.md; each clause cites its rules). -/
def Obligations.BurstAndGuardCommandsComplete : Prop :=
  losClear ∧ moduleRemoved ∧ moduleInserted ∧ burstLaunch ∧ burstLaunch_serial ∧ burstLaunch_dark ∧
  burstLaunch_merged ∧ burstLaunch_state ∧ burstEnd ∧ burstEnd_merged ∧ guardOutsideWindow ∧ guardTooLong ∧
  guardPadMismatch

open Sys2Proof Sys2Proof.Machine Sys2Proof.Claims in
/-- Commands of the two-wire bus, the pattern tests and the head end's disables: where they complete, and with what effect (spec/03_trunk_optics_interface.md, spec/05_activation_and_upstream_bursts.md; each clause cites its rules). -/
def Obligations.TwoWireAndPatternCommandsComplete : Prop :=
  twiCommand ∧ twiCommand_waits ∧ twiDone ∧ twiDone_err ∧ twiRecover ∧ twiMonitorPoll ∧ twiMonitorPoll_done ∧
  twiMonitorPoll_err ∧ prbsClear ∧ prbsCheckerLock ∧ prbsLockLoss ∧ testBurstLaunch ∧ heDisableOnu ∧
  heDisableOnu_other ∧ heEnableOnu ∧ heDisableAll ∧ heEnableAll

open Sys2Proof Sys2Proof.Machine Sys2Proof.Claims in
/-- Commands of the downstream scheduler, the PCS and MDIO frames: where they complete, and with what effect (spec/11_subscriber_lanes_and_ports.md, spec/10_hierarchical_scheduling.md; each clause cites its rules). -/
def Obligations.SchedulerLaneAndMdioCommandsComplete : Prop :=
  dsSelect ∧ pcsLockAcquire ∧ pcsLockLoss ∧ polarityFlip ∧ autonegComplete ∧ mdioWrite ∧ mdioWrite_busy ∧ mdioRead
  ∧ mdioAddress ∧ mdioReadIncrement ∧ mdioDone ∧ mdioDone_undriven ∧ mdioDone_write

open Sys2Proof Sys2Proof.Machine Sys2Proof.Claims in
/-- Commands of MDIO polling and received frames: where they complete, and with what effect (spec/11_subscriber_lanes_and_ports.md, spec/10_hierarchical_scheduling.md; each clause cites its rules). -/
def Obligations.PollAndReceivedFrameCommandsComplete : Prop :=
  mdioPollRound ∧ mdioPollFrameDone ∧ mdioPollFrameDone_undriven ∧ spikeletFrameRx ∧ spikeletFrameRx_tag ∧
  macFrameRx ∧ macFrameRx_fcs ∧ macsecIcvFail ∧ pfcFrameRx ∧ pfcPauseExpire ∧ pfcPauseExpire_early ∧ pfcRefresh

open Sys2Proof Sys2Proof.Machine Sys2Proof.Claims in
/-- Commands of priority flow control, low power idle, rate steps and recalibration: where they complete, and with what effect (spec/11_subscriber_lanes_and_ports.md, spec/10_hierarchical_scheduling.md; each clause cites its rules). -/
def Obligations.FlowControlAndLaneCommandsComplete : Prop :=
  lpiEnter ∧ lpiEnter_waits ∧ lpiWakeDone ∧ lpiRxChange ∧ rateDownEval ∧ rateDownEval_low ∧ rateDownEval_clamp ∧
  rateStepPhyWritten ∧ rateStepPhyWritten_none ∧ rateStepLocked ∧ rateStepTimeout ∧ recalGo ∧ recalPeriodExpire ∧
  recalDone

open Sys2Proof Sys2Proof.Machine Sys2Proof.Claims in
/-- Commands of power-state requests, wakes and restarts: where they complete, and with what effect (spec/18_power_states.md; each clause cites its rules). -/
def Obligations.PowerStateCommandsComplete : Prop :=
  stateRequest ∧ stateRequest_rejected ∧ domainAgree ∧ domainAgree_refuses ∧ entryTimeout ∧ wakeSourceFire ∧
  wakeSourceFire_entry ∧ wakeTimerExpire ∧ domainRestartNext ∧ domainRestartNext_last

open Sys2Proof Sys2Proof.Machine Sys2Proof.Claims in
/-- Commands of Trim masks, domains, the voltage loop and the thermal guard: where they complete, and with what effect (spec/18_power_states.md; each clause cites its rules). -/
def Obligations.PowerLoopCommandsComplete : Prop :=
  trimMaskWrite ∧ trimMaskWrite_live ∧ domOffWrite ∧ avsStep ∧ avsStep_off ∧ avsStep_safety ∧ avsStep_falls ∧
  thermalSample ∧ thermalSample_trip ∧ thermalRecover ∧ energyDetect

open Sys2Proof Sys2Proof.Machine Sys2Proof.Claims in
/-- Commands of bonded frames, joins, leaves and shedding: where they complete, and with what effect (spec/06_sheaf_channel_bonding.md; each clause cites its rules). -/
def Obligations.BondingCommandsComplete : Prop :=
  bondedFrameRx ∧ bondedFrameRx_first ∧ bondedFrameRx_short ∧ reorderTimeout ∧ joinAckRx ∧ joinAckRx_unexpected ∧
  leaveRx ∧ leaveAckRx ∧ joinRetryExpire_again ∧ joinRetryExpire ∧ joinRetry ∧ rejoinHoldExpire ∧ leaveFlushDrained
  ∧ leaveTimeoutExpire ∧ shedEvaluate_shed ∧ shedEvaluate_low

open Sys2Proof Sys2Proof.Machine Sys2Proof.Claims in
/-- Commands of slot containers, playout and page changes: where they complete, and with what effect (spec/12_slot_service.md; each clause cites its rules). -/
def Obligations.SlotFrameCommandsComplete : Prop :=
  containerRx ∧ containerRx_bad ∧ slotFrameBoundary ∧ slotFrameBoundary_twin ∧ framePlayout ∧ framePlayout_missing
  ∧ framePlayout_silent ∧ slotPacketRx

open Sys2Proof Sys2Proof.Machine Sys2Proof.Claims in
/-- Commands of page retirement and the path selectors: where they complete, and with what effect (spec/12_slot_service.md; each clause cites its rules). -/
def Obligations.ProtectionSwitchCommandsComplete : Prop :=
  pageScanDone ∧ pageRetire ∧ pageRetire_off ∧ pswClear ∧ pswLockout ∧ pswForceWork ∧ pswForceProt ∧ pswManualWork
  ∧ pswManualWork_refused ∧ pswManualProt ∧ pswHoldoffExpire ∧ pswWtrExpire

open Sys2Proof Sys2Proof.Machine Sys2Proof.Claims in
/-- Commands of the local clock, time of day and its sources: where they complete, and with what effect (spec/13_time_and_synchronisation.md, spec/10_hierarchical_scheduling.md; each clause cites its rules). -/
def Obligations.ClockCommandsComplete : Prop :=
  timeSet ∧ timeAdd ∧ timeReadLatch ∧ todArm ∧ todArm_late ∧ todUpdate ∧ todUpdate_lost ∧ timSourceWrite ∧
  timSourceWrite_armed ∧ freqMeasurement

open Sys2Proof Sys2Proof.Machine Sys2Proof.Claims in
/-- Commands of captures, timestamp queues, timed slots and gate lists: where they complete, and with what effect (spec/13_time_and_synchronisation.md, spec/10_hierarchical_scheduling.md; each clause cites its rules). -/
def Obligations.CaptureSlotAndGateCommandsComplete : Prop :=
  ppsPulse ∧ edgeCapture ∧ edgeCapture_full ∧ capturePop ∧ tsQueuePop ∧ slotFire ∧ slotFire_once ∧ slotFire_late ∧
  gateConfigChange ∧ gateListStart ∧ gateEntryAdvance

open Sys2Proof Sys2Proof.Machine Sys2Proof.Claims in
/-- Commands of roles, claims and handovers of the twins: where they complete, and with what effect (spec/17_twin_pairing.md; each clause cites its rules). -/
def Obligations.RoleAndHandoverCommandsComplete : Prop :=
  twnActInChange ∧ twnActInChange_lost ∧ twnActInChange_split ∧ claimHoldExpire ∧ contentionWindowEnd ∧
  contentionWindowEnd_wait ∧ handoverClaimTimeout ∧ handover ∧ handoverReqRx ∧ handoverAckRx ∧ yieldRx ∧
  handoverAckTimeout

open Sys2Proof Sys2Proof.Machine Sys2Proof.Claims in
/-- Commands of the end of handovers, heartbeats and link training: where they complete, and with what effect (spec/17_twin_pairing.md; each clause cites its rules). -/
def Obligations.HeartbeatCommandsComplete : Prop :=
  handoverDrainExpire ∧ handoverPortsOff ∧ heartbeatTx ∧ heartbeatRx ∧ heartbeatMiss ∧ heartbeatMiss_fifth ∧
  twinTrainComplete ∧ twinTrainComplete_order

open Sys2Proof Sys2Proof.Machine Sys2Proof.Claims in
/-- Commands of the twin link and received twin frames: where they complete, and with what effect (spec/17_twin_pairing.md; each clause cites its rules). -/
def Obligations.TwinFrameCommandsComplete : Prop :=
  twinLinkRetrain ∧ twinLaneFault ∧ twinIdleEntry ∧ portFrameRx ∧ dsPortRx ∧ usQueueRx ∧ mirrorRx ∧ mirrorRx_end ∧
  mailboxRx

open Sys2Proof Sys2Proof.Machine Sys2Proof.Claims in
/-- Commands of resent messages, slot frames, mirroring and redirection: where they complete, and with what effect (spec/17_twin_pairing.md; each clause cites its rules). -/
def Obligations.MirrorAndRedirectCommandsComplete : Prop :=
  mbxResultRx ∧ mbxResultRx_full ∧ mbxResendTimer ∧ slotDsRx ∧ slotUsRx ∧ mirrorSweep ∧ revertHoldExpire ∧
  clearRedirect ∧ redirectServe ∧ twinFrameTx ∧ twinFrameTx_message ∧ twinFrameTx_mirror
end

