-- ==== Sys2Proof/Laws/Bits.lean ====
section
/-!
SUPPORT. Bit fields of a word: what a field reads after it, or another, has been set.
-/
namespace Sys2Proof.Machine

theorem getLsbD_fieldMask (lo n i : Nat) :
    (fieldMask lo n).getLsbD i = (decide (i < 32) && decide (lo ≤ i ∧ i < lo + n)) := by
  simp only [fieldMask, BitVec.getLsbD_ofNat, Nat.testBit_mul_two_pow, Nat.testBit_two_pow_sub_one]
  by_cases h : lo ≤ i
  · simp only [h, decide_true, Bool.true_and, true_and]
    congr 1
    simp only [decide_eq_decide]; omega
  · simp [h]

/-- Bit `i` of a word after a field has been set. -/
theorem getLsbD_setField (w : Word) (lo n v i : Nat) (hi : i < 32) :
    (setField w lo n v).getLsbD i = if lo ≤ i ∧ i < lo + n then v.testBit (i - lo) else w.getLsbD i := by
  simp only [setField, BitVec.getLsbD_or, BitVec.getLsbD_and, BitVec.getLsbD_not, getLsbD_fieldMask, BitVec.getLsbD_ofNat,
    Nat.testBit_mul_two_pow, Nat.testBit_mod_two_pow, hi, decide_true, Bool.true_and]
  by_cases h1 : lo ≤ i
  · by_cases h2 : i < lo + n
    · have h3 : i - lo < n := by omega
      simp [h1, h2, h3]
    · have h3 : ¬ i - lo < n := by omega
      simp [h1, h2, h3]
  · simp [h1]

/-- Bit `i` of a field. -/
theorem testBit_getField (w : Word) (lo n i : Nat) :
    (getField w lo n).testBit i = (decide (i < n) && w.getLsbD (lo + i)) := by
  simp [getField, Nat.testBit_mod_two_pow, Nat.testBit_div_two_pow, BitVec.getLsbD, Nat.add_comm]

/-- A field that has been set. -/
theorem getField_setField_self (w : Word) (lo n v : Nat) (h : lo + n ≤ 32) :
    getField (setField w lo n v) lo n = v % 2 ^ n := by
  apply Nat.eq_of_testBit_eq
  intro i
  rw [testBit_getField, Nat.testBit_mod_two_pow]
  by_cases hi : i < n
  · rw [getLsbD_setField _ _ _ _ _ (by omega), if_pos (by omega)]
    simp [hi]
  · simp [hi]

/-- A field apart from the one that has been set. -/
theorem getField_setField_ne (w : Word) (lo n v a m : Nat) (h : a + m ≤ lo ∨ lo + n ≤ a) :
    getField (setField w lo n v) a m = getField w a m := by
  apply Nat.eq_of_testBit_eq
  intro i
  rw [testBit_getField, testBit_getField]
  by_cases hi : i < m
  · by_cases hw : a + i < 32
    · rw [getLsbD_setField _ _ _ _ _ hw, if_neg (by omega)]
    · rw [BitVec.getLsbD_of_ge _ _ (by omega), BitVec.getLsbD_of_ge _ _ (by omega)]
  · simp [hi]

/-- A field is less than 2 to its width. -/
theorem getField_lt (w : Word) (lo n : Nat) : getField w lo n < 2 ^ n := Nat.mod_lt _ (by positivity)

end Sys2Proof.Machine
end

