-- ==== Sys2Proof/Laws/Sparse.lean ====
section
/-!
SUPPORT. The laws of sparse stores: a read after a write, and the canonical form.
-/
namespace Sys2Proof.Machine

variable {α : Type}

@[simp] theorem Sparse.get_nil (d : α) (k : Nat) : Sparse.get d [] k = d := rfl

theorem Sparse.get_cons (d : α) (p : Nat × α) (t : Sparse α) (k : Nat) :
    Sparse.get d (p :: t) k = if p.1 = k then p.2 else Sparse.get d t k := rfl

theorem Sparse.get_filter_ne (d : α) (m : Sparse α) (k j : Nat) (h : j ≠ k) :
    Sparse.get d (m.filter (fun p => p.1 != k)) j = Sparse.get d m j := by
  induction m with
  | nil => rfl
  | cons p t ih =>
    by_cases hp : p.1 = k
    · rw [List.filter_cons_of_neg (by simp [hp]), ih, Sparse.get_cons, if_neg (by omega)]
    · rw [List.filter_cons_of_pos (by simp [hp]), Sparse.get_cons, Sparse.get_cons, ih]

theorem Sparse.get_filter_self (d : α) (m : Sparse α) (k : Nat) :
    Sparse.get d (m.filter (fun p => p.1 != k)) k = d := by
  induction m with
  | nil => rfl
  | cons p t ih =>
    by_cases hp : p.1 = k
    · rw [List.filter_cons_of_neg (by simp [hp]), ih]
    · rw [List.filter_cons_of_pos (by simp [hp]), Sparse.get_cons, if_neg hp, ih]

theorem Sparse.get_ins (d : α) (m : Sparse α) (k j : Nat) (v : α) (hk : ∀ p ∈ m, p.1 ≠ k) :
    Sparse.get d (Sparse.ins k v m) j = if j = k then v else Sparse.get d m j := by
  induction m with
  | nil =>
    by_cases h : j = k
    · simp [Sparse.ins, Sparse.get_cons, h]
    · simp [Sparse.ins, Sparse.get_cons, h, Ne.symm h]
  | cons p t ih =>
    have hp : p.1 ≠ k := hk p (by simp)
    have ht := ih (fun q hq => hk q (by simp [hq]))
    by_cases hl : k < p.1
    · by_cases hj : j = k
      · simp [Sparse.ins, hl, Sparse.get, hj]
      · simp [Sparse.ins, hl, Sparse.get, hj, Ne.symm hj]
    · by_cases hj : j = k
      · subst hj; simp [Sparse.ins, hl, Sparse.get, hp, ht]
      · simp only [Sparse.ins, hl, if_false, Sparse.get, ht, hj]

/-- A read after a write: the value at the key written, what was there at every other. -/
theorem Sparse.get_set [DecidableEq α] (d : α) (m : Sparse α) (k j : Nat) (v : α) :
    Sparse.get d (Sparse.set d m k v) j = if j = k then v else Sparse.get d m j := by
  unfold Sparse.set
  by_cases hv : v = d
  · simp only [hv, if_true]
    by_cases hj : j = k
    · simp [hj, Sparse.get_filter_self]
    · simp [hj, Sparse.get_filter_ne]
  · simp only [hv, if_false]
    rw [Sparse.get_ins d _ k j v (by intro p hp; simpa using (List.mem_filter.1 hp).2)]
    by_cases hj : j = k
    · simp [hj]
    · simp [hj, Sparse.get_filter_ne]

@[simp] theorem Sparse.get_set_self [DecidableEq α] (d : α) (m : Sparse α) (k : Nat) (v : α) :
    Sparse.get d (Sparse.set d m k v) k = v := by simp [Sparse.get_set]

/-- At another key, whatever either key reads as when unlisted. -/
theorem Sparse.get_set_ne [DecidableEq α] (d e : α) (m : Sparse α) (k j : Nat) (v : α) (h : j ≠ k) :
    Sparse.get d (Sparse.set e m k v) j = Sparse.get d m j := by
  unfold Sparse.set
  by_cases hv : v = e
  · simp only [hv, if_true]; exact Sparse.get_filter_ne d m k j h
  · simp only [hv, if_false]
    rw [Sparse.get_ins d _ k j v (by intro p hp; simpa using (List.mem_filter.1 hp).2), if_neg h,
      Sparse.get_filter_ne d m k j h]

/-! ## The canonical form -/

theorem Sparse.above_mono {b c : Nat} (h : b ≤ c) : ∀ m : Sparse α, Sparse.above c m = true → Sparse.above b m = true
  | [], _ => rfl
  | p :: t, hm => by
    simp only [Sparse.above, Bool.and_eq_true, decide_eq_true_eq] at hm ⊢
    exact ⟨by omega, Sparse.above_mono h t hm.2⟩

theorem Sparse.above_filter (b : Nat) (q : Nat × α → Bool) : ∀ m : Sparse α, Sparse.above b m = true →
    Sparse.above b (m.filter q) = true
  | [], _ => rfl
  | p :: t, hm => by
    simp only [Sparse.above, Bool.and_eq_true, decide_eq_true_eq] at hm
    simp only [List.filter]
    split
    · simp [Sparse.above, hm.1, Sparse.above_filter b q t hm.2]
    · exact Sparse.above_filter b q t hm.2

theorem Sparse.wf_filter [DecidableEq α] (f : Nat → α) (q : Nat × α → Bool) : ∀ m : Sparse α, Sparse.wf f m = true →
    Sparse.wf f (m.filter q) = true
  | [], _ => rfl
  | p :: t, hm => by
    simp only [Sparse.wf, Bool.and_eq_true, decide_eq_true_eq] at hm
    simp only [List.filter]
    split
    · simp [Sparse.wf, hm.1.2, Sparse.above_filter _ q t hm.1.1, Sparse.wf_filter f q t hm.2]
    · exact Sparse.wf_filter f q t hm.2

theorem Sparse.above_ins (b k : Nat) (v : α) (hb : b < k) : ∀ m : Sparse α, Sparse.above b m = true →
    Sparse.above b (Sparse.ins k v m) = true
  | [], _ => by simp [Sparse.ins, Sparse.above, hb]
  | p :: t, hm => by
    simp only [Sparse.above, Bool.and_eq_true, decide_eq_true_eq] at hm
    simp only [Sparse.ins]
    split
    · simp [Sparse.above, hb, hm.1, hm.2]
    · simp [Sparse.above, hm.1, Sparse.above_ins b k v hb t hm.2]

theorem Sparse.wf_ins [DecidableEq α] (f : Nat → α) (k : Nat) (v : α) (hv : v ≠ f k) : ∀ m : Sparse α,
    (∀ p ∈ m, p.1 ≠ k) → Sparse.wf f m = true → Sparse.wf f (Sparse.ins k v m) = true
  | [], _, _ => by simp [Sparse.ins, Sparse.wf, Sparse.above, hv]
  | p :: t, hk, hm => by
    have hp : p.1 ≠ k := hk p (by simp)
    have hm' := hm
    simp only [Sparse.wf, Bool.and_eq_true, decide_eq_true_eq] at hm
    simp only [Sparse.ins]
    split
    · rename_i hl
      have : Sparse.above k (p :: t) = true := by
        simp only [Sparse.above, Bool.and_eq_true, decide_eq_true_eq]
        exact ⟨hl, Sparse.above_mono (by omega) t hm.1.1⟩
      simp only [Sparse.wf, this, hv, ne_eq, not_false_eq_true, decide_true, Bool.and_true] at hm' ⊢
      exact hm'
    · have hl : p.1 < k := by omega
      have h1 := Sparse.above_ins p.1 k v hl t hm.1.1
      have h2 := Sparse.wf_ins f k v hv t (fun q hq => hk q (by simp [hq])) hm.2
      simp [Sparse.wf, h1, h2, hm.1.2]

/-- A write keeps the canonical form. -/
theorem Sparse.wf_set [DecidableEq α] (f : Nat → α) (m : Sparse α) (k : Nat) (v : α) (h : Sparse.wf f m = true) :
    Sparse.wf f (Sparse.set (f k) m k v) = true := by
  unfold Sparse.set
  have hf := Sparse.wf_filter f (fun p => p.1 != k) m h
  by_cases hv : v = f k
  · simp [hv, hf]
  · simp only [hv, if_false]
    exact Sparse.wf_ins f k v hv _ (by intro p hp; simpa using (List.mem_filter.1 hp).2) hf

theorem Sparse.wf_drop [DecidableEq α] (f : Nat → α) (q : Nat → Bool) (m : Sparse α) (h : Sparse.wf f m = true) :
    Sparse.wf f (Sparse.drop q m) = true := Sparse.wf_filter f _ m h

end Sys2Proof.Machine
end

