-- ==== Sys2Proof/Laws/State.lean ====
section
/-!
SUPPORT. What the basic updates of the logic leave alone, field by field.
-/
namespace Sys2Proof.Machine

/-! ## Hw.setWord -/

@[simp] theorem Hw.setWord_tabs (s : Hw) (a : Nat) (w : Word) : (s.setWord a w).tabs = s.tabs := rfl
@[simp] theorem Hw.setWord_cap (s : Hw) (a : Nat) (w : Word) : (s.setWord a w).cap = s.cap := rfl
@[simp] theorem Hw.setWord_latch (s : Hw) (a : Nat) (w : Word) : (s.setWord a w).latch = s.latch := rfl
@[simp] theorem Hw.setWord_gates (s : Hw) (a : Nat) (w : Word) : (s.setWord a w).gates = s.gates := rfl
@[simp] theorem Hw.setWord_trk (s : Hw) (a : Nat) (w : Word) : (s.setWord a w).trk = s.trk := rfl
@[simp] theorem Hw.setWord_shf (s : Hw) (a : Nat) (w : Word) : (s.setWord a w).shf = s.shf := rfl
@[simp] theorem Hw.setWord_grn (s : Hw) (a : Nat) (w : Word) : (s.setWord a w).grn = s.grn := rfl
@[simp] theorem Hw.setWord_tms (s : Hw) (a : Nat) (w : Word) : (s.setWord a w).tms = s.tms := rfl
@[simp] theorem Hw.setWord_thr (s : Hw) (a : Nat) (w : Word) : (s.setWord a w).thr = s.thr := rfl
@[simp] theorem Hw.setWord_sub (s : Hw) (a : Nat) (w : Word) : (s.setWord a w).sub = s.sub := rfl
@[simp] theorem Hw.setWord_slt (s : Hw) (a : Nat) (w : Word) : (s.setWord a w).slt = s.slt := rfl
@[simp] theorem Hw.setWord_tim (s : Hw) (a : Nat) (w : Word) : (s.setWord a w).tim = s.tim := rfl
@[simp] theorem Hw.setWord_til (s : Hw) (a : Nat) (w : Word) : (s.setWord a w).til = s.til := rfl
@[simp] theorem Hw.setWord_ctl (s : Hw) (a : Nat) (w : Word) : (s.setWord a w).ctl = s.ctl := rfl
@[simp] theorem Hw.setWord_hsk (s : Hw) (a : Nat) (w : Word) : (s.setWord a w).hsk = s.hsk := rfl
@[simp] theorem Hw.setWord_cip (s : Hw) (a : Nat) (w : Word) : (s.setWord a w).cip = s.cip := rfl
@[simp] theorem Hw.setWord_twn (s : Hw) (a : Nat) (w : Word) : (s.setWord a w).twn = s.twn := rfl
@[simp] theorem Hw.setWord_pwr (s : Hw) (a : Nat) (w : Word) : (s.setWord a w).pwr = s.pwr := rfl
@[simp] theorem Hw.setWord_pm (s : Hw) (a : Nat) (w : Word) : (s.setWord a w).pm = s.pm := rfl
@[simp] theorem Hw.setWord_pins (s : Hw) (a : Nat) (w : Word) : (s.setWord a w).pins = s.pins := rfl
@[simp] theorem Hw.setWord_aon (s : Hw) (a : Nat) (w : Word) : (s.setWord a w).aon = s.aon := rfl
@[simp] theorem Hw.setWord_resetLost (s : Hw) (a : Nat) (w : Word) : (s.setWord a w).resetLost = s.resetLost := rfl
@[simp] theorem Hw.setWord_crossLost (s : Hw) (a : Nat) (w : Word) : (s.setWord a w).crossLost = s.crossLost := rfl
@[simp] theorem Hw.setWord_clean (s : Hw) (a : Nat) (w : Word) : (s.setWord a w).clean = s.clean := rfl
@[simp] theorem Hw.setWord_wlog (s : Hw) (a : Nat) (w : Word) : (s.setWord a w).wlog = s.wlog := rfl
@[simp] theorem Hw.setWord_clk (s : Hw) (a : Nat) (w : Word) : (s.setWord a w).clk = s.clk := rfl
@[simp] theorem Hw.setWord_freeCtr (s : Hw) (a : Nat) (w : Word) : (s.setWord a w).freeCtr = s.freeCtr := rfl
@[simp] theorem Hw.setWord_rdata (s : Hw) (a : Nat) (w : Word) : (s.setWord a w).rdata = s.rdata := rfl
@[simp] theorem Hw.setWord_edata (s : Hw) (a : Nat) (w : Word) : (s.setWord a w).edata = s.edata := rfl
@[simp] theorem Hw.setWord_outs (s : Hw) (a : Nat) (w : Word) : (s.setWord a w).outs = s.outs := rfl

/-! ## Hw.wr -/

@[simp] theorem Hw.wr_tabs (s : Hw) (f : FRef) (v : Nat) : (s.wr f v).tabs = s.tabs := rfl
@[simp] theorem Hw.wr_cap (s : Hw) (f : FRef) (v : Nat) : (s.wr f v).cap = s.cap := rfl
@[simp] theorem Hw.wr_latch (s : Hw) (f : FRef) (v : Nat) : (s.wr f v).latch = s.latch := rfl
@[simp] theorem Hw.wr_gates (s : Hw) (f : FRef) (v : Nat) : (s.wr f v).gates = s.gates := rfl
@[simp] theorem Hw.wr_trk (s : Hw) (f : FRef) (v : Nat) : (s.wr f v).trk = s.trk := rfl
@[simp] theorem Hw.wr_shf (s : Hw) (f : FRef) (v : Nat) : (s.wr f v).shf = s.shf := rfl
@[simp] theorem Hw.wr_grn (s : Hw) (f : FRef) (v : Nat) : (s.wr f v).grn = s.grn := rfl
@[simp] theorem Hw.wr_tms (s : Hw) (f : FRef) (v : Nat) : (s.wr f v).tms = s.tms := rfl
@[simp] theorem Hw.wr_thr (s : Hw) (f : FRef) (v : Nat) : (s.wr f v).thr = s.thr := rfl
@[simp] theorem Hw.wr_sub (s : Hw) (f : FRef) (v : Nat) : (s.wr f v).sub = s.sub := rfl
@[simp] theorem Hw.wr_slt (s : Hw) (f : FRef) (v : Nat) : (s.wr f v).slt = s.slt := rfl
@[simp] theorem Hw.wr_tim (s : Hw) (f : FRef) (v : Nat) : (s.wr f v).tim = s.tim := rfl
@[simp] theorem Hw.wr_til (s : Hw) (f : FRef) (v : Nat) : (s.wr f v).til = s.til := rfl
@[simp] theorem Hw.wr_ctl (s : Hw) (f : FRef) (v : Nat) : (s.wr f v).ctl = s.ctl := rfl
@[simp] theorem Hw.wr_hsk (s : Hw) (f : FRef) (v : Nat) : (s.wr f v).hsk = s.hsk := rfl
@[simp] theorem Hw.wr_cip (s : Hw) (f : FRef) (v : Nat) : (s.wr f v).cip = s.cip := rfl
@[simp] theorem Hw.wr_twn (s : Hw) (f : FRef) (v : Nat) : (s.wr f v).twn = s.twn := rfl
@[simp] theorem Hw.wr_pwr (s : Hw) (f : FRef) (v : Nat) : (s.wr f v).pwr = s.pwr := rfl
@[simp] theorem Hw.wr_pm (s : Hw) (f : FRef) (v : Nat) : (s.wr f v).pm = s.pm := rfl
@[simp] theorem Hw.wr_pins (s : Hw) (f : FRef) (v : Nat) : (s.wr f v).pins = s.pins := rfl
@[simp] theorem Hw.wr_aon (s : Hw) (f : FRef) (v : Nat) : (s.wr f v).aon = s.aon := rfl
@[simp] theorem Hw.wr_resetLost (s : Hw) (f : FRef) (v : Nat) : (s.wr f v).resetLost = s.resetLost := rfl
@[simp] theorem Hw.wr_crossLost (s : Hw) (f : FRef) (v : Nat) : (s.wr f v).crossLost = s.crossLost := rfl
@[simp] theorem Hw.wr_clean (s : Hw) (f : FRef) (v : Nat) : (s.wr f v).clean = s.clean := rfl
@[simp] theorem Hw.wr_wlog (s : Hw) (f : FRef) (v : Nat) : (s.wr f v).wlog = s.wlog := rfl
@[simp] theorem Hw.wr_clk (s : Hw) (f : FRef) (v : Nat) : (s.wr f v).clk = s.clk := rfl
@[simp] theorem Hw.wr_freeCtr (s : Hw) (f : FRef) (v : Nat) : (s.wr f v).freeCtr = s.freeCtr := rfl
@[simp] theorem Hw.wr_rdata (s : Hw) (f : FRef) (v : Nat) : (s.wr f v).rdata = s.rdata := rfl
@[simp] theorem Hw.wr_edata (s : Hw) (f : FRef) (v : Nat) : (s.wr f v).edata = s.edata := rfl
@[simp] theorem Hw.wr_outs (s : Hw) (f : FRef) (v : Nat) : (s.wr f v).outs = s.outs := rfl

/-! ## Hw.setTabWord -/

@[simp] theorem Hw.setTabWord_regs (s : Hw) (k : Nat) (w : Word) : (s.setTabWord k w).regs = s.regs := rfl
@[simp] theorem Hw.setTabWord_cap (s : Hw) (k : Nat) (w : Word) : (s.setTabWord k w).cap = s.cap := rfl
@[simp] theorem Hw.setTabWord_latch (s : Hw) (k : Nat) (w : Word) : (s.setTabWord k w).latch = s.latch := rfl
@[simp] theorem Hw.setTabWord_gates (s : Hw) (k : Nat) (w : Word) : (s.setTabWord k w).gates = s.gates := rfl
@[simp] theorem Hw.setTabWord_trk (s : Hw) (k : Nat) (w : Word) : (s.setTabWord k w).trk = s.trk := rfl
@[simp] theorem Hw.setTabWord_shf (s : Hw) (k : Nat) (w : Word) : (s.setTabWord k w).shf = s.shf := rfl
@[simp] theorem Hw.setTabWord_grn (s : Hw) (k : Nat) (w : Word) : (s.setTabWord k w).grn = s.grn := rfl
@[simp] theorem Hw.setTabWord_tms (s : Hw) (k : Nat) (w : Word) : (s.setTabWord k w).tms = s.tms := rfl
@[simp] theorem Hw.setTabWord_thr (s : Hw) (k : Nat) (w : Word) : (s.setTabWord k w).thr = s.thr := rfl
@[simp] theorem Hw.setTabWord_sub (s : Hw) (k : Nat) (w : Word) : (s.setTabWord k w).sub = s.sub := rfl
@[simp] theorem Hw.setTabWord_slt (s : Hw) (k : Nat) (w : Word) : (s.setTabWord k w).slt = s.slt := rfl
@[simp] theorem Hw.setTabWord_tim (s : Hw) (k : Nat) (w : Word) : (s.setTabWord k w).tim = s.tim := rfl
@[simp] theorem Hw.setTabWord_til (s : Hw) (k : Nat) (w : Word) : (s.setTabWord k w).til = s.til := rfl
@[simp] theorem Hw.setTabWord_ctl (s : Hw) (k : Nat) (w : Word) : (s.setTabWord k w).ctl = s.ctl := rfl
@[simp] theorem Hw.setTabWord_hsk (s : Hw) (k : Nat) (w : Word) : (s.setTabWord k w).hsk = s.hsk := rfl
@[simp] theorem Hw.setTabWord_cip (s : Hw) (k : Nat) (w : Word) : (s.setTabWord k w).cip = s.cip := rfl
@[simp] theorem Hw.setTabWord_twn (s : Hw) (k : Nat) (w : Word) : (s.setTabWord k w).twn = s.twn := rfl
@[simp] theorem Hw.setTabWord_pwr (s : Hw) (k : Nat) (w : Word) : (s.setTabWord k w).pwr = s.pwr := rfl
@[simp] theorem Hw.setTabWord_pm (s : Hw) (k : Nat) (w : Word) : (s.setTabWord k w).pm = s.pm := rfl
@[simp] theorem Hw.setTabWord_pins (s : Hw) (k : Nat) (w : Word) : (s.setTabWord k w).pins = s.pins := rfl
@[simp] theorem Hw.setTabWord_aon (s : Hw) (k : Nat) (w : Word) : (s.setTabWord k w).aon = s.aon := rfl
@[simp] theorem Hw.setTabWord_resetLost (s : Hw) (k : Nat) (w : Word) : (s.setTabWord k w).resetLost = s.resetLost := rfl
@[simp] theorem Hw.setTabWord_crossLost (s : Hw) (k : Nat) (w : Word) : (s.setTabWord k w).crossLost = s.crossLost := rfl
@[simp] theorem Hw.setTabWord_clean (s : Hw) (k : Nat) (w : Word) : (s.setTabWord k w).clean = s.clean := rfl
@[simp] theorem Hw.setTabWord_wlog (s : Hw) (k : Nat) (w : Word) : (s.setTabWord k w).wlog = s.wlog := rfl
@[simp] theorem Hw.setTabWord_clk (s : Hw) (k : Nat) (w : Word) : (s.setTabWord k w).clk = s.clk := rfl
@[simp] theorem Hw.setTabWord_freeCtr (s : Hw) (k : Nat) (w : Word) : (s.setTabWord k w).freeCtr = s.freeCtr := rfl
@[simp] theorem Hw.setTabWord_rdata (s : Hw) (k : Nat) (w : Word) : (s.setTabWord k w).rdata = s.rdata := rfl
@[simp] theorem Hw.setTabWord_edata (s : Hw) (k : Nat) (w : Word) : (s.setTabWord k w).edata = s.edata := rfl
@[simp] theorem Hw.setTabWord_outs (s : Hw) (k : Nat) (w : Word) : (s.setTabWord k w).outs = s.outs := rfl

/-! ## Hw.emit -/

@[simp] theorem Hw.emit_regs (s : Hw) (o : Out) : (s.emit o).regs = s.regs := rfl
@[simp] theorem Hw.emit_tabs (s : Hw) (o : Out) : (s.emit o).tabs = s.tabs := rfl
@[simp] theorem Hw.emit_cap (s : Hw) (o : Out) : (s.emit o).cap = s.cap := rfl
@[simp] theorem Hw.emit_latch (s : Hw) (o : Out) : (s.emit o).latch = s.latch := rfl
@[simp] theorem Hw.emit_gates (s : Hw) (o : Out) : (s.emit o).gates = s.gates := rfl
@[simp] theorem Hw.emit_trk (s : Hw) (o : Out) : (s.emit o).trk = s.trk := rfl
@[simp] theorem Hw.emit_shf (s : Hw) (o : Out) : (s.emit o).shf = s.shf := rfl
@[simp] theorem Hw.emit_grn (s : Hw) (o : Out) : (s.emit o).grn = s.grn := rfl
@[simp] theorem Hw.emit_tms (s : Hw) (o : Out) : (s.emit o).tms = s.tms := rfl
@[simp] theorem Hw.emit_thr (s : Hw) (o : Out) : (s.emit o).thr = s.thr := rfl
@[simp] theorem Hw.emit_sub (s : Hw) (o : Out) : (s.emit o).sub = s.sub := rfl
@[simp] theorem Hw.emit_slt (s : Hw) (o : Out) : (s.emit o).slt = s.slt := rfl
@[simp] theorem Hw.emit_tim (s : Hw) (o : Out) : (s.emit o).tim = s.tim := rfl
@[simp] theorem Hw.emit_til (s : Hw) (o : Out) : (s.emit o).til = s.til := rfl
@[simp] theorem Hw.emit_ctl (s : Hw) (o : Out) : (s.emit o).ctl = s.ctl := rfl
@[simp] theorem Hw.emit_hsk (s : Hw) (o : Out) : (s.emit o).hsk = s.hsk := rfl
@[simp] theorem Hw.emit_cip (s : Hw) (o : Out) : (s.emit o).cip = s.cip := rfl
@[simp] theorem Hw.emit_twn (s : Hw) (o : Out) : (s.emit o).twn = s.twn := rfl
@[simp] theorem Hw.emit_pwr (s : Hw) (o : Out) : (s.emit o).pwr = s.pwr := rfl
@[simp] theorem Hw.emit_pm (s : Hw) (o : Out) : (s.emit o).pm = s.pm := rfl
@[simp] theorem Hw.emit_pins (s : Hw) (o : Out) : (s.emit o).pins = s.pins := rfl
@[simp] theorem Hw.emit_aon (s : Hw) (o : Out) : (s.emit o).aon = s.aon := rfl
@[simp] theorem Hw.emit_resetLost (s : Hw) (o : Out) : (s.emit o).resetLost = s.resetLost := rfl
@[simp] theorem Hw.emit_crossLost (s : Hw) (o : Out) : (s.emit o).crossLost = s.crossLost := rfl
@[simp] theorem Hw.emit_clean (s : Hw) (o : Out) : (s.emit o).clean = s.clean := rfl
@[simp] theorem Hw.emit_wlog (s : Hw) (o : Out) : (s.emit o).wlog = s.wlog := rfl
@[simp] theorem Hw.emit_clk (s : Hw) (o : Out) : (s.emit o).clk = s.clk := rfl
@[simp] theorem Hw.emit_freeCtr (s : Hw) (o : Out) : (s.emit o).freeCtr = s.freeCtr := rfl
@[simp] theorem Hw.emit_rdata (s : Hw) (o : Out) : (s.emit o).rdata = s.rdata := rfl
@[simp] theorem Hw.emit_edata (s : Hw) (o : Out) : (s.emit o).edata = s.edata := rfl

/-! ## Hw.answer -/

@[simp] theorem Hw.answer_regs (s : Hw) (w : Word) : (s.answer w).regs = s.regs := rfl
@[simp] theorem Hw.answer_tabs (s : Hw) (w : Word) : (s.answer w).tabs = s.tabs := rfl
@[simp] theorem Hw.answer_cap (s : Hw) (w : Word) : (s.answer w).cap = s.cap := rfl
@[simp] theorem Hw.answer_latch (s : Hw) (w : Word) : (s.answer w).latch = s.latch := rfl
@[simp] theorem Hw.answer_gates (s : Hw) (w : Word) : (s.answer w).gates = s.gates := rfl
@[simp] theorem Hw.answer_trk (s : Hw) (w : Word) : (s.answer w).trk = s.trk := rfl
@[simp] theorem Hw.answer_shf (s : Hw) (w : Word) : (s.answer w).shf = s.shf := rfl
@[simp] theorem Hw.answer_grn (s : Hw) (w : Word) : (s.answer w).grn = s.grn := rfl
@[simp] theorem Hw.answer_tms (s : Hw) (w : Word) : (s.answer w).tms = s.tms := rfl
@[simp] theorem Hw.answer_thr (s : Hw) (w : Word) : (s.answer w).thr = s.thr := rfl
@[simp] theorem Hw.answer_sub (s : Hw) (w : Word) : (s.answer w).sub = s.sub := rfl
@[simp] theorem Hw.answer_slt (s : Hw) (w : Word) : (s.answer w).slt = s.slt := rfl
@[simp] theorem Hw.answer_tim (s : Hw) (w : Word) : (s.answer w).tim = s.tim := rfl
@[simp] theorem Hw.answer_til (s : Hw) (w : Word) : (s.answer w).til = s.til := rfl
@[simp] theorem Hw.answer_ctl (s : Hw) (w : Word) : (s.answer w).ctl = s.ctl := rfl
@[simp] theorem Hw.answer_hsk (s : Hw) (w : Word) : (s.answer w).hsk = s.hsk := rfl
@[simp] theorem Hw.answer_cip (s : Hw) (w : Word) : (s.answer w).cip = s.cip := rfl
@[simp] theorem Hw.answer_twn (s : Hw) (w : Word) : (s.answer w).twn = s.twn := rfl
@[simp] theorem Hw.answer_pwr (s : Hw) (w : Word) : (s.answer w).pwr = s.pwr := rfl
@[simp] theorem Hw.answer_pm (s : Hw) (w : Word) : (s.answer w).pm = s.pm := rfl
@[simp] theorem Hw.answer_pins (s : Hw) (w : Word) : (s.answer w).pins = s.pins := rfl
@[simp] theorem Hw.answer_aon (s : Hw) (w : Word) : (s.answer w).aon = s.aon := rfl
@[simp] theorem Hw.answer_resetLost (s : Hw) (w : Word) : (s.answer w).resetLost = s.resetLost := rfl
@[simp] theorem Hw.answer_crossLost (s : Hw) (w : Word) : (s.answer w).crossLost = s.crossLost := rfl
@[simp] theorem Hw.answer_clean (s : Hw) (w : Word) : (s.answer w).clean = s.clean := rfl
@[simp] theorem Hw.answer_wlog (s : Hw) (w : Word) : (s.answer w).wlog = s.wlog := rfl
@[simp] theorem Hw.answer_clk (s : Hw) (w : Word) : (s.answer w).clk = s.clk := rfl
@[simp] theorem Hw.answer_freeCtr (s : Hw) (w : Word) : (s.answer w).freeCtr = s.freeCtr := rfl
@[simp] theorem Hw.answer_edata (s : Hw) (w : Word) : (s.answer w).edata = s.edata := rfl
@[simp] theorem Hw.answer_outs (s : Hw) (w : Word) : (s.answer w).outs = s.outs := rfl

/-! ## Hw.memWrite -/

@[simp] theorem Hw.memWrite_regs (s : Hw) (a : Nat) (bs : Bytes) : (s.memWrite a bs).regs = s.regs := rfl
@[simp] theorem Hw.memWrite_tabs (s : Hw) (a : Nat) (bs : Bytes) : (s.memWrite a bs).tabs = s.tabs := rfl
@[simp] theorem Hw.memWrite_cap (s : Hw) (a : Nat) (bs : Bytes) : (s.memWrite a bs).cap = s.cap := rfl
@[simp] theorem Hw.memWrite_latch (s : Hw) (a : Nat) (bs : Bytes) : (s.memWrite a bs).latch = s.latch := rfl
@[simp] theorem Hw.memWrite_gates (s : Hw) (a : Nat) (bs : Bytes) : (s.memWrite a bs).gates = s.gates := rfl
@[simp] theorem Hw.memWrite_trk (s : Hw) (a : Nat) (bs : Bytes) : (s.memWrite a bs).trk = s.trk := rfl
@[simp] theorem Hw.memWrite_shf (s : Hw) (a : Nat) (bs : Bytes) : (s.memWrite a bs).shf = s.shf := rfl
@[simp] theorem Hw.memWrite_grn (s : Hw) (a : Nat) (bs : Bytes) : (s.memWrite a bs).grn = s.grn := rfl
@[simp] theorem Hw.memWrite_tms (s : Hw) (a : Nat) (bs : Bytes) : (s.memWrite a bs).tms = s.tms := rfl
@[simp] theorem Hw.memWrite_thr (s : Hw) (a : Nat) (bs : Bytes) : (s.memWrite a bs).thr = s.thr := rfl
@[simp] theorem Hw.memWrite_sub (s : Hw) (a : Nat) (bs : Bytes) : (s.memWrite a bs).sub = s.sub := rfl
@[simp] theorem Hw.memWrite_slt (s : Hw) (a : Nat) (bs : Bytes) : (s.memWrite a bs).slt = s.slt := rfl
@[simp] theorem Hw.memWrite_tim (s : Hw) (a : Nat) (bs : Bytes) : (s.memWrite a bs).tim = s.tim := rfl
@[simp] theorem Hw.memWrite_til (s : Hw) (a : Nat) (bs : Bytes) : (s.memWrite a bs).til = s.til := rfl
@[simp] theorem Hw.memWrite_ctl (s : Hw) (a : Nat) (bs : Bytes) : (s.memWrite a bs).ctl = s.ctl := rfl
@[simp] theorem Hw.memWrite_hsk (s : Hw) (a : Nat) (bs : Bytes) : (s.memWrite a bs).hsk = s.hsk := rfl
@[simp] theorem Hw.memWrite_cip (s : Hw) (a : Nat) (bs : Bytes) : (s.memWrite a bs).cip = s.cip := rfl
@[simp] theorem Hw.memWrite_twn (s : Hw) (a : Nat) (bs : Bytes) : (s.memWrite a bs).twn = s.twn := rfl
@[simp] theorem Hw.memWrite_pwr (s : Hw) (a : Nat) (bs : Bytes) : (s.memWrite a bs).pwr = s.pwr := rfl
@[simp] theorem Hw.memWrite_pm (s : Hw) (a : Nat) (bs : Bytes) : (s.memWrite a bs).pm = s.pm := rfl
@[simp] theorem Hw.memWrite_pins (s : Hw) (a : Nat) (bs : Bytes) : (s.memWrite a bs).pins = s.pins := rfl
@[simp] theorem Hw.memWrite_aon (s : Hw) (a : Nat) (bs : Bytes) : (s.memWrite a bs).aon = s.aon := rfl
@[simp] theorem Hw.memWrite_resetLost (s : Hw) (a : Nat) (bs : Bytes) : (s.memWrite a bs).resetLost = s.resetLost := rfl
@[simp] theorem Hw.memWrite_crossLost (s : Hw) (a : Nat) (bs : Bytes) : (s.memWrite a bs).crossLost = s.crossLost := rfl
@[simp] theorem Hw.memWrite_clean (s : Hw) (a : Nat) (bs : Bytes) : (s.memWrite a bs).clean = s.clean := rfl
@[simp] theorem Hw.memWrite_clk (s : Hw) (a : Nat) (bs : Bytes) : (s.memWrite a bs).clk = s.clk := rfl
@[simp] theorem Hw.memWrite_freeCtr (s : Hw) (a : Nat) (bs : Bytes) : (s.memWrite a bs).freeCtr = s.freeCtr := rfl
@[simp] theorem Hw.memWrite_rdata (s : Hw) (a : Nat) (bs : Bytes) : (s.memWrite a bs).rdata = s.rdata := rfl
@[simp] theorem Hw.memWrite_edata (s : Hw) (a : Nat) (bs : Bytes) : (s.memWrite a bs).edata = s.edata := rfl
@[simp] theorem Hw.memWrite_outs (s : Hw) (a : Nat) (bs : Bytes) : (s.memWrite a bs).outs = s.outs := rfl

/-! ## Hw.memVia -/

@[simp] theorem Hw.memVia_regs (s : Hw) (d : Nat) (bs : Bytes) : (s.memVia d bs).regs = s.regs := rfl
@[simp] theorem Hw.memVia_tabs (s : Hw) (d : Nat) (bs : Bytes) : (s.memVia d bs).tabs = s.tabs := rfl
@[simp] theorem Hw.memVia_cap (s : Hw) (d : Nat) (bs : Bytes) : (s.memVia d bs).cap = s.cap := rfl
@[simp] theorem Hw.memVia_latch (s : Hw) (d : Nat) (bs : Bytes) : (s.memVia d bs).latch = s.latch := rfl
@[simp] theorem Hw.memVia_gates (s : Hw) (d : Nat) (bs : Bytes) : (s.memVia d bs).gates = s.gates := rfl
@[simp] theorem Hw.memVia_trk (s : Hw) (d : Nat) (bs : Bytes) : (s.memVia d bs).trk = s.trk := rfl
@[simp] theorem Hw.memVia_shf (s : Hw) (d : Nat) (bs : Bytes) : (s.memVia d bs).shf = s.shf := rfl
@[simp] theorem Hw.memVia_grn (s : Hw) (d : Nat) (bs : Bytes) : (s.memVia d bs).grn = s.grn := rfl
@[simp] theorem Hw.memVia_tms (s : Hw) (d : Nat) (bs : Bytes) : (s.memVia d bs).tms = s.tms := rfl
@[simp] theorem Hw.memVia_thr (s : Hw) (d : Nat) (bs : Bytes) : (s.memVia d bs).thr = s.thr := rfl
@[simp] theorem Hw.memVia_sub (s : Hw) (d : Nat) (bs : Bytes) : (s.memVia d bs).sub = s.sub := rfl
@[simp] theorem Hw.memVia_slt (s : Hw) (d : Nat) (bs : Bytes) : (s.memVia d bs).slt = s.slt := rfl
@[simp] theorem Hw.memVia_tim (s : Hw) (d : Nat) (bs : Bytes) : (s.memVia d bs).tim = s.tim := rfl
@[simp] theorem Hw.memVia_til (s : Hw) (d : Nat) (bs : Bytes) : (s.memVia d bs).til = s.til := rfl
@[simp] theorem Hw.memVia_ctl (s : Hw) (d : Nat) (bs : Bytes) : (s.memVia d bs).ctl = s.ctl := rfl
@[simp] theorem Hw.memVia_hsk (s : Hw) (d : Nat) (bs : Bytes) : (s.memVia d bs).hsk = s.hsk := rfl
@[simp] theorem Hw.memVia_cip (s : Hw) (d : Nat) (bs : Bytes) : (s.memVia d bs).cip = s.cip := rfl
@[simp] theorem Hw.memVia_twn (s : Hw) (d : Nat) (bs : Bytes) : (s.memVia d bs).twn = s.twn := rfl
@[simp] theorem Hw.memVia_pwr (s : Hw) (d : Nat) (bs : Bytes) : (s.memVia d bs).pwr = s.pwr := rfl
@[simp] theorem Hw.memVia_pm (s : Hw) (d : Nat) (bs : Bytes) : (s.memVia d bs).pm = s.pm := rfl
@[simp] theorem Hw.memVia_pins (s : Hw) (d : Nat) (bs : Bytes) : (s.memVia d bs).pins = s.pins := rfl
@[simp] theorem Hw.memVia_aon (s : Hw) (d : Nat) (bs : Bytes) : (s.memVia d bs).aon = s.aon := rfl
@[simp] theorem Hw.memVia_resetLost (s : Hw) (d : Nat) (bs : Bytes) : (s.memVia d bs).resetLost = s.resetLost := rfl
@[simp] theorem Hw.memVia_crossLost (s : Hw) (d : Nat) (bs : Bytes) : (s.memVia d bs).crossLost = s.crossLost := rfl
@[simp] theorem Hw.memVia_clean (s : Hw) (d : Nat) (bs : Bytes) : (s.memVia d bs).clean = s.clean := rfl
@[simp] theorem Hw.memVia_clk (s : Hw) (d : Nat) (bs : Bytes) : (s.memVia d bs).clk = s.clk := rfl
@[simp] theorem Hw.memVia_freeCtr (s : Hw) (d : Nat) (bs : Bytes) : (s.memVia d bs).freeCtr = s.freeCtr := rfl
@[simp] theorem Hw.memVia_rdata (s : Hw) (d : Nat) (bs : Bytes) : (s.memVia d bs).rdata = s.rdata := rfl
@[simp] theorem Hw.memVia_edata (s : Hw) (d : Nat) (bs : Bytes) : (s.memVia d bs).edata = s.edata := rfl
@[simp] theorem Hw.memVia_outs (s : Hw) (d : Nat) (bs : Bytes) : (s.memVia d bs).outs = s.outs := rfl

/-! ## Hw.note -/

@[simp] theorem Hw.note_regs (s : Hw) (o kind n : Nat) : (s.note o kind n).regs = s.regs := rfl
@[simp] theorem Hw.note_tabs (s : Hw) (o kind n : Nat) : (s.note o kind n).tabs = s.tabs := rfl
@[simp] theorem Hw.note_cap (s : Hw) (o kind n : Nat) : (s.note o kind n).cap = s.cap := rfl
@[simp] theorem Hw.note_latch (s : Hw) (o kind n : Nat) : (s.note o kind n).latch = s.latch := rfl
@[simp] theorem Hw.note_gates (s : Hw) (o kind n : Nat) : (s.note o kind n).gates = s.gates := rfl
@[simp] theorem Hw.note_trk (s : Hw) (o kind n : Nat) : (s.note o kind n).trk = s.trk := rfl
@[simp] theorem Hw.note_shf (s : Hw) (o kind n : Nat) : (s.note o kind n).shf = s.shf := rfl
@[simp] theorem Hw.note_grn (s : Hw) (o kind n : Nat) : (s.note o kind n).grn = s.grn := rfl
@[simp] theorem Hw.note_tms (s : Hw) (o kind n : Nat) : (s.note o kind n).tms = s.tms := rfl
@[simp] theorem Hw.note_thr (s : Hw) (o kind n : Nat) : (s.note o kind n).thr = s.thr := rfl
@[simp] theorem Hw.note_sub (s : Hw) (o kind n : Nat) : (s.note o kind n).sub = s.sub := rfl
@[simp] theorem Hw.note_slt (s : Hw) (o kind n : Nat) : (s.note o kind n).slt = s.slt := rfl
@[simp] theorem Hw.note_tim (s : Hw) (o kind n : Nat) : (s.note o kind n).tim = s.tim := rfl
@[simp] theorem Hw.note_til (s : Hw) (o kind n : Nat) : (s.note o kind n).til = s.til := rfl
@[simp] theorem Hw.note_ctl (s : Hw) (o kind n : Nat) : (s.note o kind n).ctl = s.ctl := rfl
@[simp] theorem Hw.note_hsk (s : Hw) (o kind n : Nat) : (s.note o kind n).hsk = s.hsk := rfl
@[simp] theorem Hw.note_cip (s : Hw) (o kind n : Nat) : (s.note o kind n).cip = s.cip := rfl
@[simp] theorem Hw.note_twn (s : Hw) (o kind n : Nat) : (s.note o kind n).twn = s.twn := rfl
@[simp] theorem Hw.note_pwr (s : Hw) (o kind n : Nat) : (s.note o kind n).pwr = s.pwr := rfl
@[simp] theorem Hw.note_pins (s : Hw) (o kind n : Nat) : (s.note o kind n).pins = s.pins := rfl
@[simp] theorem Hw.note_aon (s : Hw) (o kind n : Nat) : (s.note o kind n).aon = s.aon := rfl
@[simp] theorem Hw.note_resetLost (s : Hw) (o kind n : Nat) : (s.note o kind n).resetLost = s.resetLost := rfl
@[simp] theorem Hw.note_crossLost (s : Hw) (o kind n : Nat) : (s.note o kind n).crossLost = s.crossLost := rfl
@[simp] theorem Hw.note_clean (s : Hw) (o kind n : Nat) : (s.note o kind n).clean = s.clean := rfl
@[simp] theorem Hw.note_wlog (s : Hw) (o kind n : Nat) : (s.note o kind n).wlog = s.wlog := rfl
@[simp] theorem Hw.note_clk (s : Hw) (o kind n : Nat) : (s.note o kind n).clk = s.clk := rfl
@[simp] theorem Hw.note_freeCtr (s : Hw) (o kind n : Nat) : (s.note o kind n).freeCtr = s.freeCtr := rfl
@[simp] theorem Hw.note_rdata (s : Hw) (o kind n : Nat) : (s.note o kind n).rdata = s.rdata := rfl
@[simp] theorem Hw.note_edata (s : Hw) (o kind n : Nat) : (s.note o kind n).edata = s.edata := rfl
@[simp] theorem Hw.note_outs (s : Hw) (o kind n : Nat) : (s.note o kind n).outs = s.outs := rfl

/-! ## Hw.modOpt -/

@[simp] theorem Hw.modOpt_regs (s : Hw) (c : Nat) (f : Optics → Optics) : (s.modOpt c f).regs = s.regs := rfl
@[simp] theorem Hw.modOpt_tabs (s : Hw) (c : Nat) (f : Optics → Optics) : (s.modOpt c f).tabs = s.tabs := rfl
@[simp] theorem Hw.modOpt_cap (s : Hw) (c : Nat) (f : Optics → Optics) : (s.modOpt c f).cap = s.cap := rfl
@[simp] theorem Hw.modOpt_latch (s : Hw) (c : Nat) (f : Optics → Optics) : (s.modOpt c f).latch = s.latch := rfl
@[simp] theorem Hw.modOpt_gates (s : Hw) (c : Nat) (f : Optics → Optics) : (s.modOpt c f).gates = s.gates := rfl
@[simp] theorem Hw.modOpt_shf (s : Hw) (c : Nat) (f : Optics → Optics) : (s.modOpt c f).shf = s.shf := rfl
@[simp] theorem Hw.modOpt_grn (s : Hw) (c : Nat) (f : Optics → Optics) : (s.modOpt c f).grn = s.grn := rfl
@[simp] theorem Hw.modOpt_tms (s : Hw) (c : Nat) (f : Optics → Optics) : (s.modOpt c f).tms = s.tms := rfl
@[simp] theorem Hw.modOpt_thr (s : Hw) (c : Nat) (f : Optics → Optics) : (s.modOpt c f).thr = s.thr := rfl
@[simp] theorem Hw.modOpt_sub (s : Hw) (c : Nat) (f : Optics → Optics) : (s.modOpt c f).sub = s.sub := rfl
@[simp] theorem Hw.modOpt_slt (s : Hw) (c : Nat) (f : Optics → Optics) : (s.modOpt c f).slt = s.slt := rfl
@[simp] theorem Hw.modOpt_tim (s : Hw) (c : Nat) (f : Optics → Optics) : (s.modOpt c f).tim = s.tim := rfl
@[simp] theorem Hw.modOpt_til (s : Hw) (c : Nat) (f : Optics → Optics) : (s.modOpt c f).til = s.til := rfl
@[simp] theorem Hw.modOpt_ctl (s : Hw) (c : Nat) (f : Optics → Optics) : (s.modOpt c f).ctl = s.ctl := rfl
@[simp] theorem Hw.modOpt_hsk (s : Hw) (c : Nat) (f : Optics → Optics) : (s.modOpt c f).hsk = s.hsk := rfl
@[simp] theorem Hw.modOpt_cip (s : Hw) (c : Nat) (f : Optics → Optics) : (s.modOpt c f).cip = s.cip := rfl
@[simp] theorem Hw.modOpt_twn (s : Hw) (c : Nat) (f : Optics → Optics) : (s.modOpt c f).twn = s.twn := rfl
@[simp] theorem Hw.modOpt_pwr (s : Hw) (c : Nat) (f : Optics → Optics) : (s.modOpt c f).pwr = s.pwr := rfl
@[simp] theorem Hw.modOpt_pm (s : Hw) (c : Nat) (f : Optics → Optics) : (s.modOpt c f).pm = s.pm := rfl
@[simp] theorem Hw.modOpt_pins (s : Hw) (c : Nat) (f : Optics → Optics) : (s.modOpt c f).pins = s.pins := rfl
@[simp] theorem Hw.modOpt_aon (s : Hw) (c : Nat) (f : Optics → Optics) : (s.modOpt c f).aon = s.aon := rfl
@[simp] theorem Hw.modOpt_resetLost (s : Hw) (c : Nat) (f : Optics → Optics) : (s.modOpt c f).resetLost = s.resetLost := rfl
@[simp] theorem Hw.modOpt_crossLost (s : Hw) (c : Nat) (f : Optics → Optics) : (s.modOpt c f).crossLost = s.crossLost := rfl
@[simp] theorem Hw.modOpt_clean (s : Hw) (c : Nat) (f : Optics → Optics) : (s.modOpt c f).clean = s.clean := rfl
@[simp] theorem Hw.modOpt_wlog (s : Hw) (c : Nat) (f : Optics → Optics) : (s.modOpt c f).wlog = s.wlog := rfl
@[simp] theorem Hw.modOpt_clk (s : Hw) (c : Nat) (f : Optics → Optics) : (s.modOpt c f).clk = s.clk := rfl
@[simp] theorem Hw.modOpt_freeCtr (s : Hw) (c : Nat) (f : Optics → Optics) : (s.modOpt c f).freeCtr = s.freeCtr := rfl
@[simp] theorem Hw.modOpt_rdata (s : Hw) (c : Nat) (f : Optics → Optics) : (s.modOpt c f).rdata = s.rdata := rfl
@[simp] theorem Hw.modOpt_edata (s : Hw) (c : Nat) (f : Optics → Optics) : (s.modOpt c f).edata = s.edata := rfl
@[simp] theorem Hw.modOpt_outs (s : Hw) (c : Nat) (f : Optics → Optics) : (s.modOpt c f).outs = s.outs := rfl

/-! ## Hw.modDln -/

@[simp] theorem Hw.modDln_regs (s : Hw) (c : Nat) (f : Dln → Dln) : (s.modDln c f).regs = s.regs := rfl
@[simp] theorem Hw.modDln_tabs (s : Hw) (c : Nat) (f : Dln → Dln) : (s.modDln c f).tabs = s.tabs := rfl
@[simp] theorem Hw.modDln_cap (s : Hw) (c : Nat) (f : Dln → Dln) : (s.modDln c f).cap = s.cap := rfl
@[simp] theorem Hw.modDln_latch (s : Hw) (c : Nat) (f : Dln → Dln) : (s.modDln c f).latch = s.latch := rfl
@[simp] theorem Hw.modDln_gates (s : Hw) (c : Nat) (f : Dln → Dln) : (s.modDln c f).gates = s.gates := rfl
@[simp] theorem Hw.modDln_shf (s : Hw) (c : Nat) (f : Dln → Dln) : (s.modDln c f).shf = s.shf := rfl
@[simp] theorem Hw.modDln_grn (s : Hw) (c : Nat) (f : Dln → Dln) : (s.modDln c f).grn = s.grn := rfl
@[simp] theorem Hw.modDln_tms (s : Hw) (c : Nat) (f : Dln → Dln) : (s.modDln c f).tms = s.tms := rfl
@[simp] theorem Hw.modDln_thr (s : Hw) (c : Nat) (f : Dln → Dln) : (s.modDln c f).thr = s.thr := rfl
@[simp] theorem Hw.modDln_sub (s : Hw) (c : Nat) (f : Dln → Dln) : (s.modDln c f).sub = s.sub := rfl
@[simp] theorem Hw.modDln_slt (s : Hw) (c : Nat) (f : Dln → Dln) : (s.modDln c f).slt = s.slt := rfl
@[simp] theorem Hw.modDln_tim (s : Hw) (c : Nat) (f : Dln → Dln) : (s.modDln c f).tim = s.tim := rfl
@[simp] theorem Hw.modDln_til (s : Hw) (c : Nat) (f : Dln → Dln) : (s.modDln c f).til = s.til := rfl
@[simp] theorem Hw.modDln_ctl (s : Hw) (c : Nat) (f : Dln → Dln) : (s.modDln c f).ctl = s.ctl := rfl
@[simp] theorem Hw.modDln_hsk (s : Hw) (c : Nat) (f : Dln → Dln) : (s.modDln c f).hsk = s.hsk := rfl
@[simp] theorem Hw.modDln_cip (s : Hw) (c : Nat) (f : Dln → Dln) : (s.modDln c f).cip = s.cip := rfl
@[simp] theorem Hw.modDln_twn (s : Hw) (c : Nat) (f : Dln → Dln) : (s.modDln c f).twn = s.twn := rfl
@[simp] theorem Hw.modDln_pwr (s : Hw) (c : Nat) (f : Dln → Dln) : (s.modDln c f).pwr = s.pwr := rfl
@[simp] theorem Hw.modDln_pm (s : Hw) (c : Nat) (f : Dln → Dln) : (s.modDln c f).pm = s.pm := rfl
@[simp] theorem Hw.modDln_pins (s : Hw) (c : Nat) (f : Dln → Dln) : (s.modDln c f).pins = s.pins := rfl
@[simp] theorem Hw.modDln_aon (s : Hw) (c : Nat) (f : Dln → Dln) : (s.modDln c f).aon = s.aon := rfl
@[simp] theorem Hw.modDln_resetLost (s : Hw) (c : Nat) (f : Dln → Dln) : (s.modDln c f).resetLost = s.resetLost := rfl
@[simp] theorem Hw.modDln_crossLost (s : Hw) (c : Nat) (f : Dln → Dln) : (s.modDln c f).crossLost = s.crossLost := rfl
@[simp] theorem Hw.modDln_clean (s : Hw) (c : Nat) (f : Dln → Dln) : (s.modDln c f).clean = s.clean := rfl
@[simp] theorem Hw.modDln_wlog (s : Hw) (c : Nat) (f : Dln → Dln) : (s.modDln c f).wlog = s.wlog := rfl
@[simp] theorem Hw.modDln_clk (s : Hw) (c : Nat) (f : Dln → Dln) : (s.modDln c f).clk = s.clk := rfl
@[simp] theorem Hw.modDln_freeCtr (s : Hw) (c : Nat) (f : Dln → Dln) : (s.modDln c f).freeCtr = s.freeCtr := rfl
@[simp] theorem Hw.modDln_rdata (s : Hw) (c : Nat) (f : Dln → Dln) : (s.modDln c f).rdata = s.rdata := rfl
@[simp] theorem Hw.modDln_edata (s : Hw) (c : Nat) (f : Dln → Dln) : (s.modDln c f).edata = s.edata := rfl
@[simp] theorem Hw.modDln_outs (s : Hw) (c : Nat) (f : Dln → Dln) : (s.modDln c f).outs = s.outs := rfl

/-! ## Hw.modAct -/

@[simp] theorem Hw.modAct_regs (s : Hw) (c : Nat) (f : Act → Act) : (s.modAct c f).regs = s.regs := rfl
@[simp] theorem Hw.modAct_tabs (s : Hw) (c : Nat) (f : Act → Act) : (s.modAct c f).tabs = s.tabs := rfl
@[simp] theorem Hw.modAct_cap (s : Hw) (c : Nat) (f : Act → Act) : (s.modAct c f).cap = s.cap := rfl
@[simp] theorem Hw.modAct_latch (s : Hw) (c : Nat) (f : Act → Act) : (s.modAct c f).latch = s.latch := rfl
@[simp] theorem Hw.modAct_gates (s : Hw) (c : Nat) (f : Act → Act) : (s.modAct c f).gates = s.gates := rfl
@[simp] theorem Hw.modAct_shf (s : Hw) (c : Nat) (f : Act → Act) : (s.modAct c f).shf = s.shf := rfl
@[simp] theorem Hw.modAct_grn (s : Hw) (c : Nat) (f : Act → Act) : (s.modAct c f).grn = s.grn := rfl
@[simp] theorem Hw.modAct_tms (s : Hw) (c : Nat) (f : Act → Act) : (s.modAct c f).tms = s.tms := rfl
@[simp] theorem Hw.modAct_thr (s : Hw) (c : Nat) (f : Act → Act) : (s.modAct c f).thr = s.thr := rfl
@[simp] theorem Hw.modAct_sub (s : Hw) (c : Nat) (f : Act → Act) : (s.modAct c f).sub = s.sub := rfl
@[simp] theorem Hw.modAct_slt (s : Hw) (c : Nat) (f : Act → Act) : (s.modAct c f).slt = s.slt := rfl
@[simp] theorem Hw.modAct_tim (s : Hw) (c : Nat) (f : Act → Act) : (s.modAct c f).tim = s.tim := rfl
@[simp] theorem Hw.modAct_til (s : Hw) (c : Nat) (f : Act → Act) : (s.modAct c f).til = s.til := rfl
@[simp] theorem Hw.modAct_ctl (s : Hw) (c : Nat) (f : Act → Act) : (s.modAct c f).ctl = s.ctl := rfl
@[simp] theorem Hw.modAct_hsk (s : Hw) (c : Nat) (f : Act → Act) : (s.modAct c f).hsk = s.hsk := rfl
@[simp] theorem Hw.modAct_cip (s : Hw) (c : Nat) (f : Act → Act) : (s.modAct c f).cip = s.cip := rfl
@[simp] theorem Hw.modAct_twn (s : Hw) (c : Nat) (f : Act → Act) : (s.modAct c f).twn = s.twn := rfl
@[simp] theorem Hw.modAct_pwr (s : Hw) (c : Nat) (f : Act → Act) : (s.modAct c f).pwr = s.pwr := rfl
@[simp] theorem Hw.modAct_pm (s : Hw) (c : Nat) (f : Act → Act) : (s.modAct c f).pm = s.pm := rfl
@[simp] theorem Hw.modAct_pins (s : Hw) (c : Nat) (f : Act → Act) : (s.modAct c f).pins = s.pins := rfl
@[simp] theorem Hw.modAct_aon (s : Hw) (c : Nat) (f : Act → Act) : (s.modAct c f).aon = s.aon := rfl
@[simp] theorem Hw.modAct_resetLost (s : Hw) (c : Nat) (f : Act → Act) : (s.modAct c f).resetLost = s.resetLost := rfl
@[simp] theorem Hw.modAct_crossLost (s : Hw) (c : Nat) (f : Act → Act) : (s.modAct c f).crossLost = s.crossLost := rfl
@[simp] theorem Hw.modAct_clean (s : Hw) (c : Nat) (f : Act → Act) : (s.modAct c f).clean = s.clean := rfl
@[simp] theorem Hw.modAct_wlog (s : Hw) (c : Nat) (f : Act → Act) : (s.modAct c f).wlog = s.wlog := rfl
@[simp] theorem Hw.modAct_clk (s : Hw) (c : Nat) (f : Act → Act) : (s.modAct c f).clk = s.clk := rfl
@[simp] theorem Hw.modAct_freeCtr (s : Hw) (c : Nat) (f : Act → Act) : (s.modAct c f).freeCtr = s.freeCtr := rfl
@[simp] theorem Hw.modAct_rdata (s : Hw) (c : Nat) (f : Act → Act) : (s.modAct c f).rdata = s.rdata := rfl
@[simp] theorem Hw.modAct_edata (s : Hw) (c : Nat) (f : Act → Act) : (s.modAct c f).edata = s.edata := rfl
@[simp] theorem Hw.modAct_outs (s : Hw) (c : Nat) (f : Act → Act) : (s.modAct c f).outs = s.outs := rfl

/-! ## Hw.drawn -/

@[simp] theorem Hw.drawn_regs (s : Hw) : s.drawn.regs = s.regs := rfl
@[simp] theorem Hw.drawn_tabs (s : Hw) : s.drawn.tabs = s.tabs := rfl
@[simp] theorem Hw.drawn_cap (s : Hw) : s.drawn.cap = s.cap := rfl
@[simp] theorem Hw.drawn_latch (s : Hw) : s.drawn.latch = s.latch := rfl
@[simp] theorem Hw.drawn_gates (s : Hw) : s.drawn.gates = s.gates := rfl
@[simp] theorem Hw.drawn_trk (s : Hw) : s.drawn.trk = s.trk := rfl
@[simp] theorem Hw.drawn_shf (s : Hw) : s.drawn.shf = s.shf := rfl
@[simp] theorem Hw.drawn_grn (s : Hw) : s.drawn.grn = s.grn := rfl
@[simp] theorem Hw.drawn_tms (s : Hw) : s.drawn.tms = s.tms := rfl
@[simp] theorem Hw.drawn_thr (s : Hw) : s.drawn.thr = s.thr := rfl
@[simp] theorem Hw.drawn_sub (s : Hw) : s.drawn.sub = s.sub := rfl
@[simp] theorem Hw.drawn_slt (s : Hw) : s.drawn.slt = s.slt := rfl
@[simp] theorem Hw.drawn_tim (s : Hw) : s.drawn.tim = s.tim := rfl
@[simp] theorem Hw.drawn_til (s : Hw) : s.drawn.til = s.til := rfl
@[simp] theorem Hw.drawn_ctl (s : Hw) : s.drawn.ctl = s.ctl := rfl
@[simp] theorem Hw.drawn_hsk (s : Hw) : s.drawn.hsk = s.hsk := rfl
@[simp] theorem Hw.drawn_cip (s : Hw) : s.drawn.cip = s.cip := rfl
@[simp] theorem Hw.drawn_twn (s : Hw) : s.drawn.twn = s.twn := rfl
@[simp] theorem Hw.drawn_pwr (s : Hw) : s.drawn.pwr = s.pwr := rfl
@[simp] theorem Hw.drawn_pm (s : Hw) : s.drawn.pm = s.pm := rfl
@[simp] theorem Hw.drawn_pins (s : Hw) : s.drawn.pins = s.pins := rfl
@[simp] theorem Hw.drawn_aon (s : Hw) : s.drawn.aon = s.aon := rfl
@[simp] theorem Hw.drawn_resetLost (s : Hw) : s.drawn.resetLost = s.resetLost := rfl
@[simp] theorem Hw.drawn_crossLost (s : Hw) : s.drawn.crossLost = s.crossLost := rfl
@[simp] theorem Hw.drawn_clean (s : Hw) : s.drawn.clean = s.clean := rfl
@[simp] theorem Hw.drawn_wlog (s : Hw) : s.drawn.wlog = s.wlog := rfl
@[simp] theorem Hw.drawn_clk (s : Hw) : s.drawn.clk = s.clk := rfl
@[simp] theorem Hw.drawn_rdata (s : Hw) : s.drawn.rdata = s.rdata := rfl
@[simp] theorem Hw.drawn_edata (s : Hw) : s.drawn.edata = s.edata := rfl
@[simp] theorem Hw.drawn_outs (s : Hw) : s.drawn.outs = s.outs := rfl

/-! ## What the updates write -/

@[simp] theorem Hw.answer_rdata (s : Hw) (w : Word) : (s.answer w).rdata = w := rfl
@[simp] theorem Hw.emit_outs (s : Hw) (o : Out) : (s.emit o).outs = o :: s.outs := rfl
@[simp] theorem Hw.memWrite_wlog (s : Hw) (a : Nat) (bs : Bytes) : (s.memWrite a bs).wlog = .put a bs :: s.wlog := rfl
@[simp] theorem Hw.memVia_wlog (s : Hw) (d : Nat) (bs : Bytes) : (s.memVia d bs).wlog = .via d bs :: s.wlog := rfl
@[simp] theorem Hw.drawn_freeCtr (s : Hw) : s.drawn.freeCtr = s.freeCtr + 1 := rfl
@[simp] theorem Hw.setWord_regs (s : Hw) (a : Nat) (w : Word) : (s.setWord a w).regs = s.regs.set (resetWord a) a w := rfl
@[simp] theorem Hw.setTabWord_tabs (s : Hw) (k : Nat) (w : Word) : (s.setTabWord k w).tabs = s.tabs.set (tabReset k) k w := rfl

end Sys2Proof.Machine
end

