-- ==== Sys2Proof/Laws/Regs.lean ====
section
/-!
SUPPORT. The laws of registers: what a word or field reads after a write, what an event's status bit and a counter do, and
what they leave alone.
-/
namespace Sys2Proof.Machine

/-! ## Words and fields -/

theorem Hw.word_setWord (s : Hw) (a b : Nat) (w : Word) : (s.setWord a w).word b = if b = a then w else s.word b := by
  by_cases h : b = a
  · subst h; simp [Hw.word, Hw.setWord]
  · simp only [Hw.word, Hw.setWord_regs]; rw [Sparse.get_set_ne _ _ _ _ _ _ h, if_neg h]

@[simp] theorem Hw.word_setWord_self (s : Hw) (a : Nat) (w : Word) : (s.setWord a w).word a = w := by
  simp [Hw.word_setWord]

theorem Hw.word_setWord_ne (s : Hw) (a b : Nat) (w : Word) (h : b ≠ a) : (s.setWord a w).word b = s.word b := by
  simp [Hw.word_setWord, h]

theorem Hw.word_wr (s : Hw) (f : FRef) (v b : Nat) :
    (s.wr f v).word b = if b = f.addr then setField (s.word b) f.lo f.width v else s.word b := by
  rw [Hw.wr, Hw.word_setWord]; split
  · rename_i h; rw [h]
  · rfl

/-- A register field reads what was put there, modulo its width. -/
theorem Hw.rd_wr_self (s : Hw) (f : FRef) (v : Nat) (h : f.lo + f.width ≤ 32) : (s.wr f v).rd f = v % 2 ^ f.width := by
  simp only [Hw.rd, Hw.word_wr, if_true]
  exact getField_setField_self _ _ _ _ h

/-- Another register's field. -/
theorem Hw.rd_wr_addr (s : Hw) (f g : FRef) (v : Nat) (h : g.addr ≠ f.addr) : (s.wr f v).rd g = s.rd g := by
  simp [Hw.rd, Hw.word_wr, h]

/-- A field of the same register that does not overlap. -/
theorem Hw.rd_wr_bits (s : Hw) (f g : FRef) (v : Nat) (h : g.lo + g.width ≤ f.lo ∨ f.lo + f.width ≤ g.lo) :
    (s.wr f v).rd g = s.rd g := by
  simp only [Hw.rd, Hw.word_wr]
  split
  · rename_i h1; rw [getField_setField_ne _ _ _ _ _ _ h, h1]
  · rfl

/-! ## Tables -/

theorem Hw.tabWord_setTabWord (s : Hw) (k j : Nat) (w : Word) :
    (s.setTabWord k w).tabWord j = if j = k then w else s.tabWord j := by
  by_cases h : j = k
  · subst h; simp [Hw.tabWord, Hw.setTabWord]
  · simp only [Hw.tabWord, Hw.setTabWord_tabs]; rw [Sparse.get_set_ne _ _ _ _ _ _ h, if_neg h]

theorem Hw.setTabWords_regs (n : Nat) : ∀ (s : Hw) (k v : Nat), (s.setTabWords k n v).regs = s.regs := by
  induction n with
  | zero => intros; rfl
  | succ n ih => intro s k v; rw [Hw.setTabWords, ih]; rfl

@[simp] theorem Hw.ts_regs (s : Hw) (r : TRef) (v : Nat) : (s.ts r v).regs = s.regs := Hw.setTabWords_regs _ _ _ _
@[simp] theorem Hw.ts_word (s : Hw) (r : TRef) (v a : Nat) : (s.ts r v).word a = s.word a := by
  simp [Hw.word]
@[simp] theorem Hw.ts_rd (s : Hw) (r : TRef) (v : Nat) (f : FRef) : (s.ts r v).rd f = s.rd f := by simp [Hw.rd]

/-! ## Events -/

/-- All that an MSI-X message can do: it leaves the terminal, or its vector becomes pending. -/
theorem Hw.msix_rest (s : Hw) (v : Nat) :
    ∃ p o, s.msix v = { s with ctl := { s.ctl with msixPend := p }, outs := o } := by
  unfold Hw.msix
  split
  · exact ⟨_, s.outs, rfl⟩
  · exact ⟨s.ctl.msixPend, _, rfl⟩

/-- The same of the message that a summary bit may send. -/
theorem Hw.routeMsix_rest (s : Hw) (n : Nat) :
    ∃ p o, s.routeMsix n = { s with ctl := { s.ctl with msixPend := p }, outs := o } := by
  unfold Hw.routeMsix Hw.onlyIf
  split
  · exact Hw.msix_rest _ _
  · exact ⟨s.ctl.msixPend, s.outs, rfl⟩

theorem Hw.routeMsix_regs (s : Hw) (n : Nat) : (s.routeMsix n).regs = s.regs := by
  obtain ⟨p, o, h⟩ := Hw.routeMsix_rest s n
  rw [h]

/-- An event changes the registers as the setting of its status bit does. -/
@[simp] theorem Hw.raise_regs (s : Hw) (b bit : Nat) : (s.raise b bit).regs = (s.wr ⟨b, bit, 1⟩ 1).regs := by
  unfold Hw.raise Hw.statusChange
  dsimp only
  split
  · exact Hw.routeMsix_regs _ _
  · rfl

theorem Hw.word_congr {s t : Hw} (h : s.regs = t.regs) (a : Nat) : s.word a = t.word a := by simp [Hw.word, h]

theorem Hw.rd_congr {s t : Hw} (h : s.regs = t.regs) (f : FRef) : s.rd f = t.rd f := by simp [Hw.rd, Hw.word_congr h]

theorem Hw.word_raise (s : Hw) (b bit a : Nat) :
    (s.raise b bit).word a = if a = b then setField (s.word a) bit 1 1 else s.word a := by
  rw [Hw.word_congr (Hw.raise_regs s b bit), Hw.word_wr]

/-- The status bit of the event is set. -/
theorem Hw.rd_raise_self (s : Hw) (b bit : Nat) (h : bit < 32) : (s.raise b bit).rd ⟨b, bit, 1⟩ = 1 := by
  rw [Hw.rd_congr (Hw.raise_regs s b bit), Hw.rd_wr_self _ _ _ (by simp only; omega)]
  rfl

/-- Registers apart from the status word stay. -/
theorem Hw.rd_raise_addr (s : Hw) (b bit : Nat) (f : FRef) (h : f.addr ≠ b) : (s.raise b bit).rd f = s.rd f := by
  rw [Hw.rd_congr (Hw.raise_regs s b bit), Hw.rd_wr_addr _ _ _ _ (by simpa using h)]

/-- What an event leaves alone: everything but the status word, pending vectors and what leaves the terminal. -/
theorem Hw.raise_rest (s : Hw) (b bit : Nat) :
    ∃ p o, s.raise b bit = { s with regs := (s.wr ⟨b, bit, 1⟩ 1).regs, ctl := { s.ctl with msixPend := p }, outs := o } := by
  unfold Hw.raise Hw.statusChange
  dsimp only
  split
  · exact Hw.routeMsix_rest _ _
  · exact ⟨s.ctl.msixPend, s.outs, rfl⟩

/-! ## Counters -/

theorem Hw.noteAt_regs (s : Hw) (a n : Nat) : (s.noteAt a n).regs = s.regs := by
  unfold Hw.noteAt; split <;> rfl

/-- A counter takes its next value, up to the top of its field. -/
theorem Hw.rd_count_self (s : Hw) (f : FRef) (n : Nat) (h : f.lo + f.width ≤ 32) :
    (s.count f n).rd f = min (s.rd f + n) (2 ^ f.width - 1) := by
  rw [Hw.count, Hw.rd_congr (Hw.noteAt_regs _ _ _), Hw.rd_wr_self _ _ _ h, satAdd]
  apply Nat.mod_eq_of_lt
  have : 0 < 2 ^ f.width := by positivity
  omega

theorem Hw.rd_count_addr (s : Hw) (f g : FRef) (n : Nat) (h : g.addr ≠ f.addr) : (s.count f n).rd g = s.rd g := by
  rw [Hw.count, Hw.rd_congr (Hw.noteAt_regs _ _ _), Hw.rd_wr_addr _ _ _ _ h]

theorem Hw.word_count_ne (s : Hw) (f : FRef) (n a : Nat) (h : a ≠ f.addr) : (s.count f n).word a = s.word a := by
  rw [Hw.count, Hw.word_congr (Hw.noteAt_regs _ _ _), Hw.word_wr, if_neg h]

end Sys2Proof.Machine
end

