-- ==== Sys2Proof/Laws/Fields.lean ====
section
/-!
SUPPORT. What events, counters and table writes leave of the parts of the logic: one lemma per operation and part.
-/
namespace Sys2Proof.Machine

/-- The bins' events alone change when a counter is followed. -/
theorem Hw.noteAt_rest (s : Hw) (a n : Nat) : ∃ p, s.noteAt a n = { s with pm := p } := by
  unfold Hw.noteAt
  split
  · exact ⟨_, rfl⟩
  · exact ⟨s.pm, rfl⟩

theorem Hw.wr_rest (s : Hw) (f : FRef) (v : Nat) : ∃ r, s.wr f v = { s with regs := r } := ⟨_, rfl⟩

/-- A counter changes registers and the bins' events alone. -/
theorem Hw.count_rest (s : Hw) (f : FRef) (n : Nat) : ∃ r p, s.count f n = { s with regs := r, pm := p } := by
  unfold Hw.count
  obtain ⟨r, hr⟩ := s.wr_rest f (satAdd (s.rd f) n (2 ^ f.width - 1))
  obtain ⟨p, hp⟩ := (s.wr f (satAdd (s.rd f) n (2 ^ f.width - 1))).noteAt_rest f.addr n
  exact ⟨r, p, by rw [hp, hr]⟩

theorem Hw.setWord_rest (s : Hw) (a : Nat) (w : Word) : ∃ r, s.setWord a w = { s with regs := r } := ⟨_, rfl⟩

theorem Hw.count64_rest (s : Hw) (a n w : Nat) : ∃ r p, s.count64 a n w = { s with regs := r, pm := p } := by
  unfold Hw.count64
  dsimp only
  generalize BitVec.ofNat 32 _ = x
  generalize BitVec.ofNat 32 _ = y
  obtain ⟨r, hr⟩ := s.setWord_rest a x
  obtain ⟨r', hr'⟩ := (s.setWord a x).setWord_rest (a + 4) y
  obtain ⟨p, hp⟩ := ((s.setWord a x).setWord (a + 4) y).noteAt_rest a n
  exact ⟨r', p, by rw [hp, hr', hr]⟩

theorem Hw.ts_tabs_rest (n : Nat) : ∀ (s : Hw) (k v : Nat), ∃ t, s.setTabWords k n v = { s with tabs := t } := by
  induction n with
  | zero => intro s k v; exact ⟨s.tabs, rfl⟩
  | succ n ih =>
    intro s k v
    obtain ⟨t, ht⟩ := ih (s.setTabWord k (BitVec.ofNat 32 v)) (k + 1) (v / 2 ^ 32)
    exact ⟨t, by rw [Hw.setTabWords, ht]; rfl⟩

@[simp] theorem Hw.raise_tabs (s : Hw) (b bit : Nat) : (s.raise b bit).tabs = s.tabs := by
  obtain ⟨_, _, h⟩ := s.raise_rest b bit; rw [h]
@[simp] theorem Hw.count_tabs (s : Hw) (x : FRef) (n : Nat) : (s.count x n).tabs = s.tabs := by
  obtain ⟨_, _, h⟩ := s.count_rest x n; rw [h]
@[simp] theorem Hw.count64_tabs (s : Hw) (a n w : Nat) : (s.count64 a n w).tabs = s.tabs := by
  obtain ⟨_, _, h⟩ := s.count64_rest a n w; rw [h]
@[simp] theorem Hw.raise_cap (s : Hw) (b bit : Nat) : (s.raise b bit).cap = s.cap := by
  obtain ⟨_, _, h⟩ := s.raise_rest b bit; rw [h]
@[simp] theorem Hw.count_cap (s : Hw) (x : FRef) (n : Nat) : (s.count x n).cap = s.cap := by
  obtain ⟨_, _, h⟩ := s.count_rest x n; rw [h]
@[simp] theorem Hw.count64_cap (s : Hw) (a n w : Nat) : (s.count64 a n w).cap = s.cap := by
  obtain ⟨_, _, h⟩ := s.count64_rest a n w; rw [h]
@[simp] theorem Hw.ts_cap (s : Hw) (r : TRef) (v : Nat) : (s.ts r v).cap = s.cap := by
  obtain ⟨_, h⟩ := Hw.ts_tabs_rest _ s _ _; unfold Hw.ts; dsimp only; rw [h]
@[simp] theorem Hw.raise_latch (s : Hw) (b bit : Nat) : (s.raise b bit).latch = s.latch := by
  obtain ⟨_, _, h⟩ := s.raise_rest b bit; rw [h]
@[simp] theorem Hw.count_latch (s : Hw) (x : FRef) (n : Nat) : (s.count x n).latch = s.latch := by
  obtain ⟨_, _, h⟩ := s.count_rest x n; rw [h]
@[simp] theorem Hw.count64_latch (s : Hw) (a n w : Nat) : (s.count64 a n w).latch = s.latch := by
  obtain ⟨_, _, h⟩ := s.count64_rest a n w; rw [h]
@[simp] theorem Hw.ts_latch (s : Hw) (r : TRef) (v : Nat) : (s.ts r v).latch = s.latch := by
  obtain ⟨_, h⟩ := Hw.ts_tabs_rest _ s _ _; unfold Hw.ts; dsimp only; rw [h]
@[simp] theorem Hw.raise_gates (s : Hw) (b bit : Nat) : (s.raise b bit).gates = s.gates := by
  obtain ⟨_, _, h⟩ := s.raise_rest b bit; rw [h]
@[simp] theorem Hw.count_gates (s : Hw) (x : FRef) (n : Nat) : (s.count x n).gates = s.gates := by
  obtain ⟨_, _, h⟩ := s.count_rest x n; rw [h]
@[simp] theorem Hw.count64_gates (s : Hw) (a n w : Nat) : (s.count64 a n w).gates = s.gates := by
  obtain ⟨_, _, h⟩ := s.count64_rest a n w; rw [h]
@[simp] theorem Hw.ts_gates (s : Hw) (r : TRef) (v : Nat) : (s.ts r v).gates = s.gates := by
  obtain ⟨_, h⟩ := Hw.ts_tabs_rest _ s _ _; unfold Hw.ts; dsimp only; rw [h]
@[simp] theorem Hw.raise_trk (s : Hw) (b bit : Nat) : (s.raise b bit).trk = s.trk := by
  obtain ⟨_, _, h⟩ := s.raise_rest b bit; rw [h]
@[simp] theorem Hw.count_trk (s : Hw) (x : FRef) (n : Nat) : (s.count x n).trk = s.trk := by
  obtain ⟨_, _, h⟩ := s.count_rest x n; rw [h]
@[simp] theorem Hw.count64_trk (s : Hw) (a n w : Nat) : (s.count64 a n w).trk = s.trk := by
  obtain ⟨_, _, h⟩ := s.count64_rest a n w; rw [h]
@[simp] theorem Hw.ts_trk (s : Hw) (r : TRef) (v : Nat) : (s.ts r v).trk = s.trk := by
  obtain ⟨_, h⟩ := Hw.ts_tabs_rest _ s _ _; unfold Hw.ts; dsimp only; rw [h]
@[simp] theorem Hw.raise_shf (s : Hw) (b bit : Nat) : (s.raise b bit).shf = s.shf := by
  obtain ⟨_, _, h⟩ := s.raise_rest b bit; rw [h]
@[simp] theorem Hw.count_shf (s : Hw) (x : FRef) (n : Nat) : (s.count x n).shf = s.shf := by
  obtain ⟨_, _, h⟩ := s.count_rest x n; rw [h]
@[simp] theorem Hw.count64_shf (s : Hw) (a n w : Nat) : (s.count64 a n w).shf = s.shf := by
  obtain ⟨_, _, h⟩ := s.count64_rest a n w; rw [h]
@[simp] theorem Hw.ts_shf (s : Hw) (r : TRef) (v : Nat) : (s.ts r v).shf = s.shf := by
  obtain ⟨_, h⟩ := Hw.ts_tabs_rest _ s _ _; unfold Hw.ts; dsimp only; rw [h]
@[simp] theorem Hw.raise_grn (s : Hw) (b bit : Nat) : (s.raise b bit).grn = s.grn := by
  obtain ⟨_, _, h⟩ := s.raise_rest b bit; rw [h]
@[simp] theorem Hw.count_grn (s : Hw) (x : FRef) (n : Nat) : (s.count x n).grn = s.grn := by
  obtain ⟨_, _, h⟩ := s.count_rest x n; rw [h]
@[simp] theorem Hw.count64_grn (s : Hw) (a n w : Nat) : (s.count64 a n w).grn = s.grn := by
  obtain ⟨_, _, h⟩ := s.count64_rest a n w; rw [h]
@[simp] theorem Hw.ts_grn (s : Hw) (r : TRef) (v : Nat) : (s.ts r v).grn = s.grn := by
  obtain ⟨_, h⟩ := Hw.ts_tabs_rest _ s _ _; unfold Hw.ts; dsimp only; rw [h]
@[simp] theorem Hw.raise_tms (s : Hw) (b bit : Nat) : (s.raise b bit).tms = s.tms := by
  obtain ⟨_, _, h⟩ := s.raise_rest b bit; rw [h]
@[simp] theorem Hw.count_tms (s : Hw) (x : FRef) (n : Nat) : (s.count x n).tms = s.tms := by
  obtain ⟨_, _, h⟩ := s.count_rest x n; rw [h]
@[simp] theorem Hw.count64_tms (s : Hw) (a n w : Nat) : (s.count64 a n w).tms = s.tms := by
  obtain ⟨_, _, h⟩ := s.count64_rest a n w; rw [h]
@[simp] theorem Hw.ts_tms (s : Hw) (r : TRef) (v : Nat) : (s.ts r v).tms = s.tms := by
  obtain ⟨_, h⟩ := Hw.ts_tabs_rest _ s _ _; unfold Hw.ts; dsimp only; rw [h]
@[simp] theorem Hw.raise_thr (s : Hw) (b bit : Nat) : (s.raise b bit).thr = s.thr := by
  obtain ⟨_, _, h⟩ := s.raise_rest b bit; rw [h]
@[simp] theorem Hw.count_thr (s : Hw) (x : FRef) (n : Nat) : (s.count x n).thr = s.thr := by
  obtain ⟨_, _, h⟩ := s.count_rest x n; rw [h]
@[simp] theorem Hw.count64_thr (s : Hw) (a n w : Nat) : (s.count64 a n w).thr = s.thr := by
  obtain ⟨_, _, h⟩ := s.count64_rest a n w; rw [h]
@[simp] theorem Hw.ts_thr (s : Hw) (r : TRef) (v : Nat) : (s.ts r v).thr = s.thr := by
  obtain ⟨_, h⟩ := Hw.ts_tabs_rest _ s _ _; unfold Hw.ts; dsimp only; rw [h]
@[simp] theorem Hw.raise_sub (s : Hw) (b bit : Nat) : (s.raise b bit).sub = s.sub := by
  obtain ⟨_, _, h⟩ := s.raise_rest b bit; rw [h]
@[simp] theorem Hw.count_sub (s : Hw) (x : FRef) (n : Nat) : (s.count x n).sub = s.sub := by
  obtain ⟨_, _, h⟩ := s.count_rest x n; rw [h]
@[simp] theorem Hw.count64_sub (s : Hw) (a n w : Nat) : (s.count64 a n w).sub = s.sub := by
  obtain ⟨_, _, h⟩ := s.count64_rest a n w; rw [h]
@[simp] theorem Hw.ts_sub (s : Hw) (r : TRef) (v : Nat) : (s.ts r v).sub = s.sub := by
  obtain ⟨_, h⟩ := Hw.ts_tabs_rest _ s _ _; unfold Hw.ts; dsimp only; rw [h]
@[simp] theorem Hw.raise_slt (s : Hw) (b bit : Nat) : (s.raise b bit).slt = s.slt := by
  obtain ⟨_, _, h⟩ := s.raise_rest b bit; rw [h]
@[simp] theorem Hw.count_slt (s : Hw) (x : FRef) (n : Nat) : (s.count x n).slt = s.slt := by
  obtain ⟨_, _, h⟩ := s.count_rest x n; rw [h]
@[simp] theorem Hw.count64_slt (s : Hw) (a n w : Nat) : (s.count64 a n w).slt = s.slt := by
  obtain ⟨_, _, h⟩ := s.count64_rest a n w; rw [h]
@[simp] theorem Hw.ts_slt (s : Hw) (r : TRef) (v : Nat) : (s.ts r v).slt = s.slt := by
  obtain ⟨_, h⟩ := Hw.ts_tabs_rest _ s _ _; unfold Hw.ts; dsimp only; rw [h]
@[simp] theorem Hw.raise_tim (s : Hw) (b bit : Nat) : (s.raise b bit).tim = s.tim := by
  obtain ⟨_, _, h⟩ := s.raise_rest b bit; rw [h]
@[simp] theorem Hw.count_tim (s : Hw) (x : FRef) (n : Nat) : (s.count x n).tim = s.tim := by
  obtain ⟨_, _, h⟩ := s.count_rest x n; rw [h]
@[simp] theorem Hw.count64_tim (s : Hw) (a n w : Nat) : (s.count64 a n w).tim = s.tim := by
  obtain ⟨_, _, h⟩ := s.count64_rest a n w; rw [h]
@[simp] theorem Hw.ts_tim (s : Hw) (r : TRef) (v : Nat) : (s.ts r v).tim = s.tim := by
  obtain ⟨_, h⟩ := Hw.ts_tabs_rest _ s _ _; unfold Hw.ts; dsimp only; rw [h]
@[simp] theorem Hw.raise_til (s : Hw) (b bit : Nat) : (s.raise b bit).til = s.til := by
  obtain ⟨_, _, h⟩ := s.raise_rest b bit; rw [h]
@[simp] theorem Hw.count_til (s : Hw) (x : FRef) (n : Nat) : (s.count x n).til = s.til := by
  obtain ⟨_, _, h⟩ := s.count_rest x n; rw [h]
@[simp] theorem Hw.count64_til (s : Hw) (a n w : Nat) : (s.count64 a n w).til = s.til := by
  obtain ⟨_, _, h⟩ := s.count64_rest a n w; rw [h]
@[simp] theorem Hw.ts_til (s : Hw) (r : TRef) (v : Nat) : (s.ts r v).til = s.til := by
  obtain ⟨_, h⟩ := Hw.ts_tabs_rest _ s _ _; unfold Hw.ts; dsimp only; rw [h]
@[simp] theorem Hw.raise_ctl_kick (s : Hw) (b bit : Nat) : (s.raise b bit).ctl.kick = s.ctl.kick := by
  obtain ⟨_, _, h⟩ := s.raise_rest b bit; rw [h]
@[simp] theorem Hw.raise_ctl_rings (s : Hw) (b bit : Nat) : (s.raise b bit).ctl.rings = s.ctl.rings := by
  obtain ⟨_, _, h⟩ := s.raise_rest b bit; rw [h]
@[simp] theorem Hw.raise_ctl_link (s : Hw) (b bit : Nat) : (s.raise b bit).ctl.link = s.ctl.link := by
  obtain ⟨_, _, h⟩ := s.raise_rest b bit; rw [h]
@[simp] theorem Hw.raise_ctl_msix (s : Hw) (b bit : Nat) : (s.raise b bit).ctl.msix = s.ctl.msix := by
  obtain ⟨_, _, h⟩ := s.raise_rest b bit; rw [h]
@[simp] theorem Hw.raise_ctl_mbx (s : Hw) (b bit : Nat) : (s.raise b bit).ctl.mbx = s.ctl.mbx := by
  obtain ⟨_, _, h⟩ := s.raise_rest b bit; rw [h]
@[simp] theorem Hw.raise_ctl_stage (s : Hw) (b bit : Nat) : (s.raise b bit).ctl.stage = s.ctl.stage := by
  obtain ⟨_, _, h⟩ := s.raise_rest b bit; rw [h]
@[simp] theorem Hw.raise_ctl_lockPtr (s : Hw) (b bit : Nat) : (s.raise b bit).ctl.lockPtr = s.ctl.lockPtr := by
  obtain ⟨_, _, h⟩ := s.raise_rest b bit; rw [h]
@[simp] theorem Hw.raise_ctl_uartTx (s : Hw) (b bit : Nat) : (s.raise b bit).ctl.uartTx = s.ctl.uartTx := by
  obtain ⟨_, _, h⟩ := s.raise_rest b bit; rw [h]
@[simp] theorem Hw.raise_ctl_uartRx (s : Hw) (b bit : Nat) : (s.raise b bit).ctl.uartRx = s.ctl.uartRx := by
  obtain ⟨_, _, h⟩ := s.raise_rest b bit; rw [h]
@[simp] theorem Hw.raise_ctl_uartWait (s : Hw) (b bit : Nat) : (s.raise b bit).ctl.uartWait = s.ctl.uartWait := by
  obtain ⟨_, _, h⟩ := s.raise_rest b bit; rw [h]
@[simp] theorem Hw.count_ctl (s : Hw) (x : FRef) (n : Nat) : (s.count x n).ctl = s.ctl := by
  obtain ⟨_, _, h⟩ := s.count_rest x n; rw [h]
@[simp] theorem Hw.count64_ctl (s : Hw) (a n w : Nat) : (s.count64 a n w).ctl = s.ctl := by
  obtain ⟨_, _, h⟩ := s.count64_rest a n w; rw [h]
@[simp] theorem Hw.ts_ctl (s : Hw) (r : TRef) (v : Nat) : (s.ts r v).ctl = s.ctl := by
  obtain ⟨_, h⟩ := Hw.ts_tabs_rest _ s _ _; unfold Hw.ts; dsimp only; rw [h]
@[simp] theorem Hw.raise_hsk (s : Hw) (b bit : Nat) : (s.raise b bit).hsk = s.hsk := by
  obtain ⟨_, _, h⟩ := s.raise_rest b bit; rw [h]
@[simp] theorem Hw.count_hsk (s : Hw) (x : FRef) (n : Nat) : (s.count x n).hsk = s.hsk := by
  obtain ⟨_, _, h⟩ := s.count_rest x n; rw [h]
@[simp] theorem Hw.count64_hsk (s : Hw) (a n w : Nat) : (s.count64 a n w).hsk = s.hsk := by
  obtain ⟨_, _, h⟩ := s.count64_rest a n w; rw [h]
@[simp] theorem Hw.ts_hsk (s : Hw) (r : TRef) (v : Nat) : (s.ts r v).hsk = s.hsk := by
  obtain ⟨_, h⟩ := Hw.ts_tabs_rest _ s _ _; unfold Hw.ts; dsimp only; rw [h]
@[simp] theorem Hw.raise_cip (s : Hw) (b bit : Nat) : (s.raise b bit).cip = s.cip := by
  obtain ⟨_, _, h⟩ := s.raise_rest b bit; rw [h]
@[simp] theorem Hw.count_cip (s : Hw) (x : FRef) (n : Nat) : (s.count x n).cip = s.cip := by
  obtain ⟨_, _, h⟩ := s.count_rest x n; rw [h]
@[simp] theorem Hw.count64_cip (s : Hw) (a n w : Nat) : (s.count64 a n w).cip = s.cip := by
  obtain ⟨_, _, h⟩ := s.count64_rest a n w; rw [h]
@[simp] theorem Hw.ts_cip (s : Hw) (r : TRef) (v : Nat) : (s.ts r v).cip = s.cip := by
  obtain ⟨_, h⟩ := Hw.ts_tabs_rest _ s _ _; unfold Hw.ts; dsimp only; rw [h]
@[simp] theorem Hw.raise_twn (s : Hw) (b bit : Nat) : (s.raise b bit).twn = s.twn := by
  obtain ⟨_, _, h⟩ := s.raise_rest b bit; rw [h]
@[simp] theorem Hw.count_twn (s : Hw) (x : FRef) (n : Nat) : (s.count x n).twn = s.twn := by
  obtain ⟨_, _, h⟩ := s.count_rest x n; rw [h]
@[simp] theorem Hw.count64_twn (s : Hw) (a n w : Nat) : (s.count64 a n w).twn = s.twn := by
  obtain ⟨_, _, h⟩ := s.count64_rest a n w; rw [h]
@[simp] theorem Hw.ts_twn (s : Hw) (r : TRef) (v : Nat) : (s.ts r v).twn = s.twn := by
  obtain ⟨_, h⟩ := Hw.ts_tabs_rest _ s _ _; unfold Hw.ts; dsimp only; rw [h]
@[simp] theorem Hw.raise_pwr (s : Hw) (b bit : Nat) : (s.raise b bit).pwr = s.pwr := by
  obtain ⟨_, _, h⟩ := s.raise_rest b bit; rw [h]
@[simp] theorem Hw.count_pwr (s : Hw) (x : FRef) (n : Nat) : (s.count x n).pwr = s.pwr := by
  obtain ⟨_, _, h⟩ := s.count_rest x n; rw [h]
@[simp] theorem Hw.count64_pwr (s : Hw) (a n w : Nat) : (s.count64 a n w).pwr = s.pwr := by
  obtain ⟨_, _, h⟩ := s.count64_rest a n w; rw [h]
@[simp] theorem Hw.ts_pwr (s : Hw) (r : TRef) (v : Nat) : (s.ts r v).pwr = s.pwr := by
  obtain ⟨_, h⟩ := Hw.ts_tabs_rest _ s _ _; unfold Hw.ts; dsimp only; rw [h]
@[simp] theorem Hw.raise_pm (s : Hw) (b bit : Nat) : (s.raise b bit).pm = s.pm := by
  obtain ⟨_, _, h⟩ := s.raise_rest b bit; rw [h]
@[simp] theorem Hw.ts_pm (s : Hw) (r : TRef) (v : Nat) : (s.ts r v).pm = s.pm := by
  obtain ⟨_, h⟩ := Hw.ts_tabs_rest _ s _ _; unfold Hw.ts; dsimp only; rw [h]
@[simp] theorem Hw.raise_pins (s : Hw) (b bit : Nat) : (s.raise b bit).pins = s.pins := by
  obtain ⟨_, _, h⟩ := s.raise_rest b bit; rw [h]
@[simp] theorem Hw.count_pins (s : Hw) (x : FRef) (n : Nat) : (s.count x n).pins = s.pins := by
  obtain ⟨_, _, h⟩ := s.count_rest x n; rw [h]
@[simp] theorem Hw.count64_pins (s : Hw) (a n w : Nat) : (s.count64 a n w).pins = s.pins := by
  obtain ⟨_, _, h⟩ := s.count64_rest a n w; rw [h]
@[simp] theorem Hw.ts_pins (s : Hw) (r : TRef) (v : Nat) : (s.ts r v).pins = s.pins := by
  obtain ⟨_, h⟩ := Hw.ts_tabs_rest _ s _ _; unfold Hw.ts; dsimp only; rw [h]
@[simp] theorem Hw.raise_aon (s : Hw) (b bit : Nat) : (s.raise b bit).aon = s.aon := by
  obtain ⟨_, _, h⟩ := s.raise_rest b bit; rw [h]
@[simp] theorem Hw.count_aon (s : Hw) (x : FRef) (n : Nat) : (s.count x n).aon = s.aon := by
  obtain ⟨_, _, h⟩ := s.count_rest x n; rw [h]
@[simp] theorem Hw.count64_aon (s : Hw) (a n w : Nat) : (s.count64 a n w).aon = s.aon := by
  obtain ⟨_, _, h⟩ := s.count64_rest a n w; rw [h]
@[simp] theorem Hw.ts_aon (s : Hw) (r : TRef) (v : Nat) : (s.ts r v).aon = s.aon := by
  obtain ⟨_, h⟩ := Hw.ts_tabs_rest _ s _ _; unfold Hw.ts; dsimp only; rw [h]
@[simp] theorem Hw.raise_clean (s : Hw) (b bit : Nat) : (s.raise b bit).clean = s.clean := by
  obtain ⟨_, _, h⟩ := s.raise_rest b bit; rw [h]
@[simp] theorem Hw.count_clean (s : Hw) (x : FRef) (n : Nat) : (s.count x n).clean = s.clean := by
  obtain ⟨_, _, h⟩ := s.count_rest x n; rw [h]
@[simp] theorem Hw.count64_clean (s : Hw) (a n w : Nat) : (s.count64 a n w).clean = s.clean := by
  obtain ⟨_, _, h⟩ := s.count64_rest a n w; rw [h]
@[simp] theorem Hw.ts_clean (s : Hw) (r : TRef) (v : Nat) : (s.ts r v).clean = s.clean := by
  obtain ⟨_, h⟩ := Hw.ts_tabs_rest _ s _ _; unfold Hw.ts; dsimp only; rw [h]
@[simp] theorem Hw.raise_wlog (s : Hw) (b bit : Nat) : (s.raise b bit).wlog = s.wlog := by
  obtain ⟨_, _, h⟩ := s.raise_rest b bit; rw [h]
@[simp] theorem Hw.count_wlog (s : Hw) (x : FRef) (n : Nat) : (s.count x n).wlog = s.wlog := by
  obtain ⟨_, _, h⟩ := s.count_rest x n; rw [h]
@[simp] theorem Hw.count64_wlog (s : Hw) (a n w : Nat) : (s.count64 a n w).wlog = s.wlog := by
  obtain ⟨_, _, h⟩ := s.count64_rest a n w; rw [h]
@[simp] theorem Hw.ts_wlog (s : Hw) (r : TRef) (v : Nat) : (s.ts r v).wlog = s.wlog := by
  obtain ⟨_, h⟩ := Hw.ts_tabs_rest _ s _ _; unfold Hw.ts; dsimp only; rw [h]
@[simp] theorem Hw.raise_clk (s : Hw) (b bit : Nat) : (s.raise b bit).clk = s.clk := by
  obtain ⟨_, _, h⟩ := s.raise_rest b bit; rw [h]
@[simp] theorem Hw.count_clk (s : Hw) (x : FRef) (n : Nat) : (s.count x n).clk = s.clk := by
  obtain ⟨_, _, h⟩ := s.count_rest x n; rw [h]
@[simp] theorem Hw.count64_clk (s : Hw) (a n w : Nat) : (s.count64 a n w).clk = s.clk := by
  obtain ⟨_, _, h⟩ := s.count64_rest a n w; rw [h]
@[simp] theorem Hw.ts_clk (s : Hw) (r : TRef) (v : Nat) : (s.ts r v).clk = s.clk := by
  obtain ⟨_, h⟩ := Hw.ts_tabs_rest _ s _ _; unfold Hw.ts; dsimp only; rw [h]
@[simp] theorem Hw.raise_freeCtr (s : Hw) (b bit : Nat) : (s.raise b bit).freeCtr = s.freeCtr := by
  obtain ⟨_, _, h⟩ := s.raise_rest b bit; rw [h]
@[simp] theorem Hw.count_freeCtr (s : Hw) (x : FRef) (n : Nat) : (s.count x n).freeCtr = s.freeCtr := by
  obtain ⟨_, _, h⟩ := s.count_rest x n; rw [h]
@[simp] theorem Hw.count64_freeCtr (s : Hw) (a n w : Nat) : (s.count64 a n w).freeCtr = s.freeCtr := by
  obtain ⟨_, _, h⟩ := s.count64_rest a n w; rw [h]
@[simp] theorem Hw.ts_freeCtr (s : Hw) (r : TRef) (v : Nat) : (s.ts r v).freeCtr = s.freeCtr := by
  obtain ⟨_, h⟩ := Hw.ts_tabs_rest _ s _ _; unfold Hw.ts; dsimp only; rw [h]
@[simp] theorem Hw.raise_rdata (s : Hw) (b bit : Nat) : (s.raise b bit).rdata = s.rdata := by
  obtain ⟨_, _, h⟩ := s.raise_rest b bit; rw [h]
@[simp] theorem Hw.count_rdata (s : Hw) (x : FRef) (n : Nat) : (s.count x n).rdata = s.rdata := by
  obtain ⟨_, _, h⟩ := s.count_rest x n; rw [h]
@[simp] theorem Hw.count64_rdata (s : Hw) (a n w : Nat) : (s.count64 a n w).rdata = s.rdata := by
  obtain ⟨_, _, h⟩ := s.count64_rest a n w; rw [h]
@[simp] theorem Hw.ts_rdata (s : Hw) (r : TRef) (v : Nat) : (s.ts r v).rdata = s.rdata := by
  obtain ⟨_, h⟩ := Hw.ts_tabs_rest _ s _ _; unfold Hw.ts; dsimp only; rw [h]
@[simp] theorem Hw.raise_edata (s : Hw) (b bit : Nat) : (s.raise b bit).edata = s.edata := by
  obtain ⟨_, _, h⟩ := s.raise_rest b bit; rw [h]
@[simp] theorem Hw.count_edata (s : Hw) (x : FRef) (n : Nat) : (s.count x n).edata = s.edata := by
  obtain ⟨_, _, h⟩ := s.count_rest x n; rw [h]
@[simp] theorem Hw.count64_edata (s : Hw) (a n w : Nat) : (s.count64 a n w).edata = s.edata := by
  obtain ⟨_, _, h⟩ := s.count64_rest a n w; rw [h]
@[simp] theorem Hw.ts_edata (s : Hw) (r : TRef) (v : Nat) : (s.ts r v).edata = s.edata := by
  obtain ⟨_, h⟩ := Hw.ts_tabs_rest _ s _ _; unfold Hw.ts; dsimp only; rw [h]
@[simp] theorem Hw.raise_resetLost (s : Hw) (b bit : Nat) : (s.raise b bit).resetLost = s.resetLost := by
  obtain ⟨_, _, h⟩ := s.raise_rest b bit; rw [h]
@[simp] theorem Hw.count_resetLost (s : Hw) (x : FRef) (n : Nat) : (s.count x n).resetLost = s.resetLost := by
  obtain ⟨_, _, h⟩ := s.count_rest x n; rw [h]
@[simp] theorem Hw.count64_resetLost (s : Hw) (a n w : Nat) : (s.count64 a n w).resetLost = s.resetLost := by
  obtain ⟨_, _, h⟩ := s.count64_rest a n w; rw [h]
@[simp] theorem Hw.ts_resetLost (s : Hw) (r : TRef) (v : Nat) : (s.ts r v).resetLost = s.resetLost := by
  obtain ⟨_, h⟩ := Hw.ts_tabs_rest _ s _ _; unfold Hw.ts; dsimp only; rw [h]
@[simp] theorem Hw.raise_crossLost (s : Hw) (b bit : Nat) : (s.raise b bit).crossLost = s.crossLost := by
  obtain ⟨_, _, h⟩ := s.raise_rest b bit; rw [h]
@[simp] theorem Hw.count_crossLost (s : Hw) (x : FRef) (n : Nat) : (s.count x n).crossLost = s.crossLost := by
  obtain ⟨_, _, h⟩ := s.count_rest x n; rw [h]
@[simp] theorem Hw.count64_crossLost (s : Hw) (a n w : Nat) : (s.count64 a n w).crossLost = s.crossLost := by
  obtain ⟨_, _, h⟩ := s.count64_rest a n w; rw [h]
@[simp] theorem Hw.ts_crossLost (s : Hw) (r : TRef) (v : Nat) : (s.ts r v).crossLost = s.crossLost := by
  obtain ⟨_, h⟩ := Hw.ts_tabs_rest _ s _ _; unfold Hw.ts; dsimp only; rw [h]

@[simp] theorem Hw.ts_outs (s : Hw) (r : TRef) (v : Nat) : (s.ts r v).outs = s.outs := by
  obtain ⟨_, h⟩ := Hw.ts_tabs_rest _ s _ _; unfold Hw.ts; dsimp only; rw [h]
@[simp] theorem Hw.count_outs (s : Hw) (x : FRef) (n : Nat) : (s.count x n).outs = s.outs := by
  obtain ⟨_, _, h⟩ := s.count_rest x n; rw [h]

end Sys2Proof.Machine
end

