-- ==== Sys2Proof/Laws/Access.lean ====
section
/-!
SUPPORT. The laws of register accesses: an access that is admitted does what its register's row says on the logic it
reaches; one that is not changes the bus error registers alone.
-/
namespace Sys2Proof.Machine

@[simp] theorem Access.write_is (v : Word) : (Access.write v != Access.read) = true := by simp [bne]

@[simp] theorem Access.read_is : (Access.read != Access.read) = false := by simp

/-- An admitted access. -/
theorem Hw.onAccess_admits {s : Hw} {m : Master} {a : Nat} {w : Bool} (h : s.admits m a w) (f : Hw → Hw) :
    s.onAccess m a w f = f (s.reached m a) := by
  obtain ⟨h1, h2⟩ := h
  unfold Hw.onAccess
  rw [if_neg (by simp [h1])]
  cases m <;> simp only [Hw.counted] at h2 <;> simp only [h2, Hw.reached, Hw.counted]

/-- An access error queues no write for the memory. -/
@[simp] theorem Hw.busError_wlog (s : Hw) (m : Master) (a : Nat) (w : Bool) (r : Nat) : (s.busError m a w r).wlog = s.wlog := by
  unfold Hw.busError
  dsimp only
  split
  · exact Hw.count_wlog _ _ _
  · rw [Hw.raise_wlog, Hw.wr_wlog, Hw.setWord_wlog, Hw.setWord_wlog, Hw.count_wlog]

/-- An access that meets an error of R46: it reads 0, and the error is logged. -/
theorem Hw.onAccess_error {s : Hw} {m : Master} {a r : Nat} {w : Bool} (hd : s.deaf m = false)
    (h : (s.counted m).accessError m a 4 w = r + 1) (f : Hw → Hw) :
    s.onAccess m a w f = ((s.counted m).busError m a w (r + 1)).answer 0#32 := by
  unfold Hw.onAccess
  rw [if_neg (by simp [hd])]
  cases m <;> simp only [Hw.counted] at h <;> simp only [h, Hw.counted]

/-- An access the logic does not hear reads 0. -/
theorem Hw.onAccess_deaf {s : Hw} {m : Master} (hd : s.deaf m = true) (a : Nat) (w : Bool) (f : Hw → Hw) :
    s.onAccess m a w f = s.answer 0#32 := by
  unfold Hw.onAccess
  rw [if_pos hd]

end Sys2Proof.Machine
end

