-- ==== Sys2Proof/Laws/Finish.lean ====
section
/-!
SUPPORT. The laws of the external memory and of what ends a command: every memory operation keeps the canonical form, and
`State.finish` changes only the bins and log of the PM block, the memory, and the logs of the command in hand.
-/
namespace Sys2Proof.Machine

/-! ## The external memory -/

theorem Memory.wf_set (m : List Host.Cell) (a : Nat) (b : Byte) (h : Memory.wf m = true) :
    Memory.wf (Sparse.set memDefault m a b) = true := Sparse.wf_set (fun _ => memDefault) m a b h

theorem Memory.wf_store (bs : Bytes) : ∀ (m : List Host.Cell) (a : Nat), Memory.wf m = true →
    Memory.wf (Memory.store m a bs) = true := by
  induction bs with
  | nil => intro m a h; exact h
  | cons b t ih => intro m a h; exact ih _ _ (Memory.wf_set m a b h)

theorem Memory.wf_put (m : List Host.Cell) (a : Nat) (bs : Bytes) (h : Memory.wf m = true) :
    Memory.wf (Memory.put m a bs) = true := Memory.wf_store bs m a h

theorem Memory.wf_fill (bs : Bytes) (l : List Nat) : ∀ m : List Host.Cell, Memory.wf m = true →
    Memory.wf (l.foldl (fun m l => Memory.put m (l * 64) bs) m) = true := by
  induction l with
  | nil => intro m h; exact h
  | cons x t ih =>
    intro m h
    rw [List.foldl_cons]
    exact ih _ (Memory.wf_put m _ _ h)

theorem Memory.wf_one (g : GrnSt) (x : List Host.Cell × List Nat) (w : MemW) (h : Memory.wf x.1 = true) :
    Memory.wf (Memory.one g x w).1 = true := by
  unfold Memory.one
  dsimp only
  exact Memory.wf_put _ _ _ (Memory.wf_fill _ _ _ h)

/-- Carrying out a log of writes keeps the canonical form. -/
theorem Memory.wf_apply (g : GrnSt) (m : List Host.Cell) (c : List Nat) (h : Memory.wf m = true) :
    ∀ l : List MemW, Memory.wf (Memory.apply g m c l).1 = true
  | [] => h
  | w :: t => Memory.wf_one g _ w (Memory.wf_apply g m c h t)

/-- What a byte reads as after a run of octets has been stored. -/
theorem Memory.read_store (bs : Bytes) : ∀ (m : List Host.Cell) (a b : Nat),
    Memory.read (Memory.store m a bs) b = if a ≤ b ∧ b < a + bs.length then bs.getD (b - a) 0 else Memory.read m b := by
  induction bs with
  | nil =>
    intro m a b
    rw [Memory.store, if_neg (by simp only [List.length_nil]; omega)]
  | cons x t ih =>
    intro m a b
    rw [Memory.store, ih]
    by_cases h1 : a + 1 ≤ b ∧ b < a + 1 + t.length
    · have h2 : a ≤ b ∧ b < a + (x :: t).length := by simp only [List.length_cons]; omega
      rw [if_pos h1, if_pos h2]
      have h3 : b - a = (b - (a + 1)) + 1 := by omega
      rw [h3]; simp
    · rw [if_neg h1, Memory.read, Sparse.get_set]
      by_cases h3 : b = a
      · subst h3; simp
      · have h2 : ¬(a ≤ b ∧ b < a + (x :: t).length) := by simp only [List.length_cons]; omega
        rw [if_neg h3, if_neg h2]; rfl

/-! ## The bins -/

/-- `t` differs from `s` in the PM block alone, and no event waits that did not wait before. -/
structure PmOnly (s t : Hw) : Prop where
  word : ∀ a, a < 0x9000000 → t.word a = s.word a
  notes : t.pm.notes = s.pm.notes
  rest : ∃ r b o p q, t = { s with regs := r, tabs := b, outs := o, pm := p, ctl := { s.ctl with msixPend := q } }

theorem PmOnly.refl (s : Hw) : PmOnly s s := ⟨fun _ _ => rfl, rfl, _, _, _, _, s.ctl.msixPend, rfl⟩

theorem PmOnly.trans {s t u : Hw} (h : PmOnly s t) (k : PmOnly t u) : PmOnly s u := by
  obtain ⟨_, _, _, _, _, h1⟩ := h.rest
  obtain ⟨_, _, _, _, _, h2⟩ := k.rest
  exact ⟨fun a ha => (k.word a ha).trans (h.word a ha), k.notes.trans h.notes, _, _, _, _, _, by rw [h2, h1]⟩

theorem PmOnly.wr (s : Hw) (f : FRef) (v : Nat) (h : 0x9000000 ≤ f.addr) : PmOnly s (s.wr f v) :=
  ⟨fun a ha => by rw [Hw.word_wr, if_neg (by omega)], rfl, _, _, _, _, s.ctl.msixPend, rfl⟩

theorem PmOnly.raise (s : Hw) (b bit : Nat) (h : 0x9000000 ≤ b) : PmOnly s (s.raise b bit) := by
  obtain ⟨p, o, ho⟩ := Hw.raise_rest s b bit
  refine ⟨fun a ha => ?_, ?_, ?_⟩
  · rw [Hw.word_raise, if_neg (by omega)]
  · rw [ho]
  · exact ⟨_, _, _, _, _, ho⟩

theorem pmKey_none (a : Nat) (h : 0x9000000 ≤ a) : pmKey a = none := by
  unfold pmKey; rw [if_neg (by omega), if_neg (by omega)]

theorem PmOnly.count (s : Hw) (f : FRef) (n : Nat) (h : 0x9000000 ≤ f.addr) : PmOnly s (s.count f n) := by
  unfold Hw.count Hw.noteAt
  rw [pmKey_none _ h]
  exact PmOnly.wr s f _ h

theorem Hw.setTabWords_rest (n : Nat) : ∀ (s : Hw) (k v : Nat), ∃ t, s.setTabWords k n v = { s with tabs := t } := by
  induction n with
  | zero => intro s k v; exact ⟨s.tabs, rfl⟩
  | succ n ih =>
    intro s k v
    obtain ⟨t, ht⟩ := ih (s.setTabWord k (BitVec.ofNat 32 v)) (k + 1) (v / 2 ^ 32)
    exact ⟨t, by rw [Hw.setTabWords, ht]; rfl⟩

/-- A write of a table field leaves everything but the tables. -/
theorem Hw.ts_rest (s : Hw) (r : TRef) (v : Nat) : ∃ t, s.ts r v = { s with tabs := t } := Hw.setTabWords_rest _ _ _ _

theorem PmOnly.ts (s : Hw) (r : TRef) (v : Nat) : PmOnly s (s.ts r v) := by
  obtain ⟨t, ht⟩ := Hw.ts_rest s r v
  rw [ht]; exact ⟨fun _ _ => rfl, rfl, _, _, _, _, s.ctl.msixPend, rfl⟩

theorem PmOnly.setLog (s : Hw) (l : List (List Word)) : PmOnly s (s.setLog l) :=
  (⟨fun _ _ => rfl, rfl, _, _, _, _, s.ctl.msixPend, rfl⟩ : PmOnly s { s with pm := { s.pm with log := l } }).trans
    (PmOnly.wr _ _ _ (by decide))

theorem PmOnly.logWrite (s : Hw) (w0 w3 : Nat) : PmOnly s (s.logWrite w0 w3) := by
  unfold Hw.logWrite
  dsimp only
  split
  · exact PmOnly.setLog _ _
  · exact ((PmOnly.count _ _ _ (by decide)).trans (PmOnly.wr _ _ _ (by decide))).trans (PmOnly.raise _ _ _ (by decide))

theorem PmOnly.pmThreshold (s : Hw) (o k w : Nat) : PmOnly s (s.pmThreshold o k w) := by
  unfold Hw.pmThreshold
  dsimp only
  split
  · refine PmOnly.trans (PmOnly.trans (PmOnly.trans ?_ (PmOnly.logWrite _ _ _)) (PmOnly.count _ _ _ (by decide)))
      (PmOnly.raise _ _ _ (by decide))
    exact ⟨fun _ _ => rfl, rfl, _, _, _, _, s.ctl.msixPend, rfl⟩
  · exact PmOnly.refl s

theorem PmOnly.pmAdd (s : Hw) (o w n : Nat) : PmOnly s (s.pmAdd o w n) := by
  unfold Hw.pmAdd Hw.forAll
  exact ((PmOnly.ts _ _ _).trans (PmOnly.pmThreshold _ _ _ _)).trans ((PmOnly.ts _ _ _).trans (PmOnly.pmThreshold _ _ _ _))

theorem PmOnly.pmNote (s : Hw) (e : Nat × Nat × Nat) : PmOnly s (s.pmNote e) := by
  unfold Hw.pmNote Hw.onlyIf
  dsimp only
  split
  · refine PmOnly.trans (t := s.modObj e.1 (fun x => x.note e.1 e.2.1 e.2.2)) ⟨fun _ _ => rfl, rfl, _, _, _, _, s.ctl.msixPend, rfl⟩ ?_
    split
    · exact PmOnly.pmAdd _ _ _ _
    · exact PmOnly.refl _
  · exact PmOnly.refl s

theorem PmOnly.forAll {α : Type} (f : Hw → α → Hw) (h : ∀ s x, PmOnly s (f s x)) (l : List α) :
    ∀ s : Hw, PmOnly s (s.forAll l f) := by
  induction l with
  | nil => intro s; exact PmOnly.refl s
  | cons x t ih => intro s; exact (h s x).trans (ih (f s x))

/-- The bins take the events of the command in hand: nothing outside the PM block changes, and no event is left. -/
theorem Hw.settleBins_spec (h : Hw) : PmOnly { h with pm := { h.pm with notes := [] } } h.settleBins := by
  unfold Hw.settleBins
  split
  · rename_i he
    have : ({ h with pm := { h.pm with notes := [] } } : Hw) = h := by rw [← he]
    rw [this]; exact PmOnly.refl h
  · exact PmOnly.forAll _ PmOnly.pmNote _ _

/-! ## The end of a command -/

@[simp] theorem State.finish_pending (s : State) (h : Hw) : (s.finish h).pending = s.pending := rfl
@[simp] theorem State.finish_wlog (s : State) (h : Hw) : (s.finish h).hw.wlog = [] := rfl

theorem State.finish_notes (s : State) (h : Hw) : (s.finish h).hw.pm.notes = [] := h.settleBins_spec.notes

/-- The canonical form of the memory is kept. -/
theorem State.finish_wf (s : State) (h : Hw) (hm : Memory.wf s.mem = true) : Memory.wf (s.finish h).mem = true :=
  Memory.wf_apply _ _ _ hm _

/-- Registers outside the PM block are those of the logic the command left. -/
theorem State.finish_word (s : State) (h : Hw) (a : Nat) (ha : a < 0x9000000) : (s.finish h).hw.word a = h.word a :=
  h.settleBins_spec.word a ha

theorem State.finish_rd (s : State) (h : Hw) (f : FRef) (ha : f.addr < 0x9000000) : (s.finish h).hw.rd f = h.rd f := by
  simp only [Hw.rd, State.finish_word s h f.addr ha]

theorem State.finish_rest (s : State) (h : Hw) :
    ∃ r b o p q c, (s.finish h).hw =
      { h with regs := r, tabs := b, outs := o, pm := p, ctl := { h.ctl with msixPend := q }, clean := c, wlog := [] } := by
  obtain ⟨r, b, o, p, q, e⟩ := h.settleBins_spec.rest
  exact ⟨r, b, o, p, q, (Memory.apply h.grn s.mem h.clean h.wlog).2, by simp only [State.finish, e]⟩

@[simp] theorem State.finish_cap (s : State) (h : Hw) : (s.finish h).hw.cap = h.cap := by
  obtain ⟨_, _, _, _, _, _, e⟩ := s.finish_rest h
  rw [e]
@[simp] theorem State.finish_latch (s : State) (h : Hw) : (s.finish h).hw.latch = h.latch := by
  obtain ⟨_, _, _, _, _, _, e⟩ := s.finish_rest h
  rw [e]
@[simp] theorem State.finish_gates (s : State) (h : Hw) : (s.finish h).hw.gates = h.gates := by
  obtain ⟨_, _, _, _, _, _, e⟩ := s.finish_rest h
  rw [e]
@[simp] theorem State.finish_trk (s : State) (h : Hw) : (s.finish h).hw.trk = h.trk := by
  obtain ⟨_, _, _, _, _, _, e⟩ := s.finish_rest h
  rw [e]
@[simp] theorem State.finish_shf (s : State) (h : Hw) : (s.finish h).hw.shf = h.shf := by
  obtain ⟨_, _, _, _, _, _, e⟩ := s.finish_rest h
  rw [e]
@[simp] theorem State.finish_grn (s : State) (h : Hw) : (s.finish h).hw.grn = h.grn := by
  obtain ⟨_, _, _, _, _, _, e⟩ := s.finish_rest h
  rw [e]
@[simp] theorem State.finish_tms (s : State) (h : Hw) : (s.finish h).hw.tms = h.tms := by
  obtain ⟨_, _, _, _, _, _, e⟩ := s.finish_rest h
  rw [e]
@[simp] theorem State.finish_thr (s : State) (h : Hw) : (s.finish h).hw.thr = h.thr := by
  obtain ⟨_, _, _, _, _, _, e⟩ := s.finish_rest h
  rw [e]
@[simp] theorem State.finish_sub (s : State) (h : Hw) : (s.finish h).hw.sub = h.sub := by
  obtain ⟨_, _, _, _, _, _, e⟩ := s.finish_rest h
  rw [e]
@[simp] theorem State.finish_slt (s : State) (h : Hw) : (s.finish h).hw.slt = h.slt := by
  obtain ⟨_, _, _, _, _, _, e⟩ := s.finish_rest h
  rw [e]
@[simp] theorem State.finish_tim (s : State) (h : Hw) : (s.finish h).hw.tim = h.tim := by
  obtain ⟨_, _, _, _, _, _, e⟩ := s.finish_rest h
  rw [e]
@[simp] theorem State.finish_til (s : State) (h : Hw) : (s.finish h).hw.til = h.til := by
  obtain ⟨_, _, _, _, _, _, e⟩ := s.finish_rest h
  rw [e]
@[simp] theorem State.finish_ctl_kick (s : State) (h : Hw) : (s.finish h).hw.ctl.kick = h.ctl.kick := by
  obtain ⟨_, _, _, _, _, _, e⟩ := s.finish_rest h
  rw [e]
@[simp] theorem State.finish_ctl_rings (s : State) (h : Hw) : (s.finish h).hw.ctl.rings = h.ctl.rings := by
  obtain ⟨_, _, _, _, _, _, e⟩ := s.finish_rest h
  rw [e]
@[simp] theorem State.finish_ctl_link (s : State) (h : Hw) : (s.finish h).hw.ctl.link = h.ctl.link := by
  obtain ⟨_, _, _, _, _, _, e⟩ := s.finish_rest h
  rw [e]
@[simp] theorem State.finish_ctl_msix (s : State) (h : Hw) : (s.finish h).hw.ctl.msix = h.ctl.msix := by
  obtain ⟨_, _, _, _, _, _, e⟩ := s.finish_rest h
  rw [e]
@[simp] theorem State.finish_ctl_mbx (s : State) (h : Hw) : (s.finish h).hw.ctl.mbx = h.ctl.mbx := by
  obtain ⟨_, _, _, _, _, _, e⟩ := s.finish_rest h
  rw [e]
@[simp] theorem State.finish_ctl_stage (s : State) (h : Hw) : (s.finish h).hw.ctl.stage = h.ctl.stage := by
  obtain ⟨_, _, _, _, _, _, e⟩ := s.finish_rest h
  rw [e]
@[simp] theorem State.finish_ctl_lockPtr (s : State) (h : Hw) : (s.finish h).hw.ctl.lockPtr = h.ctl.lockPtr := by
  obtain ⟨_, _, _, _, _, _, e⟩ := s.finish_rest h
  rw [e]
@[simp] theorem State.finish_ctl_uartTx (s : State) (h : Hw) : (s.finish h).hw.ctl.uartTx = h.ctl.uartTx := by
  obtain ⟨_, _, _, _, _, _, e⟩ := s.finish_rest h
  rw [e]
@[simp] theorem State.finish_ctl_uartRx (s : State) (h : Hw) : (s.finish h).hw.ctl.uartRx = h.ctl.uartRx := by
  obtain ⟨_, _, _, _, _, _, e⟩ := s.finish_rest h
  rw [e]
@[simp] theorem State.finish_ctl_uartWait (s : State) (h : Hw) : (s.finish h).hw.ctl.uartWait = h.ctl.uartWait := by
  obtain ⟨_, _, _, _, _, _, e⟩ := s.finish_rest h
  rw [e]
@[simp] theorem State.finish_hsk (s : State) (h : Hw) : (s.finish h).hw.hsk = h.hsk := by
  obtain ⟨_, _, _, _, _, _, e⟩ := s.finish_rest h
  rw [e]
@[simp] theorem State.finish_cip (s : State) (h : Hw) : (s.finish h).hw.cip = h.cip := by
  obtain ⟨_, _, _, _, _, _, e⟩ := s.finish_rest h
  rw [e]
@[simp] theorem State.finish_twn (s : State) (h : Hw) : (s.finish h).hw.twn = h.twn := by
  obtain ⟨_, _, _, _, _, _, e⟩ := s.finish_rest h
  rw [e]
@[simp] theorem State.finish_pwr (s : State) (h : Hw) : (s.finish h).hw.pwr = h.pwr := by
  obtain ⟨_, _, _, _, _, _, e⟩ := s.finish_rest h
  rw [e]
@[simp] theorem State.finish_pins (s : State) (h : Hw) : (s.finish h).hw.pins = h.pins := by
  obtain ⟨_, _, _, _, _, _, e⟩ := s.finish_rest h
  rw [e]
@[simp] theorem State.finish_resetLost (s : State) (h : Hw) : (s.finish h).hw.resetLost = h.resetLost := by
  obtain ⟨_, _, _, _, _, _, e⟩ := s.finish_rest h
  rw [e]
@[simp] theorem State.finish_crossLost (s : State) (h : Hw) : (s.finish h).hw.crossLost = h.crossLost := by
  obtain ⟨_, _, _, _, _, _, e⟩ := s.finish_rest h
  rw [e]
@[simp] theorem State.finish_aon (s : State) (h : Hw) : (s.finish h).hw.aon = h.aon := by
  obtain ⟨_, _, _, _, _, _, e⟩ := s.finish_rest h
  rw [e]
@[simp] theorem State.finish_clk (s : State) (h : Hw) : (s.finish h).hw.clk = h.clk := by
  obtain ⟨_, _, _, _, _, _, e⟩ := s.finish_rest h
  rw [e]
@[simp] theorem State.finish_freeCtr (s : State) (h : Hw) : (s.finish h).hw.freeCtr = h.freeCtr := by
  obtain ⟨_, _, _, _, _, _, e⟩ := s.finish_rest h
  rw [e]
@[simp] theorem State.finish_rdata (s : State) (h : Hw) : (s.finish h).hw.rdata = h.rdata := by
  obtain ⟨_, _, _, _, _, _, e⟩ := s.finish_rest h
  rw [e]
@[simp] theorem State.finish_edata (s : State) (h : Hw) : (s.finish h).hw.edata = h.edata := by
  obtain ⟨_, _, _, _, _, _, e⟩ := s.finish_rest h
  rw [e]

theorem State.finish_isQuiet (s : State) (h : Hw) : (s.finish h).Quiet := ⟨rfl, s.finish_notes h⟩

/-- A command that writes no memory and counts no event for the bins leaves exactly the logic it computed. -/
theorem State.finish_quiet (s : State) (h : Hw) (hw : h.wlog = []) (hn : h.pm.notes = []) :
    s.finish h = { s with hw := h } := by
  have h1 : h.settleBins = h := by unfold Hw.settleBins; rw [if_pos hn]
  unfold State.finish
  rw [h1, hw]
  cases h; cases s; simp_all [Memory.apply]

/-- The memory is as before where the command writes none. -/
theorem State.finish_mem (s : State) (h : Hw) (hw : h.wlog = []) : (s.finish h).mem = s.mem := by
  unfold State.finish; rw [hw]; rfl

theorem State.on_next (s : State) (f : Hw → Hw) : s.on f = .next (s.finish (f s.hw)) := rfl
theorem State.onMem_next (s : State) (f : List Host.Cell → Hw → Hw) : s.onMem f = .next (s.finish (f s.mem s.hw)) := rfl

end Sys2Proof.Machine
end

