-- ==== Sys2Proof/Laws/Keeps.lean ====
section
/-!
SUPPORT. What a loop or a conditional keeps: a part of the state that each round keeps, the whole keeps.
-/
namespace Sys2Proof.Machine

/-- A property that every round keeps holds after the loop. -/
theorem Hw.forAll_inv {α : Type} (P : Hw → Prop) (f : Hw → α → Hw) (hf : ∀ s x, P s → P (f s x)) (l : List α) :
    ∀ s : Hw, P s → P (s.forAll l f) := by
  induction l with
  | nil => intro s h; exact h
  | cons x t ih => intro s h; exact ih (f s x) (hf s x h)

/-- A part of the state that every round keeps. -/
theorem Hw.forAll_same {α β : Type} (v : Hw → β) (f : Hw → α → Hw) (hf : ∀ s x, v (f s x) = v s) (s : Hw) (l : List α) :
    v (s.forAll l f) = v s :=
  Hw.forAll_inv (fun t => v t = v s) f (fun t x h => (hf t x).trans h) l s rfl

/-- A part of the state that a conditional change keeps. -/
theorem Hw.onlyIf_same {β : Type} (v : Hw → β) (s : Hw) (c : Prop) [Decidable c] (f : Hw → Hw) (hf : ∀ t, v (f t) = v t) :
    v (s.onlyIf c f) = v s := by
  unfold Hw.onlyIf; split
  · exact hf s
  · rfl

/-- A change whose condition holds. -/
theorem Hw.onlyIf_pos (s : Hw) {c : Prop} [Decidable c] (f : Hw → Hw) (h : c) : s.onlyIf c f = f s := if_pos h

/-- A change whose condition fails. -/
theorem Hw.onlyIf_neg (s : Hw) {c : Prop} [Decidable c] (f : Hw → Hw) (h : ¬c) : s.onlyIf c f = s := if_neg h

end Sys2Proof.Machine
end

