-- ==== Sys2Proof/Laws/Tables.lean ====
section
/-!
SUPPORT. The laws of the tables behind the gates: what an entry field reads after a field has been put there, and what the
other fields keep.
-/
namespace Sys2Proof.Machine

/-- Words outside a run that is stored keep what they hold. -/
theorem Hw.tabWord_setTabWords (n : Nat) : ∀ (s : Hw) (k v j : Nat), j < k ∨ k + n ≤ j →
    (s.setTabWords k n v).tabWord j = s.tabWord j := by
  induction n with
  | zero => intro s k v j _; rfl
  | succ n ih =>
    intro s k v j h
    rw [Hw.setTabWords, ih _ _ _ _ (by omega), Hw.tabWord_setTabWord, if_neg (by omega)]

/-- A run of words depends on those words alone. -/
theorem Hw.tabWords_congr (n : Nat) : ∀ (s t : Hw) (k : Nat), (∀ j, k ≤ j → j < k + n → s.tabWord j = t.tabWord j) →
    s.tabWords k n = t.tabWords k n := by
  induction n with
  | zero => intros; rfl
  | succ n ih =>
    intro s t k h
    rw [Hw.tabWords, Hw.tabWords, h k (by omega) (by omega), ih s t (k + 1) (fun j h1 h2 => h j (by omega) (by omega))]

/-- A run of table words reads the value put there, modulo its size. -/
theorem Hw.tabWords_setTabWords (n : Nat) : ∀ (s : Hw) (k v : Nat), (s.setTabWords k n v).tabWords k n = v % 2 ^ (32 * n) := by
  induction n with
  | zero => intro s k v; simp [Hw.tabWords, Nat.mod_one]
  | succ n ih =>
    intro s k v
    rw [Hw.tabWords, Hw.setTabWords, ih, Hw.tabWord_setTabWords _ _ _ _ _ (by omega), Hw.tabWord_setTabWord, if_pos rfl]
    rw [BitVec.toNat_ofNat, show 32 * (n + 1) = 32 + 32 * n by ring, pow_add, Nat.mod_mul]

/-- The size of a run of words. -/
theorem Hw.tabWords_lt (n : Nat) : ∀ (s : Hw) (k : Nat), s.tabWords k n < 2 ^ (32 * n) := by
  induction n with
  | zero => intro s k; simp [Hw.tabWords]
  | succ n ih =>
    intro s k
    have h1 := ih s (k + 1)
    have h2 := (s.tabWord k).isLt
    rw [Hw.tabWords, show 32 * (n + 1) = 32 + 32 * n by ring, pow_add]
    nlinarith

/-- The low bits, the field and the high bits of a number. -/
theorem putBits_parts (v lo n x : Nat) :
    putBits v lo n x = v % 2 ^ lo + 2 ^ lo * (x % 2 ^ n + 2 ^ n * (v / 2 ^ lo / 2 ^ n)) := by
  unfold putBits bitsOf
  have h1 := Nat.mod_add_div v (2 ^ lo)
  have h2 := Nat.mod_add_div (v / 2 ^ lo) (2 ^ n)
  generalize v % 2 ^ lo = l at *
  generalize v / 2 ^ lo = q at *
  generalize q % 2 ^ n = m at *
  generalize q / 2 ^ n = g at *
  subst h2
  rw [← h1, Nat.mul_add, Nat.mul_add, Nat.mul_comm m, Nat.mul_comm (x % 2 ^ n)]
  omega

/-- A field of a number reads what was put there. -/
theorem bitsOf_putBits_self (v lo n x : Nat) : bitsOf (putBits v lo n x) lo n = x % 2 ^ n := by
  rw [putBits_parts, bitsOf, Nat.add_mul_div_left _ _ (by positivity), Nat.div_eq_of_lt (Nat.mod_lt _ (by positivity)),
    Nat.zero_add, Nat.add_mul_mod_self_left, Nat.mod_mod]

/-- A field that does not overlap keeps its value. -/
theorem bitsOf_putBits_ne (v lo n x a m : Nat) (h : a + m ≤ lo ∨ lo + n ≤ a) : bitsOf (putBits v lo n x) a m = bitsOf v a m := by
  rw [putBits_parts]
  unfold bitsOf
  rcases h with h | h
  · have key : ∀ w : Nat, w / 2 ^ a % 2 ^ m = w % 2 ^ lo / 2 ^ a % 2 ^ m := by
      intro w
      obtain ⟨k, rfl⟩ := Nat.exists_eq_add_of_le h
      rw [Nat.pow_add, Nat.pow_add, Nat.mul_assoc, Nat.mod_mul_right_div_self, Nat.mod_mod_of_dvd _ (Dvd.intro _ rfl)]
    rw [key, Nat.add_mul_mod_self_left, Nat.mod_mod, ← key]
  · have key : ∀ w : Nat, w / 2 ^ a = w / 2 ^ lo / 2 ^ n / 2 ^ (a - lo - n) := by
      intro w
      rw [Nat.div_div_eq_div_mul, Nat.div_div_eq_div_mul, ← Nat.pow_add, ← Nat.pow_add]
      congr 2; omega
    rw [key, key v, Nat.add_mul_div_left _ _ (by positivity), Nat.div_eq_of_lt (Nat.mod_lt _ (by positivity)), Nat.zero_add,
      Nat.add_mul_div_left _ _ (by positivity), Nat.div_eq_of_lt (a := x % 2 ^ n) (Nat.mod_lt _ (by positivity)), Nat.zero_add]

/-- Putting a field inside `m` bits leaves the number in `m` bits. -/
theorem putBits_lt {v lo n x m : Nat} (hv : v < 2 ^ m) (h : lo + n ≤ m) : putBits v lo n x < 2 ^ m := by
  rw [putBits_parts]
  obtain ⟨k, rfl⟩ := Nat.exists_eq_add_of_le h
  have h1 : v / 2 ^ lo / 2 ^ n < 2 ^ k := by
    rw [Nat.div_div_eq_div_mul, ← Nat.pow_add]
    exact Nat.div_lt_of_lt_mul (by rwa [← Nat.pow_add])
  have h2 : x % 2 ^ n < 2 ^ n := Nat.mod_lt _ (by positivity)
  have h3 : v % 2 ^ lo < 2 ^ lo := Nat.mod_lt _ (by positivity)
  generalize x % 2 ^ n = y at *
  generalize v / 2 ^ lo / 2 ^ n = g at *
  have h4 : y + 2 ^ n * g + 1 ≤ 2 ^ n * 2 ^ k := by nlinarith
  have h5 : 2 ^ lo * (y + 2 ^ n * g + 1) ≤ 2 ^ lo * (2 ^ n * 2 ^ k) := Nat.mul_le_mul_left _ h4
  rw [Nat.pow_add, Nat.pow_add, Nat.mul_assoc]
  rw [Nat.mul_add] at h5
  omega

/-- Words that an entry field lies in. -/
theorem span_covers (lo width : Nat) : lo % 32 + width ≤ 32 * ((lo % 32 + width + 31) / 32) := by omega

/-- An entry field reads what was put there, modulo its width. -/
@[simp] theorem Hw.t_ts_self (s : Hw) (r : TRef) (v : Nat) : (s.ts r v).t r = v % 2 ^ r.width := by
  unfold Hw.ts Hw.t
  dsimp only
  rw [Hw.tabWords_setTabWords, Nat.mod_eq_of_lt (putBits_lt (Hw.tabWords_lt _ _ _) (span_covers _ _)), bitsOf_putBits_self]

/-- A field of other words. -/
theorem Hw.t_ts_key (s : Hw) (r q : TRef) (v : Nat)
    (h : q.base + q.lo / 32 + (q.lo % 32 + q.width + 31) / 32 ≤ r.base + r.lo / 32 ∨
      r.base + r.lo / 32 + (r.lo % 32 + r.width + 31) / 32 ≤ q.base + q.lo / 32) : (s.ts r v).t q = s.t q := by
  unfold Hw.ts Hw.t
  dsimp only
  rw [Hw.tabWords_congr _ _ s _ (fun j h1 h2 => Hw.tabWord_setTabWords _ _ _ _ _ (by omega))]

/-- Another field of the same single word. -/
theorem Hw.t_ts_bits (s : Hw) (r q : TRef) (v : Nat) (hk : q.base + q.lo / 32 = r.base + r.lo / 32)
    (hr : 0 < r.width ∧ r.lo % 32 + r.width ≤ 32) (hq : 0 < q.width ∧ q.lo % 32 + q.width ≤ 32)
    (h : q.lo % 32 + q.width ≤ r.lo % 32 ∨ r.lo % 32 + r.width ≤ q.lo % 32) : (s.ts r v).t q = s.t q := by
  unfold Hw.ts Hw.t
  dsimp only
  have e1 : (r.lo % 32 + r.width + 31) / 32 = 1 := by omega
  have e2 : (q.lo % 32 + q.width + 31) / 32 = 1 := by omega
  rw [hk, e1, e2, Hw.tabWords_setTabWords, Nat.mod_eq_of_lt (putBits_lt (Hw.tabWords_lt _ _ _) (by omega)),
    bitsOf_putBits_ne _ _ _ _ _ _ h]

end Sys2Proof.Machine
end

