-- ==== Sys2Proof/Laws/Tick.lean ====
section
/-!
SUPPORT. The laws of a cycle: what its parts leave alone.
-/
namespace Sys2Proof.Machine

@[simp] theorem Hw.cycled_tim (s : Hw) : s.cycled.tim = s.tim := rfl
@[simp] theorem Hw.cycled_regs (s : Hw) : s.cycled.regs = s.regs := rfl
@[simp] theorem Hw.cycled_clk (s : Hw) : s.cycled.clk = s.clk + 4 := rfl

/-- The standing of TM's clock touches TM alone. -/
theorem Hw.tickSlept_rest (s : Hw) :
    s.tickSlept.tim = s.tim ∧ s.tickSlept.regs = s.regs ∧ s.tickSlept.cap = s.cap ∧ s.tickSlept.hsk = s.hsk ∧ s.tickSlept.pwr = s.pwr := by
  unfold Hw.tickSlept Hw.onlyIf; split <;> exact ⟨rfl, rfl, rfl, rfl, rfl⟩

/-- Where a ring lies depends on the registers and on what its function captured. -/
theorem Hw.ringInHost_congr {a b : Hw} (h : a.regs = b.regs) (k : a.cap = b.cap) (d r : Nat) : a.ringInHost d r = b.ringInHost d r := by
  have q : ∀ f, a.rd f = b.rd f := by intro f; unfold Hw.rd Hw.word; rw [h]
  have c : ∀ f, a.capRd f = b.capRd f := by intro f; unfold Hw.capRd; rw [k]
  unfold Hw.ringInHost
  simp only [Hw.ringState, q, c]

/-- So do the domains that wait to be turned off. -/
theorem Hw.offDue_congr {a b : Hw} (h : a.regs = b.regs) (k : a.cap = b.cap) : a.offDue = b.offDue := by
  have r : ∀ f, a.rd f = b.rd f := by intro f; unfold Hw.rd Hw.word; rw [h]
  have l : a.liveFns = b.liveFns := by unfold Hw.liveFns; rw [h]; simp only [Hw.st, r]
  have fi : ∀ d, a.fnIn d = b.fnIn d := by
    intro d; funext f; unfold Hw.fnIn; cases f <;> simp only [Hw.ringInHost_congr h k]
  unfold Hw.offDue Hw.domIdle Hw.domFns Hw.cond Hw.st Hw.word
  simp only [r, l, fi, h]
/-- With no change of power state under way or due and out of Rest, the power controller leaves the time alone. -/
theorem Hw.powerWatch_tim {h : Hw} (a1 : h.rd PWR_STATE_STATUS.BUSY ≠ 1) (a2 : h.powerState ≠ 3) (a3 : h.pwr.todo = [])
    (a4 : h.pwr.trimDue = []) : h.powerWatch.tim = h.tim := by
  have w : ∀ (h : Hw) k, h.rd PWR_STATE_STATUS.BUSY ≠ 1 → h.powerState ≠ 3 → h.wakeFire k = h := by
    intro h k b1 b2; unfold Hw.wakeFire; simp [b1, b2]
  unfold Hw.powerWatch Hw.onlyIf; dsimp only
  by_cases hc : h.pwr.target = 3 ∧ h.trkWatching (15 + h.aonRd PWR_REST_CFG.REST_CH) = true
  · rw [if_pos hc, w _ 1 (by exact a1) (by exact a2), w _ 5 (by exact a1) (by exact a2)]; unfold Hw.trimLate; simp [a3, a4, Hw.modPwr]
  · rw [if_neg hc, w _ 1 a1 a2, w _ 5 a1 a2]; unfold Hw.trimLate; simp [a3, a4]

/-- With no domain waiting to be turned off none is. -/
theorem Hw.offAll_none {h : Hw} (q : h.offDue = []) : h.offAll = h := by
  unfold Hw.offAll; rw [q]; rfl

end Sys2Proof.Machine
end

