-- ==== Sys2Proof/Laws/Twin.lean ====
section
/-!
SUPPORT. The law of received twin frames: a frame that needs no opening reaches what its type does with its header and
payload.
-/
namespace Sys2Proof.Machine

/-- A plain frame of a type is taken as that type takes its header and the octets after it (R451, R453). -/
theorem twinRx_plain {h : Hw} {type : Nat} {bs : Bytes} (hp : TwinPlain h type bs) (f : Hw → Nat → Bytes × Bool → Hw) :
    h.twinRx type bs f = f h (beAt bs 0 7) (bs.drop 7, false) := by
  obtain ⟨h1, h2, h3, h4, h5, h6, h7, h8, h9⟩ := hp
  unfold Hw.twinRx Hw.twinOpen
  simp only [h1, h2, h6, h7, h8, h5]
  rcases h9 with h9 | h9 <;> simp [Nat.not_le.mpr h3, Nat.not_lt.mpr h4, h9]

end Sys2Proof.Machine
end

