-- ==== Sys2Proof/WellFormed.lean ====
section
/-!
DEFINITION. Which commands are well-formed: operands that the types leave wider than the spec's fields lie within them. The
terminal meets no other command; `exec` is total all the same.
-/
namespace Sys2Proof
open Sys2Proof.Machine

/-- The fields of a transmit descriptor fit (spec/15, transmit descriptor). -/
def Machine.TxDesc.wf (d : TxDesc) : Bool :=
  decide (d.len < 2 ^ 15 ∧ d.tsId < 2 ^ 16 ∧ d.tc < 8 ∧ d.color < 4 ∧ d.queue < 2 ^ 18)

/-- Access sizes of R46 that a bus has; TWI transfers of at most 64 octets (spec/03); 51-bit superframe counts; the fields
of an allocation structure and of a GEM header (spec/04); PLOAM messages of 48 octets (R109); 64-bit serial numbers; 16-bit
tokens (spec/06); engine accesses of at most 64 octets. -/
def Instr.wf : Instr → Bool
  | .registerWrite _ _ size _ => size == 1 || size == 2 || size == 4 || size == 8
  | .accessWakeReturn .. => true
  | .counterLoRead .. => true
  | .counterHiRead .. => true
  | .counterClear .. => true
  | .intSet .. => true
  | .intEoi .. => true
  | .tableRead .. => true
  | .tableWrite .. => true
  | .tableCommit .. => true
  | .tableCmdComplete .. => true
  | .functionEnable .. => true
  | .functionDisable .. => true
  | .startConditionMet .. => true
  | .stopFlushComplete .. => true
  | .domainSoftReset .. => true
  | .softResetComplete .. => true
  | .chipReset .. => true
  | .pornAssert => true
  | .pornRelease .. => true
  | .vinUvloFall => true
  | .vinGood .. => true
  | .clockLoss .. => true
  | .clockRecover .. => true
  | .cdrLockAcquired .. => true
  | .cdrUnlock .. => true
  | .adaptStep .. => true
  | .rxBoundsWrite .. => true
  | .losCfgWrite .. => true
  | .losSourceChange .. => true
  | .losDeclare .. => true
  | .losClear .. => true
  | .moduleRemoved .. => true
  | .moduleInserted .. => true
  | .burstLaunch .. => true
  | .burstEnd .. => true
  | .guardOutsideWindow .. => true
  | .guardTooLong .. => true
  | .guardPadMismatch .. => true
  | .twiCommand .. => true
  | .twiDone _ _ data => decide (data.length ≤ 64)
  | .twiRecover .. => true
  | .twiMonitorPoll _ _ data => decide (data.length ≤ 64)
  | .prbsClear .. => true
  | .prbsCheckerLock .. => true
  | .prbsLockLoss .. => true
  | .testBurstLaunch .. => true
  | .psyncMatch _ _ sfc _ => decide (sfc < 2 ^ 51)
  | .candidateStale .. => true
  | .framePosition _ _ _ sfc _ => decide (sfc < 2 ^ 51)
  | .resync .. => true
  | .codewordDecoded .. => true
  | .hlendRx .. => true
  | .allocationStructure _ _ id start size _ _ _ _ _ => decide (id < 2 ^ 14 ∧ start.getD 0 < 2 ^ 16 ∧ size < 2 ^ 16)
  | .ploamMessageRx _ onu msg _ => decide (onu < 1024) && msg.length == 48
  | .ploamPop .. => true
  | .heDisableOnu _ serial => decide (serial < 2 ^ 64)
  | .heEnableOnu _ serial => decide (serial < 2 ^ 64)
  | .heDisableAll .. => true
  | .heEnableAll .. => true
  | .gemFrameRx _ _ pli _ port _ _ _ _ _ _ => decide (pli < 2 ^ 14 ∧ port < 2 ^ 16)
  | .enterO4 .. => true
  | .enterO5 .. => true
  | .deactivate .. => true
  | .restart .. => true
  | .serialNumberAdvance .. => true
  | .to1Expire .. => true
  | .to2Expire .. => true
  | .testHoldWrite .. => true
  | .ploamPush .. => true
  | .eqdWrite .. => true
  | .assemblyCutoff .. => true
  | .laEstimateUpdate => true
  | .upstreamSelect .. => true
  | .keySwitchArm .. => true
  | .wsAllowedWrite .. => true
  | .awareToWatch .. => true
  | .watchIntervalStart .. => true
  | .watchIntervalEnd .. => true
  | .watchSyncTimeout .. => true
  | .bondedFrameRx .. => true
  | .reorderTimeout .. => true
  | .joinAckRx _ _ token => decide (token < 2 ^ 16)
  | .leaveRx _ _ _ token => decide (token < 2 ^ 16)
  | .leaveAckRx _ _ token => decide (token < 2 ^ 16)
  | .joinRetryExpire .. => true
  | .joinRetry .. => true
  | .rejoinHoldExpire .. => true
  | .leaveFlushDrained .. => true
  | .leaveTimeoutExpire .. => true
  | .shedEvaluate .. => true
  | .inputFifoArrival .. => true
  | .pipelineInputGrant .. => true
  | .contextReadReturn .. => true
  | .taskAccepted .. => true
  | .epochSwap .. => true
  | .epochDrainComplete => true
  | .ctxUpdate .. => true
  | .ctxRead .. => true
  | .ctxInval .. => true
  | .ctxCmdDone => true
  | .ageSweep => true
  | .spreadRrTimeout .. => true
  | .meterStatWrite .. => true
  | .queueFlush .. => true
  | .queueFlushDone => true
  | .spillMove .. => true
  | .refillMove .. => true
  | .dramInit .. => true
  | .dramUp => true
  | .dramRetrain .. => true
  | .dramRetrainComplete .. => true
  | .dramRetire .. => true
  | .dramPageCopyDone .. => true
  | .dramRelocationDone .. => true
  | .dramUncorrError .. => true
  | .refreshAdjust .. => true
  | .dsSelect => true
  | .clearDebt .. => true
  | .pcsLockAcquire .. => true
  | .pcsLockLoss .. => true
  | .polarityFlip .. => true
  | .mdioWrite .. => true
  | .mdioRead .. => true
  | .mdioAddress .. => true
  | .mdioReadIncrement .. => true
  | .mdioDone .. => true
  | .mdioPollRound .. => true
  | .mdioPollFrameDone .. => true
  | .spikeletFrameRx .. => true
  | .macFrameRx .. => true
  | .macsecIcvFail .. => true
  | .pfcFrameRx .. => true
  | .pfcPauseExpire .. => true
  | .pfcRefresh .. => true
  | .lpiEnter .. => true
  | .lpiWakeDone .. => true
  | .rateDownEval .. => true
  | .rateStepPhyWritten .. => true
  | .rateStepLocked .. => true
  | .rateStepTimeout .. => true
  | .recalGo .. => true
  | .recalPeriodExpire .. => true
  | .recalDone .. => true
  | .energyDetect .. => true
  | .containerRx .. => true
  | .slotFrameBoundary => true
  | .framePlayout .. => true
  | .slotPacketRx .. => true
  | .pageScanDone .. => true
  | .pageRetire .. => true
  | .pswClear .. => true
  | .pswLockout .. => true
  | .pswForceWork .. => true
  | .pswForceProt .. => true
  | .pswManualWork .. => true
  | .pswManualProt .. => true
  | .pswHoldoffExpire .. => true
  | .pswWtrExpire .. => true
  | .timeSet .. => true
  | .timeAdd .. => true
  | .timeReadLatch .. => true
  | .todArm .. => true
  | .todUpdate => true
  | .timSourceWrite .. => true
  | .freqMeasurement .. => true
  | .ppsPulse => true
  | .edgeCapture .. => true
  | .capturePop .. => true
  | .tsQueuePop .. => true
  | .slotFire .. => true
  | .gateConfigChange .. => true
  | .gateListStart .. => true
  | .gateEntryAdvance .. => true
  | .tillerTick .. => true
  | .delayDue .. => true
  | .taskDispatch .. => true
  | .emit .. => true
  | .emitCopy .. => true
  | .drop .. => true
  | .new .. => true
  | .post .. => true
  | .cancel .. => true
  | .endTask .. => true
  | .engineFault .. => true
  | .clusterDrainDone .. => true
  | .throttleStep .. => true
  | .perfCounterWrap .. => true
  | .gleanerSample .. => true
  | .wdogKick .. => true
  | .wdogWarn .. => true
  | .wdogExpire .. => true
  | .pcieFunctionReset => true
  | .perstAssert => true
  | .ringTailWrite .. => true
  | .txRingFetch _ ds _ => ds.all TxDesc.wf
  | .ringIntTimer .. => true
  | .ringIntAck .. => true
  | .mbxSend .. => true
  | .mbxPop .. => true
  | .mbxEmptyStatusRead .. => true
  | .dbSet .. => true
  | .lockAcquire .. => true
  | .lockRelease .. => true
  | .lockBreak .. => true
  | .uartDataWrite .. => true
  | .uartDataRead .. => true
  | .uartByteRx .. => true
  | .imageVerifyDone .. => true
  | .recordWrite => true
  | .recordWait => true
  | .recordWaitDone => true
  | .recordDelay => true
  | .recordTable => true
  | .recordSections => true
  | .handoff => true
  | .confirm .. => true
  | .pcieLoadWord .. => true
  | .xmodemBlockRx .. => true
  | .recoveryTimeout => true
  | .getId .. => true
  | .attest .. => true
  | .measExtend .. => true
  | .revoke .. => true
  | .advanceSvn .. => true
  | .setProduction .. => true
  | .hskCmdDone => true
  | .hskRngRead .. => true
  | .rngHealthFail => true
  | .rngRecover => true
  | .cveGenerate .. => true
  | .cveVerify .. => true
  | .cveDerive .. => true
  | .cveDone => true
  | .zeroise .. => true
  | .zeroiseDone => true
  | .twnActInChange .. => true
  | .claimHoldExpire => true
  | .contentionWindowEnd => true
  | .handover .. => true
  | .handoverReqRx => true
  | .handoverAckRx => true
  | .yieldRx => true
  | .handoverAckTimeout => true
  | .handoverDrainExpire => true
  | .handoverPortsOff => true
  | .heartbeatTx => true
  | .heartbeatRx .. => true
  | .heartbeatMiss => true
  | .twinTrainComplete .. => true
  | .twinIdleEntry => true
  | .portFrameRx .. => true
  | .dsPortRx .. => true
  | .usQueueRx .. => true
  | .mirrorRx .. => true
  | .mailboxRx .. => true
  | .mbxResultRx .. => true
  | .mbxResendTimer .. => true
  | .slotDsRx .. => true
  | .slotUsRx .. => true
  | .mirrorSweep .. => true
  | .revertHoldExpire => true
  | .clearRedirect .. => true
  | .stateRequest .. => true
  | .domainAgree => true
  | .entryTimeout => true
  | .wakeSourceFire .. => true
  | .wakeTimerExpire => true
  | .domainRestartNext => true
  | .trimMaskWrite .. => true
  | .domOffWrite .. => true
  | .avsStep .. => true
  | .thermalSample .. => true
  | .thermalRecover => true
  | .gpioChange .. => true
  | .alarmSample => true
  | .alarmMaskWrite .. => true
  | .logPop .. => true
  | .historyWriteDone .. => true
  | .bwWindowEnd .. => true
  | .autonegComplete .. => true
  | .lpiRxChange .. => true
  | .perstRelease => true
  | .pcieLinkUp => true
  | .pcieLinkDown => true
  | .twinLinkRetrain => true
  | .twinLaneFault .. => true
  | .handoverClaimTimeout => true
  | .twinFrameTx => true
  | .redirectServe => true
  | .vkeepLoss => true
  | .vkeepReturn => true
  | .uartByteSent => true
  | .crossingFifoError .. => true
  | .aonWriteArrive => true
  | .flushOnchipRelease => true
  | .engineDataAccess _ _ _ _ w => decide ((w.getD []).length ≤ 64)

end Sys2Proof
end

