-- ==== Sys2Proof/Tests/Slice0.lean ====
section
/-!
SUPPORT. Own tests: ill-formed commands are refused; commands on small states give what the spec's tables and examples
give; and for every statement with hypotheses a state and operands that meet them together.
-/
set_option Elab.async false
set_option linter.unreachableTactic false
set_option linter.unusedTactic false
set_option linter.unusedVariables false
set_option linter.unnecessarySeqFocus false

namespace Sys2Proof.Tests
open Sys2Proof.Machine Sys2Proof.Claims

/-- The state after reset with some register fields set. -/
def mk (l : List (FRef × Nat)) : State := { hw := l.foldl (fun h p => h.wr p.1 p.2) {} }

/-- A channel with one data burst staged, whose grant still has room, and a packet queued under its node. -/
def mkStage : State := { hw := { ((mk [(TRK_PMA_STATUS.STATE 0, 2), (TRK_PMA_CTRL.TX_ALLOW 0, 1), (TRK_PMA_STATUS.MOD_ABS 0, 0),
    (TRK_ACT_STATUS.ACT_STATE 0, 5)]).hw.ts (US_GEM.VALID 0 0) 1 |>.ts (nodeVALID 7 0) 1 |>.ts (nodeVALID 8 0) 1
    |>.ts (nodeVALID 9 0) 1 |>.ts (nodeVALID 10 0) 1) with
  grn := { queues := [(0, { pkts := [{ pkt := { bytes := List.replicate 64 0 } }] })] }
  trk := { act := [(0, { bursts := [{ kind := .data, staged := true, grants := [{ room := 200, limit := [(0, 64)] }] }] })] } } }

/-- The burst being filled there. -/
def stagedBurst : Burst := { kind := .data, staged := true, grants := [{ room := 200, limit := [(0, 64)] }] }

/-- A queue of port 0 with a packet, on a path of valid nodes with credit, and the port up. -/
def mkSel : State := { hw := { ((mk [(SUB_PORT_STATUS.STATE 0, 2), (SUB_PORT_STATUS.LINK 0, 1)]).hw.ts (nodeVALID 3 0) 1 |>.ts (nodeVALID 4 0) 1
    |>.ts (nodeVALID 5 0) 1 |>.ts (nodeVALID 6 0) 1) with
  grn := { queues := [(65536, { pkts := [{ pkt := { bytes := List.replicate 64 0 } }] })] } } }

/-- A container of channel 0 with number 0 and one octet. -/
def mkCont : Bytes :=
  let head : Bytes := [1, 0, 0, 0, 0, 1]
  head ++ beBytes 2 (contCrc head) ++ List.replicate 34 0

/-- Channel 0 in sync as the source of time, an update armed. -/
def mkSync : State := mk [(TIM_TOD_ARM.ARM, 1), (TIM_CTRL.SRC_EN, 1), (TRK_DLN_STATUS.SYNC_STATE 0, 2)]

/-- Husk has an image with one record of these words in hand. -/
def mkRec (l : List Nat) : State :=
  let img : Bytes := zeros 0x28 ++ leBytes 4 256 ++ leBytes 4 1 ++ zeros (256 - 0x30) ++ (l.map (leBytes 4)).flatten ++ zeros 32
  { hw := { (mk [(GLB_CLK_STATUS.SYS_OK, 1)]).hw with hsk := { ({} : HskSt) with phase := .apply, image := img } } }

/-- Husk after HANDOFF, its arguments the first address of the window, some of which is backed. -/
def mkHsk : State := { hw := (((mk [(HSK_STATUS.HANDOFF, 1), (HSK_STATUS.RNG_OK, 1), (GRN_DRAM_CFG.SHARED, 1), (GRN_DRAM_CFG.DRAM_UP, 1)]).hw.setWord (HSK_ARG.A 1) 0x10#32).setWord
  (HSK_ARG.A 2) 0x10#32) }

/-- After HANDOFF's release the control cores run. -/
def cored (h : Hw) : Hw := { h with hsk := { h.hsk with cores := some 0 } }

/-- Core 0 holds LOCK_CVE, key 0 is valid, and the message is in the buffer. -/
def mkCve : State := { hw := cored ((mk [(CVE_CTRL.TAG_LEN, 16), (CVE_CTRL.SRC_BUF, 1)]).hw.setWord (HW_LOCK.A 0) (BitVec.ofNat 32 (2 + (Master.core 0).id * 256))
  |>.ts (CVE_KEY.VALID 0) 1 |>.ts (CVE_KEY.KEY_LEN 0) 16) }

/-- AON holds `v` in its register at `a`. -/
def enabled (a : Nat) (v : Word) : AonSt := { arrived := ({} : AonSt).arrived.set (resetWord a) a v }

/-- The word at `a` after reset with fields written. -/
def setW (a : Nat) (l : List (FRef × Nat)) : Word := l.foldl (fun w p => setField w p.1.lo p.1.width p.2) (resetWord a)

/-! ## Ill-formed commands are refused, well-formed ones are not -/

theorem test_wf_access_size : (Instr.registerWrite .host 0x100 3 .read).wf = false ∧ (Instr.registerWrite .host 0x101 2 .read).wf = true := by
  decide
theorem test_wf_two_wire : (Instr.twiDone 0 0 (List.replicate 65 0)).wf = false ∧ (Instr.twiMonitorPoll 0 (some 0) (List.replicate 65 0)).wf = false ∧
    (Instr.twiDone 0 0 (List.replicate 64 0)).wf = true := by decide
theorem test_wf_superframe_count : (Instr.framePosition 0 0 .ok (2 ^ 51) .ok).wf = false ∧ (Instr.framePosition 0 0 .ok (2 ^ 51 - 1) .ok).wf = true := by
  decide
theorem test_wf_allocation : (Instr.allocationStructure 0 .ok (2 ^ 14) none 0 0 false false false false).wf = false ∧
    (Instr.allocationStructure 0 .ok 0 (some (2 ^ 16)) 0 0 false false false false).wf = false ∧
    (Instr.allocationStructure 0 .ok 0 none (2 ^ 16) 0 false false false false).wf = false ∧
    (Instr.allocationStructure 0 .ok 1130 (some 8800) 300 0 false false false false).wf = true := by decide
theorem test_wf_ploam : (Instr.ploamMessageRx 0 1024 (List.replicate 48 0) false).wf = false ∧
    (Instr.ploamMessageRx 0 1023 (List.replicate 47 0) false).wf = false ∧
    (Instr.ploamMessageRx 0 1023 (List.replicate 48 0) false).wf = true := by decide
theorem test_wf_serial : (Instr.heDisableOnu 0 (2 ^ 64)).wf = false ∧ (Instr.heEnableOnu 0 (2 ^ 64)).wf = false ∧
    (Instr.heDisableOnu 0 (2 ^ 64 - 1)).wf = true := by decide
theorem test_wf_gem : (Instr.gemFrameRx 0 .ok (2 ^ 14) 0 0 true false false 0 0 []).wf = false ∧
    (Instr.gemFrameRx 0 .ok 0 0 (2 ^ 16) true false false 0 0 []).wf = false ∧
    (Instr.gemFrameRx 0 .ok 0 0 7 true false false 0 0 []).wf = true := by decide
theorem test_wf_token : (Instr.joinAckRx 0 0 (2 ^ 16)).wf = false ∧ (Instr.leaveRx 0 0 0 (2 ^ 16)).wf = false ∧
    (Instr.leaveAckRx 0 0 (2 ^ 16)).wf = false ∧ (Instr.joinAckRx 0 0 5).wf = true := by decide
theorem test_wf_descriptor : (Instr.txRingFetch 0 [({ len := 2 ^ 15 } : TxDesc)] false).wf = false ∧
    (Instr.txRingFetch 0 [({ queue := 2 ^ 18 } : TxDesc)] false).wf = false ∧
    (Instr.txRingFetch 0 [({ len := 64, sop := true, eop := true } : TxDesc)] false).wf = true := by decide
theorem test_wf_engine_data : (Instr.engineDataAccess 0 0 0 0 (some (List.replicate 65 0))).wf = false ∧
    (Instr.engineDataAccess 0 0 0 64 none).wf = true := by decide

/-! ## The spec's own examples -/

/-- spec/00, "Locating a port": the block of port 203. -/
theorem test_port_203 : Blk.base (.sub 203) = 0x040CB000 := by decide
/-- spec/11, "A Spikelet-8 lane": the CRC-8 of the tag 0xA6. -/
theorem test_spikelet_tag : crc8 [0xA6] = 0x7B := by decide
/-- The CRC-32 of "123456789" and its CRC-32C (their check values). -/
theorem test_crc : crc32 [0x31, 0x32, 0x33, 0x34, 0x35, 0x36, 0x37, 0x38, 0x39] = 0xCBF43926 ∧
    crc32c [0x31, 0x32, 0x33, 0x34, 0x35, 0x36, 0x37, 0x38, 0x39] = 0xE3069283 := by decide +kernel
/-- spec/09, "A colour-aware trTCM", steps 1 and 2: refills and colours. -/
theorem test_trtcm : let m1 : Meter := { c := { credit := 462 * 256 }, e := { credit := 4462 * 256 } }
    let m2 := m1.refill 2 12500 25000 10000 20000 20000
    (({ c := { credit := 2000 * 256 }, e := { credit := 6000 * 256 } } : Meter).decide 2 0 (1538 * 256)) = (0, m1) ∧
    m2.c.credit = 712 * 256 ∧ m2.e.credit = 4962 * 256 ∧ (m2.decide 2 0 (1538 * 256)).1 = 1 ∧
    (m2.decide 2 0 (1538 * 256)).2.e.credit = 3424 * 256 := by decide
/-- spec/13, "An update accepted": D is 182,500.150 ns. -/
theorem test_tod_delay : (mk [(TIM_TEQD.TEQD, 24883200), (TRK_EQD_ACTIVE.EQD 0, 4976640), (TIM_RATIO.RATIO, 0x8000),
    (TIM_ASYM.ASYM, 150)]).hw.todDelay = 182500 * 2 ^ 32 + 150 * 2 ^ 32 / 1000 := by decide +kernel
/-- spec/02, "A port re-enabled while it stops", step 2. -/
theorem test_restart_pending : ∃ t, exec (.functionEnable .jtag (.port 203) (some 1#32)) (mk [(SUB_PORT_STATUS.STATE 203, 3)]) = .next t ∧
    t.hw.rd (SUB_PORT_STATUS.STATE 203) = 3 ∧ t.hw.rd (Fn.port 203).RP = 1 := ⟨_, rfl, by decide +kernel⟩

/-! ## One command each -/

/-- A kick needs the key 0x4B1C (R388). -/
theorem test_kick_key : ∃ t, exec (.wdogKick .jtag 0x4B1D#32) { hw := { clk := 5 } } = .next t ∧ t.hw.ctl.kick = 0 := ⟨_, rfl, by decide +kernel⟩
/-- A write of 1 to a W1C status bit clears that bit alone (R16). -/
theorem test_w1c : ∃ t, exec (.registerWrite .jtag 0x7000000 4 (.write 0x100#32)) (mk [(⟨0x7000000, 8, 2⟩, 3)]) = .next t ∧
    t.hw.word 0x7000000 = 0x200#32 := ⟨_, rfl, by decide +kernel⟩
/-- A narrow access reads 0 and is captured as an ALIGN error of core 2 (R46). -/
theorem test_narrow : ∃ t, exec (.registerWrite (.core 2) 0x100 2 .read) { hw := { hsk := { cores := some 0 } } } = .next t ∧ t.hw.rdata = 0#32 ∧
    t.hw.word GLB_BUS_ERR_INFO.A = 0x80000202#32 := ⟨_, rfl, by decide +kernel⟩
/-- The word stored in the window lies lowest octet first (R45). -/
theorem test_store : ∃ t, exec (.registerWrite .jtag 0x1000000010 4 (.write 0x04030201#32)) {} = .next t ∧
    t.mem = [(16, 1), (17, 2), (18, 3), (19, 4)] := ⟨_, rfl, by decide +kernel⟩

/-! ## What meets the hypotheses of the statements -/

theorem meets_TickAdvancesTheLocalClock : (({} : State).pending = [] ∧ ({} : State).hw.timRuns = true ∧ ({} : Hw).rd PWR_STATE_STATUS.BUSY ≠ 1 ∧
    ({} : Hw).powerState ≠ 3 ∧ ({} : Hw).pwr.todo = [] ∧ ({} : Hw).pwr.trimDue = [] ∧ ({} : Hw).offDue = [] ∧ ({} : State).hw.tim.now.ns < 1000000000 ∧
    ({} : State).hw.tim.now.frac < 2 ^ 32 ∧ ({} : State).hw.tim.now.sec < 2 ^ 48) := by decide +kernel
/-- The carries and the wrap of the seconds at the top of the range. -/
theorem test_clock_wraps : ({ sec := 2 ^ 48 - 1, ns := 999999999, frac := 2 ^ 32 - 1 } : LTime).next 1 = { sec := 0, ns := 4, frac := 0 } := by
  decide

theorem meets_EveryStepGoesOn : ({} : State).Sound := by decide

theorem meets_NoCommandTouchesTheQueue : ∃ t, exec .wdogWarn {} = .next t := ⟨_, rfl⟩

/-- A reserved address; the twin peer's access beyond the register map; the window to the host. -/
theorem meets_AccessErrorsReadZeroAndWriteNothing : rowAt 0x0FFFFFFC = none ∧ ({} : Hw).reservedFor (.core 0) 0x6002000 true = true ∧
    ({} : Hw).accessError (.core 0) 0x0FFFFFFC 4 true = 2 ∧ ({} : Hw).accessError .host 0x1000000000 4 false = 2 ∧
    ({} : Hw).accessError (.core 0) 0xFFFFFFFFC 4 false = 2 := by decide +kernel
/-- The narrow access, domain SLT off, a secure register, and the window with no memory installed. -/
theorem meets_AccessErrorsReadZeroAndWriteNothing_codes : ({} : Hw).accessError (.core 0) 0x102 4 true = 1 ∧ ({} : Hw).accessError (.core 0) 0x104 2 true = 1 ∧
    (rowAt 0x4800000 ≠ none ∧ (mk [(⟨PWR_DOM_STATE.A 1, 22, 2⟩, 2)]).hw.domOff 0x4800000 = true) ∧
    (rowAt GLB_CHIP_RESET.A ≠ none ∧ ({} : Hw).domOff GLB_CHIP_RESET.A = false ∧ secureAddr GLB_CHIP_RESET.A = true ∧
      (mk [(HSK_STATUS.LIFECYCLE, 2)]).hw.secure .jtag = false) ∧
    ({} : Hw).extBytes ≤ extBase + 0x40000000 - extBase := by decide +kernel
/-- A command whose access is refused, and one REGISTER_WRITE. -/
theorem meets_AccessErrorsReadZeroAndWriteNothing_commands : accessOf (.wdogKick .twin 0#32) = some (.twin, CTL_WDOG_KICK.A, true) ∧ ({} : Hw).deaf .twin = false ∧
    accessOf (.chipReset .twin 0#32) = some (.twin, GLB_CHIP_RESET.A, true) ∧
    (({} : Hw).counted .twin).accessError .twin GLB_CHIP_RESET.A 4 true = 3 + 1 ∧
    ({} : Hw).stages .twin 0x101 4 .read = false ∧ ({} : Hw).msixArea .twin 0x101 4 = false := by decide +kernel

/-- With no capture held, and with one. -/
theorem meets_AnAccessErrorChangesOnlyTheCapture : ∀ s ∈ [({} : State), mk [(GLB_BUS_ERR_INFO.VALID, 1)]],
    s.Quiet ∧ accessOf (.chipReset .twin 0#32) = some (.twin, GLB_CHIP_RESET.A, true) ∧ s.hw.deaf .twin = false ∧
      s.hw.accessError .twin GLB_CHIP_RESET.A 4 true = 3 + 1 ∧ ∃ t, exec (.chipReset .twin 0#32) s = .next t := by
  intro s hs
  refine ⟨?_, rfl, ?_, ?_, ⟨_, rfl⟩⟩ <;> revert s <;> decide +kernel

theorem meets_HiHalvesComeFromTheMastersLatch : ({} : Hw).admits .jtag 0x6001040 false ∧ isLo 0x6001040 = true ∧ ({} : Hw).perfClosed .jtag 0x6001040 = false ∧
    ({} : Hw).admits .jtag 0x6001044 false ∧ isHi 0x6001044 = true ∧ ({} : Hw).perfClosed .jtag 0x6001044 = false := by decide +kernel

theorem meets_WideCountersWrapAndClear : ({} : Hw).admits .jtag 0x6001040 true ∧ accOf 0x6001040 = .c64lo ∧ isCve 0x6001040 = false ∧
    aliasCloses .jtag 0x6001040 = false ∧ isHi 0x6001044 = true := by decide +kernel


theorem meets_PendingMeansStatusAndEnable : (mk [(⟨0x7000000, 8, 1⟩, 1)]).hw.rd ⟨0x7000000, 8, 1⟩ = 1 ∧
    (mk [(⟨0x7000000, 8, 1⟩, 1), (⟨0x7000004, 8, 1⟩, 1)]).hw.blkPending Blk.ctl.base = true ∧
    (mk [(⟨0x7000000, 8, 1⟩, 1), (⟨0x7000004, 8, 1⟩, 1)]).hw.summary 16 = true := by decide +kernel


theorem meets_EndOfInterruptSendsAgain : (mk [(⟨0, 0, 1⟩, 1), (⟨4, 0, 1⟩, 1), (GLB_INT_ROUTE.MSIX_EN 0, 1)]).Quiet ∧
    (mk [(⟨0, 0, 1⟩, 1), (⟨4, 0, 1⟩, 1), (GLB_INT_ROUTE.MSIX_EN 0, 1)]).hw.admits .jtag GLB_INT_EOI.A true := by
  decide +kernel

/-- A free lock, and a held one. -/
theorem meets_LocksAreGrantedToOneReader : ({} : Hw).admits (.engine 3) (HW_LOCK.A 63) false ∧ ({} : Hw).rd (HW_LOCK.HELD 63) = 0 ∧
    (mk [(HW_LOCK.HELD 0, 1)]).hw.admits (.engine 3) (HW_LOCK.A 0) false ∧
    ((mk [(HW_LOCK.HELD 0, 1)]).hw.reached (.engine 3) (HW_LOCK.A 0)).rd (HW_LOCK.HELD 0) = 1 := by decide +kernel
/-- Engine 1 (0x11) and core 2 read a lock whose pointer stands at 3: the engine wins. -/
theorem test_lock_winner : lockWinner 3 [2] 0x11 = 0x11 ∧ lockWinner 3 [0x11] 2 = 0x11 ∧ lockWinner 0x12 [0x11] 2 = 2 := by decide


/-- No valid channel; a receiver that is off; room. -/
theorem meets_APostStoresOnlyWithStatusOk : ({} : Hw).admits .jtag (MBX_SEND.A 0) false ∧ ({} : Hw).t (MBX_CFG.VALID 0) = 0 ∧
    (({} : Hw).ts (MBX_CFG.VALID 0) 1 |>.ts (MBX_CFG.TX_MASTER 0) 255 |>.ts (MBX_CFG.RX_DOM 0) 11).postStatus 0 0 = 0 ∧
    ((({} : Hw).ts (MBX_CFG.VALID 0) 1 |>.ts (MBX_CFG.TX_MASTER 0) 255 |>.ts (MBX_CFG.RX_DOM 0) 11).setCond 11 2).postStatus 0 0 = 2 := by
  decide +kernel


theorem meets_TheActionSelectsTheFlow : ({} : Hw).rd THR_CTX_BASE.CTX_EN = 0 ∧ (mk [(THR_CTX_BASE.CTX_EN, 1)]).hw.rd THR_CTX_BASE.CTX_EN = 1 ∧
    ∀ v ∈ [0, 1, 2], actF ((({} : Hw).ts (ACTION.FLOW_MODE 5) v).actEntry 5) (ACTION.FLOW_MODE 0) = v := by decide +kernel

/-- A full queue and an empty one. -/
theorem meets_AFullTimestampQueueKeepsItsEntries : ({} : Hw).cond 31 = 0 ∧ (({} : Hw).tim.tsq.get [] 0).length < 128 ∧
    128 ≤ (({ tim := { tsq := [(0, List.replicate 128 { id := 0, port := 0, sec := 0, ns := 0, frac := 0, notSent := false })] } } : Hw).tim.tsq.get [] 0).length := by
  decide +kernel


theorem meets_TxAllowFallsWithTheModule : (mk [(TRK_PMA_STATUS.MOD_ABS 3, 1)]).hw.admits .jtag (TRK_PMA_CTRL.A 3) true ∧
    ((mk [(TRK_PMA_STATUS.MOD_ABS 3, 1)]).hw.reached .jtag (TRK_PMA_CTRL.A 3)).rd (TRK_PMA_STATUS.MOD_ABS 3) = 1 ∧
    getField (0x12#32) 1 1 = 1 ∧ getField (0x12#32) 2 2 ≠ 3 ∧
    (mk [(TRK_PMA_STATUS.MOD_ABS 0, 0)]).hw.rd (TRK_PMA_STATUS.MOD_ABS 0) = 0 := by decide +kernel


theorem meets_StoresReachTheMemoryAlone : (mk [(GRN_DRAM_CFG.SHARED, 1)]).Quiet ∧ (mk [(GRN_DRAM_CFG.SHARED, 1)]).hw.admits .jtag 0x1000000004 true ∧
    (mk [(GRN_DRAM_CFG.SHARED, 1)]).hw.grn.lineLost 0 = false ∧ (mk [(GRN_DRAM_CFG.SHARED, 1)]).hw.admits .jtag 0x1000000004 false := by
  decide +kernel


theorem meets_FieldsFollowTheirAccessTypes : (⟨2, 2, .rw, false, 2, [(0, 2)]⟩ : FieldRow).accepts 2 = true ∧ (⟨2, 2, .rw, false, 2, [(0, 2)]⟩ : FieldRow).accepts 3 = false ∧
    (⟨31, 1, .w1c, false, 0, []⟩ : FieldRow).lo + (⟨31, 1, .w1c, false, 0, []⟩ : FieldRow).width ≤ 32 := by decide

theorem meets_AlarmsWaitForTheirSoak : ({} : Hw).alarmActive 4 2 = false ∧ ({} : Hw).pm.soak.get 0 (alarmIdx 4 2) = 0 ∧
    ((mk [(TRK_PMA_CTRL.ENABLE 2, 1), (TRK_PMA_STATUS.MOD_ABS 2, 1)]).hw.ts (ALARM_TYPE.RAISE_SOAK 4) 0).defect 4 2 = true := by decide +kernel
/-- With no soak the first sample raises TRK_MOD_ABS. -/
theorem test_alarm_without_soak : (((mk [(TRK_PMA_CTRL.ENABLE 2, 1), (TRK_PMA_STATUS.MOD_ABS 2, 1)]).hw.ts (ALARM_TYPE.RAISE_SOAK 4) 0).alarmSample 4 2).alarmActive 4 2
    = true := by decide +kernel


theorem meets_TheChipIdentifiesItself : ({} : Hw).admits .jtag GLB_CHIP_ID.A false ∧ (({} : Hw).reached .jtag GLB_CHIP_ID.A).word GLB_CHIP_ID.A = 0x45120A01#32 := by
  decide +kernel


theorem meets_LineEventsLeaveTheRestAlone : ({} : State).Quiet ∧ ({} : Hw).powerState ≠ 3 ∧ ({} : Hw).rd PWR_STATE_STATUS.BUSY ≠ 1 ∧
    (∃ t, exec (.moduleInserted 0) {} = .next t) ∧ ∃ t, exec (.energyDetect 0) {} = .next t :=
  ⟨by decide, by decide +kernel, by decide +kernel, ⟨_, rfl⟩, ⟨_, rfl⟩⟩


theorem meets_ControlEventsLeaveTheRestAlone : ({} : State).Quiet ∧ ({} : Hw).powerState ≠ 3 ∧ ({} : Hw).rd PWR_STATE_STATUS.BUSY ≠ 1 ∧ ({} : Hw).pwr.todo = [] ∧
    ({} : Hw).pwr.trimDue = [] ∧ (∃ t, exec .rngRecover {} = .next t) ∧ (∃ t, exec (.gpioChange 0 true) {} = .next t) ∧
    ∃ t, exec .aonWriteArrive {} = .next t :=
  ⟨by decide, by decide +kernel, by decide +kernel, rfl, rfl, ⟨_, rfl⟩, ⟨_, rfl⟩, ⟨_, rfl⟩⟩

theorem meets_alarmSample :
  let s : State := mk []
  let h := s.hw
  h.domRuns 2 = true := by
  dsimp only <;> decide +kernel

theorem meets_alarmMaskWrite :
  let m : Master := .jtag
  let s : State := mk []
  s.hw.admits m 0x9000048 true := by
  dsimp only <;> decide +kernel

theorem meets_alarmMaskWrite_type :
  let m : Master := .jtag
  let s : State := mk []
  s.hw.admits m 0x9000048 true := by
  dsimp only <;> decide +kernel

theorem meets_logPop :
  let m : Master := .jtag
  let v : Word := 0x200#32
  let s : State := mk []
  s.hw.admits m PM_LOG.A true ∧
  getField v 9 1 = 1 := by
  dsimp only <;> decide +kernel

theorem meets_historyWriteDone :
  let c : PmClose := { seq := 1, records := [] }
  let s : State := { hw := { (mk []).hw with pm := { ({} : PmSt) with close15 := some { seq := 1, records := [] } } } }
  let h := s.hw
  h.pm.close15 = some c := by
  dsimp only <;> decide +kernel

theorem meets_historyWriteDone_daily :
  let c : PmClose := { seq := 1, records := [] }
  let s : State := { hw := { (mk []).hw with pm := { ({} : PmSt) with close24 := some { seq := 1, records := [] } } } }
  let h := s.hw
  h.pm.close24 = some c := by
  dsimp only <;> decide +kernel

theorem meets_bwWindowEnd :
  let o : Fin 1540 := 0
  let s : State := { hw := (mk []).hw.ts (PM_OBJ.WIN_EN 0) 1 }
  let h := s.hw
  h.t (PM_OBJ.WIN_EN o) ≠ 0 := by
  dsimp only <;> decide +kernel

theorem meets_uartDataWrite :
  let m : Master := .jtag
  let s : State := mk [(HSK_STATUS.HANDOFF, 1)]
  let h := s.hw.reached m CTL_UART_DATA.A
  s.hw.admits m CTL_UART_DATA.A true ∧
  h.rd HSK_STATUS.HANDOFF ≠ 0 ∧
  h.ctl.uartTx.length < 64 ∧
  h.ctl.uartWait = [] := by
  dsimp only <;> decide +kernel

theorem meets_uartDataRead :
  let m : Master := .jtag
  let o : Byte := 7
  let t : Bytes := []
  let s : State := { hw := { ctl := { ({} : CtlSt) with uartRx := [7] } } }
  let h := s.hw.reached m CTL_UART_DATA.A
  s.hw.admits m CTL_UART_DATA.A false ∧
  h.ctl.uartRx = o :: t := by
  dsimp only <;> decide +kernel

theorem meets_uartDataRead_empty :
  let m : Master := .jtag
  let s : State := mk []
  let h := s.hw.reached m CTL_UART_DATA.A
  s.hw.admits m CTL_UART_DATA.A false ∧
  h.ctl.uartRx = [] := by
  dsimp only <;> decide +kernel

theorem meets_uartByteRx :
  let frameErr : Bool := 0
  let s : State := mk [(HSK_STATUS.HANDOFF, 1), (CTL_UART_CFG.ENABLE, 1)]
  let h := s.hw
  h.uartOn = true ∧
  frameErr = false ∧
  h.ctl.uartRx.length < 64 := by
  dsimp only <;> decide +kernel

theorem meets_uartByteRx_full :
  let frameErr : Bool := 0
  let s : State := { hw := { (mk [(HSK_STATUS.HANDOFF, 1), (CTL_UART_CFG.ENABLE, 1)]).hw with ctl := { ({} : CtlSt) with uartRx := List.replicate 64 0 } } }
  let h := s.hw
  h.uartOn = true ∧
  frameErr = false ∧
  64 ≤ h.ctl.uartRx.length := by
  dsimp only <;> decide +kernel

theorem meets_uartByteSent :
  let o : Byte := 7
  let t : Bytes := []
  let s : State := { hw := { (mk [(HSK_STATUS.HANDOFF, 1), (CTL_UART_CFG.ENABLE, 1)]).hw with ctl := { ({} : CtlSt) with uartTx := [7] } } }
  let h := s.hw
  h.uartOn = true ∧
  h.ctl.uartTx = o :: t := by
  dsimp only <;> decide +kernel

theorem meets_imageVerifyDone :
  let s : State := { hw := { (mk [(GLB_CLK_STATUS.SYS_OK, 1)]).hw with hsk := { ({} : HskSt) with phase := .boot } } }
  let h := s.hw
  h.booting .boot = true ∧
  (2 ≤ h.bootPath → h.hsk.load.isSome = true) := by
  dsimp only <;> decide +kernel

theorem meets_recordWrite :
  let s : State := mkRec [1, TIM_JUMP_LIMIT.A, 0xFFFFFFFF, 7]
  let h := s.hw
  let x := h.hsk.next
  h.booting .apply = true ∧
  x < imgRecs h.hsk.image ∧
  recordOp h.hsk.image x = 1 ∧
  h.recWord x 2 % 2 ^ 32 = 0xFFFFFFFF ∧
  h.accessError .husk (h.recWord x 1) 4 true = 0 := by
  dsimp only <;> decide +kernel

theorem meets_recordWait :
  let s : State := mkRec [0x102, TIM_JUMP_LIMIT.A, 0, 0]
  let h := s.hw
  let x := h.hsk.next
  h.booting .apply = true ∧
  x < imgRecs h.hsk.image ∧
  recordOp h.hsk.image x = 2 ∧
  h.accessError .husk (h.recWord x 1) 4 false = 0 := by
  dsimp only <;> decide +kernel

theorem meets_recordWaitDone :
  let s : State := { hw := { (mkRec [0x102, 0x5000050, 0, 0]).hw with hsk := { (mkRec [0x102, 0x5000050, 0, 0]).hw.hsk with wait := some true } } }
  let h := s.hw
  let x := h.hsk.next
  h.booting .apply = true ∧
  x < imgRecs h.hsk.image ∧
  recordOp h.hsk.image x = 2 ∧
  h.hsk.wait = some true := by
  dsimp only <;> decide +kernel

theorem meets_recordWaitDone_timeout :
  let s : State := { hw := { (mkRec [0x102, 0x5000050, 0, 0]).hw with hsk := { (mkRec [0x102, 0x5000050, 0, 0]).hw.hsk with wait := some false } } }
  let h := s.hw
  let x := h.hsk.next
  h.booting .apply = true ∧
  x < imgRecs h.hsk.image ∧
  recordOp h.hsk.image x = 2 ∧
  h.hsk.wait = some false := by
  dsimp only <;> decide +kernel

theorem meets_recordDelay :
  let s : State := mkRec [0x103, 0, 0, 0]
  let h := s.hw
  let x := h.hsk.next
  h.booting .apply = true ∧
  x < imgRecs h.hsk.image ∧
  recordOp h.hsk.image x = 3 := by
  dsimp only <;> decide +kernel

theorem meets_recordTable :
  let t : Nat × TabRow := (gateTable 0x5000000 1).getD (0, ⟨"", 0, 0, 0, .any, []⟩)
  let s : State := mkRec [0x104, 0x5000000, 1, 0]
  let h := s.hw
  let x := h.hsk.next
  let b := h.recWord x 1
  let g := (h.settle (b + 0x48)).gateFinish b
  h.booting .apply = true ∧
  x < imgRecs h.hsk.image ∧
  recordOp h.hsk.image x = 4 ∧
  h.accessError .husk (b + 0x48) 4 true = 0 ∧
  gateRegBase (b + 0x48) = some b ∧
  gateTable b (g.recWord x 2 % 256) = some t := by
  dsimp only <;> decide +kernel

theorem meets_recordSections :
  let s : State := mkRec [5, 0, 0, 0]
  let h := s.hw
  let x := h.hsk.next
  h.booting .apply = true ∧
  x < imgRecs h.hsk.image ∧
  recordOp h.hsk.image x = 5 := by
  dsimp only <;> decide +kernel

theorem meets_handoff :
  let s : State := { hw := { (mkRec [5, 0, 0, 0]).hw with hsk := { (mkRec [5, 0, 0, 0]).hw.hsk with next := 1 } } }
  let h := s.hw
  h.booting .apply = true ∧
  h.hsk.next = imgRecs h.hsk.image ∧
  h.runsNewer = false := by
  dsimp only <;> decide +kernel

theorem meets_handoff_newer :
  let s : State := { hw := { (mkRec [5, 0, 0, 0]).hw with hsk := { (mkRec [5, 0, 0, 0]).hw.hsk with next := 1, slot := 0, first := some 0, newer := some 0, image := ((mkRec [5, 0, 0, 0]).hw.hsk.image.set 0x10 9) } } }
  let h := s.hw
  h.booting .apply = true ∧
  h.hsk.next = imgRecs h.hsk.image ∧
  h.runsNewer = true ∧
  h.hsk.first = some h.hsk.slot ∧
  imgGen h.hsk.image ≠ h.rd HSK_CONF_GEN.CONF_GEN := by
  dsimp only <;> decide +kernel

theorem meets_confirm :
  let m : Master := .jtag
  let v : Word := 1#32
  let s : State := mk [(HSK_STATUS.HANDOFF, 1)]
  let h := s.hw.reached m HSK_BOOT_CTRL.A
  let g := h.plainWrite HSK_BOOT_CTRL.A v
  s.hw.admits m HSK_BOOT_CTRL.A true ∧
  getField v 0 1 = 1 ∧
  g.rd HSK_STATUS.HANDOFF ≠ 0 := by
  dsimp only <;> decide +kernel

theorem meets_pcieLoadWord :
  let s : State := { hw := { ((mk []).hw.wr GLB_STRAP.BOOT_SEL 2) with hsk := { ({} : HskSt) with phase := .boot } } }
  let h := s.hw
  h.deaf .host = false ∧
  h.hostLoad = true ∧
  h.hsk.load = none ∧
  h.hsk.phase = .boot := by
  dsimp only <;> decide +kernel

set_option maxRecDepth 100000 in
theorem meets_xmodemBlockRx :
  let bs : Bytes := [2, 1, 254] ++ List.replicate 1024 0 ++ beBytes 2 (crc16 (List.replicate 1024 0))
  let s : State := { hw := { ((mk [(GLB_CLK_STATUS.SYS_OK, 1)]).hw.wr GLB_STRAP.BOOT_SEL 3) with hsk := { ({} : HskSt) with phase := .boot } } }
  let h := s.hw
  h.recovering = true ∧
  bs.length = 1029 ∧
  byteAt bs 0 = 2 ∧
  byteAt bs 1 + byteAt bs 2 = 255 ∧
  crc16 ((bs.drop 3).take 1024) = beAt bs 1027 2 ∧
  byteAt bs 1 = (h.hsk.xmodem.length / 1024 + 1) % 256 := by
  dsimp only <;> decide +kernel

theorem meets_xmodemBlockRx_end :
  let bs : Bytes := [4]
  let s : State := { hw := { ((mk [(GLB_CLK_STATUS.SYS_OK, 1)]).hw.wr GLB_STRAP.BOOT_SEL 3) with hsk := { ({} : HskSt) with phase := .boot } } }
  let h := s.hw
  h.recovering = true ∧
  bs.head? = some 0x04#8 := by
  dsimp only <;> decide +kernel

theorem meets_recoveryTimeout :
  let s : State := { hw := { ((mk [(GLB_CLK_STATUS.SYS_OK, 1)]).hw.wr GLB_STRAP.BOOT_SEL 3) with hsk := { ({} : HskSt) with phase := .boot } } }
  let h := s.hw
  h.recovering = true := by
  dsimp only <;> decide +kernel

theorem meets_enterO4 :
  let m : Master := .jtag
  let c : Fin 4 := 0
  let v : Word := 0#32
  let s : State := mk [(TRK_PMA_STATUS.STATE 0, 2), (TRK_ACT_STATUS.ACT_STATE 0, 3), (TRK_ONU_ID.ONU_ID_VALID 0, 1)]
  let h := s.hw.reached m (TRK_ACT_CTRL.A c)
  let g := h.plainWrite (TRK_ACT_CTRL.A c) v
  s.hw.admits m (TRK_ACT_CTRL.A c) true ∧
  g.trkOn c = true ∧
  g.actState c = 3 ∧
  g.rd (TRK_ONU_ID.ONU_ID_VALID c) = 1 := by
  dsimp only <;> decide +kernel

theorem meets_enterO4_reject :
  let m : Master := .jtag
  let c : Fin 4 := 0
  let v : Word := 0#32
  let beaten : Bool := false
  let s : State := mk []
  let h := s.hw.reached m (TRK_ACT_CTRL.A c)
  let g := h.plainWrite (TRK_ACT_CTRL.A c) v
  s.hw.admits m (TRK_ACT_CTRL.A c) true ∧
  ¬(g.trkOn c = true ∧ g.actState c = 3 ∧ g.rd (TRK_ONU_ID.ONU_ID_VALID c) = 1 ∧ beaten = false) := by
  dsimp only <;> decide +kernel

theorem meets_enterO5 :
  let m : Master := .jtag
  let c : Fin 4 := 0
  let v : Word := 0#32
  let s : State := mk [(TRK_PMA_STATUS.STATE 0, 2), (TRK_ACT_STATUS.ACT_STATE 0, 4), (TRK_ACT_STATUS.EQD_VALID 0, 1)]
  let h := s.hw.reached m (TRK_ACT_CTRL.A c)
  let g := h.plainWrite (TRK_ACT_CTRL.A c) v
  s.hw.admits m (TRK_ACT_CTRL.A c) true ∧
  g.trkOn c = true ∧
  g.actState c = 4 ∧
  g.rd (TRK_ACT_STATUS.EQD_VALID c) = 1 := by
  dsimp only <;> decide +kernel

theorem meets_enterO5_reject :
  let m : Master := .jtag
  let c : Fin 4 := 0
  let v : Word := 0#32
  let beaten : Bool := false
  let s : State := mk []
  let h := s.hw.reached m (TRK_ACT_CTRL.A c)
  let g := h.plainWrite (TRK_ACT_CTRL.A c) v
  s.hw.admits m (TRK_ACT_CTRL.A c) true ∧
  ¬(g.trkOn c = true ∧ g.actState c = 4 ∧ g.rd (TRK_ACT_STATUS.EQD_VALID c) = 1 ∧ beaten = false) := by
  dsimp only <;> decide +kernel

theorem meets_deactivate :
  let m : Master := .jtag
  let c : Fin 4 := 0
  let v : Word := 0#32
  let s : State := mk [(TRK_PMA_STATUS.STATE 0, 2), (TRK_ACT_STATUS.ACT_STATE 0, 4)]
  let h := s.hw.reached m (TRK_ACT_CTRL.A c)
  let g := h.plainWrite (TRK_ACT_CTRL.A c) v
  s.hw.admits m (TRK_ACT_CTRL.A c) true ∧
  g.trkOn c = true ∧
  3 ≤ g.actState c ∧
  g.actState c ≤ 5 := by
  dsimp only <;> decide +kernel

theorem meets_deactivate_reject :
  let m : Master := .jtag
  let c : Fin 4 := 0
  let v : Word := 0#32
  let beaten : Bool := false
  let s : State := mk []
  let h := s.hw.reached m (TRK_ACT_CTRL.A c)
  let g := h.plainWrite (TRK_ACT_CTRL.A c) v
  s.hw.admits m (TRK_ACT_CTRL.A c) true ∧
  ¬(g.trkOn c = true ∧ (3 ≤ g.actState c ∧ g.actState c ≤ 5) ∧ beaten = false) := by
  dsimp only <;> decide +kernel

theorem meets_restart :
  let m : Master := .jtag
  let c : Fin 4 := 0
  let v : Word := 0#32
  let s : State := mk [(TRK_PMA_STATUS.STATE 0, 2), (TRK_ACT_STATUS.ACT_STATE 0, 4)]
  let h := s.hw.reached m (TRK_ACT_CTRL.A c)
  let g := h.plainWrite (TRK_ACT_CTRL.A c) v
  s.hw.admits m (TRK_ACT_CTRL.A c) true ∧
  g.trkOn c = true ∧
  g.actState c ≠ 7 := by
  dsimp only <;> decide +kernel

theorem meets_restart_reject :
  let m : Master := .jtag
  let c : Fin 4 := 0
  let v : Word := 0#32
  let beaten : Bool := false
  let s : State := mk []
  let h := s.hw.reached m (TRK_ACT_CTRL.A c)
  let g := h.plainWrite (TRK_ACT_CTRL.A c) v
  s.hw.admits m (TRK_ACT_CTRL.A c) true ∧
  ¬(g.trkOn c = true ∧ g.actState c ≠ 7 ∧ beaten = false) := by
  dsimp only <;> decide +kernel

theorem meets_serialNumberAdvance :
  let c : Fin 4 := 0
  let s : State := { hw := (mk [(TRK_PMA_STATUS.STATE 0, 2), (TRK_ACT_STATUS.ACT_STATE 0, 2), (TRK_ACT_CTRL.SN_EN 0, 1)]).hw.ts (BURST_PROFILE.VALID 0 0) 1 |>.ts (BURST_PROFILE.PRE_REPEAT 0 0) 4 |>.ts (BURST_PROFILE.PRE_LEN 0 0) 8 |>.ts (BURST_PROFILE.DELIM_LEN 0 0) 8 }
  let h := s.hw
  h.trkOn c = true ∧
  h.actState c = 2 ∧
  h.rd (TRK_ACT_CTRL.SN_EN c) = 1 ∧
  h.rd (TRK_ACT_CTRL.TEST_HOLD c) = 0 ∧
  (List.range 4).any (fun p => h.profileValid c p) = true := by
  dsimp only <;> decide +kernel

theorem meets_to1Expire :
  let c : Fin 4 := 0
  let s : State := mk [(TRK_PMA_STATUS.STATE 0, 2), (TRK_ACT_STATUS.ACT_STATE 0, 4), (TRK_ACT_STATUS.TO1_RUN 0, 1)]
  let h := s.hw
  h.trkOn c = true ∧
  h.actState c = 4 ∧
  h.rd (TRK_ACT_STATUS.TO1_RUN c) = 1 := by
  dsimp only <;> decide +kernel

theorem meets_to2Expire :
  let c : Fin 4 := 0
  let s : State := mk [(TRK_PMA_STATUS.STATE 0, 2), (TRK_ACT_STATUS.ACT_STATE 0, 6), (TRK_ACT_STATUS.TO2_RUN 0, 1)]
  let h := s.hw
  h.trkOn c = true ∧
  h.actState c = 6 ∧
  h.rd (TRK_ACT_STATUS.TO2_RUN c) = 1 := by
  dsimp only <;> decide +kernel

theorem meets_ploamPush :
  let m : Master := .jtag
  let c : Fin 4 := 0
  let v : Word := 0x100#32
  let s : State := mk []
  let h := s.hw.reached m (TRK_PLOAM_TX.A c)
  let g := h.plainWrite (TRK_PLOAM_TX.A c) v
  s.hw.admits m (TRK_PLOAM_TX.A c) true ∧
  getField v 8 1 = 1 ∧
  (g.act c).ploamTx.length < 8 := by
  dsimp only <;> decide +kernel

theorem meets_ploamPush_full :
  let m : Master := .jtag
  let c : Fin 4 := 0
  let v : Word := 0x100#32
  let s : State := { hw := { trk := { act := [(0, { ploamTx := List.replicate 8 [] })] } } }
  let h := s.hw.reached m (TRK_PLOAM_TX.A c)
  let g := h.plainWrite (TRK_PLOAM_TX.A c) v
  s.hw.admits m (TRK_PLOAM_TX.A c) true ∧
  getField v 8 1 = 1 ∧
  8 ≤ (g.act c).ploamTx.length := by
  dsimp only <;> decide +kernel

theorem meets_assemblyCutoff_ranging :
  let c : Fin 4 := 0
  let u : Burst := { kind := .ranging }
  let msg : Bytes := [1#8]
  let t : List Bytes := []
  let s : State := { hw := { (mk [(TRK_PMA_STATUS.STATE 0, 2), (TRK_PMA_CTRL.TX_ALLOW 0, 1), (TRK_PMA_STATUS.MOD_ABS 0, 0), (TRK_ACT_STATUS.ACT_STATE 0, 4), (TRK_DLN_STATUS.LODS 0, 0), (TRK_GUARD_CFG.MAX_BEN 0, 200)]).hw with trk := { act := [(0, { bursts := [{ kind := .ranging }], ploamTx := [[1#8]] })] } } }
  let h := s.hw
  (h.act c).bursts.find? (fun x => !x.staged) = some u ∧
  h.trkOn c = true ∧
  h.rd (TRK_DLN_STATUS.LODS c) ≠ 1 ∧
  h.txdisForced c = false ∧
  h.txdisState c = false ∧
  h.stateSends c .ranging = true ∧
  h.windowTooLong c u.tenthPs = false ∧
  u.kind = .ranging ∧
  (h.act c).ploamTx = msg :: t := by
  dsimp only <;> decide +kernel

theorem meets_assemblyCutoff :
  let c : Fin 4 := 0
  let u : Burst := { kind := .data }
  let s : State := { hw := { (mk [(TRK_PMA_STATUS.STATE 0, 2), (TRK_PMA_CTRL.TX_ALLOW 0, 1), (TRK_PMA_STATUS.MOD_ABS 0, 0), (TRK_ACT_STATUS.ACT_STATE 0, 5), (TRK_DLN_STATUS.LODS 0, 0), (TRK_GUARD_CFG.MAX_BEN 0, 200)]).hw with trk := { act := [(0, { bursts := [{ kind := .data }] })] } } }
  let h := s.hw
  (h.act c).bursts.find? (fun x => !x.staged) = some u ∧
  h.trkOn c = true ∧
  h.rd (TRK_DLN_STATUS.LODS c) ≠ 1 ∧
  h.txdisForced c = false ∧
  h.txdisState c = false ∧
  h.stateSends c .data = true ∧
  h.windowTooLong c u.tenthPs = false ∧
  u.kind = .data := by
  dsimp only <;> decide +kernel

theorem meets_assemblyCutoff_dark :
  let c : Fin 4 := 0
  let u : Burst := { kind := .data }
  let s : State := { hw := { (mk [(TRK_PMA_STATUS.STATE 0, 2), (TRK_DLN_STATUS.LODS 0, 0)]).hw with trk := { act := [(0, { bursts := [{ kind := .data }] })] } } }
  let h := s.hw
  (h.act c).bursts.find? (fun x => !x.staged) = some u ∧
  h.trkOn c = true ∧
  h.rd (TRK_DLN_STATUS.LODS c) ≠ 1 ∧
  h.txdisForced c = true := by
  dsimp only <;> decide +kernel

theorem meets_assemblyCutoff_state :
  let c : Fin 4 := 0
  let u : Burst := { kind := .data, grants := [{}] }
  let s : State := { hw := { (mk [(TRK_PMA_STATUS.STATE 0, 2), (TRK_PMA_CTRL.TX_ALLOW 0, 1), (TRK_PMA_STATUS.MOD_ABS 0, 0), (TRK_ACT_STATUS.ACT_STATE 0, 4), (TRK_DLN_STATUS.LODS 0, 0)]).hw with trk := { act := [(0, { bursts := [{ kind := .data, grants := [{}] }] })] } } }
  let h := s.hw
  (h.act c).bursts.find? (fun x => !x.staged) = some u ∧
  h.trkOn c = true ∧
  h.rd (TRK_DLN_STATUS.LODS c) ≠ 1 ∧
  h.txdisForced c = false ∧
  (h.txdisState c || !h.stateSends c u.kind) = true := by
  dsimp only <;> decide +kernel

theorem meets_upstreamSelect :
  let f : Fin 16 := 0
  let t : List Staging := []
  let x : Staging := ⟨0, 0⟩
  let g : Hw := (mkStage.hw.stageFrom ⟨0, 0⟩ ((mkStage.hw.burstAt ⟨0, 0⟩).grants.length - (mkStage.hw.burstAt ⟨0, 0⟩).cur)).getD {}
  let s : State := mkStage
  let h := s.hw
  h.stagings = x :: t ∧
  (h.stagings.filter (fun y => bitN f y.chan == 0)).findSome? (fun y => h.stageFrom y ((h.burstAt y).grants.length - (h.burstAt y).cur)) = some g := by
  dsimp only <;> decide +kernel

theorem meets_upstreamSelect_frame :
  let f : Fin 16 := 0
  let t : List Staging := []
  let x : Staging := ⟨0, 0⟩
  let g : Hw := ((mkStage.hw.selectTree false 0 ((mkStage.hw.grantHeads 0 stagedBurst.grant).filter (fun k => mkStage.hw.pathOk false k))).getD ({}, ⟨1, 0, 0, 0, 0, 0⟩)).1
  let k : Cand := ⟨0, 0, 0, 0, 0, 64⟩
  let p : Pkt := { bytes := List.replicate 64 0 }
  let s : State := mkStage
  let h := s.hw
  let j := h.trimGrant x
  let w := (j.burstAt x).grant
  let r := (g.take k.q).modGrant x (fun y => { y with framed := true })
  h.stagings = x :: t ∧
  bitN f x.chan = 0 ∧
  (h.burstAt x).cur < (h.burstAt x).grants.length ∧
  (h.burstAt x).grant.slot = false ∧
  h.placeContinuation x = none ∧
  h.placeMarker x = none ∧
  j.selectTree false w.node ((j.grantHeads x.chan w).filter (fun k => j.pathOk false k)) = some (g, k) ∧
  g.headPkt k.q = some p ∧
  r.t (US_GEM.VALID x.chan k.q) = 1 ∧
  r.memberOf x.chan (r.burstAt x).grant.allocIdx = none := by
  dsimp only <;> decide +kernel

theorem meets_upstreamSelect_idle :
  let f : Fin 16 := 0
  let t : List Staging := []
  let x : Staging := ⟨0, 0⟩
  let s : State := { hw := { mkStage.hw with trk := { act := [(0, { bursts := [{ kind := .data, staged := true, grants := [{}] }] })] } } }
  let h := s.hw
  let l := h.stagings.filter (fun y => bitN f y.chan == 0)
  l = x :: t ∧
  l.findSome? (fun y => h.stageFrom y ((h.burstAt y).grants.length - (h.burstAt y).cur)) = none := by
  dsimp only <;> decide +kernel

theorem meets_upstreamSelect_underrun :
  let t : List Staging := []
  let x : Staging := ⟨0, 0⟩
  let s : State := mkStage
  let h := s.hw
  h.stagings = x :: t := by
  dsimp only <;> decide +kernel

theorem meets_upstreamSelect_full :
  let f : Fin 16 := 1
  let t : List Staging := []
  let x : Staging := ⟨0, 0⟩
  let s : State := mkStage
  let h := s.hw
  h.stagings = x :: t ∧
  h.stagings.filter (fun y => bitN f y.chan == 0) = [] := by
  dsimp only <;> decide +kernel

theorem meets_keySwitchArm :
  let m : Master := .jtag
  let c : Fin 4 := 0
  let v : Word := 0x10#32
  let s : State := mk []
  let h := s.hw.reached m (TRK_KEY_SWITCH.A c)
  let g := ((h.plainWrite (TRK_KEY_SWITCH.A c) v).wr (TRK_KEY_SWITCH.ARM c) 1).modAct c (fun a => { a with keyLate := false, keyNow := false })
  s.hw.admits m (TRK_KEY_SWITCH.A c) true ∧
  getField v 4 1 = 1 ∧
  (g.val64 (TRK_KEY_SWITCH_SFC.A c) % 2 ^ 51 + 2 ^ 51 - g.sfc c) % 2 ^ 51 < 2 ^ 50 := by
  dsimp only <;> decide +kernel

theorem meets_keySwitchArm_late :
  let m : Master := .jtag
  let c : Fin 4 := 0
  let v : Word := 0x10#32
  let s : State := mk [(TRK_SFC.SFC_LO 0, 5)]
  let h := s.hw.reached m (TRK_KEY_SWITCH.A c)
  let g := ((h.plainWrite (TRK_KEY_SWITCH.A c) v).wr (TRK_KEY_SWITCH.ARM c) 1).modAct c (fun a => { a with keyLate := false, keyNow := false })
  s.hw.admits m (TRK_KEY_SWITCH.A c) true ∧
  getField v 4 1 = 1 ∧
  2 ^ 50 ≤ (g.val64 (TRK_KEY_SWITCH_SFC.A c) % 2 ^ 51 + 2 ^ 51 - g.sfc c) % 2 ^ 51 := by
  dsimp only <;> decide +kernel

theorem meets_wsAllowedWrite :
  let m : Master := .jtag
  let c : Fin 4 := 0
  let v : Word := 0x4#32
  let s : State := mk [(TRK_PMA_STATUS.STATE 0, 2), (TRK_ACT_STATUS.ACT_STATE 0, 5)]
  let h := s.hw.reached m (TRK_ACT_CTRL.A c)
  let g := (h.plainWrite (TRK_ACT_CTRL.A c) v).wr (TRK_ACT_CTRL.WS_ALLOWED c) (getField v 2 1)
  s.hw.admits m (TRK_ACT_CTRL.A c) true ∧
  g.trkOn c = true ∧
  g.actState c = 5 ∧
  getField v 2 1 = 1 ∧
  g.rd (TRK_ACT_STATUS.PM_STATE c) = 0 := by
  dsimp only <;> decide +kernel

theorem meets_wsAllowedWrite_wake :
  let m : Master := .jtag
  let c : Fin 4 := 0
  let v : Word := 0#32
  let s : State := mk [(TRK_PMA_STATUS.STATE 0, 2), (TRK_ACT_STATUS.ACT_STATE 0, 5), (TRK_ACT_STATUS.PM_STATE 0, 2)]
  let h := s.hw.reached m (TRK_ACT_CTRL.A c)
  let g := (h.plainWrite (TRK_ACT_CTRL.A c) v).wr (TRK_ACT_CTRL.WS_ALLOWED c) (getField v 2 1)
  s.hw.admits m (TRK_ACT_CTRL.A c) true ∧
  g.trkOn c = true ∧
  g.actState c = 5 ∧
  getField v 2 1 = 0 ∧
  (g.rd (TRK_ACT_STATUS.PM_STATE c) = 2 ∨ g.rd (TRK_ACT_STATUS.PM_STATE c) = 3) := by
  dsimp only <;> decide +kernel

theorem meets_awareToWatch :
  let c : Fin 4 := 0
  let s : State := mk [(TRK_ACT_STATUS.PM_STATE 0, 2)]
  let h := s.hw
  h.rd (TRK_ACT_STATUS.PM_STATE c) = 2 := by
  dsimp only <;> decide +kernel

theorem meets_watchIntervalStart :
  let c : Fin 4 := 0
  let s : State := { hw := { (mk [(TRK_ACT_STATUS.PM_STATE 0, 3)]).hw with trk := { act := [(0, { rxOn := false })] } } }
  let h := s.hw
  h.rd (TRK_ACT_STATUS.PM_STATE c) = 3 ∧
  (h.act c).rxOn = false := by
  dsimp only <;> decide +kernel

theorem meets_watchIntervalEnd :
  let c : Fin 4 := 0
  let s : State := mk [(TRK_ACT_STATUS.PM_STATE 0, 3)]
  let h := s.hw
  h.rd (TRK_ACT_STATUS.PM_STATE c) = 3 := by
  dsimp only <;> decide +kernel

theorem meets_watchSyncTimeout :
  let c : Fin 4 := 0
  let s : State := { hw := { trk := { act := [(0, { rxOn := true, resync := true })] } } }
  let h := s.hw
  (h.act c).resync = true ∧
  (h.act c).rxOn = true ∧
  h.inSync c = false := by
  dsimp only <;> decide +kernel

theorem meets_testHoldWrite :
  let m : Master := .jtag
  let c : Fin 4 := 0
  let v : Word := 0#32
  let s : State := mk []
  let h := s.hw.reached m (TRK_ACT_CTRL.A c)
  let g := h.plainWrite (TRK_ACT_CTRL.A c) v
  s.hw.admits m (TRK_ACT_CTRL.A c) true ∧
  g.actState c ≤ 2 := by
  dsimp only <;> decide +kernel

theorem meets_eqdWrite :
  let m : Master := .jtag
  let c : Fin 4 := 0
  let s : State := mk []
  s.hw.admits m (TRK_EQD.A c) true := by
  dsimp only <;> decide +kernel

theorem meets_inputFifoArrival :
  let pipe : Fin 2 := 1
  let p : Pkt := { bytes := [0], source := 5 }
  let s : State := mk []
  let h := s.hw
  let r := h.fifoPush pipe p
  feeds pipe p.source = true ∧
  r.2 = true := by
  dsimp only <;> decide +kernel

theorem meets_inputFifoArrival_full :
  let pipe : Fin 2 := 1
  let p : Pkt := { bytes := List.replicate 1 0, source := 0 }
  let s : State := { hw := { thr := { fifos := [(1024, [{ bytes := List.replicate 8192 0 }, { bytes := List.replicate 8192 0 }])] } } }
  let h := s.hw
  let r := h.fifoPush pipe p
  feeds pipe p.source = true ∧
  r.2 = false ∧
  p.source < 512 := by
  dsimp only <;> decide +kernel

theorem meets_inputFifoArrival_other :
  let pipe : Fin 2 := 0
  let p : Pkt := { bytes := [0], source := 513 }
  feeds pipe p.source = false := by
  dsimp only <;> decide +kernel

theorem meets_pipelineInputGrant :
  let pipe : Fin 2 := 0
  let src : Nat := 3
  let p : Pkt := { bytes := [1], source := 3 }
  let t : List Pkt := []
  let s : State := { hw := { thr := { fifos := [(3, [{ bytes := [1], source := 3 }])] } } }
  let h := s.hw
  h.pipeBusy pipe = false ∧
  h.grantSource pipe = some src ∧
  h.fifo pipe src = p :: t := by
  dsimp only <;> decide +kernel

theorem meets_contextReadReturn :
  let flow : Fin 1048576 := 0
  let err : Bool := 0
  let corr : Nat := 0
  let s : State := { hw := { thr := { parked := [{ pipe := 0, parse := {}, flow := 0, needs := true, pkt := { bytes := [] } }] } } }
  let h := s.hw
  let g := h.count (GRN_CNT.COUNT GRN_N.DRAM_CORR) corr
  h.thr.parked.any (fun w => w.needs && w.flow == flow.val) = true ∧
  err = false ∧
  g.poisoned (g.ctxAddr flow) 64 = false := by
  dsimp only <;> decide +kernel

theorem meets_contextReadReturn_err :
  let flow : Fin 1048576 := 0
  let err : Bool := true
  let s : State := { hw := { thr := { parked := [{ pipe := 0, parse := {}, flow := 0, needs := true, pkt := { bytes := [] } }] } } }
  let h := s.hw
  h.thr.parked.any (fun w => w.needs && w.flow == flow.val) = true ∧
  err = true := by
  dsimp only <;> decide +kernel

theorem meets_taskAccepted :
  let pipe : Fin 2 := 0
  let w : Waiting := { pipe := 0, parse := {}, pkt := { bytes := [] }, task := { desc := [], pkt := some { bytes := [] } } }
  let k : Pkt := { bytes := [] }
  let s : State := { hw := { thr := { held := [{ pipe := 0, parse := {}, pkt := { bytes := [] }, task := { desc := [], pkt := some { bytes := [] } } }] } } }
  let h := s.hw
  let g := { h with thr := { h.thr with held := h.thr.held.erase w } }
  h.thr.held.find? (fun w => w.pipe == pipe.val) = some w ∧
  w.deal = none ∧
  w.task.pkt = some k ∧
  (g.taskOffer w.task).2 = true := by
  dsimp only <;> decide +kernel

theorem meets_epochSwap :
  let m : Master := .jtag
  let v : Word := 1#32
  let s : State := mk []
  let h := s.hw.reached m THR_EPOCH_CTRL.A
  s.hw.admits m THR_EPOCH_CTRL.A true ∧
  getField v 0 1 = 1 ∧
  h.rd THR_EPOCH_STATUS.SWAP_COMPLETE = 1 := by
  dsimp only <;> decide +kernel

theorem meets_epochSwap_early :
  let m : Master := .jtag
  let v : Word := 1#32
  let s : State := mk [(THR_EPOCH_STATUS.SWAP_COMPLETE, 0)]
  let h := s.hw.reached m THR_EPOCH_CTRL.A
  s.hw.admits m THR_EPOCH_CTRL.A true ∧
  getField v 0 1 = 1 ∧
  h.rd THR_EPOCH_STATUS.SWAP_COMPLETE = 0 := by
  dsimp only <;> decide +kernel

theorem meets_epochDrainComplete :
  let s : State := mk [(THR_EPOCH_STATUS.SWAP_COMPLETE, 0)]
  let h := s.hw
  h.rd THR_EPOCH_STATUS.SWAP_COMPLETE = 0 ∧
  h.inFlight (h.rd THR_EPOCH_STATUS.OLD_EPOCH) = 0 := by
  dsimp only <;> decide +kernel

theorem meets_ctxUpdate :
  let m : Master := .jtag
  let v : Word := 0x80100000#32
  let s : State := mk [(THR_CTX_BASE.CTX_EN, 1)]
  let h := s.hw.reached m THR_CTX_UPDATE.A
  let g := h.ctxDone.fullWrite THR_CTX_UPDATE.A v
  s.hw.admits m THR_CTX_UPDATE.A true ∧
  getField v 31 1 = 1 ∧
  getField v 20 8 ≠ 0 ∧
  g.rd THR_CTX_BASE.CTX_EN ≠ 0 := by
  dsimp only <;> decide +kernel

theorem meets_ctxRead :
  let m : Master := .jtag
  let v : Word := 0x80000000#32
  let r : CtxRec := { flow := 0, words := [1] }
  let s : State := { hw := { (mk [(THR_CTX_BASE.CTX_EN, 1)]).hw with thr := { cache := [{ flow := 0, words := [1] }] } } }
  let h := s.hw.reached m THR_CTX_UPDATE.A
  let g := h.ctxDone.fullWrite THR_CTX_UPDATE.A v
  let f := getField v 0 20
  s.hw.admits m THR_CTX_UPDATE.A true ∧
  getField v 31 1 = 1 ∧
  getField v 20 8 = 0 ∧
  g.rd THR_CTX_BASE.CTX_EN ≠ 0 ∧
  g.ctxFind f = some r := by
  dsimp only <;> decide +kernel

theorem meets_ctxRead_memory :
  let m : Master := .jtag
  let v : Word := 0x80000000#32
  let s : State := mk [(THR_CTX_BASE.CTX_EN, 1)]
  let h := s.hw.reached m THR_CTX_UPDATE.A
  let g := h.ctxDone.fullWrite THR_CTX_UPDATE.A v
  let f := getField v 0 20
  s.hw.admits m THR_CTX_UPDATE.A true ∧
  getField v 31 1 = 1 ∧
  getField v 20 8 = 0 ∧
  g.rd THR_CTX_BASE.CTX_EN ≠ 0 ∧
  g.ctxFind f = none ∧
  g.poisoned (g.ctxAddr f) 64 = false := by
  dsimp only <;> decide +kernel

theorem meets_ctxInval :
  let m : Master := .jtag
  let v : Word := 0x80000000#32
  let r : CtxRec := { flow := 0, words := [1] }
  let s : State := { hw := { (mk [(THR_CTX_BASE.CTX_EN, 1)]).hw with thr := { cache := [{ flow := 0, words := [1] }] } } }
  let h := s.hw.reached m THR_CTX_INVAL.A
  let g := h.ctxDone.fullWrite THR_CTX_INVAL.A v
  let f := getField v 0 20
  s.hw.admits m THR_CTX_INVAL.A true ∧
  getField v 31 1 = 1 ∧
  g.rd THR_CTX_BASE.CTX_EN ≠ 0 ∧
  g.ctxFind f = some r := by
  dsimp only <;> decide +kernel

theorem meets_ctxCmdDone :
  let c : CtxCmd := { flow := 0 }
  let s : State := { hw := { thr := { ctxCmd := some { flow := 0 } } } }
  let h := s.hw
  h.thr.ctxCmd = some c := by
  dsimp only <;> decide +kernel

theorem meets_ageSweep :
  let s : State := mk [(THR_CLS_CFG.AGE_TIME, 3)]
  let h := s.hw
  h.rd THR_CLS_CFG.AGE_TIME ≠ 0 := by
  dsimp only <;> decide +kernel

theorem meets_spreadRrTimeout :
  let g : Fin 64 := 0
  let o : SpreadNum := { seq := 0 }
  let t : List SpreadNum := []
  let s : State := { hw := { thr := { spreads := [(0, { out := [{ seq := 0 }] })] } } }
  let h := s.hw
  (h.spread g).out = o :: t ∧
  o.done = false := by
  dsimp only <;> decide +kernel

theorem meets_throttleStep :
  let k : Fin 8 := 0
  let temp : BitVec 8 := 120#8
  let s : State := mk [(TIL_CL_THROT.THROT_TH 0, 100), (TIL_CL_THROT.THROT_MAX 0, 4), (TIL_CL_THROT.THROT_MIN 0, 0)]
  let h := s.hw
  let g := h.rd (TIL_CL_THROT.GATED k)
  Int.ofNat (h.rd (TIL_CL_THROT.THROT_TH k)) < temp.toInt ∧
  h.rd (TIL_CL_THROT.THROT_MIN k) ≤ g ∧
  g + 1 ≤ h.rd (TIL_CL_THROT.THROT_MAX k) := by
  dsimp only <;> decide +kernel

theorem meets_perfCounterWrap :
  let e : Fin 64 := 0
  let n : Fin 8 := 0
  let s : State := { hw := ((mk [(ENG_PERF_SEL.EVENT 0 0, 3)]).hw.setWord (ENG_PERF_CNT.A 0 0) 0xFFFFFFFF#32).setWord (ENG_PERF_CNT_HI.A 0 0) 0xFFFF#32 }
  let h := s.hw
  h.rd (ENG_PERF_SEL.EVENT e n) ≠ 0 ∧
  h.val64 (ENG_PERF_CNT.A e n) = 2 ^ 48 - 1 := by
  dsimp only <;> decide +kernel

theorem meets_gleanerSample :
  let e : Fin 64 := 0
  let s : State := { hw := { (mk [(TIL_GLN_CFG.EN 0, 1), (TIL_GLN_CFG.PERIOD 0, 1), (TIL_GLN_CFG.ENG_MASK 0, 255)]).hw with til := { engs := [(0, { run := some {} })] } } }
  let h := s.hw
  let k := e.val / 8
  let q : Hw := { h with til := { h.til with gleanCnt := h.til.gleanCnt.set 0 e 0 } }
  h.rd (TIL_GLN_CFG.EN k) ≠ 0 ∧
  bitN (h.rd (TIL_GLN_CFG.ENG_MASK k)) (e % 8) ≠ 0 ∧
  h.executing e = true ∧
  h.rd (TIL_GLN_CFG.PERIOD k) ≤ h.til.gleanCnt.get 0 e + 1 ∧
  (q.rd (TIL_GLN_STATUS.HELD k) ≠ 4096 ∨ q.rd (TIL_GLN_CFG.WRAP k) ≠ 0) := by
  dsimp only <;> decide +kernel

theorem meets_gleanerSample_full :
  let e : Fin 64 := 0
  let s : State := { hw := { (mk [(TIL_GLN_CFG.EN 0, 1), (TIL_GLN_CFG.PERIOD 0, 1), (TIL_GLN_CFG.ENG_MASK 0, 255), (TIL_GLN_STATUS.HELD 0, 4096), (TIL_GLN_CFG.WRAP 0, 0)]).hw with til := { engs := [(0, { run := some {} })] } } }
  let h := s.hw
  let k := e.val / 8
  let q : Hw := { h with til := { h.til with gleanCnt := h.til.gleanCnt.set 0 e 0 } }
  h.rd (TIL_GLN_CFG.EN k) ≠ 0 ∧
  bitN (h.rd (TIL_GLN_CFG.ENG_MASK k)) (e % 8) ≠ 0 ∧
  h.executing e = true ∧
  h.rd (TIL_GLN_CFG.PERIOD k) ≤ h.til.gleanCnt.get 0 e + 1 ∧
  q.rd (TIL_GLN_STATUS.HELD k) = 4096 ∧
  q.rd (TIL_GLN_CFG.WRAP k) = 0 := by
  dsimp only <;> decide +kernel

theorem meets_gleanerSample_between :
  let e : Fin 64 := 0
  let s : State := { hw := { (mk [(TIL_GLN_CFG.EN 0, 1), (TIL_GLN_CFG.ENG_MASK 0, 255), (TIL_GLN_CFG.PERIOD 0, 5)]).hw with til := { engs := [(0, { run := some {} })] } } }
  let h := s.hw
  let k := e.val / 8
  h.rd (TIL_GLN_CFG.EN k) ≠ 0 ∧
  bitN (h.rd (TIL_GLN_CFG.ENG_MASK k)) (e % 8) ≠ 0 ∧
  h.executing e = true ∧
  h.til.gleanCnt.get 0 e + 1 < h.rd (TIL_GLN_CFG.PERIOD k) := by
  dsimp only <;> decide +kernel

theorem meets_registerWrite_reg :
  let m : Master := .husk
  let a : Fin 1099511627776 := 0x104
  let v : Word := 0#32
  let s : State := mk []
  let b := busAddr m a
  s.hw.admits m b true ∧
  s.hw.stages m b 4 (.write v) = false ∧
  b < 0x10000000 := by
  dsimp only <;> decide +kernel

theorem meets_registerWrite_read :
  let m : Master := .jtag
  let a : Fin 1099511627776 := 0x100
  let s : State := mk []
  let b := busAddr m a
  s.hw.admits m b false ∧
  s.hw.stages m b 4 .read = false ∧
  b < 0x10000000 := by
  dsimp only <;> decide +kernel

theorem meets_registerWrite_store :
  let m : Master := .jtag
  let a : Fin 1099511627776 := 0x1000000000
  let v : Word := 0#32
  let s : State := mk [(GRN_DRAM_CFG.SHARED, 1)]
  let b := busAddr m a
  s.hw.admits m b true ∧
  s.hw.stages m b 4 (.write v) = false ∧
  s.hw.msixArea m b 4 = false ∧
  extBase ≤ b := by
  dsimp only <;> decide +kernel

theorem meets_registerWrite_msix :
  let a : Fin 1099511627776 := 0x8000020000
  let acc : Access := .read
  let s : State := mk [(HSK_STATUS.HANDOFF, 1)]
  s.hw.deaf .host = false ∧
  s.hw.stages .host a 4 acc = false ∧
  busAddr .host a = a.val ∧
  s.hw.msixArea .host a 4 = true := by
  dsimp only <;> decide +kernel

theorem meets_counterLoRead :
  let m : Master := .jtag
  let a : Fin 268435456 := 0x6001040
  let s : State := mk []
  let h := s.hw.reached m a
  s.hw.admits m a false ∧
  isLo a = true ∧
  h.perfClosed m a = false := by
  dsimp only <;> decide +kernel

theorem meets_counterHiRead :
  let m : Master := .jtag
  let a : Fin 268435456 := 0x6001044
  let s : State := mk []
  let h := s.hw.reached m a
  s.hw.admits m a false ∧
  isHi a = true ∧
  h.perfClosed m a = false := by
  dsimp only <;> decide +kernel

theorem meets_counterClear :
  let m : Master := .jtag
  let a : Fin 268435456 := 0x6001040
  let s : State := mk []
  s.hw.admits m a true ∧
  accOf a = .c64lo := by
  dsimp only <;> decide +kernel

theorem meets_counterClear_other :
  let m : Master := .jtag
  let a : Fin 268435456 := 0x6001040
  let v : Word := 1#32
  let s : State := mk []
  s.hw.admits m a true ∧
  v ≠ 0#32 := by
  dsimp only <;> decide +kernel

theorem meets_intSet :
  let m : Master := .jtag
  let b : Blk := .pwr
  let s : State := mk []
  s.hw.admits m (b.base + 8) true := by
  dsimp only <;> decide +kernel

theorem meets_intEoi :
  let m : Master := .jtag
  let v : Word := 0#32
  let s : State := mk [(⟨0, 0, 1⟩, 1), (⟨4, 0, 1⟩, 1)]
  let h := s.hw.reached m GLB_INT_EOI.A
  s.hw.admits m GLB_INT_EOI.A true ∧
  h.summary (getField v 0 5) = true := by
  dsimp only <;> decide +kernel

theorem meets_intEoi_clear :
  let m : Master := .jtag
  let v : Word := 0#32
  let s : State := mk []
  let h := s.hw.reached m GLB_INT_EOI.A
  s.hw.admits m GLB_INT_EOI.A true ∧
  h.summary (getField v 0 5) = false := by
  dsimp only <;> decide +kernel

theorem meets_tableRead :
  let m : Master := .jtag
  let b : Blk := .tim
  let v : Word := 0#32
  let k : GateSel := ((mk [(⟨0x5000040, 0, 32⟩, 1)]).hw.gateSel 0x5000000).getD ⟨0, 0, ⟨"", 0, 0, 0, .any, []⟩, 0, 0⟩
  let s : State := mk [(⟨0x5000040, 0, 32⟩, 1)]
  let h := s.hw.reached m (b.base + 0x48)
  let g := (h.gateFinish b.base).wr (gateSEG b.base) (getField v 4 4)
  s.hw.admits m (b.base + 0x48) true ∧
  g.gateSel b.base = some k ∧
  g.entryErr k 1 = 0 := by
  dsimp only <;> decide +kernel

theorem meets_tableCommit :
  let m : Master := .jtag
  let b : Blk := .tim
  let v : Word := 0#32
  let k : GateSel := ((mk [(⟨0x5000040, 0, 32⟩, 1)]).hw.gateSel 0x5000000).getD ⟨0, 0, ⟨"", 0, 0, 0, .any, []⟩, 0, 0⟩
  let s : State := mk [(⟨0x5000040, 0, 32⟩, 1)]
  let h := s.hw.reached m (b.base + 0x48)
  let g := (h.gateFinish b.base).wr (gateSEG b.base) (getField v 4 4)
  s.hw.admits m (b.base + 0x48) true ∧
  g.gateSel b.base = some k ∧
  g.entryErr k 3 = 0 := by
  dsimp only <;> decide +kernel

theorem meets_tableWrite :
  let m : Master := .jtag
  let b : Blk := .tim
  let v : Word := 0#32
  let k : GateSel := ((mk [(⟨0x5000040, 0, 32⟩, 1)]).hw.gateSel 0x5000000).getD ⟨0, 0, ⟨"", 0, 0, 0, .any, []⟩, 0, 0⟩
  let s : State := mk [(⟨0x5000040, 0, 32⟩, 1)]
  let h := s.hw.reached m (b.base + 0x48)
  let g := (h.gateFinish b.base).wr (gateSEG b.base) (getField v 4 4)
  s.hw.admits m (b.base + 0x48) true ∧
  g.gateSel b.base = some k ∧
  g.entryErr k 2 = 0 := by
  dsimp only <;> decide +kernel

theorem meets_tableCmdComplete :
  let b : Blk := .tim
  let s : State := { hw := { gates := [(10, { op := 3, err := 2 })] } }
  let h := s.hw
  let r := h.gates.get {} (gateOf b.base)
  r.op ≠ 0 ∧
  (r.op ≠ 2 ∨ r.err ≠ 0) := by
  dsimp only <;> decide +kernel

theorem meets_tableCmdComplete_write :
  let b : Blk := .tim
  let k : GateSel := ((mk [(⟨0x5000040, 0, 32⟩, 1)]).hw.gateSel 0x5000000).getD ⟨0, 0, ⟨"", 0, 0, 0, .any, []⟩, 0, 0⟩
  let s : State := { hw := { (mk [(⟨0x5000040, 0, 32⟩, 1)]).hw with gates := [(10, { op := 2 })] } }
  let h := s.hw
  let r := h.gates.get {} (gateOf b.base)
  r.op = 2 ∧
  r.err = 0 ∧
  h.gateSel b.base = some k := by
  dsimp only <;> decide +kernel

theorem meets_tableCmdComplete_ecc :
  let b : Blk := .tim
  let s : State := { hw := { gates := [(10, { op := 3 })] } }
  let h := s.hw
  let r := h.gates.get {} (gateOf b.base)
  r.op ≠ 0 ∧
  r.err = 0 := by
  dsimp only <;> decide +kernel

theorem meets_functionEnable :
  let m : Master := .jtag
  let f : Fn := .twinLink
  let v : Word := 1#32
  let s : State := mk []
  let h := s.hw.reached m f.ctl
  let g := h.wr f.HELD (if h.st f = 0 then b2n (h.heldNow f) else h.rd f.HELD)
  let w := g.fullWrite f.ctl (setField v 0 1 1)
  s.hw.admits m f.ctl true ∧
  aliasCloses m f.ctl = false ∧
  ((∀ g c, f ≠ .member g c) ∨ h.rd f.ENABLE = 1) ∧
  g.effEnable f = false ∧
  w.effEnable f = true ∧
  w.st f = 0 := by
  dsimp only <;> decide +kernel

theorem meets_functionEnable_pending :
  let m : Master := .jtag
  let f : Fn := .twinLink
  let v : Word := 1#32
  let s : State := mk [((Fn.twinLink).STATE, 3)]
  let h := s.hw.reached m f.ctl
  let g := h.wr f.HELD (if h.st f = 0 then b2n (h.heldNow f) else h.rd f.HELD)
  let w := g.fullWrite f.ctl (setField v 0 1 1)
  s.hw.admits m f.ctl true ∧
  aliasCloses m f.ctl = false ∧
  ((∀ g c, f ≠ .member g c) ∨ h.rd f.ENABLE = 1) ∧
  g.effEnable f = false ∧
  w.effEnable f = true ∧
  w.st f = 3 := by
  dsimp only <;> decide +kernel

theorem meets_functionEnable_member :
  let m : Master := .jtag
  let g : Fin 16 := 0
  let c : Fin 4 := 0
  let v : Word := 0#32
  let s : State := mk [(SHF_MBR_STATUS.STATE 1 0, 2)]
  let h := s.hw.reached m (Fn.member g c).ctl
  s.hw.admits m (Fn.member g c).ctl true ∧
  aliasCloses m (Fn.member g c).ctl = false ∧
  h.rd (Fn.member g c).ENABLE = 0 ∧
  h.memberRefused g c (setField v 0 1 1) = true := by
  dsimp only <;> decide +kernel

theorem meets_functionEnable_released :
  let f : Fn := .lane 0
  let s : State := mk [((Fn.lane 0).HELD, 1), ((Fn.lane 0).ENABLE, 1)]
  let h := s.hw
  let w := h.wr f.HELD 0
  h.rd f.HELD = 1 ∧
  h.heldNow f = false ∧
  h.rd f.ENABLE = 1 ∧
  w.effEnable f = true ∧
  w.st f = 0 := by
  dsimp only <;> decide +kernel

theorem meets_functionEnable_alias :
  let m : Master := .engine 0
  let f : Fn := .engine 0
  let s : State := mk []
  s.hw.admits m f.ctl true ∧
  aliasCloses m f.ctl = true := by
  dsimp only <;> decide +kernel

theorem meets_functionDisable :
  let m : Master := .jtag
  let f : Fn := .twinLink
  let v : Word := 0#32
  let s : State := mk [((Fn.twinLink).STATE, 2), ((Fn.twinLink).ENABLE, 1)]
  let h := s.hw.reached m f.ctl
  let g := h.wr f.HELD (if h.st f = 0 then b2n (h.heldNow f) else h.rd f.HELD)
  let w := g.fullWrite f.ctl (setField v 0 1 0)
  s.hw.admits m f.ctl true ∧
  aliasCloses m f.ctl = false ∧
  g.effEnable f = true ∧
  w.effEnable f = false ∧
  (w.st f = 1 ∨ w.st f = 2) := by
  dsimp only <;> decide +kernel

theorem meets_functionDisable_pending :
  let m : Master := .jtag
  let f : Fn := .twinLink
  let v : Word := 0#32
  let s : State := mk [((Fn.twinLink).STATE, 3), ((Fn.twinLink).ENABLE, 1)]
  let h := s.hw.reached m f.ctl
  let g := h.wr f.HELD (if h.st f = 0 then b2n (h.heldNow f) else h.rd f.HELD)
  let w := g.fullWrite f.ctl (setField v 0 1 0)
  s.hw.admits m f.ctl true ∧
  aliasCloses m f.ctl = false ∧
  g.effEnable f = true ∧
  w.effEnable f = false ∧
  w.st f = 3 := by
  dsimp only <;> decide +kernel

theorem meets_functionDisable_held :
  let f : Fn := .member 0 0
  let s : State := { hw := { (mk [((Fn.member 0 0).STATE, 2), ((Fn.member 0 0).ENABLE, 1)]).hw with pwr := { held := [11] } } }
  let h := s.hw
  let w := h.wr f.HELD 1
  h.rd f.HELD = 0 ∧
  h.heldNow f = true ∧
  h.rd f.ENABLE = 1 ∧
  w.effEnable f = false ∧
  (w.st f = 1 ∨ w.st f = 2) := by
  dsimp only <;> decide +kernel

theorem meets_functionDisable_alias :
  let m : Master := .engine 0
  let f : Fn := .engine 0
  let s : State := mk []
  s.hw.admits m f.ctl true ∧
  aliasCloses m f.ctl = true := by
  dsimp only <;> decide +kernel

theorem meets_startConditionMet :
  let f : Fn := .lane 0
  let s : State := mk [((Fn.lane 0).STATE, 1)]
  let h := s.hw
  ((∀ p, f ≠ .page p)) ∧
  h.st f = 1 ∧
  h.fnCanStart f = true := by
  dsimp only <;> decide +kernel

theorem meets_startConditionMet_page :
  let p : Fin 2 := 0
  let s : State := { hw := { (mk [((Fn.page 0).STATE, 1)]).hw with slt := { pages := [(0, { armed := true })] } } }
  let h := s.hw
  h.st (.page p) = 1 ∧
  h.fnCanStart (.page p) = true := by
  dsimp only <;> decide +kernel

theorem meets_stopFlushComplete :
  let f : Fn := .lane 0
  let s : State := mk [((Fn.lane 0).STATE, 3)]
  let h := s.hw
  let e := h.fnEnded f
  let w := (e.wr f.STATE 0).raise f.blk EV.LIFECYCLE_DONE
  ((∀ p, f ≠ .page p)) ∧
  h.st f = 3 ∧
  h.fnFlushed f = true ∧
  e.st f = 3 ∧
  e.rd f.RP = 0 ∧
  w.st f = 0 := by
  dsimp only <;> decide +kernel

theorem meets_stopFlushComplete_restart :
  let f : Fn := .ring 0 0
  let s : State := mk [((Fn.ring 0 0).STATE, 3), ((Fn.ring 0 0).RP, 1)]
  let h := s.hw
  let e := h.fnEnded f
  let w := ((e.wr f.STATE 1).wr f.RP 0).capture f
  ((∀ p, f ≠ .page p)) ∧
  h.st f = 3 ∧
  h.fnFlushed f = true ∧
  e.st f = 3 ∧
  e.rd f.RP = 1 ∧
  w.st f = 1 := by
  dsimp only <;> decide +kernel

theorem meets_stopFlushComplete_page :
  let p : Fin 2 := 0
  let s : State := mk [((Fn.page 0).STATE, 3)]
  let h := s.hw
  h.st (.page p) = 3 := by
  dsimp only <;> decide +kernel

theorem meets_domainSoftReset :
  let m : Master := .jtag
  let v : Word := 0x08000000#32
  let d : Fin 32 := 27
  let s : State := mk []
  let h := s.hw.reached m GLB_SOFT_RESET.A
  s.hw.admits m GLB_SOFT_RESET.A true ∧
  2 ≤ d.val ∧
  (List.range 32).filter (fun k => decide (2 ≤ k) && bitN v.toNat k == 1) = [d.val] ∧
  h.cond d ≠ 2 := by
  dsimp only <;> decide +kernel

theorem meets_domainSoftReset_many :
  let m : Master := .jtag
  let s : State := mk []
  s.hw.admits m GLB_SOFT_RESET.A true := by
  dsimp only <;> decide +kernel

theorem meets_softResetComplete :
  let d : Fin 32 := 27
  let s : State := mk [(⟨GLB_SOFT_RESET.A, 27, 1⟩, 1)]
  let h := s.hw
  h.inReset d = true ∧
  ((d.val = 29 → h.pins.perst = true)) := by
  dsimp only <;> decide +kernel

theorem meets_chipReset :
  let m : Master := .jtag
  let s : State := mk []
  let h := s.hw.reached m GLB_CHIP_RESET.A
  s.hw.admits m GLB_CHIP_RESET.A true ∧
  h.pwr.trip = false := by
  dsimp only <;> decide +kernel

theorem meets_chipReset_other :
  let m : Master := .jtag
  let v : Word := 0#32
  let s : State := mk []
  s.hw.admits m GLB_CHIP_RESET.A true ∧
  v ≠ 0x4512#32 := by
  dsimp only <;> decide +kernel

theorem meets_pornRelease :
  let s : State := { hw := { pins := { ({} : PinSt) with porn := false } } }
  let h := s.hw
  h.pins.porn = false ∧
  h.pins.vin = true := by
  dsimp only <;> decide +kernel

theorem meets_vinUvloFall :
  let s : State := mk []
  let h := s.hw
  h.pins.vin = true := by
  dsimp only <;> decide +kernel

theorem meets_vinGood :
  let s : State := { hw := { pins := { ({} : PinSt) with vin := false } } }
  let h := s.hw
  h.pins.vin = false := by
  dsimp only <;> decide +kernel

theorem meets_clockLoss :
  let k : Clk := .trk
  let s : State := mk [(GLB_CLK_STATUS.TRK_OK, 1)]
  let h := s.hw
  h.rd k.ok = 1 := by
  dsimp only <;> decide +kernel

theorem meets_clockRecover :
  let k : Clk := .trk
  let s : State := mk [(GLB_CLK_STATUS.TRK_OK, 0)]
  let h := s.hw
  h.rd k.ok = 0 := by
  dsimp only <;> decide +kernel

theorem meets_accessWakeReturn :
  let d : Fin 32 := 27
  let s : State := { hw := { pwr := { ({} : PwrSt) with woken := [27] } } }
  let h := s.hw
  d.val ∈ h.pwr.woken := by
  dsimp only <;> decide +kernel

theorem meets_crossingFifoError :
  let b : Blk := .tim
  let s : State := mk []
  let h := s.hw
  h.domOff b.base = false := by
  dsimp only <;> decide +kernel

theorem meets_wdogKick :
  let m : Master := .jtag
  let v : Word := 0x4B1C#32
  let s : State := mk []
  s.hw.admits m CTL_WDOG_KICK.A true ∧
  v = 0x4B1C#32 := by
  dsimp only <;> decide +kernel

theorem meets_wdogKick_other :
  let m : Master := .jtag
  let v : Word := 0#32
  let s : State := mk []
  s.hw.admits m CTL_WDOG_KICK.A true ∧
  v ≠ 0x4B1C#32 := by
  dsimp only <;> decide +kernel

theorem meets_wdogWarn :
  let halted : Nat := 0
  let s : State := { hw := { (mk [(CTL_WDOG.TIMEOUT, 5)]).hw with clk := 4000000 } }
  let h := s.hw
  let g := h.wdogHalted halted
  g.wdogPast 75 = true := by
  dsimp only <;> decide +kernel

theorem meets_wdogExpire :
  let halted : Nat := 0
  let s : State := { hw := { (mk [(CTL_WDOG.TIMEOUT, 5)]).hw with clk := 5000000 } }
  let h := s.hw
  let k := h.wdogHalted halted
  k.wdogPast 100 = true ∧
  k.cond 2 = 0 ∧
  k.inReset 2 = false ∧
  k.pwr.trip = false := by
  dsimp only <;> decide +kernel

theorem meets_pcieFunctionReset :
  let s : State := mk []
  let h := s.hw
  h.cond 29 ≠ 2 := by
  dsimp only <;> decide +kernel

theorem meets_perstAssert :
  let s : State := mk []
  let h := s.hw
  h.cond 29 ≠ 2 := by
  dsimp only <;> decide +kernel

theorem meets_pcieLinkUp :
  let s : State := { hw := { (mk [(GLB_CLK_STATUS.PCIE_OK, 1)]).hw with pins := { ({} : PinSt) with perst := true } } }
  let h := s.hw
  h.cond 29 = 0 ∧
  h.inReset 29 = false ∧
  h.pins.perst = true ∧
  h.rd GLB_CLK_STATUS.PCIE_OK = 1 := by
  dsimp only <;> decide +kernel

theorem meets_gpioChange :
  let j : Fin 16 := 0
  let v : Bool := true
  let s : State := mk []
  let h := s.hw
  bitN (h.rd GLB_GPIO_IN.IN) j ≠ b2n v := by
  dsimp only <;> decide +kernel

theorem meets_ringTailWrite :
  let m : Master := .jtag
  let r : Fin 1024 := 0
  let v : Word := 9#32
  let s : State := mk []
  let h := s.hw.reached m (RING_TAIL.A 0 r)
  let g := h.fullWrite (RING_TAIL.A 0 r) v
  s.hw.admits m (RING_TAIL.A 0 r) true ∧
  g.rd (RING_CTRL.MIN_FREE 0 r) ≤ g.ringAvail 0 r := by
  dsimp only <;> decide +kernel

theorem meets_ringTailWrite_tx :
  let m : Master := .jtag
  let r : Fin 1024 := 0
  let s : State := mk []
  s.hw.admits m (RING_TAIL.A 1 r) true := by
  dsimp only <;> decide +kernel

theorem meets_txRingFetch :
  let r : Fin 1024 := 0
  let d : TxDesc := { len := 60, sop := true, eop := true, oneStep := false, tsReq := false, tsId := 0, tc := 0, color := 0, queue := 0, data := List.replicate 60 0 }
  let ds : List TxDesc := [{ len := 60, sop := true, eop := true, oneStep := false, tsReq := false, tsId := 0, tc := 0, color := 0, queue := 0, data := List.replicate 60 0 }]
  let s : State := { hw := ((mk [(RING_STATUS.STATE 1 0, 2), (RING_CTRL.LOC 1 0, 0), (RING_CTRL.MODE 1 0, 0), (RING_TAIL.TAIL 1 0, 1)]).hw.capture (.ring 1 0)) }
  let h := s.hw
  let l := ds.take (h.ringAvail 1 r)
  let g := (h.ringPut 1 r (txWords d false) []).count (RING_CNT.COUNT 1 r 2)
  h.ringState 1 r = 2 ∧
  h.capRd (RING_CTRL.LOC 1 r) = 0 ∧
  l = [d] ∧
  d.eop = true ∧
  d.sop = true ∧
  d.len ≠ 0 ∧
  18 ≤ (d.data.take d.len).length ∧
  (d.data.take d.len).length ≤ 12288 ∧
  g.capRd (RING_CTRL.MODE 1 r) = 0 := by
  dsimp only <;> decide +kernel

theorem meets_txRingFetch_bad :
  let r : Fin 1024 := 0
  let d : TxDesc := { len := 6, sop := true, eop := true, oneStep := false, tsReq := false, tsId := 0, tc := 0, color := 0, queue := 0, data := List.replicate 6 0 }
  let ds : List TxDesc := [{ len := 6, sop := true, eop := true, oneStep := false, tsReq := false, tsId := 0, tc := 0, color := 0, queue := 0, data := List.replicate 6 0 }]
  let s : State := { hw := ((mk [(RING_STATUS.STATE 1 0, 2), (RING_CTRL.LOC 1 0, 0), (RING_CTRL.MODE 1 0, 0), (RING_TAIL.TAIL 1 0, 1)]).hw.capture (.ring 1 0)) }
  let h := s.hw
  let l := ds.take (h.ringAvail 1 r)
  h.ringState 1 r = 2 ∧
  h.capRd (RING_CTRL.LOC 1 r) = 0 ∧
  l = [d] ∧
  d.eop = true ∧
  (d.data.take d.len).length < 18 := by
  dsimp only <;> decide +kernel

theorem meets_ringIntTimer :
  let d : Fin 2 := 0
  let r : Fin 1024 := 0
  let s : State := { hw := { (mk [(RING_INT.INT_USEC 0 0, 5)]).hw with ctl := { ({} : CtlSt) with rings := [(0, { acc := 1 })] } } }
  let h := s.hw
  (h.ring d r).acc ≠ 0 ∧
  h.rd (RING_INT.INT_USEC d r) ≠ 0 := by
  dsimp only <;> decide +kernel

theorem meets_ringIntAck :
  let m : Master := .jtag
  let d : Fin 2 := 0
  let r : Fin 1024 := 0
  let s : State := mk []
  s.hw.admits m (RING_INT_ACK.A d r) true := by
  dsimp only <;> decide +kernel

theorem meets_mbxSend :
  let m : Master := .jtag
  let ch : Fin 256 := 0
  let s : State := { hw := (mk []).hw.ts (MBX_CFG.VALID 0) 1 |>.ts (MBX_CFG.TX_MASTER 0) 255 |>.ts (MBX_CFG.RX_DOM 0) 2 }
  let h := s.hw.reached m (MBX_SEND.A ch)
  s.hw.admits m (MBX_SEND.A ch) false ∧
  h.postStatus m.id ch = 0 := by
  dsimp only <;> decide +kernel

theorem meets_mbxSend_refused :
  let m : Master := .jtag
  let ch : Fin 256 := 0
  let s : State := mk []
  let h := s.hw.reached m (MBX_SEND.A ch)
  s.hw.admits m (MBX_SEND.A ch) false ∧
  (h.postStatus m.id ch = 1 ∨ h.postStatus m.id ch = 3) := by
  dsimp only <;> decide +kernel

theorem meets_mbxSend_domain :
  let m : Master := .jtag
  let ch : Fin 256 := 0
  let s : State := { hw := (mk []).hw.ts (MBX_CFG.VALID 0) 1 |>.ts (MBX_CFG.TX_MASTER 0) 255 |>.ts (MBX_CFG.RX_DOM 0) 28 }
  let h := s.hw.reached m (MBX_SEND.A ch)
  s.hw.admits m (MBX_SEND.A ch) false ∧
  h.postStatus m.id ch = 2 := by
  dsimp only <;> decide +kernel

theorem meets_mbxPop :
  let m : Master := .jtag
  let ch : Fin 256 := 0
  let v : Word := 0x100#32
  let x : Msg := { words := [], master := 0, mode := 0, gen := 0, seq := 0, orig := 0 }
  let y : Msg := { words := [], master := 0, mode := 0, gen := 0, seq := 1, orig := 0 }
  let t : List Msg := []
  let s : State := { hw := { ctl := { ({} : CtlSt) with mbx := [(0, { ({} : Mbx) with msgs := [{ words := [], master := 0, mode := 0, gen := 0, seq := 0, orig := 0 }, { words := [], master := 0, mode := 0, gen := 0, seq := 1, orig := 0 }] })] } } }
  let h := s.hw.reached m (MBX_RX_STATUS.A ch)
  let g := h.plainWrite (MBX_RX_STATUS.A ch) v
  s.hw.admits m (MBX_RX_STATUS.A ch) true ∧
  getField v 8 1 = 1 ∧
  (g.mbx ch).msgs = x :: y :: t := by
  dsimp only <;> decide +kernel

theorem meets_mbxPop_last :
  let m : Master := .jtag
  let ch : Fin 256 := 0
  let v : Word := 0x100#32
  let x : Msg := { words := [], master := 0, mode := 0, gen := 0, seq := 0, orig := 0 }
  let s : State := { hw := { ctl := { ({} : CtlSt) with mbx := [(0, { ({} : Mbx) with msgs := [{ words := [], master := 0, mode := 0, gen := 0, seq := 0, orig := 0 }] })] } } }
  let h := s.hw.reached m (MBX_RX_STATUS.A ch)
  let g := h.plainWrite (MBX_RX_STATUS.A ch) v
  s.hw.admits m (MBX_RX_STATUS.A ch) true ∧
  getField v 8 1 = 1 ∧
  (g.mbx ch).msgs = [x] := by
  dsimp only <;> decide +kernel

theorem meets_mbxEmptyStatusRead :
  let m : Master := .core 0
  let ch : Fin 256 := 0
  let s : State := { hw := cored ((mk []).hw.ts (MBX_CFG.TX_MASTER 0) (Master.core 0).id) }
  let h := s.hw.reached m (MBX_RX_STATUS.A ch)
  let g := h.answer (h.word (MBX_RX_STATUS.A ch))
  s.hw.admits m (MBX_RX_STATUS.A ch) false ∧
  m.id = g.t (MBX_CFG.TX_MASTER ch) := by
  dsimp only <;> decide +kernel

theorem meets_mbxEmptyStatusRead_other :
  let m : Master := .jtag
  let ch : Fin 256 := 0
  let s : State := { hw := (mk []).hw.ts (MBX_CFG.TX_MASTER 0) 3 }
  let h := s.hw.reached m (MBX_RX_STATUS.A ch)
  let g := h.answer (h.word (MBX_RX_STATUS.A ch))
  s.hw.admits m (MBX_RX_STATUS.A ch) false ∧
  m.id ≠ g.t (MBX_CFG.TX_MASTER ch) ∧
  g.t (MBX_CFG.TX_MASTER ch) ≠ 255 := by
  dsimp only <;> decide +kernel

theorem meets_dbSet :
  let m : Master := .jtag
  let v : Word := 0#32
  let s : State := mk []
  let h := s.hw.reached m MBX_DB_SET.A
  let n := getField v 0 10
  s.hw.admits m MBX_DB_SET.A true ∧
  h.rd ⟨MBX_DB_PEND.A (n / 32), n % 32, 1⟩ ≠ 1 := by
  dsimp only <;> decide +kernel

theorem meets_dbSet_merged :
  let m : Master := .jtag
  let v : Word := 0#32
  let s : State := { hw := (mk []).hw.wr ⟨MBX_DB_PEND.A 0, 0, 1⟩ 1 }
  let h := s.hw.reached m MBX_DB_SET.A
  let n := getField v 0 10
  s.hw.admits m MBX_DB_SET.A true ∧
  h.rd ⟨MBX_DB_PEND.A (n / 32), n % 32, 1⟩ = 1 := by
  dsimp only <;> decide +kernel

theorem meets_lockAcquire :
  let m : Master := .jtag
  let n : Fin 64 := 0
  let s : State := mk []
  let h := s.hw.reached m (HW_LOCK.A n)
  s.hw.admits m (HW_LOCK.A n) false ∧
  h.rd ⟨HW_LOCK.A n, 1, 1⟩ ≠ 1 := by
  dsimp only <;> decide +kernel

theorem meets_lockAcquire_held :
  let m : Master := .jtag
  let n : Fin 64 := 0
  let s : State := { hw := (mk []).hw.wr ⟨HW_LOCK.A 0, 1, 1⟩ 1 }
  let h := s.hw.reached m (HW_LOCK.A n)
  s.hw.admits m (HW_LOCK.A n) false ∧
  h.rd ⟨HW_LOCK.A n, 1, 1⟩ = 1 := by
  dsimp only <;> decide +kernel

theorem meets_lockRelease :
  let m : Master := .jtag
  let n : Fin 64 := 0
  let v : Word := 0#32
  let s : State := { hw := (mk []).hw.wr ⟨HW_LOCK.A 0, 1, 1⟩ 1 }
  let h := s.hw.reached m (HW_LOCK.A n)
  s.hw.admits m (HW_LOCK.A n) true ∧
  h.rd ⟨HW_LOCK.A n, 1, 1⟩ = 1 ∧
  h.rd ⟨HW_LOCK.A n, 8, 8⟩ = getField v 0 8 := by
  dsimp only <;> decide +kernel

theorem meets_lockRelease_bad :
  let m : Master := .jtag
  let n : Fin 64 := 0
  let v : Word := 0#32
  let s : State := mk []
  let h := s.hw.reached m (HW_LOCK.A n)
  s.hw.admits m (HW_LOCK.A n) true ∧
  ¬ (h.rd ⟨HW_LOCK.A n, 1, 1⟩ = 1 ∧ h.rd ⟨HW_LOCK.A n, 8, 8⟩ = getField v 0 8) := by
  dsimp only <;> decide +kernel

theorem meets_lockBreak :
  let m : Master := .core 0
  let c : Fin 4 := 0
  let v : Word := 0#32
  let s : State := { hw := cored ((mk []).hw.wr ⟨HW_LOCK.A 0, 1, 1⟩ 1) }
  let h := s.hw.reached m HW_LOCK_BREAK.A
  s.hw.admits m HW_LOCK_BREAK.A true ∧
  m = .core c ∧
  h.rd ⟨HW_LOCK.A (getField v 0 6), 1, 1⟩ = 1 := by
  dsimp only <;> decide +kernel

theorem meets_aonWriteArrive :
  let a : Nat := 0
  let v : Word := 0#32
  let t : List (Nat × Word) := []
  let s : State := { hw := { aon := { ({} : AonSt) with writes := [(0, 0#32)] } } }
  let h := s.hw
  h.aon.writes = (a, v) :: t := by
  dsimp only <;> decide +kernel

theorem meets_psyncMatch :
  let c : Fin 4 := 0
  let s : State := mk [(TRK_PMA_STATUS.STATE 0, 2), (TRK_PMA_STATUS.LOS 0, 0), (TRK_PMA_STATUS.CDR_LOCK 0, 1)]
  let h := s.hw
  h.searching c = true ∧
  h.rd (TRK_DLN_STATUS.SYNC_STATE c) = 0 := by
  dsimp only <;> decide +kernel

theorem meets_psyncMatch_table :
  let c : Fin 4 := 0
  let s : State := mk [(TRK_PMA_STATUS.STATE 0, 2), (TRK_PMA_STATUS.LOS 0, 0), (TRK_PMA_STATUS.CDR_LOCK 0, 1), (TRK_DLN_STATUS.SYNC_STATE 0, 1)]
  let h := s.hw
  h.searching c = true ∧
  h.rd (TRK_DLN_STATUS.SYNC_STATE c) = 1 := by
  dsimp only <;> decide +kernel

theorem meets_framePosition_confirm :
  let c : Fin 4 := 0
  let errs : Nat := 0
  let s : State := mk [(TRK_PMA_STATUS.STATE 0, 2), (TRK_DLN_STATUS.SYNC_STATE 0, 1), (TRK_DLN_CFG.N_CONFIRM 0, 3)]
  let h := s.hw
  let n := h.rd (TRK_DLN_STATUS.CONFIRM_CNT c) + 1
  let g := h.wr (TRK_DLN_STATUS.CONFIRM_CNT c) n
  h.trkOn c = true ∧
  (h.act c).rxOn = true ∧
  h.looped c = false ∧
  h.rd (TRK_DLN_STATUS.SYNC_STATE c) = 1 ∧
  errs ≤ h.rd (TRK_DLN_CFG.PSYNC_TOL c) ∧
  n < g.rd (TRK_DLN_CFG.N_CONFIRM c) := by
  dsimp only <;> decide +kernel

theorem meets_framePosition_false :
  let c : Fin 4 := 0
  let errs : Nat := 60
  let s : State := mk [(TRK_PMA_STATUS.STATE 0, 2), (TRK_DLN_STATUS.SYNC_STATE 0, 1), (TRK_DLN_CFG.N_CONFIRM 0, 3)]
  let h := s.hw
  h.trkOn c = true ∧
  (h.act c).rxOn = true ∧
  h.looped c = false ∧
  h.rd (TRK_DLN_STATUS.SYNC_STATE c) = 1 ∧
  h.rd (TRK_DLN_CFG.PSYNC_TOL c) < errs := by
  dsimp only <;> decide +kernel

theorem meets_framePosition :
  let c : Fin 4 := 0
  let errs : Nat := 0
  let s : State := mk [(TRK_PMA_STATUS.STATE 0, 2), (TRK_DLN_STATUS.SYNC_STATE 0, 2)]
  let h := s.hw
  let k := h.modDln c (fun d => { d with frameAt := d.frameAt + framePeriod })
  h.trkOn c = true ∧
  (h.act c).rxOn = true ∧
  h.looped c = false ∧
  h.rd (TRK_DLN_STATUS.SYNC_STATE c) = 2 ∧
  errs ≤ k.rd (TRK_DLN_CFG.PSYNC_TOL c) := by
  dsimp only <;> decide +kernel

theorem meets_framePosition_lost :
  let c : Fin 4 := 0
  let errs : Nat := 60
  let s : State := mk [(TRK_PMA_STATUS.STATE 0, 2), (TRK_DLN_STATUS.SYNC_STATE 0, 2), (TRK_DLN_CFG.M_LOSS 0, 1)]
  let h := s.hw
  let k := h.modDln c (fun d => { d with frameAt := d.frameAt + framePeriod })
  h.trkOn c = true ∧
  (h.act c).rxOn = true ∧
  h.looped c = false ∧
  h.rd (TRK_DLN_STATUS.SYNC_STATE c) = 2 ∧
  k.rd (TRK_DLN_CFG.PSYNC_TOL c) < errs ∧
  k.rd (TRK_DLN_CFG.M_LOSS c) ≤ k.rd (TRK_DLN_STATUS.LOSS_CNT c) + 1 := by
  dsimp only <;> decide +kernel

theorem meets_framePosition_run :
  let c : Fin 4 := 0
  let s : State := mk [(TRK_PMA_STATUS.STATE 0, 2), (TRK_DLN_STATUS.SYNC_STATE 0, 2), (TRK_DLN_CFG.M_LOSS 0, 3)]
  let h := s.hw
  let q := h.dlnCount c DLN_N.SFC_HEC_UNCORR
  let k := q.modDln c (fun d => { d with frameAt := d.frameAt + framePeriod })
  let n := k.rd (TRK_DLN_STATUS.LOSS_CNT c) + 1
  h.trkOn c = true ∧
  (h.act c).rxOn = true ∧
  h.looped c = false ∧
  h.rd (TRK_DLN_STATUS.SYNC_STATE c) = 2 ∧
  n < k.rd (TRK_DLN_CFG.M_LOSS c) := by
  dsimp only <;> decide +kernel

theorem meets_framePosition_expected :
  let c : Fin 4 := 0
  let errs : Nat := 60
  let s : State := mk [(TRK_PMA_STATUS.STATE 0, 2), (TRK_DLN_STATUS.SYNC_STATE 0, 2), (TRK_DLN_CFG.M_LOSS 0, 3)]
  let h := s.hw
  let k := h.modDln c (fun d => { d with frameAt := d.frameAt + framePeriod })
  let n := k.rd (TRK_DLN_STATUS.LOSS_CNT c) + 1
  h.trkOn c = true ∧
  (h.act c).rxOn = true ∧
  h.looped c = false ∧
  h.rd (TRK_DLN_STATUS.SYNC_STATE c) = 2 ∧
  k.rd (TRK_DLN_CFG.PSYNC_TOL c) < errs ∧
  n < k.rd (TRK_DLN_CFG.M_LOSS c) := by
  dsimp only <;> decide +kernel

theorem meets_resync :
  let m : Master := .jtag
  let c : Fin 4 := 0
  let v : Word := 0x10000#32
  let s : State := mk []
  s.hw.admits m (TRK_DLN_CFG.A c) true ∧
  getField v 16 1 = 1 := by
  dsimp only <;> decide +kernel

theorem meets_codewordDecoded :
  let c : Fin 4 := 0
  let s : State := { hw := { (mk [(TRK_PMA_STATUS.STATE 0, 2), (TRK_DLN_STATUS.SYNC_STATE 0, 2)]).hw with trk := { dln := [(0, { inFrame := true, cw := 0 })] } } }
  let h := s.hw
  h.decoding c = true ∧
  (h.dln c).inFrame = true := by
  dsimp only <;> decide +kernel

theorem meets_codewordDecoded_presync :
  let c : Fin 4 := 0
  let s : State := { hw := { (mk [(TRK_PMA_STATUS.STATE 0, 2), (TRK_DLN_STATUS.SYNC_STATE 0, 1)]).hw with trk := { dln := [(0, { cw := 0 })] } } }
  let h := s.hw
  h.decoding c = true ∧
  (h.dln c).inFrame = false ∧
  (h.dln c).tailCounts = false := by
  dsimp only <;> decide +kernel

theorem meets_hlendRx :
  let c : Fin 4 := 0
  let s : State := { hw := { trk := { dln := [(0, { inFrame := true })] } } }
  let h := s.hw
  (h.dln c).inFrame = true ∧
  (h.dln c).hl = none := by
  dsimp only <;> decide +kernel

theorem meets_hlendRx_good :
  let c : Fin 4 := 0
  let hec : Hec := .ok
  let s : State := { hw := { trk := { dln := [(0, { inFrame := true })] } } }
  let h := s.hw
  (h.dln c).inFrame = true ∧
  (h.dln c).hl = none ∧
  hec ≠ .bad := by
  dsimp only <;> decide +kernel

theorem meets_allocationStructure :
  let c : Fin 4 := 0
  let id : Nat := 7
  let st : Nat := 0
  let size : Nat := 100
  let profile : Fin 4 := 0
  let ploamu : Bool := false
  let dbru : Bool := false
  let late : Bool := false
  let x : Nat := 0
  let s : State := { hw := { ((mk [(TRK_ACT_STATUS.ACT_STATE 0, 5)]).hw.ts (ALLOC_OWN.VALID 0 0) 1 |>.ts (ALLOC_OWN.ALLOC_ID 0 0) 7 |>.ts (BURST_PROFILE.VALID 0 0) 1 |>.ts (BURST_PROFILE.PRE_REPEAT 0 0) 4 |>.ts (BURST_PROFILE.PRE_LEN 0 0) 8 |>.ts (BURST_PROFILE.DELIM_LEN 0 0) 8) with trk := { dln := [(0, { inFrame := true, hl := some true, maps := 1 })] } } }
  let h := s.hw
  let m := h.modDln c (fun d => { d with maps := d.maps - 1 })
  let eqd := m.rd (TRK_EQD_ACTIVE.EQD c)
  let t := m.toUi c ((h.dln c).frameAt + respTime + eqd) + st * m.usWordBits c
  let a := t - m.profileOvh c profile * m.usWordBits c
  let b := t + size * m.usWordBits c
  let k := (m.dropOverlapped c a b).keySwitch c
  let p := k.modDln c (fun d => { d with prevFate := 0 })
  let g : GrantIn := { alloc := x, start := st, size := size, profile := profile, opens := true, ploamu := ploamu, dbru := dbru, late := late, absStart := a, absT := t, absEnd := b }
  (h.dln c).inMap = true ∧
  m.allocOwn c id = some x ∧
  st + size ≤ m.usWords c ∧
  st < m.usWords c ∧
  (h.dln c).accepted < 256 ∧
  ((m.act c).overlapping a b).any (fun g => g.eqd != eqd) = false ∧
  (m.act c).bursts.any (fun u => u.holds a b t) = false ∧
  p.rd (TRK_ACT_STATUS.PM_STATE c) ≠ 3 ∧
  p.rd (TRK_ACT_STATUS.ACT_STATE c) = 5 ∧
  p.profileValid c profile = true := by
  dsimp only <;> decide +kernel

theorem meets_allocationStructure_hec :
  let c : Fin 4 := 0
  let s : State := { hw := { trk := { dln := [(0, { inFrame := true, hl := some true, maps := 1 })] } } }
  let h := s.hw
  (h.dln c).inMap = true := by
  dsimp only <;> decide +kernel

theorem meets_allocationStructure_foreign :
  let c : Fin 4 := 0
  let id : Nat := 0
  let s : State := { hw := { trk := { dln := [(0, { inFrame := true, hl := some true, maps := 1 })] } } }
  let h := s.hw
  let m := h.modDln c (fun d => { d with maps := d.maps - 1 })
  (h.dln c).inMap = true ∧
  m.allocOwn c id = none := by
  dsimp only <;> decide +kernel

theorem meets_ploamMessageRx :
  let c : Fin 4 := 0
  let onu : Nat := 5
  let msg : Bytes := [1#8]
  let s : State := { hw := { (mk [(TRK_ONU_ID.ONU_ID_VALID 0, 1), (TRK_ONU_ID.ONU_ID 0, 5)]).hw with trk := { dln := [(0, { inFrame := true, hl := some true, ploams := 1 })] } } }
  let h := s.hw
  let k := h.modDln c (fun d => { d with ploams := d.ploams - 1 })
  let n := k.rd (TRK_PLOAM_RX.LEVEL c)
  let g := ((k.ts (PLOAM_RXQ.MSG c n) (leNat (msg.take 48))).wr (TRK_PLOAM_RX.LEVEL c) (n + 1)).trkRaise c EV_TRK.PLOAM_RX
  (h.dln c).inPloam = true ∧
  k.rd (TRK_ONU_ID.ONU_ID_VALID c) = 1 ∧
  k.rd (TRK_ONU_ID.ONU_ID c) = onu ∧
  n < 32 ∧
  g.rd (TRK_ACT_STATUS.PM_STATE c) ≠ 3 := by
  dsimp only <;> decide +kernel

theorem meets_ploamMessageRx_errored :
  let c : Fin 4 := 0
  let s : State := { hw := { trk := { dln := [(0, { inFrame := true, hl := some true, ploams := 1 })] } } }
  let h := s.hw
  (h.dln c).inPloam = true := by
  dsimp only <;> decide +kernel

theorem meets_ploamPop :
  let m : Master := .jtag
  let c : Fin 4 := 0
  let v : Word := 0x100#32
  let s : State := mk [(TRK_PLOAM_RX.LEVEL 0, 1)]
  let h := s.hw.reached m (TRK_PLOAM_RX.A c)
  let g := h.plainWrite (TRK_PLOAM_RX.A c) v
  s.hw.admits m (TRK_PLOAM_RX.A c) true ∧
  getField v 8 1 = 1 ∧
  g.rd (TRK_PLOAM_RX.LEVEL c) = 1 := by
  dsimp only <;> decide +kernel

theorem meets_ploamPop_more :
  let m : Master := .jtag
  let c : Fin 4 := 0
  let v : Word := 0x100#32
  let s : State := mk [(TRK_PLOAM_RX.LEVEL 0, 2)]
  let h := s.hw.reached m (TRK_PLOAM_RX.A c)
  let g := h.plainWrite (TRK_PLOAM_RX.A c) v
  let n := g.rd (TRK_PLOAM_RX.LEVEL c)
  s.hw.admits m (TRK_PLOAM_RX.A c) true ∧
  getField v 8 1 = 1 ∧
  1 < n := by
  dsimp only <;> decide +kernel

theorem meets_gemFrameRx :
  let c : Fin 4 := 0
  let pli : Nat := 0
  let port : Nat := 9
  let remaining : Nat := 0
  let payload : Bytes := [1#8]
  let x : Nat := 0
  let s : State := { hw := { ((mk []).hw.ts (GEM_PORT.VALID 0 0) 1 |>.ts (GEM_PORT.PORT_ID 0 0) 9) with trk := { dln := [(0, { inFrame := true, hl := some true, fsLeft := 100 })] } } }
  let h := s.hw
  let g := h.modDln c (fun d => { d with firstGem := false, fsLeft := d.fsLeft - 8 - pli })
  let n := (g.note c 8 (payload.take pli).length).note c 40
  (h.dln c).inPayload = true ∧
  8 ≤ (h.dln c).fsLeft ∧
  (h.dln c).frag = none ∧
  pli ≤ min remaining ((h.dln c).fsLeft - 8) ∧
  g.gemPort c port = some x ∧
  n.t (GEM_PORT.ENC_REQ c x) = 0 ∧
  (h.dln c).fragDue = false := by
  dsimp only <;> decide +kernel

theorem meets_gemFrameRx_lost :
  let c : Fin 4 := 0
  let s : State := { hw := { trk := { dln := [(0, { inFrame := true, hl := some true, fsLeft := 100 })] } } }
  let h := s.hw
  (h.dln c).inPayload = true ∧
  8 ≤ (h.dln c).fsLeft ∧
  (h.dln c).fragDue = false := by
  dsimp only <;> decide +kernel

theorem meets_emit :
  let e : Fin 64 := 0
  let v : Word := 0#32
  let t : Task := { desc := [], pkt := some { bytes := List.replicate 64 0, source := 513 } }
  let p : Pkt := { bytes := List.replicate 64 0, source := 513 }
  let bs : Bytes := List.replicate 82 0
  let s : State := { hw := { { (mk []).hw.setWord (ENG_CMD_ARG.A 0 1) (BitVec.ofNat 32 (0x80 + 512 * 18)) with til := { engs := [(0, { run := some { desc := [], pkt := some { bytes := List.replicate 64 0, source := 513 } } })] } } with freeCtr := 0 } }
  let h := s.hw
  let g := ((h.reached (.engine e) (ENG_CMD.A e)).plainWrite (ENG_CMD.A e) v).perf e 0x0E
  h.executing e = true ∧
  h.admits (.engine e) (ENG_CMD.A e) true ∧
  (g.eng e).run = some t ∧
  t.pkt = some p ∧
  g.emitBytes e p = some bs ∧
  t.spread = none := by
  dsimp only <;> decide +kernel

theorem meets_emit_no_pkt :
  let e : Fin 64 := 0
  let v : Word := 0#32
  let t : Task := {}
  let s : State := { hw := { (mk []).hw with til := { engs := [(0, { run := some {} })] } } }
  let h := s.hw
  let g := ((h.reached (.engine e) (ENG_CMD.A e)).plainWrite (ENG_CMD.A e) v).perf e 0x0E
  h.executing e = true ∧
  h.admits (.engine e) (ENG_CMD.A e) true ∧
  (g.eng e).run = some t ∧
  t.pkt = none := by
  dsimp only <;> decide +kernel

theorem meets_emitCopy :
  let e : Fin 64 := 0
  let v : Word := 0#32
  let t : Task := { desc := [], pkt := some { bytes := List.replicate 64 0, source := 513 } }
  let p : Pkt := { bytes := List.replicate 64 0, source := 513 }
  let bs : Bytes := List.replicate 82 0
  let s : State := { hw := { { (mk []).hw.setWord (ENG_CMD_ARG.A 0 1) (BitVec.ofNat 32 (0x80 + 512 * 18)) with til := { engs := [(0, { run := some { desc := [], pkt := some { bytes := List.replicate 64 0, source := 513 } } })] } } with freeCtr := 0 } }
  let h := s.hw
  let g := ((h.reached (.engine e) (ENG_CMD.A e)).plainWrite (ENG_CMD.A e) v).perf e 0x0E
  let k := g.emitPkt e t p bs
  h.executing e = true ∧
  h.admits (.engine e) (ENG_CMD.A e) true ∧
  (g.eng e).run = some t ∧
  t.pkt = some p ∧
  g.emitBytes e p = some bs ∧
  k.cells ≤ g.freeCells ∧
  t.spread = none := by
  dsimp only <;> decide +kernel

theorem meets_emitCopy_cells :
  let e : Fin 64 := 0
  let v : Word := 0#32
  let t : Task := { desc := [], pkt := some { bytes := List.replicate 64 0, source := 513 } }
  let p : Pkt := { bytes := List.replicate 64 0, source := 513 }
  let bs : Bytes := List.replicate 82 0
  let s : State := { hw := { { (mk []).hw.setWord (ENG_CMD_ARG.A 0 1) (BitVec.ofNat 32 (0x80 + 512 * 18)) with til := { engs := [(0, { run := some { desc := [], pkt := some { bytes := List.replicate 64 0, source := 513 } } })] } } with grn := { flush := some { cells := 262144 } } } }
  let h := s.hw
  let g := ((h.reached (.engine e) (ENG_CMD.A e)).plainWrite (ENG_CMD.A e) v).perf e 0x0E
  h.executing e = true ∧
  h.admits (.engine e) (ENG_CMD.A e) true ∧
  (g.eng e).run = some t ∧
  t.pkt = some p ∧
  g.emitBytes e p = some bs ∧
  g.freeCells < (g.emitPkt e t p bs).cells := by
  dsimp only <;> decide +kernel

theorem meets_drop :
  let e : Fin 64 := 0
  let v : Word := 0#32
  let t : Task := { desc := [], pkt := some { bytes := List.replicate 64 0, source := 513 } }
  let p : Pkt := { bytes := List.replicate 64 0, source := 513 }
  let s : State := { hw := { (mk []).hw with til := { engs := [(0, { run := some { desc := [], pkt := some { bytes := List.replicate 64 0, source := 513 } } })] } } }
  let h := s.hw
  let g := ((h.reached (.engine e) (ENG_CMD.A e)).plainWrite (ENG_CMD.A e) v).perf e 0x0E
  h.executing e = true ∧
  h.admits (.engine e) (ENG_CMD.A e) true ∧
  (g.eng e).run = some t ∧
  t.pkt = some p := by
  dsimp only <;> decide +kernel

theorem meets_new :
  let e : Fin 64 := 0
  let v : Word := 0#32
  let s : State := { hw := { { (mk []).hw.setWord (ENG_CMD_ARG.A 0 2) 18#32 with til := { engs := [(0, { run := some {} })] } } with freeCtr := 0 } }
  let h := s.hw
  let g := ((h.reached (.engine e) (ENG_CMD.A e)).plainWrite (ENG_CMD.A e) v).perf e 0x0E
  let off := getField (g.arg e 1) 0 17
  let len := getField (g.arg e 2) 0 14
  let t := (g.eng e).run.getD {}
  let p := ({ bytes := g.dmemBytes e off len, source := 513, tc := getField (g.arg e 3) 0 3, color := min 2 (getField (g.arg e 3) 3 2), untrusted := t.untrusted } : Pkt)
  h.executing e = true ∧
  h.admits (.engine e) (ENG_CMD.A e) true ∧
  18 ≤ len ∧
  len ≤ 12288 ∧
  off + len ≤ 0x20000 ∧
  p.cells ≤ g.freeCells ∧
  t.spread = none := by
  dsimp only <;> decide +kernel

theorem meets_new_bad :
  let e : Fin 64 := 0
  let v : Word := 0#32
  let s : State := { hw := { (mk []).hw with til := { engs := [(0, { run := some { desc := [], pkt := some { bytes := List.replicate 64 0, source := 513 } } })] } } }
  let h := s.hw
  let g := ((h.reached (.engine e) (ENG_CMD.A e)).plainWrite (ENG_CMD.A e) v).perf e 0x0E
  h.executing e = true ∧
  h.admits (.engine e) (ENG_CMD.A e) true ∧
  (getField (g.arg e 2) 0 14 < 18 ∨ 12288 < getField (g.arg e 2) 0 14 ∨ 0x20000 < getField (g.arg e 1) 0 17 + getField (g.arg e 2) 0 14) := by
  dsimp only <;> decide +kernel

theorem meets_post :
  let e : Fin 64 := 0
  let v : Word := 0#32
  let k : Task := ((mk [((Fn.engine 0).STATE, 2)]).hw.postTask 0 none false).2
  let moved : Bool := false
  let s : State := { hw := { { (mk [((Fn.engine 0).STATE, 2), (TIL_CL_CFG.CL_QUOTA 0, 8)]).hw with til := { engs := [(0, { run := some {} })] } } with freeCtr := 0 } }
  let h := s.hw
  let g := ((h.reached (.engine e) (ENG_CMD.A e)).plainWrite (ENG_CMD.A e) v).perf e 0x0E
  let r := g.postTask e none (((g.eng e).run.map Task.ds).getD false)
  h.executing e = true ∧
  h.admits (.engine e) (ENG_CMD.A e) true ∧
  (g.arg e 0).toNat % 64 = 0 ∧
  (g.arg e 0).toNat < 0x20000 ∧
  getField (g.arg e 1) 12 1 = 0 ∧
  getField (g.arg e 2) 0 24 = 0 ∧
  r.1.taskRoute r.2 = some (k, moved) ∧
  r.1.freeDescs ≠ 0 ∧
  r.1.readyCount (k.engine / 8) < r.1.rd (TIL_CL_CFG.CL_QUOTA (k.engine / 8)) := by
  dsimp only <;> decide +kernel

theorem meets_post_no_engine :
  let e : Fin 64 := 0
  let v : Word := 0#32
  let s : State := { hw := { { (mk []).hw with til := { engs := [(0, { run := some {} })] } } with freeCtr := 0 } }
  let h := s.hw
  let g := ((h.reached (.engine e) (ENG_CMD.A e)).plainWrite (ENG_CMD.A e) v).perf e 0x0E
  let r := g.postTask e none (((g.eng e).run.map Task.ds).getD false)
  h.executing e = true ∧
  h.admits (.engine e) (ENG_CMD.A e) true ∧
  (g.arg e 0).toNat % 64 = 0 ∧
  (g.arg e 0).toNat < 0x20000 ∧
  getField (g.arg e 1) 12 1 = 0 ∧
  getField (g.arg e 2) 0 24 = 0 ∧
  r.1.taskRoute r.2 = none := by
  dsimp only <;> decide +kernel

theorem meets_post_delay :
  let e : Fin 64 := 0
  let v : Word := 0#32
  let s : State := { hw := { { (mk []).hw.setWord (ENG_CMD_ARG.A 0 2) 3#32 with til := { engs := [(0, { run := some {} })] } } with freeCtr := 0 } }
  let h := s.hw
  let g := ((h.reached (.engine e) (ENG_CMD.A e)).plainWrite (ENG_CMD.A e) v).perf e 0x0E
  let r := g.postTask e none (((g.eng e).run.map Task.ds).getD false)
  let i := getField (g.arg e 1) 10 2
  let used := (r.1.delayList i).map Delayed.entry
  let d := getField (g.arg e 2) 0 24
  h.executing e = true ∧
  h.admits (.engine e) (ENG_CMD.A e) true ∧
  (g.arg e 0).toNat % 64 = 0 ∧
  (g.arg e 0).toNat < 0x20000 ∧
  getField (g.arg e 1) 12 1 = 0 ∧
  d ≠ 0 ∧
  used.length < 16384 ∧
  r.1.freeDescs ≠ 0 := by
  dsimp only <;> decide +kernel

theorem meets_post_bad :
  let e : Fin 64 := 0
  let v : Word := 0#32
  let s : State := { hw := { { (mk []).hw.setWord (ENG_CMD_ARG.A 0 0) 3#32 with til := { engs := [(0, { run := some {} })] } } with freeCtr := 0 } }
  let h := s.hw
  let g := ((h.reached (.engine e) (ENG_CMD.A e)).plainWrite (ENG_CMD.A e) v).perf e 0x0E
  h.executing e = true ∧
  h.admits (.engine e) (ENG_CMD.A e) true ∧
  ((g.arg e 0).toNat % 64 ≠ 0 ∨ 0x20000 ≤ (g.arg e 0).toNat) := by
  dsimp only <;> decide +kernel

theorem meets_cancel :
  let e : Fin 64 := 0
  let v : Word := 0#32
  let d : Delayed := Delayed.mk 0 0 0 {}
  let s : State := { hw := { til := { engs := [(0, { run := some {} })], delay := [Delayed.mk 0 0 0 {}] } } }
  let h := s.hw
  let g := ((h.reached (.engine e) (ENG_CMD.A e)).plainWrite (ENG_CMD.A e) v).perf e 0x0E
  h.executing e = true ∧
  h.admits (.engine e) (ENG_CMD.A e) true ∧
  g.til.delay.find? (fun d => d.list == getField (g.arg e 3) 16 2 && d.entry == getField (g.arg e 3) 0 14) = some d := by
  dsimp only <;> decide +kernel

theorem meets_cancel_not_found :
  let e : Fin 64 := 0
  let v : Word := 0#32
  let s : State := { hw := { (mk []).hw with til := { engs := [(0, { run := some { desc := [], pkt := some { bytes := List.replicate 64 0, source := 513 } } })] } } }
  let h := s.hw
  let g := ((h.reached (.engine e) (ENG_CMD.A e)).plainWrite (ENG_CMD.A e) v).perf e 0x0E
  h.executing e = true ∧
  h.admits (.engine e) (ENG_CMD.A e) true ∧
  g.til.delay.find? (fun d => d.list == getField (g.arg e 3) 16 2 && d.entry == getField (g.arg e 3) 0 14) = none := by
  dsimp only <;> decide +kernel

theorem meets_endTask :
  let e : Fin 64 := 0
  let v : Word := 0#32
  let t : Task := { desc := [], pkt := some { bytes := List.replicate 64 0, source := 513 } }
  let s : State := { hw := { (mk []).hw with til := { engs := [(0, { run := some { desc := [], pkt := some { bytes := List.replicate 64 0, source := 513 } } })] } } }
  let h := s.hw
  let g := ((h.reached (.engine e) (ENG_CMD.A e)).plainWrite (ENG_CMD.A e) v).perf e 0x0E
  h.executing e = true ∧
  h.admits (.engine e) (ENG_CMD.A e) true ∧
  (g.eng e).run = some t := by
  dsimp only <;> decide +kernel

theorem meets_endTask_init :
  let e : Fin 64 := 0
  let v : Word := 0#32
  let s : State := { hw := { (mk [((Fn.engine 0).STATE, 1)]).hw with til := { engs := [(0, { init := true })] } } }
  let h := s.hw
  let g := ((h.reached (.engine e) (ENG_CMD.A e)).plainWrite (ENG_CMD.A e) v).perf e 0x0E
  h.executing e = true ∧
  h.admits (.engine e) (ENG_CMD.A e) true ∧
  (g.eng e).run = none ∧
  ((g.modEng e (fun x => { x with init := false })).lcOn (engFn e)).engOn e = true := by
  dsimp only <;> decide +kernel

theorem meets_engineFault :
  let e : Fin 64 := 0
  let code : Fin 8 := 2
  let s : State := { hw := { til := { engs := [(0, { run := some {} })] } } }
  let h := s.hw
  let b := (h.count (ENG_CNT.COUNT e 1)).raise (0x6000000 + e * 0x10000) EV_ENG.ENG_FAULT_EV
  let c := if code.val = 3 ∨ code.val = 4 then b.raise (0x6000000 + e * 0x10000) EV.MEM_UNCORR else b
  h.faultMay e code = true ∧
  h.rd (ENG_FAULT_ADDR_HI.FAULT_VALID e) = 0 ∧
  c.rd (ENG_FAULT_ADDR_HI.FAULT_VALID e) ≠ 1 := by
  dsimp only <;> decide +kernel

theorem meets_engineFault_held :
  let e : Fin 64 := 0
  let code : Fin 8 := 2
  let s : State := { hw := { (mk [(ENG_FAULT_ADDR_HI.FAULT_VALID 0, 1)]).hw with til := { engs := [(0, { run := some {} })] } } }
  let h := s.hw
  let b := (h.count (ENG_CNT.COUNT e 1)).raise (0x6000000 + e * 0x10000) EV_ENG.ENG_FAULT_EV
  let c := if code.val = 3 ∨ code.val = 4 then b.raise (0x6000000 + e * 0x10000) EV.MEM_UNCORR else b
  h.faultMay e code = true ∧
  c.rd (ENG_FAULT_ADDR_HI.FAULT_VALID e) = 1 := by
  dsimp only <;> decide +kernel

theorem meets_engineDataAccess :
  let e : Fin 64 := 0
  let a : Fin 1099511627776 := 0x10000
  let n : Fin 65 := 4
  let s : State := { hw := { til := { engs := [(0, { run := some {} })] } } }
  let h := s.hw
  h.executing e = true ∧
  n.val ≠ 0 ∧
  0x10000 ≤ a.val ∧
  a.val + n.val ≤ 0x30000 := by
  dsimp only <;> decide +kernel

theorem meets_engineDataAccess_store :
  let e : Fin 64 := 0
  let a : Fin 1099511627776 := 0x10000
  let bs : Bytes := [1]
  let s : State := { hw := { til := { engs := [(0, { run := some {} })] } } }
  let h := s.hw
  h.executing e = true ∧
  bs ≠ [] ∧
  0x10000 ≤ a.val ∧
  a.val + bs.length ≤ 0x30000 := by
  dsimp only <;> decide +kernel

theorem meets_engineDataAccess_fault :
  let e : Fin 64 := 0
  let a : Fin 1099511627776 := 0
  let n : Fin 65 := 4
  let s : State := { hw := { til := { engs := [(0, { run := some {} })] } } }
  let h := s.hw
  h.executing e = true ∧
  n.val ≠ 0 ∧
  a.val < 0x10000 := by
  dsimp only <;> decide +kernel

theorem meets_engineDataAccess_register :
  let e : Fin 64 := 0
  let a : Fin 1099511627776 := 0x202004
  let s : State := { hw := { til := { engs := [(0, { run := some {} })] } } }
  let h := s.hw
  let g := 0x6000000 + e * 0x10000 + (a.val - 0x200000)
  h.executing e = true ∧
  0x200000 ≤ a.val ∧
  a.val + 4 ≤ 0x210000 ∧
  h.accessError (.engine e) g 4 true = 0 := by
  dsimp only <;> decide +kernel

theorem meets_engineDataAccess_reserved :
  let e : Fin 64 := 0
  let a : Fin 1099511627776 := 0x106000000
  let n : Fin 65 := 4
  let s : State := { hw := { til := { engs := [(0, { run := some {} })] } } }
  let h := s.hw
  h.executing e = true ∧
  n.val = 4 ∧
  0x106000000 ≤ a.val ∧
  a.val + 4 ≤ 0x107000000 := by
  dsimp only <;> decide +kernel

theorem meets_taskDispatch :
  let e : Fin 64 := 0
  let t : Task := {}
  let s : State := { hw := { (mk [((Fn.engine 0).STATE, 2)]).hw with til := { ready := [{}] } } }
  let h := s.hw
  h.engIdle e = true ∧
  h.bestReady (fun t => t.fits e && ((List.range (e % 8)).all (fun j => !h.engIdle (e / 8 * 8 + j)) || !t.any)) = some t := by
  dsimp only <;> decide +kernel

theorem meets_tillerTick :
  let i : Fin 4 := 0
  let s : State := { hw := { (mk []).hw with tim := { now := { sec := 1 } } } }
  let h := s.hw
  let p := h.til.tickPer.get 10 i * 100
  let now := h.tim.now.abs
  let n := tickIndex p now - tickIndex p (h.til.tickAt.get 0 i)
  h.timRuns = true ∧
  h.rd (TIL_TICK.FALLBACK i) = 0 ∧
  n ≠ 0 := by
  dsimp only <;> decide +kernel

theorem meets_tillerTick_fallback :
  let s : State := { hw := (mk []).hw.setCond 31 1 }
  let h := s.hw
  h.timRuns = false := by
  dsimp only <;> decide +kernel

theorem meets_delayDue :
  let i : Fin 4 := 0
  let d : Delayed := Delayed.mk 0 0 0 {}
  let late : Nat := 0
  let t : Task := {}
  let moved : Bool := false
  let s : State := { hw := { (mk [((Fn.engine 0).STATE, 2), (TIL_CL_CFG.CL_QUOTA 0, 8)]).hw with til := { delay := [Delayed.mk 0 0 0 {}] } } }
  let h := s.hw
  h.firstDue i = some (d, late) ∧
  h.taskRoute d.task = some (t, moved) ∧
  h.readyCount (t.engine / 8) < h.rd (TIL_CL_CFG.CL_QUOTA (t.engine / 8)) := by
  dsimp only <;> decide +kernel

theorem meets_delayDue_waits :
  let i : Fin 4 := 0
  let d : Delayed := Delayed.mk 0 0 0 {}
  let late : Nat := 0
  let t : Task := {}
  let moved : Bool := false
  let s : State := { hw := { (mk [((Fn.engine 0).STATE, 2), (TIL_CL_CFG.CL_QUOTA 0, 0)]).hw with til := { delay := [Delayed.mk 0 0 0 {}] } } }
  let h := s.hw
  h.firstDue i = some (d, late) ∧
  h.taskRoute d.task = some (t, moved) ∧
  h.rd (TIL_CL_CFG.CL_QUOTA (t.engine / 8)) ≤ h.readyCount (t.engine / 8) := by
  dsimp only <;> decide +kernel

theorem meets_clusterDrainDone :
  let k : Fin 8 := 0
  let s : State := mk [(TIL_CL_STATUS.DRAINING 0, 1)]
  let h := s.hw
  h.rd (TIL_CL_STATUS.DRAINING k) = 1 ∧
  h.drained k = true ∧
  (List.range 8).all (fun j => h.rd (engFn (8 * k + j)).HELD == 1) = false := by
  dsimp only <;> decide +kernel

theorem meets_meterStatWrite :
  let m : Master := .jtag
  let s : State := mk []
  s.hw.admits m 0x3000048 true := by
  dsimp only <;> decide +kernel

theorem meets_queueFlush :
  let m : Master := .jtag
  let v : Word := 0x80000005#32
  let s : State := mk []
  s.hw.admits m GRN_Q_FLUSH.A true ∧
  getField v 31 1 = 1 := by
  dsimp only <;> decide +kernel

theorem meets_flushOnchipRelease :
  let f : Flush := { queue := 3 }
  let s : State := { hw := { grn := { flush := some { queue := 3 } } } }
  let h := s.hw
  h.grn.flush = some f := by
  dsimp only <;> decide +kernel

theorem meets_queueFlushDone :
  let f : Flush := { queue := 3, cells := 0, released := true }
  let s : State := { hw := { grn := { flush := some { queue := 3 } } } }
  let h := s.hw
  h.flushRelease.grn.flush = some f := by
  dsimp only <;> decide +kernel

theorem meets_spillMove :
  let q : Fin 262144 := 0
  let p : Stored := { pkt := { bytes := [] }, loc := .staging }
  let g : Hw := ((({ (mk [(GRN_DRAM_CFG.DRAM_UP, 1)]).hw with grn := { queues := [(0, { pkts := [{ pkt := { bytes := [] }, loc := .staging }] })] } } : Hw).placeExt 0 8 64 []).getD ({}, [])).1
  let bs : List (Nat × Nat) := [(0, 0)]
  let s : State := { hw := { (mk [(GRN_DRAM_CFG.DRAM_UP, 1)]).hw with grn := { queues := [(0, { pkts := [{ pkt := { bytes := [] }, loc := .staging }] })] } } }
  let h := s.hw
  (h.queue q).pkts.find? (fun p => p.loc == .staging) = some p ∧
  h.placeExt q 8 (extSize p.pkt.len) [] = some (g, bs) := by
  dsimp only <;> decide +kernel

theorem meets_refillMove :
  let q : Fin 262144 := 0
  let p : Stored := { pkt := { bytes := [1] }, loc := .ext [(0, 0)] }
  let s : State := { hw := { ((mk []).hw.ts (QUEUE_CFG.REFILL_TH 0) 2 |>.ts (QUEUE_CFG.MIN_CELLS 0) 1) with grn := { queues := [(0, { pkts := [{ pkt := { bytes := [1] }, loc := .ext [(0, 0)] }] })] } } }
  let h := s.hw
  (h.queue q).pkts.find? Stored.readable = some p ∧
  (h.queue q).onchip < h.t (QUEUE_CFG.REFILL_TH q) ∧
  h.cellsFor q p.pkt.cells = true := by
  dsimp only <;> decide +kernel

theorem meets_dramInit :
  let m : Master := .jtag
  let v : Word := 0x10000#32
  let s : State := mk []
  let h := s.hw.reached m GRN_DRAM_CFG.A
  let g := h.plainWrite GRN_DRAM_CFG.A v
  s.hw.admits m GRN_DRAM_CFG.A true ∧
  getField v 16 1 = 1 ∧
  g.bulkLeft = true ∧
  g.rd GRN_DRAM_CFG.DRAM_UP = 0 := by
  dsimp only <;> decide +kernel

theorem meets_dramUp :
  let s : State := { hw := { grn := { training := true } } }
  let h := s.hw
  h.grn.training = true := by
  dsimp only <;> decide +kernel

theorem meets_dramRetrain :
  let m : Master := .jtag
  let r : Fin 4 := 0
  let v : Word := 1#32
  let s : State := mk [(GRN_DRAM_CFG.DRAM_UP, 1)]
  let h := s.hw.reached m (GRN_DRAM_CH_CTRL.A r)
  s.hw.admits m (GRN_DRAM_CH_CTRL.A r) true ∧
  getField v 0 1 = 1 ∧
  h.dramActive r = true := by
  dsimp only <;> decide +kernel

theorem meets_dramRetrainComplete :
  let r : Fin 4 := 0
  let pass : Bool := true
  let s : State := mk [(GRN_DRAM_CH_STATUS.CH_STATE 0, 1)]
  let h := s.hw
  h.chState r = 1 ∧
  pass = true := by
  dsimp only <;> decide +kernel

theorem meets_dramRetrainComplete_fail :
  let r : Fin 4 := 0
  let pass : Bool := 0
  let s : State := mk [(GRN_DRAM_CH_STATUS.CH_STATE 0, 1)]
  let h := s.hw
  h.chState r = 1 ∧
  pass = false := by
  dsimp only <;> decide +kernel

theorem meets_dramRetire :
  let m : Master := .jtag
  let r : Fin 4 := 0
  let v : Word := 2#32
  let s : State := mk [(GRN_DRAM_CFG.DRAM_UP, 1)]
  let h := s.hw.reached m (GRN_DRAM_CH_CTRL.A r)
  s.hw.admits m (GRN_DRAM_CH_CTRL.A r) true ∧
  getField v 1 1 = 1 ∧
  h.dramActive r = true ∧
  (List.range 4).all (fun q => h.chState q != 3) = true := by
  dsimp only <;> decide +kernel

theorem meets_dramPageCopyDone :
  let r : Fin 4 := 0
  let s : State := mk [(GRN_DRAM_CH_STATUS.CH_STATE 0, 2), (GRN_DRAM_CFG.SHARED, 1)]
  let h := s.hw
  h.chState r = 2 ∧
  (h.dramCh r).copied < h.sharedPages := by
  dsimp only <;> decide +kernel

theorem meets_dramRelocationDone :
  let r : Fin 4 := 0
  let s : State := mk [(GRN_DRAM_CH_STATUS.CH_STATE 0, 2), (GRN_DRAM_CFG.SHARED, 0)]
  let h := s.hw
  let x := h.relocate r (h.blocksUsed r)
  h.chState r = 2 ∧
  (h.dramCh r).copied = h.sharedPages ∧
  x.2 = true := by
  dsimp only <;> decide +kernel

theorem meets_dramUncorrError :
  let r : Fin 4 := 0
  let w : UncorrAt := .window
  let s : State := mk [(GRN_DRAM_LOOP.FAIL_LIMIT, 16)]
  let h := s.hw
  let g := ((h.answer 0#32).grnRaise EV.MEM_UNCORR).grnRaise EV_GRN.DRAM_UNCORR_EV
  let k := g.modDram r (fun d => { d with errs := d.errs.filter (fun t => decide (g.clk - t < 1000000000)) ++ [g.clk] })
  w = .window ∧
  (k.dramCh r).errs.length < k.rd GRN_DRAM_LOOP.FAIL_LIMIT := by
  dsimp only <;> decide +kernel

theorem meets_dramUncorrError_packet :
  let r : Fin 4 := 0
  let q : Fin 262144 := 0
  let s : State := mk [(GRN_DRAM_LOOP.FAIL_LIMIT, 16)]
  let h := s.hw
  let g := (h.uncorrPacket q).grnRaise EV_GRN.DRAM_UNCORR_EV
  let k := g.modDram r (fun d => { d with errs := d.errs.filter (fun t => decide (g.clk - t < 1000000000)) ++ [g.clk] })
  (k.dramCh r).errs.length < k.rd GRN_DRAM_LOOP.FAIL_LIMIT := by
  dsimp only <;> decide +kernel

theorem meets_dramUncorrError_context :
  let r : Fin 4 := 0
  let f : Fin 1048576 := 0
  let s : State := mk [(GRN_DRAM_LOOP.FAIL_LIMIT, 16)]
  let h := s.hw
  let g := (h.ctxReturn s.mem f true 0).grnRaise EV_GRN.DRAM_UNCORR_EV
  let k := g.modDram r (fun d => { d with errs := d.errs.filter (fun t => decide (g.clk - t < 1000000000)) ++ [g.clk] })
  (k.dramCh r).errs.length < k.rd GRN_DRAM_LOOP.FAIL_LIMIT := by
  dsimp only <;> decide +kernel

theorem meets_dramUncorrError_fail :
  let r : Fin 4 := 0
  let w : UncorrAt := .window
  let s : State := mk [(GRN_DRAM_LOOP.FAIL_LIMIT, 1), (GRN_DRAM_CFG.DRAM_UP, 1)]
  let h := s.hw
  let g := ((h.answer 0#32).grnRaise EV.MEM_UNCORR).grnRaise EV_GRN.DRAM_UNCORR_EV
  let k := g.modDram r (fun d => { d with errs := d.errs.filter (fun t => decide (g.clk - t < 1000000000)) ++ [g.clk] })
  w = .window ∧
  k.rd GRN_DRAM_LOOP.FAIL_LIMIT ≤ (k.dramCh r).errs.length ∧
  k.rd GRN_DRAM_CFG.DRAM_UP = 1 ∧
  (k.chState r = 0 ∨ k.chState r = 2) := by
  dsimp only <;> decide +kernel

theorem meets_refreshAdjust :
  let r : Fin 4 := 0
  let want : Fin 5 := 0
  let s : State := mk [(GRN_DRAM_LOOP.REF_MIN, 0), (GRN_DRAM_LOOP.REF_MAX, 4)]
  let h := s.hw
  h.domRuns 14 = true ∧
  h.rd GRN_DRAM_LOOP.REF_MIN ≤ h.rd (GRN_DRAM_CH_STATUS.REF_CODE r) ∧ h.rd (GRN_DRAM_CH_STATUS.REF_CODE r) ≤ h.rd GRN_DRAM_LOOP.REF_MAX ∧
  h.rd GRN_DRAM_LOOP.REF_MIN ≤ want.val ∧
  want.val ≤ h.rd GRN_DRAM_LOOP.REF_MAX := by
  dsimp only <;> decide +kernel

theorem meets_refreshAdjust_clamp :
  let r : Fin 4 := 0
  let want : Fin 5 := 0
  let s : State := mk [(GRN_DRAM_LOOP.REF_MIN, 2), (GRN_DRAM_LOOP.REF_MAX, 4)]
  let h := s.hw
  let into := fun k => min (max k (h.rd GRN_DRAM_LOOP.REF_MIN)) (h.rd GRN_DRAM_LOOP.REF_MAX)
  let cur := h.rd (GRN_DRAM_CH_STATUS.REF_CODE r)
  let aim := if into cur = cur then want.val else cur
  h.domRuns 14 = true ∧
  into aim ≠ aim := by
  dsimp only <;> decide +kernel

theorem meets_clearDebt :
  let m : Master := .jtag
  let v : Word := 0x80000000#32
  let t : Nat := 4
  let n : Nat := 65536
  let s : State := mk []
  s.hw.admits m TMS_SHP_CMD.A true ∧
  getField v 31 1 = 1 ∧
  shaperLevel (getField v 0 3) = some (t, n) ∧
  getField v 4 16 < n := by
  dsimp only <;> decide +kernel

theorem meets_clearDebt_bad :
  let m : Master := .jtag
  let v : Word := 0x80000007#32
  let s : State := mk []
  s.hw.admits m TMS_SHP_CMD.A true ∧
  getField v 31 1 = 1 ∧
  shaperLevel (getField v 0 3) = none := by
  dsimp only <;> decide +kernel

theorem meets_getId :
  let m : Master := .jtag
  let v : Word := 0#32
  let s : State := mkHsk
  let h := s.hw.reached m HSK_CMD.A
  let g := h.hskDone.fullWrite HSK_CMD.A v
  s.hw.admits m HSK_CMD.A true ∧
  g.rd HSK_STATUS.HANDOFF ≠ 0 ∧
  g.hsk.fuses.lifecycle ≠ 3 ∧
  g.backed (g.hskAddr 0) 884 = true := by
  dsimp only <;> decide +kernel

theorem meets_getId_mem :
  let m : Master := .jtag
  let v : Word := 0#32
  let s : State := mk [(HSK_STATUS.HANDOFF, 1)]
  let h := s.hw.reached m HSK_CMD.A
  let g := h.hskDone.fullWrite HSK_CMD.A v
  s.hw.admits m HSK_CMD.A true ∧
  g.rd HSK_STATUS.HANDOFF ≠ 0 ∧
  g.hsk.fuses.lifecycle ≠ 3 ∧
  g.backed (g.hskAddr 0) 884 = false := by
  dsimp only <;> decide +kernel

theorem meets_attest :
  let m : Master := .jtag
  let v : Word := 0#32
  let s : State := mkHsk
  let h := s.hw.reached m HSK_CMD.A
  let g := h.hskDone.fullWrite HSK_CMD.A v
  let a := g.hskAddr 0
  s.hw.admits m HSK_CMD.A true ∧
  g.rd HSK_STATUS.HANDOFF ≠ 0 ∧
  g.hsk.fuses.lifecycle ≠ 3 ∧
  g.rd HSK_STATUS.RNG_OK ≠ 0 ∧
  g.backed a 36384 = true := by
  dsimp only <;> decide +kernel

theorem meets_attest_rng :
  let m : Master := .jtag
  let v : Word := 0#32
  let s : State := mk [(HSK_STATUS.HANDOFF, 1), (HSK_STATUS.RNG_OK, 0)]
  let h := s.hw.reached m HSK_CMD.A
  let g := h.hskDone.fullWrite HSK_CMD.A v
  s.hw.admits m HSK_CMD.A true ∧
  g.rd HSK_STATUS.HANDOFF ≠ 0 ∧
  g.hsk.fuses.lifecycle ≠ 3 ∧
  g.rd HSK_STATUS.RNG_OK = 0 := by
  dsimp only <;> decide +kernel

theorem meets_measExtend :
  let m : Master := .jtag
  let v : Word := 0#32
  let s : State := mkHsk
  let h := s.hw.reached m HSK_CMD.A
  let g := h.hskDone.fullWrite HSK_CMD.A v
  let a := g.hskAddr 1
  s.hw.admits m HSK_CMD.A true ∧
  g.rd HSK_STATUS.HANDOFF ≠ 0 ∧
  g.backed a 48 = true := by
  dsimp only <;> decide +kernel

theorem meets_revoke :
  let m : Master := .jtag
  let v : Word := 0#32
  let fail : Bool := 0
  let s : State := { hw := { (mk [(HSK_STATUS.HANDOFF, 1)]).hw with hsk := { ({} : HskSt) with fuses := { ({} : Fuses) with rsaDigest := [(1, [1])] } } } }
  let h := s.hw.reached m HSK_CMD.A
  let g := h.hskDone.fullWrite HSK_CMD.A v
  let alg := getField (g.word (HSK_ARG.A 0)) 0 1
  let slot := getField (g.word (HSK_ARG.A 0)) 1 2
  s.hw.admits m HSK_CMD.A true ∧
  g.rd HSK_STATUS.HANDOFF ≠ 0 ∧
  (g.hsk.signed = false ∨ slot ≠ (if alg = 0 then g.rd HSK_STATUS.RSA_SLOT else g.rd HSK_STATUS.SLH_SLOT)) ∧
  (List.range 4).any (fun i => i != slot && bitN g.hsk.fuses.revoked (4 * alg + i) == 0 && (if alg = 0 then g.hsk.fuses.rsa i else g.hsk.fuses.slh i) != zeros 48) = true ∧
  fail = false := by
  dsimp only <;> decide +kernel

theorem meets_advanceSvn :
  let m : Master := .jtag
  let v : Word := 0#32
  let s : State := { hw := ((mk [(HSK_STATUS.HANDOFF, 1), (HSK_STATUS.IMAGE_SVN, 9)]).hw.setWord (HSK_ARG.A 0) 5#32) }
  let h := s.hw.reached m HSK_CMD.A
  let g := h.hskDone.fullWrite HSK_CMD.A v
  let t := getField (g.word (HSK_ARG.A 0)) 0 7
  s.hw.admits m HSK_CMD.A true ∧
  g.rd HSK_STATUS.HANDOFF ≠ 0 ∧
  t ≤ 64 ∧
  g.hsk.fuses.svn < t ∧
  t ≤ g.rd HSK_STATUS.IMAGE_SVN := by
  dsimp only <;> decide +kernel

theorem meets_advanceSvn_refused :
  let m : Master := .jtag
  let v : Word := 0#32
  let s : State := { hw := ((mk [(HSK_STATUS.HANDOFF, 1)]).hw.setWord (HSK_ARG.A 0) 5#32) }
  let h := s.hw.reached m HSK_CMD.A
  let g := h.hskDone.fullWrite HSK_CMD.A v
  let t := getField (g.word (HSK_ARG.A 0)) 0 7
  s.hw.admits m HSK_CMD.A true ∧
  g.rd HSK_STATUS.HANDOFF ≠ 0 ∧
  t ≤ 64 ∧
  g.hsk.fuses.svn < t ∧
  g.rd HSK_STATUS.IMAGE_SVN < t := by
  dsimp only <;> decide +kernel

theorem meets_setProduction :
  let m : Master := .jtag
  let v : Word := 0#32
  let fail : Bool := 0
  let s : State := { hw := { ((mk [(HSK_STATUS.HANDOFF, 1)]).hw.setWord (HSK_ARG.A 0) 0x4512#32) with hsk := { ({} : HskSt) with fuses := { ({} : Fuses) with lifecycle := 1 } } } }
  let h := s.hw.reached m HSK_CMD.A
  let g := h.hskDone.fullWrite HSK_CMD.A v
  s.hw.admits m HSK_CMD.A true ∧
  g.rd HSK_STATUS.HANDOFF ≠ 0 ∧
  g.word (HSK_ARG.A 0) = 0x4512#32 ∧
  g.hsk.fuses.lifecycle = 1 ∧
  fail = false := by
  dsimp only <;> decide +kernel

theorem meets_hskCmdDone :
  let st : Nat := 0
  let s : State := { hw := { hsk := { ({} : HskSt) with cmd := some 0 } } }
  let h := s.hw
  h.hsk.cmd = some st := by
  dsimp only <;> decide +kernel

theorem meets_hskRngRead :
  let m : Master := .jtag
  let s : State := mk [(HSK_STATUS.RNG_OK, 1)]
  let h := s.hw.reached m HSK_RNG.A
  s.hw.admits m HSK_RNG.A false ∧
  h.rd HSK_STATUS.RNG_OK = 1 := by
  dsimp only <;> decide +kernel

theorem meets_hskRngRead_fail :
  let m : Master := .jtag
  let s : State := mk [(HSK_STATUS.RNG_OK, 0)]
  let h := s.hw.reached m HSK_RNG.A
  s.hw.admits m HSK_RNG.A false ∧
  h.rd HSK_STATUS.RNG_OK ≠ 1 := by
  dsimp only <;> decide +kernel

theorem meets_cveDone_generate :
  let r : CveRun := { op := 1, slot := 0, result := 0, tagLen := 16, mac := List.replicate 16 1 }
  let s : State := { hw := { cip := { ({} : CipSt) with cve := some { op := 1, slot := 0, result := 0, tagLen := 16, mac := List.replicate 16 1 } } } }
  let h := s.hw
  let g := { h with cip := { h.cip with cve := none } }
  let d := ((g.wr CVE_STATUS.BUSY 0).wr CVE_STATUS.RESULT r.result).cipRaise EV_CIP.CVE_DONE
  let n := d.t (CVE_KEY.USES r.slot) + 1
  let u := d.ts (CVE_KEY.USES r.slot) (min n (2 ^ 32 - 1))
  h.cip.cve = some r ∧
  r.op = 1 ∧
  r.result < 3 ∧
  u.t (CVE_KEY.SOFT_USES r.slot) = 0 := by
  dsimp only <;> decide +kernel

theorem meets_cveDone :
  let r : CveRun := { op := 1, slot := 0, result := 3 }
  let s : State := { hw := { cip := { ({} : CipSt) with cve := some { op := 1, slot := 0, result := 3 } } } }
  let h := s.hw
  h.cip.cve = some r ∧
  3 ≤ r.result := by
  dsimp only <;> decide +kernel

theorem meets_zeroise :
  let m : Master := .jtag
  let v : Word := 0x80000000#32
  let s : State := mk []
  s.hw.admits m CIP_CFG.A true ∧
  getField v 31 1 = 1 := by
  dsimp only <;> decide +kernel

theorem meets_zeroiseDone :
  let s : State := { hw := { cip := { ({} : CipSt) with zeroising := true } } }
  let h := s.hw
  h.cip.zeroising = true := by
  dsimp only <;> decide +kernel

theorem meets_cveGenerate :
  let m : Master := .core 0
  let v : Word := 0x80080010#32
  let s : State := mkCve
  let h := s.hw.reached m CVE_CTRL.A
  let g := (h.cveDone).fullWrite CVE_CTRL.A (setField v 0 2 1)
  s.hw.admits m CVE_CTRL.A true ∧
  h.cveOwner m = true ∧
  g.cveRefusal m 1 = none := by
  dsimp only <;> decide +kernel

theorem meets_cveGenerate_refused :
  let m : Master := .core 0
  let v : Word := 0x80000000#32
  let why : Nat := 3
  let s : State := { hw := cored ((mk []).hw.setWord (HW_LOCK.A 0) (BitVec.ofNat 32 (2 + (Master.core 0).id * 256))) }
  let h := s.hw.reached m CVE_CTRL.A
  let g := (h.cveDone).fullWrite CVE_CTRL.A (setField v 0 2 1)
  s.hw.admits m CVE_CTRL.A true ∧
  h.cveOwner m = true ∧
  g.cveRefusal m 1 = some why := by
  dsimp only <;> decide +kernel

theorem meets_cveVerify :
  let m : Master := .core 0
  let v : Word := 0x80080010#32
  let s : State := mkCve
  let h := s.hw.reached m CVE_CTRL.A
  let g := (h.cveDone).fullWrite CVE_CTRL.A (setField v 0 2 2)
  s.hw.admits m CVE_CTRL.A true ∧
  h.cveOwner m = true ∧
  g.cveRefusal m 2 = none := by
  dsimp only <;> decide +kernel

theorem meets_cveVerify_refused :
  let m : Master := .core 0
  let v : Word := 0x80000000#32
  let why : Nat := 3
  let s : State := { hw := cored ((mk []).hw.setWord (HW_LOCK.A 0) (BitVec.ofNat 32 (2 + (Master.core 0).id * 256))) }
  let h := s.hw.reached m CVE_CTRL.A
  let g := (h.cveDone).fullWrite CVE_CTRL.A (setField v 0 2 2)
  s.hw.admits m CVE_CTRL.A true ∧
  h.cveOwner m = true ∧
  g.cveRefusal m 2 = some why := by
  dsimp only <;> decide +kernel

theorem meets_cveDerive :
  let m : Master := .core 0
  let v : Word := 0x80080010#32
  let s : State := mkCve
  let h := s.hw.reached m CVE_CTRL.A
  let g := (h.cveDone).fullWrite CVE_CTRL.A (setField v 0 2 3)
  s.hw.admits m CVE_CTRL.A true ∧
  h.cveOwner m = true ∧
  g.cveRefusal m 3 = none := by
  dsimp only <;> decide +kernel

theorem meets_cveDerive_refused :
  let m : Master := .core 0
  let v : Word := 0x80000000#32
  let why : Nat := 3
  let s : State := { hw := cored ((mk []).hw.setWord (HW_LOCK.A 0) (BitVec.ofNat 32 (2 + (Master.core 0).id * 256))) }
  let h := s.hw.reached m CVE_CTRL.A
  let g := (h.cveDone).fullWrite CVE_CTRL.A (setField v 0 2 3)
  s.hw.admits m CVE_CTRL.A true ∧
  h.cveOwner m = true ∧
  g.cveRefusal m 3 = some why := by
  dsimp only <;> decide +kernel

theorem meets_cdrLockAcquired :
  let c : Fin 4 := 0
  let s : State := mk [(TRK_PMA_STATUS.STATE 0, 2), (TRK_PMA_STATUS.LOS 0, 0)]
  let h := s.hw
  h.cdrRuns c = true ∧
  h.rd (TRK_PMA_STATUS.LOS c) = 0 ∧
  h.rd (TRK_PMA_STATUS.CDR_LOCK c) = 0 ∧
  (h.act c).rxOn = true := by
  dsimp only <;> decide +kernel

theorem meets_cdrUnlock :
  let c : Fin 4 := 0
  let s : State := mk [(TRK_PMA_STATUS.CDR_LOCK 0, 1)]
  let h := s.hw
  h.rd (TRK_PMA_STATUS.CDR_LOCK c) = 1 := by
  dsimp only <;> decide +kernel

theorem meets_adaptStep_within :
  let c : Fin 4 := 0
  let ctle : Nat := 3
  let thr : Int := 0
  let s : State := mk [(TRK_RX_BOUNDS.ADAPT_EN 0, 1), (TRK_RX_BOUNDS.CTLE_MAX 0, 15), (TRK_PMA_STATUS.CDR_LOCK 0, 1), (TRK_PMA_STATUS.LOS 0, 0)]
  let h := s.hw
  let m := h.moveCodes (.trunk c)
  h.adapts (.trunk c) = true ∧
  m.rd (TRK_RX_BOUNDS.CTLE_MIN c) ≤ ctle ∧
  ctle ≤ m.rd (TRK_RX_BOUNDS.CTLE_MAX c) ∧
  m.rdS (TRK_RX_BOUNDS.THR_MIN c) ≤ thr ∧
  thr ≤ m.rdS (TRK_RX_BOUNDS.THR_MAX c) := by
  dsimp only <;> decide +kernel

theorem meets_adaptStep_clamp :
  let c : Fin 4 := 0
  let ctle : Nat := 16
  let s : State := mk [(TRK_RX_BOUNDS.ADAPT_EN 0, 1), (TRK_RX_BOUNDS.CTLE_MAX 0, 15), (TRK_PMA_STATUS.CDR_LOCK 0, 1), (TRK_PMA_STATUS.LOS 0, 0)]
  let h := s.hw
  let m := h.moveCodes (.trunk c)
  h.adapts (.trunk c) = true ∧
  m.rd (TRK_RX_BOUNDS.CTLE_MIN c) ≤ m.rd (TRK_RX_BOUNDS.CTLE_MAX c) ∧
  m.rd (TRK_RX_BOUNDS.CTLE_MAX c) < ctle := by
  dsimp only <;> decide +kernel

theorem meets_adaptStep_lane :
  let l : Fin 72 := 0
  let s : State := mk [(SRD_LANE_EQ.ADAPT_EN 0, 1), (SRD_LANE_STATUS.LOCK 0, 1)]
  let h := s.hw
  h.adapts (.sub l) = true := by
  dsimp only <;> decide +kernel

theorem meets_rxBoundsWrite :
  let m : Master := .jtag
  let lane : RxLane := .trunk 0
  let v : Word := 0x80000000#32
  let s : State := mk [(TRK_PMA_STATUS.CDR_LOCK 0, 1), (TRK_PMA_STATUS.LOS 0, 0)]
  let h := s.hw.reached m lane.boundsAddr
  let g := h.fullWrite lane.boundsAddr v
  s.hw.admits m lane.boundsAddr true ∧
  g.adapts lane = true := by
  dsimp only <;> decide +kernel

theorem meets_rxBoundsWrite_frozen :
  let m : Master := .jtag
  let lane : RxLane := .trunk 0
  let v : Word := 0#32
  let s : State := mk []
  let h := s.hw.reached m lane.boundsAddr
  let g := h.fullWrite lane.boundsAddr v
  s.hw.admits m lane.boundsAddr true ∧
  g.adapts lane = false := by
  dsimp only <;> decide +kernel

theorem meets_losCfgWrite :
  let m : Master := .jtag
  let c : Fin 4 := 0
  let s : State := mk []
  s.hw.admits m (TRK_LOS_CFG.A c) true := by
  dsimp only <;> decide +kernel

theorem meets_losSourceChange :
  let c : Fin 4 := 0
  let pin : Bool := true
  let ampMv : Nat := 0
  let s : State := mk []
  let h := s.hw
  let g := h.modOpt c (fun o => { o with losPin := pin, ampMv := ampMv })
  g.domRuns (15 + c) = true := by
  dsimp only <;> decide +kernel

theorem meets_losSourceChange_stopped :
  let c : Fin 4 := 0
  let pin : Bool := true
  let ampMv : Nat := 0
  let s : State := mk [(⟨GLB_SOFT_RESET.A, 15, 1⟩, 1)]
  let h := s.hw
  let g := h.modOpt c (fun o => { o with losPin := pin, ampMv := ampMv })
  g.domRuns (15 + c) = false := by
  dsimp only <;> decide +kernel

theorem meets_losDeclare :
  let c : Fin 4 := 0
  let s : State := { hw := { (mk [(TRK_LOS_CFG.USE_PIN 0, 1), (TRK_PMA_STATUS.LOS 0, 0)]).hw with trk := { optics := [(0, { losPin := true })] } } }
  let h := s.hw
  h.domRuns (15 + c) = true ∧
  h.rd (TRK_PMA_STATUS.LOS c) = 0 ∧
  h.losAsserted c = true := by
  dsimp only <;> decide +kernel

theorem meets_losClear :
  let c : Fin 4 := 0
  let s : State := mk [(TRK_LOS_CFG.USE_PIN 0, 0), (TRK_LOS_CFG.USE_SD 0, 0), (TRK_PMA_STATUS.LOS 0, 1)]
  let h := s.hw
  h.domRuns (15 + c) = true ∧
  h.rd (TRK_PMA_STATUS.LOS c) ≠ 0 ∧
  h.losAsserted c = false := by
  dsimp only <;> decide +kernel

theorem meets_moduleRemoved :
  let c : Fin 4 := 0
  let s : State := mk [(TRK_PMA_STATUS.MOD_ABS 0, 0)]
  let h := s.hw
  h.rd (TRK_PMA_STATUS.MOD_ABS c) ≠ 1 := by
  dsimp only <;> decide +kernel

theorem meets_moduleInserted :
  let c : Fin 4 := 0
  let s : State := mk [(TRK_PMA_STATUS.MOD_ABS 0, 1)]
  let h := s.hw
  h.rd (TRK_PMA_STATUS.MOD_ABS c) ≠ 0 := by
  dsimp only <;> decide +kernel

theorem meets_burstLaunch :
  let c : Fin 4 := 0
  let b : Burst := { kind := .data, staged := true }
  let s : State := { hw := { (mk [(TRK_PMA_STATUS.STATE 0, 2), (TRK_PMA_CTRL.TX_ALLOW 0, 1), (TRK_PMA_STATUS.MOD_ABS 0, 0), (TRK_ACT_STATUS.ACT_STATE 0, 5), (TRK_DLN_STATUS.LODS 0, 0)]).hw with trk := { act := [(0, { bursts := [{ kind := .data, staged := true }] })] } } }
  let h := s.hw
  (h.act c).bursts.find? (fun x => !x.launched) = some b ∧
  b.staged = true ∧
  h.trkOn c = true ∧
  h.rd (TRK_DLN_STATUS.LODS c) ≠ 1 ∧
  h.txdisForced c = false ∧
  h.txdisState c = false ∧
  h.stateSends c b.kind = true ∧
  b.kind ≠ .serial ∧
  b.opened = false := by
  dsimp only <;> decide +kernel

theorem meets_burstLaunch_serial :
  let c : Fin 4 := 0
  let b : Burst := { kind := .serial, staged := true }
  let s : State := { hw := { (mk [(TRK_PMA_STATUS.STATE 0, 2), (TRK_PMA_CTRL.TX_ALLOW 0, 1), (TRK_PMA_STATUS.MOD_ABS 0, 0), (TRK_ACT_STATUS.ACT_STATE 0, 3), (TRK_DLN_STATUS.LODS 0, 0)]).hw with trk := { act := [(0, { bursts := [{ kind := .serial, staged := true }] })] } } }
  let h := s.hw
  (h.act c).bursts.find? (fun x => !x.launched) = some b ∧
  b.staged = true ∧
  h.trkOn c = true ∧
  h.rd (TRK_DLN_STATUS.LODS c) ≠ 1 ∧
  h.txdisForced c = false ∧
  h.txdisState c = false ∧
  h.stateSends c b.kind = true ∧
  b.kind = .serial ∧
  b.opened = false := by
  dsimp only <;> decide +kernel

theorem meets_burstLaunch_dark :
  let c : Fin 4 := 0
  let b : Burst := { kind := .data, staged := true }
  let s : State := { hw := { (mk [(TRK_PMA_STATUS.STATE 0, 2), (TRK_PMA_CTRL.TX_ALLOW 0, 0), (TRK_PMA_STATUS.MOD_ABS 0, 0), (TRK_ACT_STATUS.ACT_STATE 0, 5), (TRK_DLN_STATUS.LODS 0, 0)]).hw with trk := { act := [(0, { bursts := [{ kind := .data, staged := true }] })] } } }
  let h := s.hw
  (h.act c).bursts.find? (fun x => !x.launched) = some b ∧
  b.staged = true ∧
  h.trkOn c = true ∧
  h.rd (TRK_DLN_STATUS.LODS c) ≠ 1 ∧
  h.txdisForced c = true := by
  dsimp only <;> decide +kernel

theorem meets_burstLaunch_merged :
  let c : Fin 4 := 0
  let b : Burst := { kind := .data, staged := true, opened := true }
  let s : State := { hw := { (mk [(TRK_PMA_STATUS.STATE 0, 2), (TRK_PMA_CTRL.TX_ALLOW 0, 1), (TRK_PMA_STATUS.MOD_ABS 0, 0), (TRK_ACT_STATUS.ACT_STATE 0, 5), (TRK_DLN_STATUS.LODS 0, 0)]).hw with trk := { act := [(0, { bursts := [{ kind := .data, staged := true, opened := true }] })] } } }
  let h := s.hw
  (h.act c).bursts.find? (fun x => !x.launched) = some b ∧
  b.staged = true ∧
  h.trkOn c = true ∧
  h.rd (TRK_DLN_STATUS.LODS c) ≠ 1 ∧
  h.txdisForced c = false ∧
  h.txdisState c = false ∧
  h.stateSends c b.kind = true ∧
  b.kind ≠ .serial ∧
  b.opened = true := by
  dsimp only <;> decide +kernel

theorem meets_burstLaunch_state :
  let c : Fin 4 := 0
  let b : Burst := { kind := .data, staged := true, grants := [{}] }
  let s : State := { hw := { (mk [(TRK_PMA_STATUS.STATE 0, 2), (TRK_PMA_CTRL.TX_ALLOW 0, 1), (TRK_PMA_STATUS.MOD_ABS 0, 0), (TRK_ACT_STATUS.ACT_STATE 0, 4), (TRK_DLN_STATUS.LODS 0, 0)]).hw with trk := { act := [(0, { bursts := [{ kind := .data, staged := true, grants := [{}] }] })] } } }
  let h := s.hw
  (h.act c).bursts.find? (fun x => !x.launched) = some b ∧
  b.staged = true ∧
  h.trkOn c = true ∧
  h.rd (TRK_DLN_STATUS.LODS c) ≠ 1 ∧
  h.txdisForced c = false ∧
  (h.txdisState c || !h.stateSends c b.kind) = true := by
  dsimp only <;> decide +kernel

theorem meets_burstEnd :
  let c : Fin 4 := 0
  let b : Burst := { kind := .data, launched := true }
  let s : State := { hw := { trk := { act := [(0, { bursts := [{ kind := .data, launched := true }] })] } } }
  let h := s.hw
  (h.act c).bursts.find? (fun x => x.launched) = some b ∧
  h.mergedNext c b = none := by
  dsimp only <;> decide +kernel

theorem meets_burstEnd_merged :
  let c : Fin 4 := 0
  let b : Burst := { kind := .data, launched := true, lag := 1 }
  let n : Burst := { kind := .data, launched := true }
  let s : State := { hw := { trk := { act := [(0, { bursts := [{ kind := .data, launched := true, lag := 1 }, { kind := .data, launched := true }] })] } } }
  let h := s.hw
  (h.act c).bursts.find? (fun x => x.launched) = some b ∧
  h.mergedNext c b = some n ∧
  n.launched = true := by
  dsimp only <;> decide +kernel

theorem meets_guardOutsideWindow :
  let c : Fin 4 := 0
  let s : State := mk []
  let h := s.hw
  h.cond (15 + c) = 0 ∧
  (h.opt c).windows = 0 := by
  dsimp only <;> decide +kernel

theorem meets_guardTooLong :
  let c : Fin 4 := 0
  let s : State := mk []
  let h := s.hw
  h.cond (15 + c) = 0 := by
  dsimp only <;> decide +kernel

theorem meets_guardPadMismatch :
  let c : Fin 4 := 0
  let s : State := mk []
  let h := s.hw
  h.cond (15 + c) = 0 := by
  dsimp only <;> decide +kernel

theorem meets_twiCommand :
  let m : Master := .jtag
  let c : Fin 4 := 0
  let v : Word := 0x1000000#32
  let s : State := mk []
  let h := s.hw.reached m (TRK_TWI_CMD.A c)
  let g := h.plainWrite (TRK_TWI_CMD.A c) v
  let k := g.wr (TRK_TWI_CMD.BUSY c) 1
  s.hw.admits m (TRK_TWI_CMD.A c) true ∧
  getField v 24 1 ≠ 0 ∧
  g.rd (TRK_TWI_CMD.BUSY c) ≠ 1 ∧
  (k.opt c).polling = false := by
  dsimp only <;> decide +kernel

theorem meets_twiCommand_waits :
  let m : Master := .jtag
  let c : Fin 4 := 0
  let v : Word := 0x1000000#32
  let s : State := { hw := { trk := { optics := [(0, { polling := true })] } } }
  let h := s.hw.reached m (TRK_TWI_CMD.A c)
  let g := h.plainWrite (TRK_TWI_CMD.A c) v
  let k := g.wr (TRK_TWI_CMD.BUSY c) 1
  s.hw.admits m (TRK_TWI_CMD.A c) true ∧
  getField v 24 1 ≠ 0 ∧
  g.rd (TRK_TWI_CMD.BUSY c) ≠ 1 ∧
  (k.opt c).polling = true := by
  dsimp only <;> decide +kernel

theorem meets_twiDone :
  let c : Fin 4 := 0
  let s : State := { hw := { (mk [(TRK_TWI_CMD.READ 0, 1), (TRK_PMA_STATUS.MOD_ABS 0, 0)]).hw with trk := { optics := [(0, { twiCmd := true })] } } }
  let h := s.hw
  (h.opt c).twiCmd = true ∧
  h.rd (TRK_PMA_STATUS.MOD_ABS c) = 0 ∧
  h.rd (TRK_TWI_CMD.READ c) = 1 := by
  dsimp only <;> decide +kernel

theorem meets_twiDone_err :
  let c : Fin 4 := 0
  let e : Fin 5 := 3
  let s : State := { hw := { (mk [(TRK_PMA_STATUS.MOD_ABS 0, 0)]).hw with trk := { optics := [(0, { twiCmd := true })] } } }
  let h := s.hw
  (h.opt c).twiCmd = true ∧
  h.rd (TRK_PMA_STATUS.MOD_ABS c) = 0 ∧
  e.val ≠ 0 := by
  dsimp only <;> decide +kernel

theorem meets_twiRecover :
  let m : Master := .jtag
  let c : Fin 4 := 0
  let v : Word := 0x10000#32
  let s : State := mk []
  let h := s.hw.reached m (TRK_TWI_CFG.A c)
  let g := h.plainWrite (TRK_TWI_CFG.A c) v
  s.hw.admits m (TRK_TWI_CFG.A c) true ∧
  getField v 16 1 ≠ 0 ∧
  ((g.opt c).twiCmd || (g.opt c).polling) = false := by
  dsimp only <;> decide +kernel

theorem meets_twiMonitorPoll :
  let c : Fin 4 := 0
  let s : State := mk [(TRK_TWI_MON_CFG.PERIOD 0, 1), (TRK_PMA_STATUS.MOD_ABS 0, 0)]
  let h := s.hw
  h.rd (TRK_TWI_MON_CFG.PERIOD c) ≠ 0 ∧
  h.rd (TRK_PMA_STATUS.MOD_ABS c) ≠ 1 ∧
  (h.opt c).polling = false ∧
  (h.opt c).twiCmd = false := by
  dsimp only <;> decide +kernel

theorem meets_twiMonitorPoll_done :
  let c : Fin 4 := 0
  let s : State := { hw := { trk := { optics := [(0, { polling := true })] } } }
  let h := s.hw
  (h.opt c).polling = true := by
  dsimp only <;> decide +kernel

theorem meets_twiMonitorPoll_err :
  let c : Fin 4 := 0
  let e : Fin 5 := 3
  let s : State := { hw := { trk := { optics := [(0, { polling := true })] } } }
  let h := s.hw
  (h.opt c).polling = true ∧
  e.val ≠ 0 := by
  dsimp only <;> decide +kernel

theorem meets_prbsClear :
  let m : Master := .jtag
  let lane : RxLane := .trunk 0
  let v : Word := 0x200#32
  let s : State := mk []
  s.hw.admits m lane.prbs.1 true ∧
  getField v 9 1 = 1 := by
  dsimp only <;> decide +kernel

theorem meets_prbsCheckerLock :
  let lane : RxLane := .trunk 0
  let s : State := mk [(TRK_PMA_STATUS.STATE 0, 2), (⟨TRK_PRBS_CTRL.A 0, 4, 3⟩, 1)]
  let h := s.hw
  (h.prbsRuns lane && h.prbsFits lane) = true := by
  dsimp only <;> decide +kernel

theorem meets_prbsLockLoss :
  let lane : RxLane := .trunk 0
  let s : State := mk [(⟨TRK_PRBS_STATUS.A 0, 0, 1⟩, 1)]
  let h := s.hw
  h.rd ⟨lane.prbs.2.1, 0, 1⟩ = 1 := by
  dsimp only <;> decide +kernel

theorem meets_testBurstLaunch :
  let c : Fin 4 := 0
  let s : State := mk [(TRK_TEST_BURST.ARM 0, 1), (TRK_TEST_BURST.PERIOD 0, 100), (TRK_TEST_BURST.LENGTH 0, 10), (TRK_PMA_STATUS.STATE 0, 2), (TRK_PMA_CTRL.TX_ALLOW 0, 1), (TRK_PMA_STATUS.MOD_ABS 0, 0), (TRK_ACT_CTRL.TEST_HOLD 0, 1), (TRK_DLN_STATUS.SYNC_STATE 0, 2), (TRK_GUARD_CFG.MAX_BEN 0, 200)]
  let h := s.hw
  h.rd (TRK_TEST_BURST.ARM c) = 1 ∧
  h.rd (TRK_TEST_BURST.PERIOD c) ≠ 0 ∧
  h.rd (TRK_TEST_BURST.LENGTH c) ≠ 0 ∧
  h.txdisForced c = false ∧
  h.rd (TRK_ACT_CTRL.TEST_HOLD c) = 1 ∧
  h.inSync c = true ∧
  h.windowTooLong c (h.rd (TRK_TEST_BURST.LENGTH c) * 10000000) = false := by
  dsimp only <;> decide +kernel

theorem meets_heDisableOnu :
  let c : Fin 4 := 0
  let serial : Nat := 0
  let s : State := { hw := { trk := { dln := [(0, { inFrame := true, hl := some true, ploamCount := 1 })] } } }
  let h := s.hw
  (h.dln c).good = true ∧
  (h.dln c).maps = 0 ∧
  (h.dln c).ploamCount ≠ 0 ∧
  serial = h.rd (TRK_SERIAL_HI.SERIAL_HI c) * 2 ^ 32 + h.rd (TRK_SERIAL.SERIAL_LO c) := by
  dsimp only <;> decide +kernel

theorem meets_heDisableOnu_other :
  let c : Fin 4 := 0
  let serial : Nat := 1
  let s : State := mk []
  let h := s.hw
  serial ≠ h.rd (TRK_SERIAL_HI.SERIAL_HI c) * 2 ^ 32 + h.rd (TRK_SERIAL.SERIAL_LO c) := by
  dsimp only <;> decide +kernel

theorem meets_heEnableOnu :
  let c : Fin 4 := 0
  let serial : Nat := 0
  let s : State := { hw := { trk := { dln := [(0, { inFrame := true, hl := some true, ploamCount := 1 })] } } }
  let h := s.hw
  (h.dln c).good = true ∧
  (h.dln c).maps = 0 ∧
  (h.dln c).ploamCount ≠ 0 ∧
  serial = h.rd (TRK_SERIAL_HI.SERIAL_HI c) * 2 ^ 32 + h.rd (TRK_SERIAL.SERIAL_LO c) := by
  dsimp only <;> decide +kernel

theorem meets_heDisableAll :
  let c : Fin 4 := 0
  let s : State := { hw := { trk := { dln := [(0, { inFrame := true, hl := some true, ploamCount := 1 })] } } }
  let h := s.hw
  (h.dln c).good = true ∧
  (h.dln c).maps = 0 ∧
  (h.dln c).ploamCount ≠ 0 := by
  dsimp only <;> decide +kernel

theorem meets_heEnableAll :
  let c : Fin 4 := 0
  let s : State := { hw := { trk := { dln := [(0, { inFrame := true, hl := some true, ploamCount := 1 })] } } }
  let h := s.hw
  (h.dln c).good = true ∧
  (h.dln c).maps = 0 ∧
  (h.dln c).ploamCount ≠ 0 := by
  dsimp only <;> decide +kernel

theorem meets_dsSelect :
  let c : Cand := { q := 65536, qn := 0, svc := 0, sub := 0, top := 0, len := 64 }
  let k : Pkt := { bytes := List.replicate 64 0 }
  let g : Hw := ((mkSel.hw.selectTree true 0 (mkSel.hw.nodeCands 0)).getD ({}, { q := 0, qn := 0, svc := 0, sub := 0, top := 0, len := 0 })).1
  let s : State := mkSel
  let h := s.hw
  let nodes := ((h.backlog true).map (fun q => (h.pathOf true q 0).top)).eraseDups
  let a := ((h.pumpAll).lpiWake nodes).dsTrim nodes
  let ok := nodes.filter (fun p => !(a.nodeCands p).isEmpty)
  let p := a.nodeTurn ok
  let n := (g.take c.q).nodeServed p
  ok ≠ [] ∧
  a.selectTree true p (a.nodeCands p) = some (g, c) ∧
  g.headPkt c.q = some k ∧
  p < 512 ∧
  n.forwards = false := by
  dsimp only <;> decide +kernel

theorem meets_pcsLockAcquire :
  let l : Fin 64 := 0
  let s : State := mk [(SRD_LANE_STATUS.STATE 0, 2)]
  let h := s.hw
  (h.lane l).step = none ∧
  h.laneOn l = true ∧
  h.rd (SRD_LANE_STATUS.LOCK l) = 0 := by
  dsimp only <;> decide +kernel

theorem meets_pcsLockLoss :
  let l : Fin 64 := 0
  let s : State := mk [(SRD_LANE_STATUS.LOCK 0, 1)]
  let h := s.hw
  h.rd (SRD_LANE_STATUS.LOCK l) ≠ 0 := by
  dsimp only <;> decide +kernel

theorem meets_polarityFlip :
  let l : Fin 64 := 0
  let s : State := mk [(SRD_LANE_STATUS.STATE 0, 2), (SRD_LANE_CTRL.POL_AUTO 0, 1)]
  let h := s.hw
  h.laneOn l = true ∧
  h.rd (SRD_LANE_CTRL.POL_AUTO l) = 1 := by
  dsimp only <;> decide +kernel

theorem meets_autonegComplete :
  let l : Fin 64 := 0
  let s : State := { hw := ((mk [(SRD_LANE_STATUS.STATE 0, 2), (SRD_LANE_CTRL.AN_EN 0, 1), (SRD_LANE_CTRL.MODE 0, 0)]).hw.capture (.lane 0)) }
  let h := s.hw
  h.laneOn l = true ∧
  h.capRd (SRD_LANE_CTRL.MODE l) = 0 ∧
  h.capRd (SRD_LANE_CTRL.AN_EN l) = 1 := by
  dsimp only <;> decide +kernel

theorem meets_mdioWrite :
  let m : Master := .jtag
  let i : Fin 4 := 0
  let v : Word := 0x2000#32
  let s : State := mk []
  let h := s.hw.reached m (SRD_MDIO_CMD.A i)
  s.hw.admits m (SRD_MDIO_CMD.A i) true ∧
  getField (setField v 10 2 0) 13 1 = 1 ∧
  h.rd (SRD_MDIO_CMD.BUSY i) ≠ 1 := by
  dsimp only <;> decide +kernel

theorem meets_mdioWrite_busy :
  let m : Master := .jtag
  let i : Fin 4 := 0
  let s : State := mk [(SRD_MDIO_CMD.BUSY 0, 1)]
  let h := s.hw.reached m (SRD_MDIO_CMD.A i)
  s.hw.admits m (SRD_MDIO_CMD.A i) true ∧
  h.rd (SRD_MDIO_CMD.BUSY i) = 1 := by
  dsimp only <;> decide +kernel

theorem meets_mdioRead :
  let m : Master := .jtag
  let i : Fin 4 := 0
  let v : Word := 0x2000#32
  let s : State := mk []
  let h := s.hw.reached m (SRD_MDIO_CMD.A i)
  s.hw.admits m (SRD_MDIO_CMD.A i) true ∧
  getField (setField v 10 2 1) 13 1 = 1 ∧
  h.rd (SRD_MDIO_CMD.BUSY i) ≠ 1 := by
  dsimp only <;> decide +kernel

theorem meets_mdioAddress :
  let m : Master := .jtag
  let i : Fin 4 := 0
  let v : Word := 0x2000#32
  let s : State := mk []
  let h := s.hw.reached m (SRD_MDIO_CMD.A i)
  s.hw.admits m (SRD_MDIO_CMD.A i) true ∧
  getField (setField v 10 2 2) 13 1 = 1 ∧
  h.rd (SRD_MDIO_CMD.BUSY i) ≠ 1 := by
  dsimp only <;> decide +kernel

theorem meets_mdioReadIncrement :
  let m : Master := .jtag
  let i : Fin 4 := 0
  let v : Word := 0x2000#32
  let s : State := mk []
  let h := s.hw.reached m (SRD_MDIO_CMD.A i)
  s.hw.admits m (SRD_MDIO_CMD.A i) true ∧
  getField (setField v 10 2 3) 13 1 = 1 ∧
  h.rd (SRD_MDIO_CMD.BUSY i) ≠ 1 := by
  dsimp only <;> decide +kernel

theorem meets_mdioDone :
  let i : Fin 4 := 0
  let undriven : Bool := 0
  let s : State := { hw := { (mk [(SRD_MDIO_CMD.OP 0, 1), (SRD_MDIO_CMD.BUSY 0, 1)]).hw with sub := { mdio := [(0, { run := .cmd })] } } }
  let h := s.hw
  (h.mdio i).run = .cmd ∧
  (h.rd (SRD_MDIO_CMD.OP i) = 1 ∨ h.rd (SRD_MDIO_CMD.OP i) = 3) ∧
  undriven = false := by
  dsimp only <;> decide +kernel

theorem meets_mdioDone_undriven :
  let i : Fin 4 := 0
  let undriven : Bool := true
  let s : State := { hw := { (mk [(SRD_MDIO_CMD.OP 0, 1), (SRD_MDIO_CMD.BUSY 0, 1)]).hw with sub := { mdio := [(0, { run := .cmd })] } } }
  let h := s.hw
  (h.mdio i).run = .cmd ∧
  (h.rd (SRD_MDIO_CMD.OP i) = 1 ∨ h.rd (SRD_MDIO_CMD.OP i) = 3) ∧
  undriven = true := by
  dsimp only <;> decide +kernel

theorem meets_mdioDone_write :
  let i : Fin 4 := 0
  let s : State := { hw := { (mk [(SRD_MDIO_CMD.BUSY 0, 1), (SRD_MDIO_CMD.OP 0, 0)]).hw with sub := { mdio := [(0, { run := .cmd })] } } }
  let h := s.hw
  (h.mdio i).run = .cmd ∧
  h.rd (SRD_MDIO_CMD.OP i) ≠ 1 ∧
  h.rd (SRD_MDIO_CMD.OP i) ≠ 3 := by
  dsimp only <;> decide +kernel

theorem meets_mdioPollRound :
  let i : Fin 4 := 0
  let s : State := mk [(SRD_MDIO_CFG.POLL_MS 0, 10)]
  let h := s.hw
  h.rd (SRD_MDIO_CFG.POLL_MS i) ≠ 0 := by
  dsimp only <;> decide +kernel

theorem meets_mdioPollFrameDone :
  let i : Fin 4 := 0
  let undriven : Bool := 0
  let p : Nat := 0
  let w : Word := 0#32
  let s : State := { hw := { sub := { mdio := [(0, { run := .poll 0 0#32 })] } } }
  let h := s.hw
  (h.mdio i).run = .poll p w ∧
  undriven = false := by
  dsimp only <;> decide +kernel

theorem meets_mdioPollFrameDone_undriven :
  let i : Fin 4 := 0
  let undriven : Bool := true
  let p : Nat := 0
  let w : Word := 0#32
  let s : State := { hw := { sub := { mdio := [(0, { run := .poll 0 0#32 })] } } }
  let h := s.hw
  (h.mdio i).run = .poll p w ∧
  undriven = true := by
  dsimp only <;> decide +kernel

theorem meets_spikeletFrameRx :
  let l : Fin 64 := 0
  let t0 : Byte := 0xA2#8
  let t1 : Byte := BitVec.ofNat 8 (crc8 [0xA2#8])
  let s : State := { hw := ((mk [(SRD_LANE_STATUS.STATE 0, 2), (SRD_LANE_STATUS.LOCK 0, 1), (SRD_LANE_CTRL.MODE 0, 5), (SUB_PORT_STATUS.STATE 1, 2)]).hw.capture (.lane 0)) }
  let h := s.hw
  h.laneOn l = true ∧
  4 ≤ h.capRd (SRD_LANE_CTRL.MODE l) ∧
  h.rd (SRD_LANE_STATUS.LOCK l) ≠ 0 ∧
  t0.toNat / 16 = 0xA ∧
  t0.toNat % 2 = 0 ∧
  t1.toNat = crc8 [BitVec.ofNat 8 t0.toNat] ∧
  t0.toNat / 2 % 8 < modePorts (h.capRd (SRD_LANE_CTRL.MODE l)) ∧
  h.portState (8 * l + t0.toNat / 2 % 8) = 2 := by
  dsimp only <;> decide +kernel

theorem meets_spikeletFrameRx_tag :
  let l : Fin 64 := 0
  let t0 : Byte := 0xA2#8
  let t1 : Byte := BitVec.ofNat 8 (crc8 [0xA2#8] + 1)
  let s : State := { hw := ((mk [(SRD_LANE_STATUS.STATE 0, 2), (SRD_LANE_STATUS.LOCK 0, 1), (SRD_LANE_CTRL.MODE 0, 5)]).hw.capture (.lane 0)) }
  let h := s.hw
  h.laneOn l = true ∧
  4 ≤ h.capRd (SRD_LANE_CTRL.MODE l) ∧
  h.rd (SRD_LANE_STATUS.LOCK l) ≠ 0 ∧
  t1.toNat ≠ crc8 [BitVec.ofNat 8 t0.toNat] := by
  dsimp only <;> decide +kernel

theorem meets_macFrameRx :
  let p : Fin 512 := 0
  let bs : Bytes := List.replicate 60 0 ++ fcsOf (List.replicate 60 0)
  let codeErr : Bool := 0
  let s : State := { hw := ((mk [(SRD_LANE_STATUS.LOCK 0, 1), (SUB_PORT_STATUS.STATE 0, 2), (SUB_PORT_CTRL.MAX_LEN 0, 1522)]).hw.capture (.port 0)) }
  let h := s.hw
  h.portExists p = true ∧
  h.rd (SRD_LANE_STATUS.LOCK (p / 8)) = 1 ∧
  h.portState p = 2 ∧
  (h.lane (p / 8)).stepWritten = false ∧
  codeErr = false ∧
  fcsOk bs = true ∧
  64 ≤ bs.length ∧
  bs.length ≤ h.capRd (SUB_PORT_CTRL.MAX_LEN p) ∧
  beAt bs 12 2 ≠ 0x8808 ∧
  h.slotAt bs = none ∧
  h.securePort p = false := by
  dsimp only <;> decide +kernel

theorem meets_macFrameRx_fcs :
  let p : Fin 512 := 0
  let bs : Bytes := List.replicate 64 0
  let codeErr : Bool := 0
  let s : State := { hw := ((mk [(SRD_LANE_STATUS.LOCK 0, 1), (SUB_PORT_STATUS.STATE 0, 2), (SUB_PORT_CTRL.MAX_LEN 0, 1522)]).hw.capture (.port 0)) }
  let h := s.hw
  h.portExists p = true ∧
  h.rd (SRD_LANE_STATUS.LOCK (p / 8)) = 1 ∧
  h.portState p = 2 ∧
  (h.lane (p / 8)).stepWritten = false ∧
  codeErr = false ∧
  fcsOk bs = false := by
  dsimp only <;> decide +kernel

theorem meets_macsecIcvFail :
  let e : Fin 65 := 0
  let s : State := { hw := { cip := { icvDue := [(0, 1)] } } }
  let h := s.hw
  h.cip.icvDue.get 0 e = 1 ∧
  e.val < 64 := by
  dsimp only <;> decide +kernel

theorem meets_pfcFrameRx :
  let p : Fin 512 := 0
  let s : State := mk [(SUB_PORT_STATUS.STATE 0, 2)]
  let h := s.hw
  h.portState p = 2 := by
  dsimp only <;> decide +kernel

theorem meets_pfcPauseExpire :
  let p : Fin 512 := 0
  let i : Fin 8 := 0
  let s : State := mk []
  let h := s.hw
  (h.port p).pause.get 0 i ≤ h.clk := by
  dsimp only <;> decide +kernel

theorem meets_pfcPauseExpire_early :
  let p : Fin 512 := 0
  let i : Fin 8 := 0
  let s : State := { hw := { sub := { ports := [(0, { pause := [(0, 5)] })] } } }
  let h := s.hw
  h.clk < (h.port p).pause.get 0 i := by
  dsimp only <;> decide +kernel

theorem meets_pfcRefresh :
  let p : Fin 512 := 0
  let s : State := mk [(SUB_PORT_STATUS.PFC_TX_XOFF 0, 1), (SUB_PORT_STATUS.STATE 0, 2)]
  let h := s.hw
  h.rd (SUB_PORT_STATUS.PFC_TX_XOFF p) ≠ 0 ∧
  h.portState p = 2 := by
  dsimp only <;> decide +kernel

theorem meets_lpiEnter :
  let p : Fin 512 := 0
  let s : State := mk [(SRD_LANE_STATUS.STATE 0, 2), (SUB_PORT_STATUS.STATE 0, 2), (SUB_PORT_CTRL.LPI_EN 0, 1)]
  let h := s.hw
  let l := p.val / 8
  let g := h.modPort p (fun x => { x with idle := true })
  h.portState p = 2 ∧
  g.lpiAllowed l = true ∧
  g.rd (SRD_LANE_STATUS.LPI_TX l) = 0 ∧
  (g.onPorts l).all (fun q => (g.port q).idle && !(g.port q).waking) = true := by
  dsimp only <;> decide +kernel

theorem meets_lpiEnter_waits :
  let p : Fin 512 := 0
  let s : State := mk [(SRD_LANE_STATUS.STATE 0, 2), (SUB_PORT_STATUS.STATE 0, 2), (SUB_PORT_CTRL.LPI_EN 0, 1), (SUB_PORT_STATUS.STATE 1, 2), (SUB_PORT_CTRL.LPI_EN 1, 1)]
  let h := s.hw
  let l := p.val / 8
  let g := h.modPort p (fun x => { x with idle := true })
  h.portState p = 2 ∧
  g.lpiAllowed l = true ∧
  (g.onPorts l).all (fun q => (g.port q).idle && !(g.port q).waking) = false := by
  dsimp only <;> decide +kernel

theorem meets_lpiRxChange :
  let l : Fin 64 := 0
  let s : State := mk [(SRD_LANE_STATUS.STATE 0, 2)]
  let h := s.hw
  h.laneOn l = true := by
  dsimp only <;> decide +kernel

theorem meets_rateDownEval :
  let l : Fin 64 := 0
  let s : State := { hw := { (mk [(SRD_LANE_STATUS.STATE 0, 2), (SRD_LANE_CTRL.RD_EN 0, 1), (SUB_PORT_STATUS.STATE 0, 2), (SRD_RD_CFG.RD_CEIL 0, 3), (SRD_RD_CFG.RD_FLOOR 0, 0), (SRD_LANE_STATUS.CUR_MODE 0, 0)]).hw with sub := { lanes := [(0, { rdRx := 1 })] } } }
  let h := s.hw
  let o := (h.rateOctets l).1
  let g := (h.rateOctets l).2
  let k := g.rd (SRD_LANE_STATUS.CUR_MODE l)
  g.laneOn l = true ∧
  g.capRd (SRD_LANE_CTRL.MODE l) ≤ 3 ∧
  g.rd (SRD_LANE_CTRL.RD_EN l) ≠ 0 ∧
  g.portState (8 * l) = 2 ∧
  (g.lane l).step = none ∧
  g.rd (SRD_RD_CFG.RD_FLOOR l) ≤ k ∧
  k < g.rd (SRD_RD_CFG.RD_CEIL l) ∧
  k < 3 ∧
  g.rateAbove l o (modeRate k) (g.capRd (SRD_RD_CFG.RD_HI_PCT l)) = true := by
  dsimp only <;> decide +kernel

theorem meets_rateDownEval_low :
  let l : Fin 64 := 0
  let s : State := { hw := ((mk [(SRD_LANE_STATUS.STATE 0, 2), (SRD_LANE_CTRL.RD_EN 0, 1), (SRD_LANE_STATUS.CUR_MODE 0, 2), (SUB_PORT_STATUS.STATE 0, 2), (SRD_RD_CFG.RD_CEIL 0, 3), (SRD_RD_CFG.RD_FLOOR 0, 0), (SRD_RD_CFG.RD_LO_PCT 0, 50), (SRD_RD_CFG.RD_HOLD 0, 1), (SRD_RD_CFG.RD_EVAL 0, 10)]).hw.capture (.lane 0)) }
  let h := s.hw
  let o := (h.rateOctets l).1
  let g := (h.rateOctets l).2
  let k := g.rd (SRD_LANE_STATUS.CUR_MODE l)
  let n := g.modLane l (fun x => { x with lows := x.lows + 1 })
  g.laneOn l = true ∧
  g.capRd (SRD_LANE_CTRL.MODE l) ≤ 3 ∧
  g.rd (SRD_LANE_CTRL.RD_EN l) ≠ 0 ∧
  g.portState (8 * l) = 2 ∧
  (g.lane l).step = none ∧
  g.rd (SRD_RD_CFG.RD_FLOOR l) < k ∧
  k ≤ g.rd (SRD_RD_CFG.RD_CEIL l) ∧
  ¬ (k < 3 ∧ g.rateAbove l o (modeRate k) (g.capRd (SRD_RD_CFG.RD_HI_PCT l)) = true) ∧
  g.rateBelow l o (modeRate (k - 1)) (g.capRd (SRD_RD_CFG.RD_LO_PCT l)) = true ∧
  n.capRd (SRD_RD_CFG.RD_HOLD l) ≤ (n.lane l).lows := by
  dsimp only <;> decide +kernel

theorem meets_rateDownEval_clamp :
  let l : Fin 64 := 0
  let s : State := mk [(SRD_LANE_STATUS.STATE 0, 2), (SRD_LANE_CTRL.RD_EN 0, 1), (SUB_PORT_STATUS.STATE 0, 2), (SRD_RD_CFG.RD_CEIL 0, 3), (SRD_RD_CFG.RD_FLOOR 0, 1), (SRD_LANE_STATUS.CUR_MODE 0, 0)]
  let h := s.hw
  let g := (h.rateOctets l).2
  let k := g.rd (SRD_LANE_STATUS.CUR_MODE l)
  g.laneOn l = true ∧
  g.capRd (SRD_LANE_CTRL.MODE l) ≤ 3 ∧
  g.rd (SRD_LANE_CTRL.RD_EN l) ≠ 0 ∧
  g.portState (8 * l) = 2 ∧
  (g.lane l).step = none ∧
  k < g.rd (SRD_RD_CFG.RD_FLOOR l) := by
  dsimp only <;> decide +kernel

theorem meets_rateStepPhyWritten :
  let l : Fin 64 := 0
  let k : Nat := 1
  let s : State := { hw := { sub := { lanes := [(0, { step := some 1 })], mdio := [(0, { run := .write 0 })] } } }
  let h := s.hw
  (h.lane l).step = some k ∧
  (h.lane l).stepWritten = false ∧
  (h.mdio (l / 16)).run = .write l := by
  dsimp only <;> decide +kernel

theorem meets_rateStepPhyWritten_none :
  let l : Fin 64 := 0
  let k : Nat := 1
  let s : State := { hw := { sub := { lanes := [(0, { step := some 1 })] } } }
  let h := s.hw
  (h.lane l).step = some k ∧
  (h.lane l).stepWritten = false ∧
  (h.mdio (l / 16)).run ≠ .write l ∧
  (h.mdio (l / 16)).writes.contains l.val = false := by
  dsimp only <;> decide +kernel

theorem meets_rateStepLocked :
  let l : Fin 64 := 0
  let s : State := { hw := { sub := { lanes := [(0, { step := some 1, stepWritten := true })] } } }
  let h := s.hw
  (h.lane l).stepWritten = true := by
  dsimp only <;> decide +kernel

theorem meets_rateStepTimeout :
  let l : Fin 64 := 0
  let k : Nat := 1
  let s : State := { hw := { sub := { lanes := [(0, { step := some 1, stepWritten := true })] } } }
  let h := s.hw
  (h.lane l).step = some k ∧
  (h.lane l).stepWritten = true := by
  dsimp only <;> decide +kernel

theorem meets_recalGo :
  let m : Master := .jtag
  let l : Fin 72 := 0
  let v : Word := 1#32
  let s : State := mk [(SRD_LANE_STATUS.STATE 0, 2)]
  let h := s.hw.reached m (SRD_RECAL.A l)
  let g := h.plainWrite (SRD_RECAL.A l) v
  s.hw.admits m (SRD_RECAL.A l) true ∧
  getField v 0 1 = 1 ∧
  g.laneOn l = true ∧
  g.rd (SRD_LANE_STATUS.RECAL_BUSY l) = 0 ∧
  (g.lane l).step = none := by
  dsimp only <;> decide +kernel

theorem meets_recalPeriodExpire :
  let l : Fin 72 := 0
  let s : State := mk [(SRD_LANE_STATUS.STATE 0, 2), (SRD_RECAL.RECAL_PERIOD 0, 1)]
  let h := s.hw
  h.rd (SRD_RECAL.RECAL_PERIOD l) ≠ 0 ∧
  h.laneOn l = true ∧
  h.rd (SRD_LANE_STATUS.RECAL_BUSY l) = 0 ∧
  (h.lane l).step = none := by
  dsimp only <;> decide +kernel

theorem meets_recalDone :
  let l : Fin 72 := 0
  let s : State := mk [(SRD_LANE_STATUS.RECAL_BUSY 0, 1)]
  let h := s.hw
  h.rd (SRD_LANE_STATUS.RECAL_BUSY l) ≠ 0 := by
  dsimp only <;> decide +kernel

theorem meets_stateRequest :
  let m : Master := .jtag
  let v : Word := 0x80000001#32
  let s : State := mk []
  let h := s.hw.reached m PWR_STATE_REQ.A
  let t := getField v 0 2
  let n := h.aonFlush
  let g := n.fullWrite PWR_STATE_REQ.A v
  s.hw.admits m PWR_STATE_REQ.A true ∧
  getField v 31 1 = 1 ∧
  n.rd PWR_STATE_STATUS.BUSY ≠ 1 ∧
  (t = 3 → n.rd PWR_WAKE_EN.EN ≠ 0) ∧
  (t = 3 → bitN (n.rd PWR_WAKE_EN.EN) 5 = 1 → n.rd PWR_REST_CFG.REST_CH_EN ≠ 0) ∧
  g.powerState ≠ t ∧
  g.powerState ≠ 3 := by
  dsimp only <;> decide +kernel

theorem meets_stateRequest_rejected :
  let m : Master := .jtag
  let v : Word := 0x80000003#32
  let s : State := mk []
  let h := s.hw.reached m PWR_STATE_REQ.A
  let t := getField v 0 2
  let n := h.aonFlush
  s.hw.admits m PWR_STATE_REQ.A true ∧
  getField v 31 1 = 1 ∧
  (n.rd PWR_STATE_STATUS.BUSY = 1 ∨ (t = 3 ∧ n.rd PWR_WAKE_EN.EN = 0) ∨ (t = 3 ∧ bitN (n.rd PWR_WAKE_EN.EN) 5 = 1 ∧ n.rd PWR_REST_CFG.REST_CH_EN = 0)) := by
  dsimp only <;> decide +kernel

set_option maxRecDepth 100000 in
theorem meets_domainAgree :
  let d : Nat := 1
  let t : List Nat := []
  let s : State := { hw := { (mk []).hw with pwr := { ({} : PwrSt) with todo := [1], target := 3 } } }
  let h := s.hw
  let g := h.holdAll
  h.pwr.todo.isEmpty = false ∧
  g.pwr.todo = d :: t ∧
  g.cond d ≠ 2 ∧
  g.refusal g.pwr.target d = none ∧
  g.agrees g.pwr.target d = true := by
  dsimp only <;> decide +kernel

set_option maxRecDepth 100000 in
theorem meets_domainAgree_refuses :
  let d : Nat := 1
  let why : Nat := 2
  let t : List Nat := []
  let s : State := { hw := { (mk []).hw with pwr := { ({} : PwrSt) with todo := [1], target := 3 }, aon := enabled PWR_KEEP_MASK.A 2 } }
  let h := s.hw
  let g := h.holdAll
  h.pwr.todo.isEmpty = false ∧
  g.pwr.todo = d :: t ∧
  g.cond d ≠ 2 ∧
  g.refusal g.pwr.target d = some why := by
  dsimp only <;> decide +kernel

set_option maxRecDepth 100000 in
theorem meets_entryTimeout :
  let d : Nat := 2
  let t : List Nat := []
  let s : State := { hw := { (mk []).hw with pwr := { ({} : PwrSt) with todo := [2], target := 3 } } }
  let h := s.hw
  h.pwr.todo = d :: t ∧
  h.cond d ≠ 2 ∧
  h.refusal h.pwr.target d = none ∧
  (d != 2 && h.agrees h.pwr.target d) = false := by
  dsimp only <;> decide +kernel

theorem meets_wakeSourceFire :
  let src : Fin 6 := 4
  let s : State := { hw := { (mk [(PWR_STATE_STATUS.CUR_STATE, 3)]).hw with aon := enabled PWR_WAKE_EN.A 16 } }
  let h := s.hw
  h.wakeSeen src = true ∧
  h.powerState = 3 ∧
  h.rd PWR_STATE_STATUS.BUSY ≠ 1 := by
  dsimp only <;> decide +kernel

theorem meets_wakeSourceFire_entry :
  let src : Fin 6 := 4
  let s : State := { hw := { (mk [(PWR_STATE_STATUS.BUSY, 1)]).hw with pwr := { ({} : PwrSt) with todo := [1], target := 3 }, aon := enabled PWR_WAKE_EN.A 16 } }
  let h := s.hw
  h.wakeSeen src = true ∧
  h.rd PWR_STATE_STATUS.BUSY = 1 ∧
  h.pwr.target = 3 ∧
  h.pwr.todo ≠ [] ∧
  src.val ≠ 0 := by
  dsimp only <;> decide +kernel

theorem meets_wakeTimerExpire :
  let s : State := { hw := { (mk [(PWR_STATE_STATUS.CUR_STATE, 3)]).hw with aon := { ({} : AonSt) with arrived := ((({} : AonSt).arrived.set (resetWord PWR_WAKE_EN.A) PWR_WAKE_EN.A 1#32).set (resetWord PWR_WAKE_TIMER.A) PWR_WAKE_TIMER.A 1#32) } } }
  let h := s.hw
  h.powerState = 3 ∧
  h.rd PWR_STATE_STATUS.BUSY = 0 ∧
  bitN (h.aonRd PWR_WAKE_EN.EN) 0 = 1 ∧
  h.aonRd PWR_WAKE_TIMER.WAKE_MS ≠ 0 := by
  dsimp only <;> decide +kernel

theorem meets_domainRestartNext :
  let d : Nat := 1
  let e : Nat := 2
  let t : List Nat := []
  let s : State := { hw := { (mk []).hw with pwr := { ({} : PwrSt) with restart := [1, 2] } } }
  let h := s.hw
  h.pwr.restart = d :: e :: t := by
  dsimp only <;> decide +kernel

set_option maxRecDepth 100000 in
theorem meets_domainRestartNext_last :
  let d : Nat := 1
  let s : State := { hw := { (mk []).hw with pwr := { ({} : PwrSt) with restart := [1] } } }
  let h := s.hw
  let g := (h.modPwr (fun p => { p with restart := [] })).wr PWR_STATE_STATUS.CUR_DOM d
  h.pwr.restart = [d] ∧
  (g.domainRestart d).pwr.todo = [] := by
  dsimp only <;> decide +kernel

theorem meets_trimMaskWrite :
  let m : Master := .jtag
  let v : Word := 0#32
  let s : State := mk []
  let h := s.hw.reached m PWR_TRIM_MASK.A
  let g := h.fullWrite PWR_TRIM_MASK.A v
  s.hw.admits m PWR_TRIM_MASK.A true ∧
  g.powerState ≠ 1 ∧
  (g.rd PWR_STATE_STATUS.BUSY = 0 ∨ g.pwr.target ≠ 1) := by
  dsimp only <;> decide +kernel

theorem meets_trimMaskWrite_live :
  let m : Master := .jtag
  let v : Word := 0x8#32
  let s : State := mk [(PWR_STATE_STATUS.CUR_STATE, 1)]
  let h := s.hw.reached m PWR_TRIM_MASK.A
  let g := h.fullWrite PWR_TRIM_MASK.A v
  let l := watchOrder.filter (fun d => bitN (h.word PWR_TRIM_MASK.A ^^^ g.word PWR_TRIM_MASK.A).toNat d == 1)
  s.hw.admits m PWR_TRIM_MASK.A true ∧
  g.powerState = 1 ∧
  g.rd PWR_STATE_STATUS.BUSY = 0 ∧
  g.trimLists l ≠ ([], []) := by
  dsimp only <;> decide +kernel

theorem meets_domOffWrite :
  let m : Master := .jtag
  let s : State := mk []
  s.hw.admits m PWR_DOM_OFF.A true := by
  dsimp only <;> decide +kernel

theorem meets_avsStep :
  let vreq : Fin 64 := 30
  let s : State := { hw := { (mk [(PWR_AVS_STATUS.VCORE, 30)]).hw with aon := enabled PWR_AVS_CFG.A (setW PWR_AVS_CFG.A [(PWR_AVS_CFG.AVS_EN, 1), (PWR_AVS_CFG.VMAX, 50)]) } }
  let h := s.hw
  let cur := h.rd PWR_AVS_STATUS.VCORE
  let want := if cur < vreq.val + 2 then cur + 1 else if vreq.val + 2 < cur then cur - 1 else cur
  h.aonRd PWR_AVS_CFG.AVS_EN ≠ 0 ∧
  vreq.val ≤ h.aonRd PWR_AVS_CFG.VMAX ∧
  h.aonRd PWR_AVS_CFG.VMIN ≤ cur ∧
  cur ≤ h.aonRd PWR_AVS_CFG.VMAX ∧
  h.aonRd PWR_AVS_CFG.VMIN ≤ want ∧
  want ≤ h.aonRd PWR_AVS_CFG.VMAX := by
  dsimp only <;> decide +kernel

theorem meets_avsStep_off :
  let s : State := { hw := { (mk []).hw with aon := enabled PWR_AVS_CFG.A (setW PWR_AVS_CFG.A [(PWR_AVS_CFG.AVS_EN, 0)]) } }
  let h := s.hw
  h.aonRd PWR_AVS_CFG.AVS_EN = 0 := by
  dsimp only <;> decide +kernel

theorem meets_avsStep_safety :
  let vreq : Fin 64 := 30
  let s : State := { hw := { (mk []).hw with aon := enabled PWR_AVS_CFG.A (setW PWR_AVS_CFG.A [(PWR_AVS_CFG.AVS_EN, 1), (PWR_AVS_CFG.VMAX, 29)]) } }
  let h := s.hw
  h.aonRd PWR_AVS_CFG.AVS_EN ≠ 0 ∧
  h.aonRd PWR_AVS_CFG.VMAX < vreq.val := by
  dsimp only <;> decide +kernel

theorem meets_avsStep_falls :
  let vreq : Fin 64 := 30
  let s : State := { hw := { (mk [(PWR_AVS_STATUS.VCORE, 45)]).hw with pwr := { ({} : PwrSt) with vOver := true }, aon := enabled PWR_AVS_CFG.A (setW PWR_AVS_CFG.A [(PWR_AVS_CFG.AVS_EN, 1), (PWR_AVS_CFG.VMAX, 40)]) } }
  let h := s.hw
  h.aonRd PWR_AVS_CFG.AVS_EN ≠ 0 ∧
  vreq.val ≤ h.aonRd PWR_AVS_CFG.VMAX ∧
  h.pwr.vOver = true ∧
  h.aonRd PWR_AVS_CFG.VMAX < h.rd PWR_AVS_STATUS.VCORE := by
  dsimp only <;> decide +kernel

theorem meets_thermalSample :
  let temps : Vector (BitVec 8) 16 := Vector.replicate 16 25
  let s : State := mk []
  let h := s.hw
  let l := temps.toList.map BitVec.toInt
  let top := l.foldl max (l.headD 0)
  let g := (h.wr PWR_THERM.TEMP_MAX (unsigned 8 top)).wr PWR_THERM.TEMP_PEAK (unsigned 8 (max top (h.rdS PWR_THERM.TEMP_PEAK)))
  let hot := (List.range l.length).foldl (fun (m : Sparse Nat) i => m.set 0 i (if 115 ≤ l.getD i 0 then g.pwr.hot.get 0 i + 1 else 0)) []
  let k := g.modPwr (fun p => { p with hot := hot })
  k.pwr.trip = false ∧
  top < Int.ofNat (k.aonRd PWR_THERM.ALERT_TH) - 5 ∧
  hot.any (fun e => decide (3 ≤ e.2)) = false := by
  dsimp only <;> decide +kernel

theorem meets_thermalSample_trip :
  let temps : Vector (BitVec 8) 16 := Vector.replicate 16 120
  let s : State := { hw := { (mk [(PWR_THERM.ALERT_TH, 100)]).hw with pins := { ({} : PinSt) with porn := true, vin := true }, pwr := { ({} : PwrSt) with alert := true, hot := [(0, 2)] } } }
  let h := s.hw
  let l := temps.toList.map BitVec.toInt
  let top := l.foldl max (l.headD 0)
  let g := (h.wr PWR_THERM.TEMP_MAX (unsigned 8 top)).wr PWR_THERM.TEMP_PEAK (unsigned 8 (max top (h.rdS PWR_THERM.TEMP_PEAK)))
  let hot := (List.range l.length).foldl (fun (m : Sparse Nat) i => m.set 0 i (if 115 ≤ l.getD i 0 then g.pwr.hot.get 0 i + 1 else 0)) []
  let k := g.modPwr (fun p => { p with hot := hot })
  k.pwr.trip = false ∧
  k.pwr.alert = true ∧
  Int.ofNat (k.aonRd PWR_THERM.ALERT_TH) - 5 ≤ top ∧
  k.effPorn = true ∧
  hot.any (fun e => decide (3 ≤ e.2)) = true := by
  dsimp only <;> decide +kernel

theorem meets_thermalRecover :
  let s : State := { hw := { (mk []).hw with pwr := { ({} : PwrSt) with trip := true } } }
  let h := s.hw
  h.pwr.trip = true ∧
  h.rdS PWR_THERM.TEMP_MAX < 100 := by
  dsimp only <;> decide +kernel

theorem meets_energyDetect :
  let l : Fin 64 := 0
  let s : State := { hw := { (mk [(SRD_LANE_CTRL.ED_EN 0, 1)]).hw with pwr := { ({} : PwrSt) with held := [19] } } }
  let h := s.hw
  h.pwr.held.contains (19 + l.val / 8) = true ∧
  h.rd (SRD_LANE_CTRL.ED_EN l) = 1 := by
  dsimp only <;> decide +kernel

theorem meets_bondedFrameRx :
  let c : Fin 4 := 0
  let b : Bonded := { group := 0, bytes := [0, 0, 0, 0, 7] }
  let t : List Bonded := []
  let s : State := { hw := { (mk [(SHF_MBR_STATUS.STATE 0 0, 2), (SHF_GRP_RX_STATUS.SN_SYNCED 0, 1)]).hw with shf := { inbox := [(0, [{ group := 0, bytes := [0, 0, 0, 0, 7] }])] } } }
  let h := s.hw
  let g := { h with shf := { h.shf with inbox := h.shf.inbox.set [] c t, turn := (c + 1) % 4 } }
  let w := beAt b.bytes 0 4
  h.bondedTurn = some c.val ∧
  h.shf.inbox.get [] c = b :: t ∧
  4 ≤ b.bytes.length ∧
  bitsOf w 28 4 = b.group ∧
  bitsOf w 24 3 = c.val ∧
  bitN w 27 = 0 ∧
  g.st (memberFn b.group c) ≠ 0 ∧
  g.rd (SHF_GRP_RX_STATUS.SN_SYNCED b.group) ≠ 0 ∧
  bitsOf w 0 24 = g.nextSn b.group ∧
  (g.grp b.group).held = [] := by
  dsimp only <;> decide +kernel

theorem meets_bondedFrameRx_first :
  let c : Fin 4 := 0
  let b : Bonded := { group := 0, bytes := [0, 0, 0, 9, 7] }
  let t : List Bonded := []
  let s : State := { hw := { (mk [(SHF_MBR_STATUS.STATE 0 0, 2)]).hw with shf := { inbox := [(0, [{ group := 0, bytes := [0, 0, 0, 9, 7] }])] } } }
  let h := s.hw
  let g := { h with shf := { h.shf with inbox := h.shf.inbox.set [] c t, turn := (c + 1) % 4 } }
  let w := beAt b.bytes 0 4
  h.bondedTurn = some c.val ∧
  h.shf.inbox.get [] c = b :: t ∧
  4 ≤ b.bytes.length ∧
  bitsOf w 28 4 = b.group ∧
  bitsOf w 24 3 = c.val ∧
  bitN w 27 = 0 ∧
  g.st (memberFn b.group c) ≠ 0 ∧
  g.rd (SHF_GRP_RX_STATUS.SN_SYNCED b.group) = 0 := by
  dsimp only <;> decide +kernel

theorem meets_bondedFrameRx_short :
  let c : Fin 4 := 0
  let b : Bonded := { group := 0, bytes := [0] }
  let t : List Bonded := []
  let s : State := { hw := { (mk []).hw with shf := { inbox := [(0, [{ group := 0, bytes := [0] }])] } } }
  let h := s.hw
  h.bondedTurn = some c.val ∧
  h.shf.inbox.get [] c = b :: t ∧
  b.bytes.length < 4 := by
  dsimp only <;> decide +kernel

theorem meets_reorderTimeout :
  let g : Fin 16 := 0
  let f : HeldFrame := { sn := 5, chan := 0, marker := false, bytes := [7] }
  let s : State := { hw := { shf := { groups := [(0, { held := [{ sn := 5, chan := 0, marker := false, bytes := [7] }] })] } } }
  let h := s.hw
  (h.grp g).held ≠ [] ∧
  h.shfLowest g = some f := by
  dsimp only <;> decide +kernel

theorem meets_joinAckRx :
  let g : Fin 16 := 0
  let c : Fin 4 := 0
  let token : Nat := 0
  let s : State := mk [(SHF_MBR_STATUS.MEMBER_PHASE 0 0, 1), (TRK_PMA_STATUS.STATE 0, 2), (TRK_ACT_STATUS.ACT_STATE 0, 5)]
  let h := s.hw
  let k := (h.joinWithdraw g c).modMbr g c (fun m => { m with outstanding := false, placed := false })
  let n := ((k.setPhase g c 2).shfRaise EV_SHF.JOIN_DONE).lcOn (memberFn g c)
  h.phase g c = 1 ∧
  h.rd (SHF_MBR_STATUS.TOKEN g c) = token ∧
  n.ready c = true := by
  dsimp only <;> decide +kernel

theorem meets_joinAckRx_unexpected :
  let g : Fin 16 := 0
  let c : Fin 4 := 0
  let token : Nat := 0
  let s : State := mk []
  let h := s.hw
  (h.phase g c ≠ 1 ∨ h.rd (SHF_MBR_STATUS.TOKEN g c) ≠ token) := by
  dsimp only <;> decide +kernel

theorem meets_leaveRx :
  let g : Fin 16 := 0
  let c : Fin 4 := 0
  let s : State := mk [(SHF_MBR_STATUS.MEMBER_PHASE 0 0, 2)]
  let h := s.hw
  (h.phase g c = 1 ∨ h.phase g c = 2) := by
  dsimp only <;> decide +kernel

theorem meets_leaveAckRx :
  let g : Fin 16 := 0
  let c : Fin 4 := 0
  let token : Nat := 0
  let s : State := { hw := { (mk [(SHF_MBR_STATUS.MEMBER_PHASE 0 0, 4)]).hw with shf := { members := [(0, { leaveSent := true })] } } }
  let h := s.hw
  h.phase g c = 4 ∧
  (h.mbr g c).leaveSent = true ∧
  h.rd (SHF_MBR_STATUS.TOKEN g c) = token := by
  dsimp only <;> decide +kernel

theorem meets_joinRetryExpire_again :
  let g : Fin 16 := 0
  let c : Fin 4 := 0
  let s : State := { hw := { (mk [(SHF_MBR_STATUS.MEMBER_PHASE 0 0, 1), (TRK_PMA_STATUS.STATE 0, 2), (TRK_ACT_STATUS.ACT_STATE 0, 5), (SHF_JOIN_CFG.JOIN_TRIES, 3)]).hw with shf := { members := [(0, { outstanding := true, placed := true })] } } }
  let h := s.hw
  let k := h.modMbr g c (fun m => { m with outstanding := false, placed := false })
  h.phase g c = 1 ∧
  h.ready c = true ∧
  (h.mbr g c).outstanding = true ∧
  (h.mbr g c).placed = true ∧
  k.rd (SHF_MBR_STATUS.TRIES g c) < k.joinTries g c := by
  dsimp only <;> decide +kernel

theorem meets_joinRetryExpire :
  let g : Fin 16 := 0
  let c : Fin 4 := 0
  let s : State := { hw := { (mk [(SHF_MBR_STATUS.MEMBER_PHASE 0 0, 1), (TRK_PMA_STATUS.STATE 0, 2), (TRK_ACT_STATUS.ACT_STATE 0, 5), (SHF_JOIN_CFG.JOIN_TRIES, 3), (SHF_MBR_STATUS.TRIES 0 0, 15)]).hw with shf := { members := [(0, { outstanding := true, placed := true })] } } }
  let h := s.hw
  let k := h.modMbr g c (fun m => { m with outstanding := false, placed := false })
  h.phase g c = 1 ∧
  h.ready c = true ∧
  (h.mbr g c).outstanding = true ∧
  (h.mbr g c).placed = true ∧
  k.joinTries g c ≤ k.rd (SHF_MBR_STATUS.TRIES g c) := by
  dsimp only <;> decide +kernel

theorem meets_joinRetry :
  let m : Master := .jtag
  let g : Fin 16 := 0
  let c : Fin 4 := 0
  let v : Word := 2#32
  let s : State := mk [(SHF_MBR_STATUS.MEMBER_PHASE 0 0, 5)]
  let h := s.hw.reached m (SHF_MBR_CTRL.A g c)
  s.hw.admits m (SHF_MBR_CTRL.A g c) true ∧
  getField v 1 1 = 1 ∧
  h.phase g c = 5 := by
  dsimp only <;> decide +kernel

theorem meets_rejoinHoldExpire :
  let g : Fin 16 := 0
  let c : Fin 4 := 0
  let s : State := mk [(SHF_MBR_STATUS.MEMBER_PHASE 0 0, 6)]
  let h := s.hw
  h.phase g c = 6 := by
  dsimp only <;> decide +kernel

theorem meets_leaveFlushDrained :
  let g : Fin 16 := 0
  let c : Fin 4 := 0
  let s : State := mk [(SHF_MBR_STATUS.MEMBER_PHASE 0 0, 4), (TRK_PMA_STATUS.STATE 0, 2), (TRK_ACT_STATUS.ACT_STATE 0, 5), (TRK_DLN_STATUS.LODS 0, 0)]
  let h := s.hw
  h.phase g c = 4 ∧
  (h.mbr g c).leaveSent = false ∧
  h.leaveWaits g c = false ∧
  h.transmits c = true ∧
  h.memberQueues g c = [] := by
  dsimp only <;> decide +kernel

theorem meets_leaveTimeoutExpire :
  let g : Fin 16 := 0
  let c : Fin 4 := 0
  let s : State := { hw := { (mk [(SHF_MBR_STATUS.MEMBER_PHASE 0 0, 4)]).hw with shf := { members := [(0, { leaveSent := true })] } } }
  let h := s.hw
  h.phase g c = 4 ∧
  (h.mbr g c).leaveSent = true := by
  dsimp only <;> decide +kernel

theorem meets_shedEvaluate_shed :
  let g : Fin 16 := 0
  let s : State := mk [(SHF_SHED_CFG.SHED_EN 0, 1), (SHF_SHED_CFG.CEIL 0, 1), (SHF_SHED_CFG.LO_PCT 0, 0), (SHF_CHAN_CFG.SHED_OK 0, 1), (SHF_MBR_STATUS.MEMBER_PHASE 0 0, 2), (SHF_MBR_STATUS.MEMBER_PHASE 0 1, 2)]
  let h := s.hw
  let octets := max (h.grp g).dsOctets (h.grp g).usOctets
  let k := h.modGrp g (fun x => { x with dsOctets := 0, usOctets := 0 })
  let n := (k.activeMembers g).length
  k.rd (SHF_SHED_CFG.SHED_EN g) ≠ 0 ∧
  k.shedUnstable g = false ∧
  k.loadBelow g octets n (k.rd (SHF_SHED_CFG.LO_PCT g)) = false ∧
  k.rd (SHF_SHED_CFG.CEIL g) < n ∧
  (k.shedPick g).isSome = true := by
  dsimp only <;> decide +kernel

theorem meets_shedEvaluate_low :
  let g : Fin 16 := 0
  let s : State := mk [(SHF_SHED_CFG.SHED_EN 0, 1), (SHF_SHED_CFG.CEIL 0, 4), (SHF_SHED_CFG.FLOOR 0, 1), (SHF_SHED_CFG.LO_PCT 0, 50), (SHF_SHED_CFG.HI_PCT 0, 80), (SHF_SHED_CAP.C_UNIT 0, 100), (SHF_SHED_CAP.EVAL 0, 1), (SHF_SHED_CFG.SHED_HOLD 0, 5), (SHF_MBR_STATUS.MEMBER_PHASE 0 0, 2), (SHF_MBR_STATUS.MEMBER_PHASE 0 1, 2)]
  let h := s.hw
  let octets := max (h.grp g).dsOctets (h.grp g).usOctets
  let o := h.modGrp g (fun x => { x with dsOctets := 0, usOctets := 0 })
  let n := (o.activeMembers g).length
  let k := o.sleepAgain g
  o.rd (SHF_SHED_CFG.SHED_EN g) ≠ 0 ∧
  o.shedUnstable g = false ∧
  o.loadBelow g octets n (o.rd (SHF_SHED_CFG.LO_PCT g)) = true ∧
  n ≤ k.rd (SHF_SHED_CFG.CEIL g) ∧
  k.rd (SHF_SHED_CFG.FLOOR g) ≤ n ∧
  k.loadAbove g octets n (k.rd (SHF_SHED_CFG.HI_PCT g)) = false ∧
  k.loadBelow g octets (n - 1) (k.rd (SHF_SHED_CFG.LO_PCT g)) = true ∧
  (k.grp g).shedCnt + 1 < k.rd (SHF_SHED_CFG.SHED_HOLD g) := by
  dsimp only <;> decide +kernel

theorem meets_containerRx :
  let c : Fin 4 := 0
  let bs : Bytes := mkCont
  let t : List Bytes := []
  let s : State := { hw := { (mk [(SLT_PAGE_STATUS.STATE 0, 2)]).hw with slt := { inbox := [(0, [mkCont])] } } }
  let h := s.hw
  let g := { h with slt := { h.slt with inbox := h.slt.inbox.set [] c t } }
  h.slt.inbox.get [] c = bs :: t ∧
  g.sltOn = true ∧
  g.contCheck c bs = 0 := by
  dsimp only <;> decide +kernel

theorem meets_containerRx_bad :
  let c : Fin 4 := 0
  let bs : Bytes := [1]
  let t : List Bytes := []
  let n : Nat := 1
  let s : State := { hw := { (mk []).hw with slt := { inbox := [(0, [[1]])] } } }
  let h := s.hw
  let g := { h with slt := { h.slt with inbox := h.slt.inbox.set [] c t } }
  h.slt.inbox.get [] c = bs :: t ∧
  g.sltOn = true ∧
  g.contCheck c bs = n + 1 := by
  dsimp only <;> decide +kernel

theorem meets_slotFrameBoundary :
  let s : State := {}
  let h := s.hw
  let f := h.fLoc
  let g := h.forAll (List.range 8) (fun x k => ((x.onlyIf ((!(x.slotCh k).got) = true ∧ k < 4) (fun y => y.count (SLT_CH_CNT.COUNT k 4))).onlyIf (k < 4 ∧ (x.onlyIf ((!(x.slotCh k).got) = true ∧ k < 4) (fun y => y.count (SLT_CH_CNT.COUNT k 4))).rd (SLT_CH_CFG.US_EN k) = 1 ∧ (x.slotCh k).granted = false) (fun y => y.count (SLT_CH_CNT.COUNT k 5))).modSlotCh k (fun y => { y with got := false, granted := false, missing := if (!(x.slotCh k).got) = true then min 15 (y.missing + 1) else 0 }))
  let o : Hw := g.loseFrames ((f + 65535) % 65536)
  let d := (({ o with slt := { o.slt with old := [] } } : Hw)).slotDefects
  h.sltOn = true ∧
  (d.pageFor f = none ∨ d.linkUp = false) := by
  dsimp only <;> decide +kernel

theorem meets_slotFrameBoundary_twin :
  let q : Nat := 0
  let s : State := mk [(SLT_PAGE_STATUS.STATE 0, 2), (GLB_STRAP.TWIN_EN, 1), (TWN_STATUS.LINK_STATE, 2)]
  let h := s.hw
  let f := h.fLoc
  let g := h.forAll (List.range 8) (fun x k => ((x.onlyIf ((!(x.slotCh k).got) = true ∧ k < 4) (fun y => y.count (SLT_CH_CNT.COUNT k 4))).onlyIf (k < 4 ∧ (x.onlyIf ((!(x.slotCh k).got) = true ∧ k < 4) (fun y => y.count (SLT_CH_CNT.COUNT k 4))).rd (SLT_CH_CFG.US_EN k) = 1 ∧ (x.slotCh k).granted = false) (fun y => y.count (SLT_CH_CNT.COUNT k 5))).modSlotCh k (fun y => { y with got := false, granted := false, missing := if (!(x.slotCh k).got) = true then min 15 (y.missing + 1) else 0 }))
  let o : Hw := g.loseFrames ((f + 65535) % 65536)
  let d := (({ o with slt := { o.slt with old := [] } } : Hw)).slotDefects
  h.sltOn = true ∧
  d.pageFor f = some q ∧
  (d.linkUp && d.rd GLB_STRAP.TWIN_EN == 1) = true := by
  dsimp only <;> decide +kernel

theorem meets_framePlayout :
  let x : Fin 1024 := 0
  let f0 : Nat := 5
  let at' : Nat := 0
  let pg : Nat := 0
  let fr : SlotFrame := { no := 5, octets := [] }
  let s : State := { hw := { ((mk [(SLT_PAGE_STATUS.STATE 0, 2)]).hw.ts (CIRCUIT.VALID 0) 1 |>.ts (CIRCUIT.DS_EN 0) 1) with slt := { chans := [(0, { store := [(5, some { no := 5, octets := [] })] })], circs := [(0, { start := some (5, 0) })], pages := [(0, { caps := [(0, (1, 1, 0))] })] } } }
  let h := s.hw
  let f := (f0 + (h.circ x).played) % 65536
  let cap := h.circCap pg x
  let n := h.modCirc x (fun k => { k with played := k.played + 1 })
  let g := n.modCirc x (fun k => { k with gather := k.gather ++ [fr.circuit x cap.1], defect := k.defect || false })
  h.sltOn = true ∧
  h.playoutDue x = true ∧
  (h.circ x).start = some (f0, at') ∧
  h.pageNear f = some pg ∧
  h.t (CIRCUIT_STATE.ACTIVE_PATH x) = 0 ∧
  h.t (CIRCUIT_STATE.SF_W x) = 0 ∧
  h.t (CIRCUIT_STATE.PLM x) = 0 ∧
  (h.slotCh (h.pathCh x 0)).store.get none (f % 32) = some fr ∧
  fr.no = f ∧
  n.cf x (CIRCUIT.VALID x) = 1 ∧
  n.cf x (CIRCUIT.DS_EN x) = 1 ∧
  cap.2.1 ≤ (g.circ x).gather.length := by
  dsimp only <;> decide +kernel

theorem meets_framePlayout_missing :
  let x : Fin 1024 := 0
  let f0 : Nat := 5
  let at' : Nat := 0
  let pg : Nat := 0
  let s : State := { hw := { ((mk [(SLT_PAGE_STATUS.STATE 0, 2)]).hw.ts (CIRCUIT.VALID 0) 1 |>.ts (CIRCUIT.DS_EN 0) 1) with slt := { circs := [(0, { start := some (5, 0) })], pages := [(0, { caps := [(0, (1, 2, 0))] })] } } }
  let h := s.hw
  let f := (f0 + (h.circ x).played) % 65536
  let cap := h.circCap pg x
  let n := h.modCirc x (fun k => { k with played := k.played + 1 })
  let g := ((n.circCount (CIRCUIT_STATE.DS_MISSING x) (some (x.val, 2))).note (4 + x) 22).modCirc x (fun k => { k with gather := k.gather ++ [List.replicate cap.1 (0xFF#8)], defect := k.defect || false })
  h.sltOn = true ∧
  h.playoutDue x = true ∧
  (h.circ x).start = some (f0, at') ∧
  h.pageNear f = some pg ∧
  h.t (CIRCUIT_STATE.ACTIVE_PATH x) = 0 ∧
  h.t (CIRCUIT_STATE.SF_W x) = 0 ∧
  h.t (CIRCUIT_STATE.PLM x) = 0 ∧
  (h.slotCh (h.pathCh x 0)).store.get none (f % 32) = none ∧
  n.cf x (CIRCUIT.VALID x) = 1 ∧
  n.cf x (CIRCUIT.DS_EN x) = 1 ∧
  (g.circ x).gather.length < cap.2.1 := by
  dsimp only <;> decide +kernel

theorem meets_framePlayout_silent :
  let x : Fin 1024 := 0
  let f0 : Nat := 5
  let at' : Nat := 0
  let pg : Nat := 0
  let s : State := { hw := { ((mk [(SLT_PAGE_STATUS.STATE 0, 2)]).hw.ts (CIRCUIT.VALID 0) 1) with slt := { circs := [(0, { start := some (5, 0) })], pages := [(0, { caps := [(0, (1, 1, 0))] })] } } }
  let h := s.hw
  let f := (f0 + (h.circ x).played) % 65536
  let n := h.modCirc x (fun k => { k with played := k.played + 1 })
  h.sltOn = true ∧
  h.playoutDue x = true ∧
  (h.circ x).start = some (f0, at') ∧
  h.pageNear f = some pg ∧
  (n.cf x (CIRCUIT.VALID x) = 0 ∨ n.cf x (CIRCUIT.DS_EN x) = 0) := by
  dsimp only <;> decide +kernel

theorem meets_slotPacketRx :
  let p : Fin 512 := 0
  let bs : Bytes := List.replicate 12 0 ++ beBytes 2 0 ++ beBytes 4 0 ++ [7] ++ [0, 0, 0, 0]
  let o : Nat := 12
  let pg : Nat := 0
  let s : State := { hw := { ((mk [(SLT_PAGE_STATUS.STATE 0, 2), (SLT_CFG.ETYPE, 0)]).hw.ts (CIRCUIT.VALID 0) 1 |>.ts (CIRCUIT.US_EN 0) 1 |>.ts (CIRCUIT.JB_FRAMES 0) 4) with slt := { circs := [(0, { expect := some 0 })], pages := [(0, { caps := [(0, (1, 1, 0))] })] } } }
  let h := s.hw
  let w := beAt bs (o + 2) 4
  let x := w / 2 ^ 22
  let seq := w % 4096
  let body := (bs.take (bs.length - 4)).drop (o + 6)
  let cap := h.circCap pg x
  let g := h.modCirc x (fun q => { q with expect := some ((seq + 1) % 4096) })
  h.slotAt bs = some o ∧
  h.sltOn = true ∧
  h.cf x (CIRCUIT.VALID x) ≠ 0 ∧
  h.pageNear h.fLoc = some pg ∧
  h.cf x (CIRCUIT.US_EN x) ≠ 0 ∧
  cap.2.2 = p.val ∧
  body.length = cap.2.1 * cap.1 ∧
  (h.circ x).expect = some seq ∧
  (g.circ x).jitter.length + (slotFrames cap.1 body cap.2.1).length ≤ g.cf x (CIRCUIT.JB_FRAMES x) := by
  dsimp only <;> decide +kernel

theorem meets_pageScanDone :
  let p : Fin 2 := 0
  let s : State := mk [(SLT_PAGE_STATUS.STATE 0, 1)]
  let h := s.hw
  h.sltOn = true ∧
  h.pageState p = 1 ∧
  (h.slotPage p).armed = false := by
  dsimp only <;> decide +kernel

theorem meets_pageRetire :
  let p : Fin 2 := 0
  let s : State := mk [(SLT_PAGE_STATUS.STATE 0, 3), ((Fn.page 0).RP, 1)]
  let h := s.hw
  let g := h.lcOff (.page p)
  h.pageState p = 3 ∧
  g.pageState p = 1 := by
  dsimp only <;> decide +kernel

theorem meets_pageRetire_off :
  let p : Fin 2 := 0
  let s : State := mk [(SLT_PAGE_STATUS.STATE 0, 3)]
  let h := s.hw
  let g := h.lcOff (.page p)
  h.pageState p = 3 ∧
  g.pageState p ≠ 1 := by
  dsimp only <;> decide +kernel

theorem meets_pswClear :
  let m : Master := .jtag
  let v : Word := 0x80000000#32
  let s : State := mk []
  s.hw.admits m SLT_PSW_CMD.A true ∧
  getField (setField v 10 3 0) 31 1 = 1 := by
  dsimp only <;> decide +kernel

theorem meets_pswLockout :
  let m : Master := .jtag
  let v : Word := 0x80000000#32
  let s : State := mk []
  s.hw.admits m SLT_PSW_CMD.A true ∧
  getField (setField v 10 3 1) 31 1 = 1 := by
  dsimp only <;> decide +kernel

theorem meets_pswForceWork :
  let m : Master := .jtag
  let v : Word := 0x80000000#32
  let s : State := mk []
  s.hw.admits m SLT_PSW_CMD.A true ∧
  getField (setField v 10 3 2) 31 1 = 1 := by
  dsimp only <;> decide +kernel

theorem meets_pswForceProt :
  let m : Master := .jtag
  let v : Word := 0x80000000#32
  let s : State := mk []
  s.hw.admits m SLT_PSW_CMD.A true ∧
  getField (setField v 10 3 3) 31 1 = 1 := by
  dsimp only <;> decide +kernel

theorem meets_pswManualWork :
  let m : Master := .jtag
  let v : Word := 0x80000000#32
  let s : State := mk []
  let h := s.hw.reached m SLT_PSW_CMD.A
  let g := h.plainWrite SLT_PSW_CMD.A (setField v 10 3 4)
  s.hw.admits m SLT_PSW_CMD.A true ∧
  getField (setField v 10 3 4) 31 1 = 1 ∧
  g.t (CIRCUIT_STATE.SF_W (g.rd SLT_PSW_CMD.CIRCUIT)) ≠ 1 := by
  dsimp only <;> decide +kernel

theorem meets_pswManualWork_refused :
  let m : Master := .jtag
  let v : Word := 0x80000000#32
  let s : State := { hw := (mk []).hw.ts (CIRCUIT_STATE.SF_W 0) 1 }
  let h := s.hw.reached m SLT_PSW_CMD.A
  let g := h.plainWrite SLT_PSW_CMD.A (setField v 10 3 4)
  s.hw.admits m SLT_PSW_CMD.A true ∧
  getField (setField v 10 3 4) 31 1 = 1 ∧
  g.t (CIRCUIT_STATE.SF_W (g.rd SLT_PSW_CMD.CIRCUIT)) = 1 := by
  dsimp only <;> decide +kernel

theorem meets_pswManualProt :
  let m : Master := .jtag
  let v : Word := 0x80000000#32
  let s : State := mk []
  let h := s.hw.reached m SLT_PSW_CMD.A
  let g := h.plainWrite SLT_PSW_CMD.A (setField v 10 3 5)
  s.hw.admits m SLT_PSW_CMD.A true ∧
  getField (setField v 10 3 5) 31 1 = 1 ∧
  g.t (CIRCUIT_STATE.SF_P (g.rd SLT_PSW_CMD.CIRCUIT)) ≠ 1 := by
  dsimp only <;> decide +kernel

theorem meets_pswWtrExpire :
  let x : Fin 1024 := 0
  let s : State := { hw := (mk []).hw.ts (CIRCUIT_STATE.WTR_RUN 0) 1 |>.ts (CIRCUIT_STATE.ACTIVE_PATH 0) 1 }
  let h := s.hw
  let g := h.ts (CIRCUIT_STATE.WTR_RUN x) 0
  h.t (CIRCUIT_STATE.WTR_RUN x) ≠ 0 ∧
  g.t (CIRCUIT_STATE.CMD_IN_FORCE x) ≠ 3 ∧
  g.t (CIRCUIT_STATE.CMD_IN_FORCE x) ≠ 5 ∧
  g.t (CIRCUIT_STATE.ACTIVE_PATH x) ≠ 0 := by
  dsimp only <;> decide +kernel

theorem meets_timeSet :
  let m : Master := .jtag
  let s : State := mk []
  let h := s.hw.reached m TIM_SET_CMD.A
  s.hw.admits m TIM_SET_CMD.A true ∧
  h.timRuns = true ∧
  h.rd TIM_SET_NS.NS < 1000000000 := by
  dsimp only <;> decide +kernel

theorem meets_timeAdd :
  let m : Master := .jtag
  let s : State := mk []
  let h := s.hw.reached m TIM_SET_CMD.A
  s.hw.admits m TIM_SET_CMD.A true ∧
  h.timRuns = true := by
  dsimp only <;> decide +kernel

theorem meets_timeReadLatch :
  let m : Master := .jtag
  let s : State := mk []
  s.hw.admits m TIM_NOW_NS.A false := by
  dsimp only <;> decide +kernel

theorem meets_todArm :
  let m : Master := .jtag
  let v : Word := 1#32
  let s : State := mk [(TIM_TOD_SFC.SFC_LO, 5)]
  let h := s.hw.reached m TIM_TOD_ARM.A
  let g := (h.plainWrite TIM_TOD_ARM.A v).wr TIM_TOD_ARM.FORCE (getField v 1 1)
  s.hw.admits m TIM_TOD_ARM.A true ∧
  getField v 0 1 = 1 ∧
  (g.todSfc + 2 ^ 51 - g.sfc (g.rd TIM_CTRL.SRC_CH)) % 2 ^ 51 < 2 ^ 50 := by
  dsimp only <;> decide +kernel

theorem meets_todArm_late :
  let m : Master := .jtag
  let v : Word := 1#32
  let s : State := { hw := (mk [(TIM_TOD_SFC.SFC_LO, 0)]).hw.setWord (TRK_SFC.A 0) 3#32 }
  let h := s.hw.reached m TIM_TOD_ARM.A
  let g := (h.plainWrite TIM_TOD_ARM.A v).wr TIM_TOD_ARM.FORCE (getField v 1 1)
  s.hw.admits m TIM_TOD_ARM.A true ∧
  getField v 0 1 = 1 ∧
  2 ^ 50 ≤ (g.todSfc + 2 ^ 51 - g.sfc (g.rd TIM_CTRL.SRC_CH)) % 2 ^ 51 := by
  dsimp only <;> decide +kernel

theorem meets_todUpdate :
  let s : State := mkSync
  let h := s.hw
  let g := h.wr TIM_TOD_ARM.ARM 0
  h.rd TIM_TOD_ARM.ARM ≠ 0 ∧
  h.timRuns = true ∧
  h.rd TIM_CTRL.SRC_EN ≠ 0 ∧
  h.todOther = false ∧
  g.inSync (g.rd TIM_CTRL.SRC_CH) = true := by
  dsimp only <;> decide +kernel

theorem meets_todUpdate_lost :
  let s : State := mk [(TIM_TOD_ARM.ARM, 1), (TIM_CTRL.SRC_EN, 1)]
  let h := s.hw
  let g := h.wr TIM_TOD_ARM.ARM 0
  h.rd TIM_TOD_ARM.ARM ≠ 0 ∧
  h.timRuns = true ∧
  h.rd TIM_CTRL.SRC_EN ≠ 0 ∧
  h.todOther = false ∧
  g.inSync (g.rd TIM_CTRL.SRC_CH) = false := by
  dsimp only <;> decide +kernel

theorem meets_timSourceWrite :
  let m : Master := .jtag
  let v : Word := 0#32
  let s : State := mk []
  let h := s.hw.reached m TIM_CTRL.A
  let g := h.fullWrite TIM_CTRL.A v
  s.hw.admits m TIM_CTRL.A true ∧
  g.rd TIM_TOD_ARM.ARM = 0 := by
  dsimp only <;> decide +kernel

theorem meets_timSourceWrite_armed :
  let m : Master := .jtag
  let v : Word := 0#32
  let s : State := mk [(TIM_TOD_ARM.ARM, 1)]
  let h := s.hw.reached m TIM_CTRL.A
  let g := h.fullWrite TIM_CTRL.A v
  s.hw.admits m TIM_CTRL.A true ∧
  g.rd TIM_TOD_ARM.ARM = 1 := by
  dsimp only <;> decide +kernel

theorem meets_freqMeasurement :
  let s : State := mkSync
  let h := s.hw
  h.timRuns = true ∧
  h.srcSync = true := by
  dsimp only <;> decide +kernel

theorem meets_ppsPulse :
  let s : State := { hw := { (mk [(TIM_CTRL.PPS_OUT_EN, 1)]).hw with tim := { ({} : TimSt) with now := { ({} : TimSt).now with sec := 1 } } } }
  let h := s.hw
  h.rd TIM_CTRL.PPS_OUT_EN = 1 ∧
  h.timRuns = true ∧
  h.tim.pps < h.tim.now.sec := by
  dsimp only <;> decide +kernel

theorem meets_edgeCapture :
  let i : Fin 5 := 0
  let falling : Bool := 0
  let s : State := mk [(TIM_CAP.CAP_EN 0, 1)]
  let h := s.hw
  h.timRuns = true ∧
  h.rd (TIM_CAP.CAP_EN i) ≠ 0 ∧
  h.rd (TIM_CAP.EDGE i) = b2n falling ∧
  i.val ≠ 4 ∧
  (h.tim.caps.get [] i).length < 8 := by
  dsimp only <;> decide +kernel

theorem meets_edgeCapture_full :
  let i : Fin 5 := 0
  let falling : Bool := 0
  let s : State := { hw := { (mk [(TIM_CAP.CAP_EN 0, 1)]).hw with tim := { caps := [(0, List.replicate 8 { ns := 0, sec := 0, state := 0 })] } } }
  let h := s.hw
  h.timRuns = true ∧
  h.rd (TIM_CAP.CAP_EN i) ≠ 0 ∧
  h.rd (TIM_CAP.EDGE i) = b2n falling ∧
  i.val ≠ 4 ∧
  8 ≤ (h.tim.caps.get [] i).length := by
  dsimp only <;> decide +kernel

theorem meets_capturePop :
  let m : Master := .jtag
  let i : Fin 5 := 0
  let v : Word := 4#32
  let s : State := mk []
  s.hw.admits m (TIM_CAP.A i) true ∧
  getField v 2 1 = 1 := by
  dsimp only <;> decide +kernel

theorem meets_tsQueuePop :
  let m : Master := .jtag
  let q : Fin 16 := 0
  let v : Word := 0x100#32
  let s : State := mk []
  s.hw.admits m (TIM_TSQ.A q) true ∧
  getField v 8 1 = 1 := by
  dsimp only <;> decide +kernel

theorem meets_slotFire :
  let x : Fin 64 := 0
  let s : State := { hw := (mk []).hw.ts (SLOT.VALID 0) 1 |>.ts (SLOT.PERIOD 0) 5 }
  let h := s.hw
  h.t (SLOT.VALID x) ≠ 0 ∧
  h.timRuns = true ∧
  h.slotTime x ≤ h.tim.now.abs ∧
  h.t (SLOT.PERIOD x) ≠ 0 ∧
  h.tim.late.contains x.val = false := by
  dsimp only <;> decide +kernel

theorem meets_slotFire_once :
  let x : Fin 64 := 0
  let s : State := { hw := (mk []).hw.ts (SLOT.VALID 0) 1 }
  let h := s.hw
  h.t (SLOT.VALID x) ≠ 0 ∧
  h.timRuns = true ∧
  h.slotTime x ≤ h.tim.now.abs ∧
  h.t (SLOT.PERIOD x) = 0 ∧
  h.tim.late.contains x.val = false := by
  dsimp only <;> decide +kernel

theorem meets_slotFire_late :
  let x : Fin 64 := 0
  let s : State := { hw := { ((mk []).hw.ts (SLOT.VALID 0) 1 |>.ts (SLOT.PERIOD 0) 5) with tim := { late := [0] } } }
  let h := s.hw
  h.t (SLOT.VALID x) ≠ 0 ∧
  h.timRuns = true ∧
  h.slotTime x ≤ h.tim.now.abs ∧
  h.t (SLOT.PERIOD x) ≠ 0 ∧
  h.tim.late.contains x.val = true := by
  dsimp only <;> decide +kernel

theorem meets_gateConfigChange :
  let m : Master := .jtag
  let p : Fin 512 := 0
  let v : Word := 2#32
  let s : State := mk [(SUB_GATE_LEN.LEN 0, 2)]
  let h := s.hw.reached m (SUB_GATE_CTRL.A p)
  let g := h.fullWrite (SUB_GATE_CTRL.A p) v
  s.hw.admits m (SUB_GATE_CTRL.A p) true ∧
  getField v 1 1 = 1 ∧
  g.rd (SUB_GATE_LEN.LEN p) ≠ 0 := by
  dsimp only <;> decide +kernel

theorem meets_gateListStart :
  let p : Fin 512 := 0
  let t : Nat := 0
  let s : State := { hw := { (mk [(TIM_STATUS.STATE, 1)]).hw with sub := { ports := [(0, { gate := { pend := some 0 } })] } } }
  let h := s.hw
  (h.port p).gate.pend = some t ∧
  h.timRuns = true ∧
  h.rd TIM_STATUS.STATE ≠ 0 ∧
  t ≤ h.tim.now.abs := by
  dsimp only <;> decide +kernel

theorem meets_gateEntryAdvance :
  let p : Fin 512 := 0
  let s : State := { hw := { sub := { ports := [(0, { gate := { running := true } })] } } }
  let h := s.hw
  h.timRuns = true ∧
  (h.port p).gate.running = true ∧
  (h.port p).gate.entryEnd ≤ h.tim.now.abs := by
  dsimp only <;> decide +kernel

theorem meets_twnActInChange :
  let s : State := { hw := { (mk [(TWN_STATUS.ACT_IN, 1), (GLB_STRAP.TWIN_EN, 1), (TWN_STATUS.ROLE_STATE, 2)]).hw with twn := { ({} : TwnSt) with windowOver := true } } }
  let h := s.hw
  let g := h.wr TWN_STATUS.ACT_IN 0
  h.actIn = true ∧
  g.paired = true ∧
  g.role = 2 ∧
  g.twn.windowOver = true := by
  dsimp only <;> decide +kernel

theorem meets_twnActInChange_lost :
  let s : State := mk [(GLB_STRAP.TWIN_EN, 1), (TWN_STATUS.ROLE_STATE, 2), (TWN_STATUS.ROLE, 1)]
  let h := s.hw
  let g := h.wr TWN_STATUS.ACT_IN 1
  h.actIn = false ∧
  g.paired = true ∧
  g.role = 2 ∧
  g.isB = true ∧
  g.twn.handover = false ∧
  g.twn.windowOver = false := by
  dsimp only <;> decide +kernel

theorem meets_twnActInChange_split :
  let s : State := mk [(GLB_STRAP.TWIN_EN, 1), (TWN_STATUS.ROLE_STATE, 3)]
  let h := s.hw
  let g := h.wr TWN_STATUS.ACT_IN 1
  h.actIn = false ∧
  g.paired = true ∧
  g.role = 3 := by
  dsimp only <;> decide +kernel

theorem meets_claimHoldExpire :
  let s : State := mk [(TWN_CTRL.AUTO_TAKEOVER, 1), (GLB_STRAP.TWIN_EN, 1), (TWN_STATUS.ROLE_STATE, 1), (TWN_CTRL.CLAIM_EN, 1)]
  let h := s.hw
  h.rd TWN_CTRL.AUTO_TAKEOVER = 1 ∧
  h.linkUp = false ∧
  h.actIn = false ∧
  h.paired = true ∧
  h.role = 1 ∧
  h.rd TWN_CTRL.CLAIM_EN = 1 ∧
  h.rd TWN_STATUS.ROLE_CONFLICT = 0 := by
  dsimp only <;> decide +kernel

theorem meets_contentionWindowEnd :
  let s : State := mk [(TWN_STATUS.ROLE_STATE, 2)]
  let h := s.hw
  h.role = 2 ∧
  (h.actIn = false ∨ h.twn.handover = true) := by
  dsimp only <;> decide +kernel

theorem meets_contentionWindowEnd_wait :
  let s : State := mk [(TWN_STATUS.ROLE_STATE, 2), (TWN_STATUS.ACT_IN, 1)]
  let h := s.hw
  h.role = 2 ∧
  h.actIn = true ∧
  h.twn.handover = false := by
  dsimp only <;> decide +kernel

theorem meets_handoverClaimTimeout :
  let s : State := { hw := { (mk [(TWN_STATUS.ROLE_STATE, 2), (TWN_STATUS.ACT_IN, 1)]).hw with twn := { ({} : TwnSt) with handover := true } } }
  let h := s.hw
  h.role = 2 ∧
  h.twn.handover = true ∧
  h.actIn = true := by
  dsimp only <;> decide +kernel

theorem meets_handover :
  let m : Master := .jtag
  let v : Word := 0#32
  let s : State := mk [(TWN_STATUS.ROLE_STATE, 3), (TWN_STATUS.LINK_STATE, 2), (TWN_STATUS.PEER_STATE, 1), (TWN_STATUS.PEER_CLAIM_EN, 1), (TWN_STATUS.PEER_MIRROR_SYNC, 1)]
  let h := s.hw.reached m TWN_CTRL.A
  let g := h.plainWrite TWN_CTRL.A v
  s.hw.admits m TWN_CTRL.A true ∧
  g.role = 3 ∧
  g.linkUp = true ∧
  g.rd TWN_STATUS.PEER_STATE = 1 ∧
  g.rd TWN_STATUS.PEER_CLAIM_EN = 1 ∧
  g.rd TWN_STATUS.PEER_MIRROR_SYNC = 1 := by
  dsimp only <;> decide +kernel

theorem meets_handoverReqRx :
  let s : State := mk [(GLB_STRAP.TWIN_EN, 1), (TWN_STATUS.LINK_STATE, 2)]
  let h := s.hw
  h.linkUp = true ∧
  h.paired = true := by
  dsimp only <;> decide +kernel

theorem meets_handoverAckRx :
  let s : State := mk [(TWN_STATUS.ROLE_STATE, 4), (TWN_STATUS.LINK_STATE, 2)]
  let h := s.hw
  h.linkUp = true ∧
  h.role = 4 := by
  dsimp only <;> decide +kernel

theorem meets_yieldRx :
  let s : State := mk [(TWN_STATUS.LINK_STATE, 2), (GLB_STRAP.TWIN_EN, 1), (TWN_STATUS.ROLE_STATE, 1), (TWN_CTRL.CLAIM_EN, 1)]
  let h := s.hw
  h.linkUp = true ∧
  h.paired = true ∧
  h.role = 1 ∧
  h.rd TWN_CTRL.CLAIM_EN = 1 ∧
  h.rd TWN_STATUS.ROLE_CONFLICT = 0 := by
  dsimp only <;> decide +kernel

theorem meets_handoverAckTimeout :
  let s : State := mk [(TWN_STATUS.ROLE_STATE, 4)]
  let h := s.hw
  h.role = 4 ∧
  h.twn.forward = false := by
  dsimp only <;> decide +kernel

theorem meets_handoverDrainExpire :
  let s : State := { hw := { (mk [(TWN_STATUS.ROLE_STATE, 4)]).hw with twn := { ({} : TwnSt) with forward := true } } }
  let h := s.hw
  h.role = 4 ∧
  h.twn.forward = true := by
  dsimp only <;> decide +kernel

set_option maxRecDepth 100000 in
theorem meets_handoverPortsOff :
  let s : State := { hw := { (mk [(TWN_STATUS.ROLE_STATE, 4)]).hw with twn := { ({} : TwnSt) with drained := true } } }
  let h := s.hw
  h.role = 4 ∧
  h.twn.drained = true ∧
  (List.range 512).all (fun p => h.portState p == 0) = true := by
  dsimp only <;> decide +kernel

theorem meets_heartbeatTx :
  let s : State := mk [(TWN_STATUS.STATE, 2), (TWN_STATUS.LINK_STATE, 1)]
  let h := s.hw
  h.linkSends = true := by
  dsimp only <;> decide +kernel

theorem meets_heartbeatRx :
  let s : State := mk [(TWN_STATUS.LINK_STATE, 2)]
  let h := s.hw
  h.linkUp = true := by
  dsimp only <;> decide +kernel

theorem meets_heartbeatMiss :
  let s : State := mk [(TWN_STATUS.LINK_STATE, 2)]
  let h := s.hw
  h.linkUp = true ∧
  h.twn.misses + 1 < 5 := by
  dsimp only <;> decide +kernel

theorem meets_heartbeatMiss_fifth :
  let s : State := { hw := { (mk [(TWN_STATUS.LINK_STATE, 2)]).hw with twn := { ({} : TwnSt) with misses := 4 } } }
  let h := s.hw
  let g := h.twnCount 1
  let k := { g with twn := { h.twn with misses := h.twn.misses + 1 } }
  h.linkUp = true ∧
  4 ≤ h.twn.misses ∧
  k.rd TWN_STATUS.LINK_STATE = 2 := by
  dsimp only <;> decide +kernel

theorem meets_twinTrainComplete :
  let k : Fin 32 := 0
  let s : State := mk [(TWN_STATUS.STATE, 2), (TWN_STATUS.LINK_STATE, 1)]
  let h := s.hw
  h.st .twinLink = 2 ∧
  h.rd TWN_STATUS.LINK_STATE = 1 ∧
  (List.range 8).any (fun i => h.capRd (SRD_LANE_CTRL.TEST (64 + i)) == 1) = false ∧
  k.val ≤ 16 := by
  dsimp only <;> decide +kernel

theorem meets_twinTrainComplete_order :
  let s : State := mk [(TWN_STATUS.STATE, 2), (TWN_STATUS.LINK_STATE, 1)]
  let h := s.hw
  h.st .twinLink = 2 ∧
  h.rd TWN_STATUS.LINK_STATE = 1 ∧
  (List.range 8).any (fun i => h.capRd (SRD_LANE_CTRL.TEST (64 + i)) == 1) = false := by
  dsimp only <;> decide +kernel

theorem meets_twinLinkRetrain :
  let s : State := mk [(TWN_STATUS.STATE, 2)]
  let h := s.hw
  h.st .twinLink = 2 ∧
  h.rd TWN_STATUS.LINK_STATE = 0 := by
  dsimp only <;> decide +kernel

theorem meets_twinLaneFault :
  let lock : Fin 256 := 0
  let k : Nat := 0
  let s : State := mk [(TWN_STATUS.LINK_STATE, 2)]
  let h := s.hw
  h.linkUp = true ∧
  (lock.val ≠ 255 ∨ 16 < k) := by
  dsimp only <;> decide +kernel

theorem meets_twinIdleEntry :
  let s : State := mk [(TWN_CTRL.IDLE_EN, 1), (TWN_STATUS.LINK_STATE, 2)]
  let h := s.hw
  h.rd TWN_CTRL.IDLE_EN = 1 ∧
  h.linkUp = true ∧
  h.twinQuiet = true := by
  dsimp only <;> decide +kernel

theorem meets_portFrameRx :
  let bs : Bytes := beBytes 7 (2 ^ 37) ++ [0]
  let s : State := { hw := (mk [(TWN_STATUS.LINK_STATE, 2)]).hw.ts (SECY.VALIDATE 64) 0 }
  let h := s.hw
  TwinPlain h 0 bs := by
  dsimp only <;> decide +kernel

theorem meets_dsPortRx :
  let bs : Bytes := beBytes 7 (2 ^ 52 + 2 ^ 37) ++ [0]
  let s : State := { hw := ((mk [(GLB_STRAP.TWIN_EN, 1), (TWN_STATUS.LINK_STATE, 2)]).hw.ts (SECY.VALIDATE 64) 0 |>.ts (DS_Q.VALID 0) 1) }
  let h := s.hw
  let x := beAt bs 0 7
  TwinPlain h 1 bs ∧
  bitsOf x 22 10 < 512 ∧
  h.t (DS_Q.VALID (bitsOf x 22 10)) = 1 := by
  dsimp only <;> decide +kernel

theorem meets_usQueueRx :
  let bs : Bytes := beBytes 7 (2 * 2 ^ 52 + 2 ^ 37) ++ [0]
  let s : State := { hw := (mk [(GLB_STRAP.TWIN_EN, 1), (TWN_STATUS.LINK_STATE, 2)]).hw.ts (SECY.VALIDATE 64) 0 }
  let h := s.hw
  let x := beAt bs 0 7
  TwinPlain h 2 bs ∧
  bitsOf x 14 18 < 65536 := by
  dsimp only <;> decide +kernel

theorem meets_mirrorRx :
  let bs : Bytes := beBytes 7 (3 * 2 ^ 52 + 72 * 2 ^ 37) ++ beBytes 4 (1 * 2 ^ 8) ++ zeros 68
  let b : Nat := 0x2000000
  let t : Nat × TabRow := ((gateTable 0x2000000 1).getD (0, ⟨"", 0, 0, 0, .any, []⟩))
  let s : State := { hw := (mk [(TWN_STATUS.LINK_STATE, 2), (TWN_STATUS.ROLE_STATE, 1), (GLB_STRAP.TWIN_EN, 1)]).hw.ts (SECY.VALIDATE 64) 0 }
  let h := s.hw
  let r := bs.drop 7
  let d := beAt r 0 4
  let g := (h.settle (b + 0x48)).gateFinish b
  let k := ({ base := b, gate := t.1, row := t.2, x := beAt r 4 4, seg := bitsOf d 3 4 } : GateSel)
  TwinPlain h 3 bs ∧
  h.role = 1 ∧
  bitsOf d 29 3 = 0 ∧
  mirrorBase (bitsOf d 0 3) (bitsOf d 16 10) = some b ∧
  h.domOff (b + 0x48) = false ∧
  bitsOf d 0 3 ≠ 7 ∧
  bitsOf d 0 3 ≠ 6 ∧
  gateTable b (bitsOf d 8 8) = some t ∧
  g.entryErr k 3 = 0 := by
  dsimp only <;> decide +kernel

theorem meets_mirrorRx_end :
  let bs : Bytes := beBytes 7 (3 * 2 ^ 52 + 72 * 2 ^ 37) ++ beBytes 4 (3 * 2 ^ 29) ++ zeros 68
  let s : State := { hw := { ((mk [(GLB_STRAP.TWIN_EN, 1), (TWN_STATUS.LINK_STATE, 2), (TWN_STATUS.ROLE_STATE, 1)]).hw.ts (SECY.VALIDATE 64) 0) with twn := { ({} : TwnSt) with clean := true } } }
  let h := s.hw
  TwinPlain h 3 bs ∧
  h.role = 1 ∧
  bitsOf (beAt (bs.drop 7) 0 4) 29 3 = 3 ∧
  h.twn.clean = true := by
  dsimp only <;> decide +kernel

theorem meets_mailboxRx :
  let bs : Bytes := beBytes 7 (4 * 2 ^ 52 + 32 * 2 ^ 37) ++ zeros 32
  let s : State := { hw := ((mk [(GLB_STRAP.TWIN_EN, 1), (TWN_STATUS.LINK_STATE, 2)]).hw.ts (SECY.VALIDATE 64) 0 |>.ts (MBX_CFG.VALID 0) 1 |>.ts (MBX_CFG.TX_MASTER 0) 255) }
  let h := s.hw
  let x := beAt bs 0 7
  let ch := bitsOf x 29 8
  TwinPlain h 4 bs ∧
  h.t (MBX_CFG.RX_DOM ch) ≠ 28 ∧
  ch < 128 ∧
  h.postStatus 0x70 ch = 0 := by
  dsimp only <;> decide +kernel

theorem meets_mbxResultRx :
  let bs : Bytes := beBytes 7 (5 * 2 ^ 52)
  let s : State := { hw := { ((mk [(GLB_STRAP.TWIN_EN, 1), (TWN_STATUS.LINK_STATE, 2)]).hw.ts (SECY.VALIDATE 64) 0) with twn := { ({} : TwnSt) with sent := [0] } } }
  let h := s.hw
  let ch := bitsOf (beAt bs 0 7) 29 8
  TwinPlain h 5 bs ∧
  h.twn.sent.contains ch = true ∧
  h.twn.full.contains ch = false ∧
  bitsOf (beAt bs 0 7) 27 2 = 0 := by
  dsimp only <;> decide +kernel

theorem meets_mbxResultRx_full :
  let bs : Bytes := beBytes 7 (5 * 2 ^ 52 + 2 ^ 27)
  let s : State := { hw := { ((mk [(GLB_STRAP.TWIN_EN, 1), (TWN_STATUS.LINK_STATE, 2)]).hw.ts (SECY.VALIDATE 64) 0) with twn := { ({} : TwnSt) with sent := [0] } } }
  let h := s.hw
  let ch := bitsOf (beAt bs 0 7) 29 8
  TwinPlain h 5 bs ∧
  h.twn.sent.contains ch = true ∧
  h.twn.full.contains ch = false ∧
  bitsOf (beAt bs 0 7) 27 2 = 1 := by
  dsimp only <;> decide +kernel

theorem meets_mbxResendTimer :
  let ch : Fin 256 := 0
  let s : State := { hw := { (mk []).hw with twn := { ({} : TwnSt) with full := [0], sent := [0] } } }
  let h := s.hw
  h.twn.full.contains ch.val = true := by
  dsimp only <;> decide +kernel

theorem meets_slotDsRx :
  let bs : Bytes := beBytes 7 (6 * 2 ^ 52 + 42 * 2 ^ 37) ++ mkCont
  let s : State := { hw := (mk [(GLB_STRAP.TWIN_EN, 1), (TWN_STATUS.LINK_STATE, 2), (SLT_PAGE_STATUS.STATE 0, 2)]).hw.ts (SECY.VALIDATE 64) 0 }
  let h := s.hw
  let k := 4 + bitsOf (beAt bs 0 7) 35 2
  let f := beAt (bs.drop 7) 2 2
  TwinPlain h 6 bs ∧
  h.sltOn = true ∧
  h.pageOn.isSome = true ∧
  h.contFresh k f = true := by
  dsimp only <;> decide +kernel

theorem meets_slotUsRx :
  let bs : Bytes := beBytes 7 (7 * 2 ^ 52 + 42 * 2 ^ 37) ++ mkCont
  let s : State := { hw := (mk [(GLB_STRAP.TWIN_EN, 1), (TWN_STATUS.LINK_STATE, 2)]).hw.ts (SECY.VALIDATE 64) 0 }
  let h := s.hw
  let c := bitsOf (beAt bs 0 7) 35 2
  TwinPlain h 7 bs ∧
  h.sltOn = true ∧
  (h.slotCh c).twinUs.isSome = false := by
  dsimp only <;> decide +kernel

theorem meets_mirrorSweep :
  let m : Master := .jtag
  let v : Word := 0x80000000#32
  let s : State := mk [(TWN_STATUS.ROLE_STATE, 3), (TWN_STATUS.LINK_STATE, 2), (TWN_CTRL.MIRROR_EN, 1)]
  let h := s.hw.reached m TWN_MIRROR_CFG.A
  let g := h.plainWrite TWN_MIRROR_CFG.A v
  s.hw.admits m TWN_MIRROR_CFG.A true ∧
  getField v 31 1 = 1 ∧
  g.role = 3 ∧
  g.rd TWN_CTRL.MIRROR_EN = 1 ∧
  g.linkUp = true := by
  dsimp only <;> decide +kernel

theorem meets_revertHoldExpire :
  let s : State := mk [(TWN_CTRL.REVERT_EN, 1), (TRK_PMA_STATUS.STATE 0, 2), (TRK_ACT_STATUS.ACT_STATE 0, 5), (TWN_COVER.COVER_MASK, 1)]
  let h := s.hw
  h.rd TWN_CTRL.REVERT_EN = 1 ∧
  h.coveredO5 = true := by
  dsimp only <;> decide +kernel

theorem meets_clearRedirect :
  let m : Master := .jtag
  let s : State := mk [(TRK_PMA_STATUS.STATE 0, 2), (TRK_ACT_STATUS.ACT_STATE 0, 5), (TWN_COVER.COVER_MASK, 1)]
  let h := s.hw.reached m TWN_CTRL.A
  s.hw.admits m TWN_CTRL.A true ∧
  h.coveredO5 = true := by
  dsimp only <;> decide +kernel

theorem meets_redirectServe :
  let k : Pkt := { bytes := List.replicate 64 0 }
  let s : State := { hw := { ((mk [(TWN_STATUS.REDIRECT, 1)]).hw.ts (QMAP.VALID 0) 1) with grn := { queues := [(0, { pkts := [{ pkt := { bytes := List.replicate 64 0 } }] })] } } }
  let h := s.hw
  let parts := ((List.range 4).map (fun c => (h.act c).frags.map (fun f => f.q))).flatten
  let lst := ((h.backlog false ++ parts).eraseDups).filter (fun q => h.t (QMAP.VALID q) == 1)
  let q := nextAfter lst h.twn.redirRr
  h.rd TWN_STATUS.REDIRECT ≠ 0 ∧
  lst ≠ [] ∧
  h.fragsOf q = none ∧
  h.headPkt q = some k ∧
  h.twinRoom k.len = true := by
  dsimp only <;> decide +kernel

theorem meets_twinFrameTx :
  let ds : Bool := true
  let c : Nat := 0
  let bs : Bytes := []
  let t : List (Bool × Nat × Bytes) := []
  let s : State := { hw := { (mk [(TWN_STATUS.LINK_STATE, 2)]).hw with twn := { ({} : TwnSt) with slots := [(true, 0, [])] } } }
  let h := s.hw
  h.linkUp = true ∧
  h.twn.slots = (ds, c, bs) :: t := by
  dsimp only <;> decide +kernel

theorem meets_twinFrameTx_message :
  let ch : Nat := 0
  let msg : Msg := { words := [], master := 0, mode := 0, gen := 0, seq := 0 }
  let t : List TwinMbx := []
  let s : State := { hw := { (mk [(TWN_STATUS.LINK_STATE, 2)]).hw with twn := { ({} : TwnSt) with mbx := [.message 0 { words := [], master := 0, mode := 0, gen := 0, seq := 0 }] } } }
  let h := s.hw
  h.linkUp = true ∧
  h.twn.slots = [] ∧
  h.twn.mbx = .message ch msg :: t := by
  dsimp only <;> decide +kernel

theorem meets_twinFrameTx_mirror :
  let r : MirRec := { kind := 4 }
  let t : List MirRec := []
  let s : State := { hw := { (mk [(TWN_STATUS.LINK_STATE, 2)]).hw with twn := { ({} : TwnSt) with mirror := [{ kind := 4 }] } } }
  let h := s.hw
  h.linkUp = true ∧
  h.twn.slots = [] ∧
  h.twn.mbx = [] ∧
  h.twn.mirrorLost = false ∧
  h.twn.mirror = r :: t := by
  dsimp only <;> decide +kernel

end Sys2Proof.Tests
end

section
/-!
SUPPORT. GLB_CHIP_ID (R3): what a read of a register from the register space answers, what a register whose fields are all
read-only keeps, and the settlement of the statement about the chip's identity.
-/
namespace Sys2Proof.Machine

/-! ## Where an access goes -/

/-- Below BAR2 an address names itself, for every master (R389). -/
theorem busAddr_of_lt_bar2 (m : Master) {a : Nat} (h : a < bar2) : busAddr m a = a := by
  unfold busAddr
  rw [if_neg (by omega)]

/-- Below the staging window no access is one to it (R497). -/
theorem Hw.stages_of_lt_stageBase (s : Hw) (m : Master) {a : Nat} (size : Nat) (acc : Access) (h : a < stageBase) :
    s.stages m a size acc = false := by
  have hload : a ≠ loadWord := (h.trans (by decide)).ne
  have hwindow : ¬(stageBase ≤ a ∧ a < loadWord) := fun hin => h.not_ge hin.1
  simp [Hw.stages, hload, hwindow]

/-- Below BAR2 no access is one to the MSI-X table (R389). -/
theorem Hw.msixArea_of_lt_bar2 (s : Hw) (m : Master) {a : Nat} (size : Nat) (h : a < bar2) :
    s.msixArea m a size = false := by
  have harea : ¬(bar2 + 0x20000 ≤ a ∧ a < bar2 + 0x28100) := by omega
  simp only [Hw.msixArea, harea, decide_false, Bool.and_false, Bool.false_and]

/-- An admitted read of a word of the register space, the staging window apart, reads the register that it reaches. -/
theorem Hw.access_read_of_admits {s : Hw} {m : Master} {a : Nat} (mem : List Host.Cell)
    (hadm : s.admits m (busAddr m a) false) (hstage : s.stages m (busAddr m a) 4 .read = false)
    (hlow : busAddr m a < 0x10000000) :
    s.access mem m a 4 .read = (s.reached m (busAddr m a)).readReg m (busAddr m a) := by
  obtain ⟨hdeaf, herr⟩ := hadm
  have hmsix : s.msixArea m (busAddr m a) 4 = false := s.msixArea_of_lt_bar2 m 4 (hlow.trans (by decide))
  have hext : ¬extBase ≤ busAddr m a := (hlow.trans (by decide)).not_ge
  unfold Hw.access
  cases m <;> simp only [Hw.counted] at herr <;>
    simp [hdeaf, hstage, hmsix, herr, hext, Hw.reached, Hw.counted]

/-- Below the engines' window every master may write a register by its address (R382). -/
theorem aliasCloses_of_lt_engines (m : Master) {a : Nat} (h : a < 0x6000000) : aliasCloses m a = false := by
  cases m with
  | engine e =>
    simp only [aliasCloses, ENG_CTRL.A, ENG_ENTRY.A, ENG_RUN_LIMIT.A, ENG_PERF_USER.A, ENG_PERF_SEL.A,
      Bool.or_eq_false_iff, beq_eq_false_iff_ne, decide_eq_false_iff_not]
    omega
  | _ => rfl

/-! ## Read-only registers (R16) -/

/-- Every field of the register is read-only. -/
abbrev RegRow.readOnly (r : RegRow) : Prop := ∀ f ∈ r.fields, f.acc = .ro

/-- A write leaves a read-only field. -/
theorem FieldRow.write_of_readOnly {f : FieldRow} (h : f.acc = .ro) (w v : Word) : f.write w v = w := by
  simp [FieldRow.write, h]

/-- A write leaves a read-only register. -/
theorem RegRow.write_of_readOnly {r : RegRow} (h : r.readOnly) (w v : Word) : r.write w v = w :=
  List.foldlRecOn (motive := (· = w)) r.fields _ rfl
    (fun _ hx f hf => (FieldRow.write_of_readOnly (h f hf) _ v).trans hx)

/-- A read of a read-only register clears nothing. -/
theorem Hw.readClears_of_readOnly {r : RegRow} (h : r.readOnly) (s : Hw) (a : Nat) : s.readClears r a = s := by
  unfold Hw.readClears
  refine if_neg ?_
  rw [List.any_eq_true]
  rintro ⟨f, hf, hrc⟩
  simp [h f hf] at hrc

/-- A plain write leaves the word of a read-only register that no rule between fields concerns. -/
theorem Hw.word_plainWrite_of_readOnly {s : Hw} {a : Nat} {r : RegRow} (hrow : rowAt a = some r) (hro : r.readOnly)
    (hguard : ∀ w, s.guardWrite r.base a (s.word a) w = w) (v : Word) : (s.plainWrite a v).word a = s.word a := by
  simp only [Hw.plainWrite, hrow, hguard, RegRow.write_of_readOnly hro]
  split
  · exact Hw.word_setWord_self _ _ _
  · exact Hw.word_setWord_self _ _ _

/-! ## GLB_CHIP_ID -/

/-- The register's row is its own, and read-only. -/
theorem rowAt_chipId : ∃ r, rowAt GLB_CHIP_ID.A = some r ∧ r.base = GLB_CHIP_ID.A ∧ r.readOnly :=
  ⟨_, rfl, rfl, by decide⟩

/-- No rule between fields concerns the register. -/
theorem Hw.guardWrite_chipId (s : Hw) (a : Nat) (old w : Word) : s.guardWrite GLB_CHIP_ID.A a old w = w := rfl

/-- The register shows no other state. -/
theorem Hw.view_chipId (s : Hw) (m : Master) (w : Word) : s.view m GLB_CHIP_ID.A GLB_CHIP_ID.A w = w := rfl

/-- A read answers the word that is held. -/
theorem Hw.readReg_chipId (s : Hw) (m : Master) : s.readReg m GLB_CHIP_ID.A = s.answer (s.word GLB_CHIP_ID.A) := by
  obtain ⟨r, hrow, hbase, hro⟩ := rowAt_chipId
  have hlo : isLo GLB_CHIP_ID.A = false := by decide
  have hhi : isHi GLB_CHIP_ID.A = false := by decide
  have hcve : isCve GLB_CHIP_ID.A = false := by decide
  simp only [Hw.readReg, hrow, hbase, hcve, hlo, hhi, Hw.view_chipId, Hw.readClears_of_readOnly hro]
  rfl

/-- A write of the register is a plain write and does nothing beside it. -/
theorem Hw.writeReg_chipId (s : Hw) (m : Master) (v : Word) :
    s.writeReg m GLB_CHIP_ID.A v = s.plainWrite GLB_CHIP_ID.A v := by
  obtain ⟨r, hrow, hbase, -⟩ := rowAt_chipId
  have hacc : accOf GLB_CHIP_ID.A = .ro := by decide
  have hcve : isCve GLB_CHIP_ID.A = false := by decide
  have halias : aliasCloses m GLB_CHIP_ID.A = false := aliasCloses_of_lt_engines m (by decide)
  simp only [Hw.writeReg, hrow, hbase, hcve, halias, hacc]
  rfl

end Sys2Proof.Machine

namespace Sys2Proof
open Machine

/-- Settles O21: the reset word is the row's, a read answers the word held, and a write meets read-only fields alone. -/
theorem theChipIdentifiesItself : Obligations.TheChipIdentifiesItself := by
  refine ⟨by decide, fun m s hadm hword => ?_, fun m v h => ?_⟩
  · have hbus : busAddr m 0x100 = GLB_CHIP_ID.A := busAddr_of_lt_bar2 m (by decide)
    have hread : s.hw.access s.mem m 0x100 4 .read = (s.hw.reached m GLB_CHIP_ID.A).answer 0x45120A01#32 := by
      rw [Hw.access_read_of_admits s.mem (by rwa [hbus])
        (Hw.stages_of_lt_stageBase _ _ _ _ (by rw [hbus]; decide)) (by rw [hbus]; decide), hbus, Hw.readReg_chipId, hword]
    refine ⟨_, rfl, ?_⟩
    have hdata : (s.finish (s.hw.access s.mem m 0x100 4 .read)).hw.rdata = 0x45120A01#32 := by
      rw [State.finish_rdata, hread]
      rfl
    exact ⟨hdata, hdata ▸ by decide, hdata ▸ by decide⟩
  · obtain ⟨r, hrow, hbase, hro⟩ := rowAt_chipId
    rw [Hw.writeReg_chipId]
    exact Hw.word_plainWrite_of_readOnly hrow hro (fun w => hbase ▸ h.guardWrite_chipId _ _ w) v

end Sys2Proof
end

section
/-!
SUPPORT. Access errors (R46): the code that each error gives, and that every command that is a register access logs the
error it meets; the settlement of the statement about them.
-/
namespace Sys2Proof.Machine

/-! ## The codes, in the order of the checks (log entry 12) -/

variable {s : Hw} {m : Master} {a : Nat} {w : Bool}

/-- Code 1. -/
theorem Hw.accessError_align {size : Nat} (h : size ≠ 4 ∨ a % 4 ≠ 0) : s.accessError m a size w = 1 := if_pos h

/-- Code 2 in the register space: an address no chapter assigns, or one of other masters. -/
theorem Hw.accessError_reserved (halign : a % 4 = 0) (hlow : a < 0x10000000)
    (h : rowAt a = none ∨ s.reservedFor m a w = true) : s.accessError m a 4 w = 2 := by
  unfold Hw.accessError
  rw [if_neg (by omega), if_pos hlow]
  cases hrow : rowAt a with
  | none => rfl
  | some r =>
    have hres : s.reservedFor m a w = true := h.resolve_left (by simp [hrow])
    simp only [hres, if_true]

/-- Code 2 outside both maps. -/
theorem Hw.accessError_unmapped (halign : a % 4 = 0) (hhigh : 0x10000000 ≤ a)
    (h : a < extBase ∨ extBase + 0x800000000 ≤ a) : s.accessError m a 4 w = 2 := by
  unfold Hw.accessError
  rw [if_neg (by omega), if_neg (by omega), if_pos h]

/-- Code 2 at the window and above it, which neither the host nor the twin reaches. -/
theorem Hw.accessError_window_reserved (halign : a % 4 = 0) (hwin : extBase ≤ a)
    (h : m = .host ∨ m = .twin) : s.accessError m a 4 w = 2 := by
  have hhigh : 0x10000000 ≤ a := le_trans (by decide) hwin
  by_cases hin : a < extBase + 0x800000000
  · unfold Hw.accessError
    rw [if_neg (by omega), if_neg (by omega), if_neg (by omega)]
    rcases h with rfl | rfl <;> rfl
  · exact Hw.accessError_unmapped halign hhigh (.inr (not_lt.mp hin))

/-- Code 3: the register's domain is off. -/
theorem Hw.accessError_off (halign : a % 4 = 0) (hlow : a < 0x10000000)
    (hrow : rowAt a ≠ none) (hres : s.reservedFor m a w = false) (hoff : s.domOff a = true) :
    s.accessError m a 4 w = 3 := by
  obtain ⟨r, hr⟩ := Option.ne_none_iff_exists'.mp hrow
  unfold Hw.accessError
  rw [if_neg (by omega), if_pos hlow]
  simp only [hr, hres, hoff, Bool.false_eq_true, if_false, if_true]

/-- Code 4: a secure register and a master that is not. -/
theorem Hw.accessError_secure (halign : a % 4 = 0) (hlow : a < 0x10000000)
    (hrow : rowAt a ≠ none) (hres : s.reservedFor m a w = false) (hon : s.domOff a = false)
    (haddr : secureAddr a = true) (hsec : s.secure m = false) : s.accessError m a 4 w = 4 := by
  obtain ⟨r, hr⟩ := Option.ne_none_iff_exists'.mp hrow
  unfold Hw.accessError
  rw [if_neg (by omega), if_pos hlow]
  simp only [hr, hres, hon, haddr, hsec, Bool.false_eq_true, if_false, Bool.not_false, Bool.and_self, if_true]

/-- Code 5: the window beyond the installed capacity. -/
theorem Hw.accessError_capacity (halign : a % 4 = 0) (hwin : extBase ≤ a)
    (hin : a < extBase + 0x800000000) (hhost : m ≠ .host) (htwin : m ≠ .twin) (hcap : s.extBytes ≤ a - extBase) :
    s.accessError m a 4 w = 5 := by
  have hhigh : 0x10000000 ≤ a := le_trans (by decide) hwin
  unfold Hw.accessError
  rw [if_neg (by omega), if_neg (by omega), if_neg (by omega)]
  cases m with
  | host => exact absurd rfl hhost
  | twin => exact absurd rfl htwin
  | core _ | engine _ | jtag | husk => exact if_pos hcap

/-! ## What the error leaves -/

/-- A command that is a register access does nothing but that access. -/
theorem exec_of_accessOf {c : Instr} (h : Claims.accessOf c = some (m, a, w)) (s : State) :
    ∃ f, exec c s = .next (s.finish (s.hw.onAccess m a w f)) := by
  unfold Claims.accessOf at h
  split at h <;> cases h <;> exact ⟨_, rfl⟩

/-- An access that meets an error, of any size and at any address that is the register space's or the window's: it reads 0,
and the error is logged. -/
theorem Hw.access_error {size r : Nat} {acc : Access} (mem : List Host.Cell)
    (hdeaf : s.deaf m = false) (hstage : s.stages m (busAddr m a) size acc = false)
    (hmsix : s.msixArea m (busAddr m a) size = false)
    (herr : (s.counted m).accessError m (busAddr m a) size (acc != .read) = r + 1) :
    s.access mem m a size acc = ((s.counted m).busError m (busAddr m a) (acc != .read) (r + 1)).answer 0#32 := by
  unfold Hw.access
  simp only [hdeaf, hstage, hmsix, Bool.false_eq_true, if_false]
  cases m <;> simp only [Hw.counted] at herr ⊢ <;> simp only [herr]

end Sys2Proof.Machine

namespace Sys2Proof
open Machine

/-- Settles O7: each check gives its code, and an access that meets one ends in `Hw.busError` and the answer 0. -/
theorem accessErrorsReadZeroAndWriteNothing : Obligations.AccessErrorsReadZeroAndWriteNothing := by
  refine ⟨fun _ _ _ _ _ => Hw.accessError_align, fun _ _ _ _ => Hw.accessError_reserved,
    fun _ _ _ _ => Hw.accessError_unmapped, fun _ _ _ _ => Hw.accessError_window_reserved,
    fun _ _ _ _ => Hw.accessError_off, fun _ _ _ _ => Hw.accessError_secure,
    fun _ _ _ _ => Hw.accessError_capacity, ?_, ?_⟩
  · intro c s m a r w hc hdeaf herr
    obtain ⟨f, hf⟩ := exec_of_accessOf hc s
    rw [hf, Hw.onAccess_error hdeaf herr]
  · intro m a size acc s r hdeaf b hstage hmsix herr
    exact congrArg (fun h => Host.Outcome.next (s.finish h)) (Hw.access_error s.mem hdeaf hstage hmsix herr)

end Sys2Proof
end

section
/-!
SUPPORT. The latches of the hi halves of 64-bit counters (R50): what a read of either half answers and latches, and whose
latch it is; the settlement of the statement about them.
-/
namespace Sys2Proof.Machine

variable {m : Master} {a : Nat}

/-- COUNTER_LO_READ of an open counter by an admitted master: the lo half is read, the hi half latched for the reader. -/
theorem exec_counterLoRead {s : State} {a : Fin 268435456} (hadm : s.hw.admits m a false) (hlo : isLo a = true)
    (hopen : (s.hw.reached m a).perfClosed m a = false) :
    let h := s.hw.reached m a
    exec (.counterLoRead m a) s =
      .next (s.finish (({ h with latch := h.latch.set 0#32 (latchOf m a) (h.word (a + 4)) }).answer (h.word a))) := by
  show Host.Outcome.next (s.finish (s.hw.onAccess m a false _)) = _
  rw [Hw.onAccess_admits hadm, Hw.onlyIf_pos _ _ hlo, Hw.counterLo, hopen]
  rfl

/-- COUNTER_HI_READ of an open counter by an admitted master: the reader's latch is read. -/
theorem exec_counterHiRead {s : State} {a : Fin 268435456} (hadm : s.hw.admits m a false) (hhi : isHi a = true)
    (hopen : (s.hw.reached m a).perfClosed m a = false) :
    let h := s.hw.reached m a
    exec (.counterHiRead m a) s = .next (s.finish (h.answer (h.latch.get 0#32 (latchOf m a)))) := by
  show Host.Outcome.next (s.finish (s.hw.onAccess m a false _)) = _
  rw [Hw.onAccess_admits hadm, Hw.onlyIf_pos _ _ hhi, Hw.counterHi, hopen]
  rfl

/-- Outside the engines' window every master uses the one latch it has. -/
theorem latchOf_of_outside (m : Master) (h : a < 0x6000000 ∨ 0x7000000 ≤ a) : latchOf m a = m.latch := by
  cases m with
  | engine e => exact if_neg (by omega)
  | _ => rfl

/-- Engines share a latch; no two other masters do. -/
theorem Master.latch_eq_iff (m n : Master) :
    m.latch = n.latch ↔ m = n ∨ ((∃ e, m = .engine e) ∧ ∃ f, n = .engine f) := by
  cases m <;> cases n <;> simp [Master.latch, Fin.ext_iff] <;> omega

end Sys2Proof.Machine

namespace Sys2Proof
open Machine

/-- Settles O9: what the two reads do is their rows' effect, and outside the ENG window the latches are the masters' own. -/
theorem hiHalvesComeFromTheMastersLatch : Obligations.HiHalvesComeFromTheMastersLatch := by
  refine ⟨?_, ?_, fun m n a b ha hb => ?_, fun _ => rfl⟩
  · intro m a s hadm hlo h hopen
    refine ⟨_, exec_counterLoRead hadm hlo hopen, ?_, ?_, fun k hk => ?_⟩ <;>
      simp only [State.finish_rdata, State.finish_latch, Hw.answer_latch]
    · rfl
    · exact Sparse.get_set_self _ _ _ _
    · exact Sparse.get_set_ne _ _ _ _ _ _ hk
  · intro m a s hadm hhi h hopen
    exact ⟨_, exec_counterHiRead hadm hhi hopen, State.finish_rdata _ _, State.finish_latch _ _⟩
  · rw [latchOf_of_outside m ha, latchOf_of_outside n hb, Master.latch_eq_iff]

end Sys2Proof
end

section
/-!
SUPPORT. Pending interrupts and their roll-up (R49): a bit of a status word, the header of every block in the register map,
and the settlement of the statement about them.
-/
namespace Sys2Proof.Machine

/-! ## Bits of a status word -/

/-- A one-bit field reads 1 where its bit is set. -/
theorem getField_one_eq_one {w : Word} {i : Nat} : getField w i 1 = 1 ↔ w.getLsbD i = true := by
  rw [getField, BitVec.getLsbD, Nat.testBit_eq_decide_div_mod_eq, decide_eq_true_eq, pow_one]

/-- A word is not 0 exactly when some bit of it is set. -/
theorem Word.ne_zero_iff {w : Word} : w ≠ 0#32 ↔ ∃ i < 32, w.getLsbD i = true := by
  constructor
  · intro h
    by_contra hnone
    exact h (BitVec.eq_of_getLsbD_eq fun i hi => by
      simpa using fun hbit => hnone ⟨i, hi, hbit⟩)
  · rintro ⟨i, -, hi⟩ rfl
    simp at hi

/-- A block is pending exactly when a status bit and its enable are 1. -/
theorem Hw.blkPending_iff (s : Hw) (b : Nat) :
    s.blkPending b = true ↔ ∃ i < 32, s.rd ⟨b, i, 1⟩ = 1 ∧ s.rd ⟨b + 4, i, 1⟩ = 1 := by
  simp only [Hw.blkPending, bne_iff_ne, Word.ne_zero_iff, BitVec.getLsbD_and, Bool.and_eq_true, Hw.rd,
    getField_one_eq_one]

/-! ## The header of a block resets to 0

In a window that holds a block several times over, the rows of the block's own map stay clear of the addresses where a
header starts; BLK_INT_STATUS is there, a row of the common header, and every row of that header resets to 0. -/

/-- How far beyond a multiple of `M` a row's repetitions lead; those by a multiple of `M` lead nowhere. -/
def RegRow.reach (M : Nat) : List (Nat × Nat) → Nat
  | [] => 0
  | d :: t => (if d.2 % M = 0 then 0 else (d.1 - 1) * d.2) + RegRow.reach M t

/-- The row has no register at a multiple of `M`. -/
def RegRow.clears (M : Nat) (r : RegRow) : Bool :=
  decide (0 < r.base % M) && decide (r.base % M + RegRow.reach M r.dims < M)

/-- An offset on a repeated register lies within the row's reach, modulo `M`. -/
theorem mod_le_reach_of_inDims (M : Nat) : ∀ (l : List (Nat × Nat)) (o : Nat), inDims l o = true →
    o % M ≤ RegRow.reach M l
  | [], o, h => by
    obtain rfl : o = 0 := by simpa [inDims] using h
    simp
  | d :: t, o, h => by
    simp only [inDims, Bool.and_eq_true, decide_eq_true_eq] at h
    obtain ⟨hcount, ht⟩ := h
    have ih := mod_le_reach_of_inDims M t _ ht
    have hsplit : o = d.2 * (o / d.2) + o % d.2 := (Nat.div_add_mod _ _).symm
    rw [RegRow.reach]
    split
    · next hd =>
      have hmul : d.2 * (o / d.2) % M = 0 := Nat.mod_eq_zero_of_dvd (Dvd.dvd.mul_right (Nat.dvd_of_mod_eq_zero hd) _)
      rw [hsplit, Nat.add_mod, hmul, Nat.zero_add, Nat.mod_mod, Nat.zero_add]
      exact ih
    · have hmul : d.2 * (o / d.2) ≤ (d.1 - 1) * d.2 := by
        rw [Nat.mul_comm]
        exact Nat.mul_le_mul_right _ (by omega)
      calc o % M = (d.2 * (o / d.2) + o % d.2) % M := by rw [← hsplit]
        _ = (d.2 * (o / d.2) + o % d.2 % M) % M := (Nat.add_mod_mod _ _ _).symm
        _ ≤ d.2 * (o / d.2) + o % d.2 % M := Nat.mod_le _ _
        _ ≤ _ := Nat.add_le_add hmul ih

/-- A row that stays clear of the multiples of `M` covers none of them. -/
theorem RegRow.not_covers_of_clears {M a : Nat} {r : RegRow} (h : r.clears M = true) (ha : a % M = 0) :
    r.covers a = false := by
  simp only [RegRow.clears, Bool.and_eq_true, decide_eq_true_eq] at h
  obtain ⟨hpos, hlt⟩ := h
  rw [Bool.eq_false_iff]
  intro hc
  simp only [RegRow.covers, Bool.and_eq_true, decide_eq_true_eq] at hc
  obtain ⟨hle, hin⟩ := hc
  have hreach := mod_le_reach_of_inDims M _ _ hin
  have hsum : (r.base % M + (a - r.base) % M) % M = 0 := by
    rw [← Nat.add_mod, Nat.add_sub_cancel' hle, ha]
  rw [Nat.mod_eq_of_lt (by omega)] at hsum
  omega

/-- Every register of the common header resets to 0. -/
theorem resetWord_of_mapHdr : ∀ r ∈ mapHdr, r.resetWord = 0#32 := by decide +kernel

/-- An address that the rows of its window stay clear of is the common header's, or no chapter's: it resets to 0. -/
theorem resetWord_of_clears {M a : Nat} {rows : List RegRow} (hrows : regRows a = rows)
    (hclear : rows.all (RegRow.clears M) = true) (ha : a % M = 0) (hprs : a ≠ 0x2001000) : resetWord a = 0#32 := by
  have hnone : rows.find? (fun r => r.covers a) = none :=
    List.find?_eq_none.2 fun r hr => by
      simp [RegRow.not_covers_of_clears (List.all_eq_true.1 hclear r hr) ha]
  unfold resetWord rowAt
  rw [if_neg hprs, hrows, hnone]
  cases hh : mapHdr.find? (fun r => r.covers a) with
  | none => simp only
  | some r => exact resetWord_of_mapHdr r (List.mem_of_find?_eq_some hh)

/-! ### The windows that hold a block several times over, and the header in each -/

/-- The header of block `b` stands at an address of some BLK_INT_STATUS. -/
theorem isStatusAddr_base (b : Blk) : isStatusAddr b.base = true := by
  cases b with
  | lane x | trk x | sub x | eng x =>
    generalize hbase : Blk.base _ = a
    simp only [Blk.base] at hbase
    unfold isStatusAddr
    split_ifs <;> rw [beq_iff_eq] <;> omega
  | _ => rfl

theorem regRows_srd {a : Nat} (h : 0x200000 ≤ a) (hlt : a < 0x1000000) : regRows a = mapSrd := by
  unfold regRows
  rw [if_neg (by omega), if_neg (by omega), if_pos hlt]

theorem regRows_act {a : Nat} (h : 0x1000000 ≤ a) (hlt : a < 0x1400000) (hpage : a % 0x100000 / 0x1000 = 0) :
    regRows a = mapAct := by
  unfold regRows
  rw [if_neg (by omega), if_neg (by omega), if_neg (by omega), if_pos hlt, hpage]
  rfl

theorem regRows_sub {a : Nat} (h : 0x4000000 ≤ a) (hlt : a < 0x4800000) : regRows a = mapSub := by
  unfold regRows
  rw [if_neg (by omega), if_neg (by omega), if_neg (by omega), if_neg (by omega), if_neg (by omega), if_neg (by omega),
    if_neg (by omega), if_neg (by omega), if_pos hlt]

theorem regRows_eng {a : Nat} (h : 0x6000000 ≤ a) (hlt : a < 0x7000000) : regRows a = mapEng := by
  unfold regRows
  rw [if_neg (by omega), if_neg (by omega), if_neg (by omega), if_neg (by omega), if_neg (by omega), if_neg (by omega),
    if_neg (by omega), if_neg (by omega), if_neg (by omega), if_neg (by omega), if_neg (by omega), if_neg (by omega),
    if_pos hlt]

/-- BLK_INT_STATUS of every block resets to 0 (R48). -/
theorem resetWord_base (b : Blk) : resetWord b.base = 0#32 := by
  cases b with
  | lane l =>
    have hbase : (Blk.lane l).base = 0x210000 + l.val * 0x10000 := rfl
    exact resetWord_of_clears (M := 0x10000) (regRows_srd (by omega) (by omega)) (by decide) (by omega) (by omega)
  | trk c =>
    have hbase : (Blk.trk c).base = 0x1000000 + c.val * 0x100000 := rfl
    exact resetWord_of_clears (M := 0x10000) (regRows_act (by omega) (by omega) (by omega)) (by decide) (by omega)
      (by omega)
  | sub p =>
    have hbase : (Blk.sub p).base = 0x4000000 + p.val * 0x1000 := rfl
    exact resetWord_of_clears (M := 0x1000) (regRows_sub (by omega) (by omega)) (by decide) (by omega) (by omega)
  | eng e =>
    have hbase : (Blk.eng e).base = 0x6000000 + e.val * 0x10000 := rfl
    exact resetWord_of_clears (M := 0x10000) (regRows_eng (by omega) (by omega)) (by decide) (by omega) (by omega)
  | _ => decide

/-! ## The roll-up -/

/-- A key that does not read the default is listed. -/
theorem Sparse.exists_mem_of_get_ne {α : Type} {d : α} {k : Nat} : ∀ {l : Sparse α}, Sparse.get d l k ≠ d → ∃ p ∈ l, p.1 = k
  | [], h => absurd rfl h
  | p :: t, h => by
    by_cases hp : p.1 = k
    · exact ⟨p, by simp, hp⟩
    · rw [Sparse.get_cons, if_neg hp] at h
      obtain ⟨q, hq, hk⟩ := Sparse.exists_mem_of_get_ne h
      exact ⟨q, by simp [hq], hk⟩

/-- A block that is pending sets the summary bit it rolls up into: its status word, not being as reset, is listed. -/
theorem Hw.summary_of_blkPending {s : Hw} (b : Blk) (h : s.blkPending b.base = true) :
    s.summary (summaryBit b.base) = true := by
  have hword : s.word b.base ≠ 0#32 := by
    rintro hzero
    simp [Hw.blkPending, hzero] at h
  rw [Hw.word, resetWord_base] at hword
  obtain ⟨p, hp, hkey⟩ := Sparse.exists_mem_of_get_ne hword
  rw [Hw.summary, List.any_eq_true]
  exact ⟨p, hp, by simp [hkey, isStatusAddr_base, h]⟩

/-- A summary bit is set by a block that rolls up into it. -/
theorem Hw.exists_blkPending_of_summary {s : Hw} {n : Nat} (h : s.summary n = true) :
    ∃ b, isStatusAddr b = true ∧ summaryBit b = n ∧ s.blkPending b = true := by
  rw [Hw.summary, List.any_eq_true] at h
  obtain ⟨p, -, hp⟩ := h
  simp only [Bool.and_eq_true, beq_iff_eq] at hp
  obtain ⟨⟨haddr, hbit⟩, hpend⟩ := hp
  exact ⟨p.1, haddr, hbit, hpend⟩

/-- Setting the enable of a status bit that is 1 makes the block pending. -/
theorem Hw.blkPending_of_enable {s : Hw} {b i : Nat} (hi : i < 32) (h : s.rd ⟨b, i, 1⟩ = 1) :
    (s.wr ⟨b + 4, i, 1⟩ 1).blkPending b = true := by
  refine (Hw.blkPending_iff _ b).2 ⟨i, hi, ?_, ?_⟩
  · rw [Hw.rd_wr_addr _ _ _ _ (by simp), h]
  · rw [Hw.rd_wr_self _ _ _ (by simpa using hi)]
    rfl

end Sys2Proof.Machine

namespace Sys2Proof
open Machine

/-- Settles O11: pending is a bit of the two words' conjunction, and the roll-up is over the words that differ from reset. -/
theorem pendingMeansStatusAndEnable : Obligations.PendingMeansStatusAndEnable :=
  ⟨Hw.blkPending_iff,
    fun s b i hi => ⟨Hw.rd_raise_self s b i hi, by rw [Hw.word_raise, if_neg (by omega)]⟩,
    fun _ _ _ hi h => Hw.blkPending_of_enable hi h,
    fun _ b h => Hw.summary_of_blkPending b h,
    fun _ _ h => Hw.exists_blkPending_of_summary h⟩

end Sys2Proof
end

section
/-!
SUPPORT. The end-of-interrupt register (R58): what an MSI-X message is (R389), what an access of the GLB block queues for the
end of the command, and the settlement of the statement about a write of GLB_INT_EOI.
-/
namespace Sys2Proof.Machine

/-! ## A message, or a vector that waits -/

/-- Entry `v` of the MSI-X table masks its vector. -/
abbrev Hw.msixMasked (s : Hw) (v : Nat) : Prop := (s.msixWord v 3).toNat % 2 = 1

/-- The message of entry `v` of the MSI-X table. -/
abbrev Hw.msixMessage (s : Hw) (v : Nat) : Out :=
  .msix v ((s.msixWord v 1).toNat * 2 ^ 32 + (s.msixWord v 0).toNat) (s.msixWord v 2).toNat

theorem Hw.msix_outs (s : Hw) (v : Nat) :
    (s.msix v).outs = if s.msixMasked v then s.outs else s.msixMessage v :: s.outs := by
  unfold Hw.msix
  split <;> rfl

theorem Hw.mem_msixPend_msix (s : Hw) (v y : Nat) :
    y ∈ (s.msix v).ctl.msixPend ↔ y ∈ s.ctl.msixPend ∨ (s.msixMasked v ∧ y = v) := by
  unfold Hw.msix
  split
  · next hmask =>
    have hmasked : s.msixMasked v := hmask
    simp only [List.mem_cons, List.mem_filter, bne_iff_ne]
    tauto
  · next hmask =>
    exact ⟨.inl, fun h => h.resolve_right fun k => hmask k.1⟩

/-! ## What a change queues for the end of the command -/

/-- The writes to the memory and the events for the bins that the command in hand has queued. -/
def Hw.queued (s : Hw) : List MemW × List (Nat × Nat × Nat) := (s.wlog, s.pm.notes)

theorem State.quiet_iff (s : State) : s.Quiet ↔ s.hw.queued = ([], []) := by
  simp only [Hw.queued, Prod.mk.injEq]

@[simp] theorem Hw.queued_setWord (s : Hw) (a : Nat) (w : Word) : (s.setWord a w).queued = s.queued := rfl

@[simp] theorem Hw.queued_wr (s : Hw) (f : FRef) (v : Nat) : (s.wr f v).queued = s.queued := rfl

@[simp] theorem Hw.queued_msix (s : Hw) (v : Nat) : (s.msix v).queued = s.queued := by
  obtain ⟨p, o, h⟩ := s.msix_rest v
  rw [h]
  rfl

@[simp] theorem Hw.queued_routeMsix (s : Hw) (n : Nat) : (s.routeMsix n).queued = s.queued :=
  Hw.onlyIf_same Hw.queued _ _ _ fun t => t.queued_msix _

@[simp] theorem Hw.queued_raise (s : Hw) (b bit : Nat) : (s.raise b bit).queued = s.queued := by
  rw [Hw.queued, Hw.raise_wlog, Hw.raise_pm, Hw.queued]

@[simp] theorem Hw.queued_ctlRaise (s : Hw) (bit : Nat) : (s.ctlRaise bit).queued = s.queued := s.queued_raise _ _

@[simp] theorem Hw.queued_setMbx (s : Hw) (ch : Nat) (x : Mbx) : (s.setMbx ch x).queued = s.queued := rfl

/-- Of the counters the bins follow, none lies outside the TRK and SUB windows (R510). -/
theorem pmKey_of_outside {a : Nat} (h : a < 0x1000000 ∨ 0x4200000 ≤ a) : pmKey a = none := by
  unfold pmKey
  rw [if_neg (by omega), if_neg (by omega)]

theorem Hw.noteAt_of_pmKey_none {a : Nat} (s : Hw) (n : Nat) (h : pmKey a = none) : s.noteAt a n = s := by
  unfold Hw.noteAt
  rw [h]

theorem Hw.queued_count {f : FRef} (s : Hw) (n : Nat) (h : pmKey f.addr = none) : (s.count f n).queued = s.queued := by
  rw [Hw.count, Hw.noteAt_of_pmKey_none _ _ h, Hw.queued_wr]

theorem Hw.queued_count64 {a : Nat} (s : Hw) (n k : Nat) (h : pmKey a = none) : (s.count64 a n k).queued = s.queued := by
  unfold Hw.count64
  dsimp only
  rw [Hw.noteAt_of_pmKey_none _ _ h, Hw.queued_setWord, Hw.queued_setWord]

/-- The performance counters of an engine are followed by no bin. -/
theorem Hw.queued_perf (s : Hw) (e code k : Nat) : (s.perf e code k).queued = s.queued := by
  refine Hw.forAll_same Hw.queued _ (fun t n => ?_) s _
  dsimp only
  split
  · rw [Hw.onlyIf_same Hw.queued _ _ _ fun u => u.queued_raise _ _,
      Hw.queued_count64 _ _ _ (pmKey_of_outside (.inr (by unfold ENG_PERF_CNT.A; omega)))]
  · rfl

theorem Hw.queued_counted (s : Hw) (m : Master) : (s.counted m).queued = s.queued := by
  cases m with
  | engine e => exact s.queued_perf _ _ _
  | _ => rfl

/-! ## A domain that runs again (R400, R405, R406) -/

theorem Hw.queued_mbxNotify (s : Hw) (ch : Nat) : (s.mbxNotify ch).queued = s.queued := by
  unfold Hw.mbxNotify
  rw [Hw.onlyIf_same Hw.queued _ _ _ fun t => t.queued_msix _,
    Hw.onlyIf_same Hw.queued _ _ _ fun t => t.queued_ctlRaise _]

theorem Hw.queued_mbxEmptyInt (s : Hw) (ch : Nat) : (s.mbxEmptyInt ch).queued = s.queued := by
  unfold Hw.mbxEmptyInt
  dsimp only
  split_ifs
  · exact s.queued_setMbx _ _
  · rw [Hw.queued_setMbx, Hw.onlyIf_same Hw.queued _ _ _ fun t => t.queued_msix _,
      Hw.onlyIf_same Hw.queued _ _ _ fun t => t.queued_ctlRaise _]

theorem Hw.queued_dbDeliver (s : Hw) (n : Nat) : (s.dbDeliver n).queued = s.queued := by
  unfold Hw.dbDeliver
  split
  · rw [Hw.onlyIf_same Hw.queued _ _ _ fun t => t.queued_msix _,
      Hw.onlyIf_same Hw.queued _ _ _ fun t => t.queued_ctlRaise _]
  · rfl

/-- What waited for a domain is delivered as interrupts and messages alone. -/
theorem Hw.queued_domainUp (s : Hw) (d : Nat) : (s.domainUp d).queued = s.queued := by
  unfold Hw.domainUp
  rw [Hw.forAll_same Hw.queued _ (fun t n => t.queued_dbDeliver n), Hw.forAll_same Hw.queued _ fun t ch => ?_]
  rw [Hw.onlyIf_same Hw.queued _ _ _ fun u => u.queued_mbxNotify _,
    Hw.onlyIf_same Hw.queued _ _ _ fun u => u.queued_mbxEmptyInt _]

/-- The wake of domain AON queues nothing. -/
theorem Hw.queued_wakeByAccess_zero (s : Hw) : (s.wakeByAccess 0).queued = s.queued := by
  have hbegins (t : Hw) : (t.domainBegins 0).queued = t.queued := t.queued_domainUp 0
  unfold Hw.wakeByAccess Hw.wakeOne
  split
  · rw [Hw.queued_count _ _ (pmKey_of_outside (.inl (by decide))), hbegins]
    rfl
  · rfl

/-- Domain AON has no soft reset (R64). -/
theorem Hw.endReset_zero (s : Hw) : s.endReset 0 = s := by
  unfold Hw.endReset
  rw [if_neg]
  simp [Hw.inReset]

/-- An access of the GLB or PWR block queues nothing before it is carried out. -/
theorem Hw.queued_reached (s : Hw) (m : Master) {a : Nat} (h : a < 0x200000) : (s.reached m a).queued = s.queued := by
  have hdoms : domsOf a = [0] := if_pos h
  have hsettle (t : Hw) : t.settle a = (t.endReset 0).wakeByAccess 0 := by
    unfold Hw.settle
    rw [hdoms]
    rfl
  rw [Hw.reached, hsettle, Hw.endReset_zero, Hw.queued_wakeByAccess_zero, Hw.queued_counted]

/-- With nothing queued the command leaves the logic it computed, and the memory. -/
theorem State.finish_of_queued (s : State) {h : Hw} (hq : h.queued = ([], [])) : s.finish h = { s with hw := h } := by
  simp only [Hw.queued, Prod.mk.injEq] at hq
  exact s.finish_quiet h hq.1 hq.2

/-! ## The write of GLB_INT_EOI -/

/-- Summary bit `b` is 1, and its route sends a message (R57). -/
abbrev Hw.eoiSends (s : Hw) (b : Nat) : Prop := s.summary b = true ∧ s.rd (GLB_INT_ROUTE.MSIX_EN b) = 1

theorem Hw.intEoi_of_sends {s : Hw} {v : Word} (h : s.eoiSends (getField v 0 5)) :
    s.intEoi v = s.msix (s.rd (GLB_INT_ROUTE.MSIX_VEC (getField v 0 5))) := by
  obtain ⟨hsum, hen⟩ := h
  unfold Hw.intEoi Hw.routeMsix
  rw [if_pos hsum, Hw.onlyIf_pos _ _ hen]

theorem Hw.intEoi_of_not_sends {s : Hw} {v : Word} (h : ¬s.eoiSends (getField v 0 5)) : s.intEoi v = s := by
  unfold Hw.intEoi Hw.routeMsix
  by_cases hsum : s.summary (getField v 0 5) = true
  · rw [if_pos hsum, Hw.onlyIf_neg _ _ fun hen => h ⟨hsum, hen⟩]
  · exact if_neg hsum

theorem Hw.intEoi_regs (s : Hw) (v : Word) : (s.intEoi v).regs = s.regs := by
  unfold Hw.intEoi
  dsimp only
  split
  · exact s.routeMsix_regs _
  · rfl

theorem Hw.queued_intEoi (s : Hw) (v : Word) : (s.intEoi v).queued = s.queued := by
  unfold Hw.intEoi
  dsimp only
  split
  · exact s.queued_routeMsix _
  · rfl

/-- INT_EOI of an admitted master in a quiet state. -/
theorem exec_intEoi {m : Master} {v : Word} {s : State} (hquiet : s.Quiet) (hadm : s.hw.admits m GLB_INT_EOI.A true) :
    exec (.intEoi m v) s = .next { s with hw := (s.hw.reached m GLB_INT_EOI.A).intEoi v } := by
  have hq : ((s.hw.reached m GLB_INT_EOI.A).intEoi v).queued = ([], []) := by
    rw [Hw.queued_intEoi, Hw.queued_reached _ _ (by decide), ← s.quiet_iff]
    exact hquiet
  show Host.Outcome.next (s.finish (s.hw.onAccess m GLB_INT_EOI.A true _)) = _
  rw [Hw.onAccess_admits hadm, s.finish_of_queued hq]

end Sys2Proof.Machine

namespace Sys2Proof
open Machine

/-- Settles O12: where the summary bit is 1 and its route sends, the write is one `Hw.msix`; elsewhere it does nothing. -/
theorem endOfInterruptSendsAgain : Obligations.EndOfInterruptSendsAgain := by
  intro m v s hquiet hadm h b
  refine ⟨_, exec_intEoi hquiet hadm, ?_⟩
  intro x sends masked
  refine ⟨?_, fun y => ?_, fun a _ => Hw.word_congr (h.intEoi_regs v) a, fun _ => rfl⟩
  · show (h.intEoi v).outs = _
    by_cases hs : sends
    · rw [Hw.intEoi_of_sends hs, Hw.msix_outs]
      by_cases hm : masked
      · rw [if_pos hm, if_neg fun k => k.2 hm]
      · rw [if_neg hm, if_pos ⟨hs, hm⟩]
    · rw [Hw.intEoi_of_not_sends hs, if_neg fun k => hs k.1]
  · show y ∈ (h.intEoi v).ctl.msixPend ↔ _
    by_cases hs : sends
    · rw [Hw.intEoi_of_sends hs, Hw.mem_msixPend_msix]
      exact or_congr_right ⟨fun k => ⟨hs, k⟩, And.right⟩
    · rw [Hw.intEoi_of_not_sends hs]
      exact ⟨.inl, fun k => k.resolve_right fun k => hs k.1⟩

end Sys2Proof
end

section
/-!
SUPPORT. TRK_PMA_CTRL and the module (R85, R86): what a write of a register leaves in each of its fields, the rule that keeps
TX_ALLOW while the module is absent, what the removal of a module leaves alone, and the settlement of the statement about
them.
-/
namespace Sys2Proof.Machine

/-! ## What a write leaves in a field (R16, R18) -/

/-- Bits cleared inside one field leave a field apart from it. -/
theorem getField_clear_ne (w v : Word) (lo n a m : Nat) (h : a + m ≤ lo ∨ lo + n ≤ a) :
    getField (w &&& ~~~(v &&& fieldMask lo n)) a m = getField w a m := by
  apply Nat.eq_of_testBit_eq
  intro i
  rw [testBit_getField, testBit_getField]
  by_cases hi : i < m
  · have hout : (fieldMask lo n).getLsbD (a + i) = false := by
      rw [getLsbD_fieldMask, decide_eq_false (show ¬(lo ≤ a + i ∧ a + i < lo + n) by omega), Bool.and_false]
    by_cases hw : a + i < 32
    · simp only [BitVec.getLsbD_and, BitVec.getLsbD_not, hout, hw, decide_true, Bool.and_false, Bool.not_false, Bool.and_true]
    · rw [BitVec.getLsbD_of_ge _ _ (by omega), BitVec.getLsbD_of_ge w _ (by omega)]
  · simp [hi]

/-- A field put back to what it was in another word reads as there. -/
theorem getField_restored (w old : Word) {lo n : Nat} (h : lo + n ≤ 32) :
    getField (setField w lo n (getField old lo n)) lo n = getField old lo n := by
  rw [getField_setField_self _ _ _ _ h, Nat.mod_eq_of_lt (getField_lt _ _ _)]

/-- A write of one field leaves a field apart from it. -/
theorem FieldRow.getField_write_ne (f : FieldRow) (w v : Word) {a n : Nat} (h : a + n ≤ f.lo ∨ f.lo + f.width ≤ a) :
    getField (f.write w v) a n = getField w a n := by
  unfold FieldRow.write
  split
  · split
    · exact getField_setField_ne _ _ _ _ _ _ h
    · rfl
  · split
    · exact getField_setField_ne _ _ _ _ _ _ h
    · rfl
  · split
    · rfl
    · exact getField_clear_ne _ _ _ _ _ _ h
  · rfl

/-- A plain write of an accepted value puts it into a writable field without a row of its own. -/
theorem FieldRow.getField_write_self {f : FieldRow} {v : Word} (hacc : f.acc = .rw) (hown : f.own = false)
    (hfit : f.lo + f.width ≤ 32) (hok : f.accepts (getField v f.lo f.width) = true) (w : Word) :
    getField (f.write w v) f.lo f.width = getField v f.lo f.width := by
  simp only [FieldRow.write, hacc, hown, hok, Bool.not_false, Bool.and_self, if_true]
  exact getField_restored _ _ hfit

/-- A full write is a plain write of the field as if it had no row of its own. -/
theorem FieldRow.writeFull_of_rw {f : FieldRow} (h : f.acc = .rw) (w v : Word) :
    f.writeFull w v = { f with own := false }.write w v := by
  simp only [FieldRow.writeFull, FieldRow.write, h, Bool.not_false, Bool.true_and]
  rfl

theorem FieldRow.writeFull_of_not_rw {f : FieldRow} (h : f.acc ≠ .rw) (w v : Word) : f.writeFull w v = f.write w v := by
  unfold FieldRow.writeFull
  split
  · next hrw => exact absurd hrw h
  · rfl

theorem FieldRow.getField_writeFull_ne (f : FieldRow) (w v : Word) {a n : Nat} (h : a + n ≤ f.lo ∨ f.lo + f.width ≤ a) :
    getField (f.writeFull w v) a n = getField w a n := by
  by_cases hacc : f.acc = .rw
  · rw [FieldRow.writeFull_of_rw hacc]
    exact FieldRow.getField_write_ne { f with own := false } w v h
  · rw [FieldRow.writeFull_of_not_rw hacc]
    exact f.getField_write_ne w v h

theorem FieldRow.getField_writeFull_self {f : FieldRow} {v : Word} (hacc : f.acc = .rw) (hfit : f.lo + f.width ≤ 32)
    (hok : f.accepts (getField v f.lo f.width) = true) (w : Word) :
    getField (f.writeFull w v) f.lo f.width = getField v f.lo f.width := by
  rw [FieldRow.writeFull_of_rw hacc]
  exact FieldRow.getField_write_self (f := { f with own := false }) hacc rfl hfit hok w

/-- The register's fields stand in ascending order and do not overlap. -/
abbrev RegRow.ascends (r : RegRow) : Prop := r.fields.Pairwise (fun f g => f.lo + f.width ≤ g.lo)

/-- A change of a word field by field, each change leaving the fields below its own: a field ends at what its own change
puts there. -/
theorem getField_foldl_of_mem {upd : Word → FieldRow → Word} {l : List FieldRow} {f : FieldRow} {x : Nat}
    (hframe : ∀ w g a n, a + n ≤ g.lo → getField (upd w g) a n = getField w a n)
    (hself : ∀ w, getField (upd w f) f.lo f.width = x)
    (hasc : l.Pairwise (fun f g => f.lo + f.width ≤ g.lo)) (hf : f ∈ l) (w : Word) :
    getField (l.foldl upd w) f.lo f.width = x := by
  obtain ⟨before, after, rfl⟩ := List.append_of_mem hf
  have habove : ∀ g ∈ after, f.lo + f.width ≤ g.lo := (List.pairwise_cons.mp (List.pairwise_append.mp hasc).2.1).1
  rw [List.foldl_append, List.foldl_cons]
  exact List.foldlRecOn (motive := fun w => getField w f.lo f.width = x) after upd (hself _)
    fun u hu g hg => (hframe u g _ _ (habove g hg)).trans hu

/-- After a plain write a plain field reads the value written, where it is accepted. -/
theorem RegRow.getField_write {r : RegRow} {f : FieldRow} {v : Word} (hasc : r.ascends) (hf : f ∈ r.fields)
    (hacc : f.acc = .rw) (hown : f.own = false) (hfit : f.lo + f.width ≤ 32)
    (hok : f.accepts (getField v f.lo f.width) = true) (w : Word) :
    getField (r.write w v) f.lo f.width = getField v f.lo f.width :=
  getField_foldl_of_mem (fun w g _ _ h => g.getField_write_ne w v (.inl h))
    (FieldRow.getField_write_self hacc hown hfit hok) hasc hf w

/-- After a full write any writable field does. -/
theorem RegRow.getField_writeFull {r : RegRow} {f : FieldRow} {v : Word} (hasc : r.ascends) (hf : f ∈ r.fields)
    (hacc : f.acc = .rw) (hfit : f.lo + f.width ≤ 32) (hok : f.accepts (getField v f.lo f.width) = true) (w : Word) :
    getField (r.writeFull w v) f.lo f.width = getField v f.lo f.width :=
  getField_foldl_of_mem (fun w g _ _ h => g.getField_writeFull_ne w v (.inl h))
    (FieldRow.getField_writeFull_self hacc hfit hok) hasc hf w

/-- The word that a plain write leaves: field by field, under the rules between fields. -/
theorem Hw.word_plainWrite {a : Nat} {r : RegRow} (hrow : rowAt a = some r) (s : Hw) (v : Word) :
    (s.plainWrite a v).word a = s.guardWrite r.base a (s.word a) (r.write (s.word a) v) := by
  simp only [Hw.plainWrite, hrow]
  split
  · exact Hw.word_setWord_self _ _ _
  · exact Hw.word_setWord_self _ _ _

theorem Hw.word_fullWrite {a : Nat} {r : RegRow} (hrow : rowAt a = some r) (s : Hw) (v : Word) :
    (s.fullWrite a v).word a = s.guardWrite r.base a (s.word a) (r.writeFull (s.word a) v) := by
  simp only [Hw.fullWrite, hrow]
  split
  · exact Hw.word_setWord_self _ _ _
  · exact Hw.word_setWord_self _ _ _

/-- An admitted write of a word of the register space, the staging window apart, writes the register that it reaches. -/
theorem Hw.access_write_of_admits {s : Hw} {m : Master} {a : Nat} (mem : List Host.Cell) (v : Word)
    (hadm : s.admits m a true) (hlow : a < stageBase) :
    s.access mem m a 4 (.write v) = (s.reached m a).writeReg m a v := by
  obtain ⟨hdeaf, herr⟩ := hadm
  have hbar2 : a < bar2 := hlow.trans (by decide)
  have hext : ¬extBase ≤ a := (hlow.trans (by decide)).not_ge
  unfold Hw.access
  cases m <;> simp only [Hw.counted] at herr <;>
    simp [busAddr_of_lt_bar2 _ hbar2, hdeaf, Hw.stages_of_lt_stageBase _ _ _ _ hlow, Hw.msixArea_of_lt_bar2 _ _ _ hbar2,
      herr, hext, Hw.reached, Hw.counted]

/-! ## TRK_PMA_CTRL -/

/-- The register's row; every plain field of it but US_RATE accepts any value, and US_RATE any but 3. -/
theorem rowAt_pmaCtrl (c : Fin 4) : ∃ r, rowAt (TRK_PMA_CTRL.A c) = some r ∧ r.base = TRK_PMA_CTRL.A 0 ∧ r.ascends ∧
    ⟨1, 1, .rw, false, 0, []⟩ ∈ r.fields ∧ ⟨2, 2, .rw, false, 2, [(0, 2)]⟩ ∈ r.fields ∧
    ⟨4, 1, .rw, false, 0, []⟩ ∈ r.fields ∧ ⟨6, 1, .rw, false, 0, []⟩ ∈ r.fields := by
  have hrow : ∀ c : Fin 4, rowAt (TRK_PMA_CTRL.A c) = mapTrk.head? := by decide
  exact ⟨_, hrow c, rfl, by decide, by decide, by decide, by decide, by decide⟩

/-- The register lies below the windows of THR, CTL and Husk. -/
theorem pmaCtrl_lt (c : Fin 4) : TRK_PMA_CTRL.A c < 0x2000000 := by simp only [TRK_PMA_CTRL.A]; omega

/-- While the module is absent a write of TX_ALLOW = 1 is discarded for that field (R86). -/
theorem Hw.guardWrite_pmaCtrl_absent {s : Hw} {c : Nat} {w : Word} (habs : s.rd (TRK_PMA_STATUS.MOD_ABS c) = 1)
    (hset : getField w 1 1 = 1) (old : Word) :
    s.guardWrite (TRK_PMA_CTRL.A 0) (TRK_PMA_CTRL.A c) old w = setField w 1 1 (getField old 1 1) := by
  have hchannel : (TRK_PMA_CTRL.A c - TRK_PMA_CTRL.A 0) / 0x100000 = c := by
    simp only [TRK_PMA_CTRL.A]; omega
  unfold Hw.guardWrite
  simp only [if_true, hchannel, habs, hset, keepField, beq_self_eq_true, Bool.and_self, Bool.not_true, Bool.false_eq_true,
    if_false]

/-- The register is none of those whose write does more: it is no counter, belongs neither to CVE nor to a gate, and is
not the status or enable word of a block. -/
theorem pmaCtrl_stands_alone : ∀ c : Fin 4, accOf (TRK_PMA_CTRL.A c) = .rw ∧ isCve (TRK_PMA_CTRL.A c) = false ∧
    gateRegBase (TRK_PMA_CTRL.A c) = none ∧ isStatusAddr (TRK_PMA_CTRL.A c) = false ∧
    isStatusAddr (TRK_PMA_CTRL.A c - 4) = false := by decide

/-- No function of the terminal follows a plain write of the register. -/
theorem Hw.wrote_pmaCtrl (s o : Hw) (c : Fin 4) : s.wrote o (TRK_PMA_CTRL.A 0) (TRK_PMA_CTRL.A c) = s := by
  have hctl : TRK_PMA_CTRL.A c ≠ 0x7000000 := ((pmaCtrl_lt c).trans (by decide)).ne
  obtain ⟨-, -, -, hstatus, -⟩ := pmaCtrl_stands_alone c
  simp only [Hw.wrote, hctl, hstatus, Bool.false_eq_true, false_and, if_false]
  rfl

/-- A write of the register by REGISTER_WRITE is a plain write and does nothing beside it. -/
theorem Hw.writeReg_pmaCtrl (s : Hw) (m : Master) (c : Fin 4) (v : Word) :
    s.writeReg m (TRK_PMA_CTRL.A c) v = s.plainWrite (TRK_PMA_CTRL.A c) v := by
  obtain ⟨hacc, hcve, hgate, hstatus, hstatus'⟩ := pmaCtrl_stands_alone c
  obtain ⟨r, hrow, hbase, -⟩ := rowAt_pmaCtrl c
  have halias : aliasCloses m (TRK_PMA_CTRL.A c) = false := aliasCloses_of_lt_engines m ((pmaCtrl_lt c).trans (by decide))
  have hlt := pmaCtrl_lt c
  have huart : CTL_UART_CFG.A ≠ TRK_PMA_CTRL.A c := by simp only [CTL_UART_CFG.A]; omega
  have hctx : ¬(TRK_PMA_CTRL.A c = THR_CTX_UPDATE.A ∨ TRK_PMA_CTRL.A c = THR_CTX_INVAL.A ∨
      (THR_CTX_DATA.A 0 ≤ TRK_PMA_CTRL.A c ∧ TRK_PMA_CTRL.A c < THR_CTX_DATA.A 16)) := by
    simp only [THR_CTX_UPDATE.A, THR_CTX_INVAL.A, THR_CTX_DATA.A]; omega
  have hhsk : ¬(TRK_PMA_CTRL.A c = HSK_CMD.A ∨ (HSK_ARG.A 0 ≤ TRK_PMA_CTRL.A c ∧ TRK_PMA_CTRL.A c < HSK_ARG.A 4)) := by
    simp only [HSK_CMD.A, HSK_ARG.A]; omega
  simp only [Hw.writeReg, hrow, hbase, hacc, hcve, hgate, hstatus, hstatus', halias, huart, if_neg hctx, if_neg hhsk,
    Bool.and_false, Bool.false_eq_true, if_false, Hw.wrote_pmaCtrl]
  rfl

/-- A plain write of the register with TX_ALLOW = 1 while the module is absent: TX_ALLOW stays, and the other plain fields take
their values (R86). -/
theorem Hw.plainWrite_pmaCtrl_absent {s : Hw} {c : Fin 4} {v : Word} (habs : s.rd (TRK_PMA_STATUS.MOD_ABS c) = 1)
    (hset : getField v 1 1 = 1) :
    let t := s.plainWrite (TRK_PMA_CTRL.A c) v
    t.rd (TRK_PMA_CTRL.TX_ALLOW c) = s.rd (TRK_PMA_CTRL.TX_ALLOW c) ∧ t.rd (TRK_PMA_CTRL.LOOPBACK c) = getField v 4 1 ∧
      t.rd (TRK_PMA_CTRL.TX_INVERT c) = getField v 6 1 ∧
      (getField v 2 2 ≠ 3 → t.rd (TRK_PMA_CTRL.US_RATE c) = getField v 2 2) := by
  obtain ⟨r, hrow, hbase, hasc, hallow, hrate, hloop, hinv⟩ := rowAt_pmaCtrl c
  have hnew : getField (r.write (s.word (TRK_PMA_CTRL.A c)) v) 1 1 = 1 :=
    (RegRow.getField_write hasc hallow rfl rfl (by decide) rfl _).trans hset
  have hword := Hw.word_plainWrite hrow s v
  rw [hbase, Hw.guardWrite_pmaCtrl_absent habs hnew] at hword
  have hplain {f : FieldRow} (hf : f ∈ r.fields) (hacc : f.acc = .rw) (hown : f.own = false) (hfit : f.lo + f.width ≤ 32)
      (habove : 2 ≤ f.lo) (hok : f.accepts (getField v f.lo f.width) = true) :
      (s.plainWrite (TRK_PMA_CTRL.A c) v).rd ⟨TRK_PMA_CTRL.A c, f.lo, f.width⟩ = getField v f.lo f.width := by
    rw [Hw.rd, hword, getField_setField_ne _ _ _ _ _ _ (.inr habove), RegRow.getField_write hasc hf hacc hown hfit hok]
  refine ⟨?_, hplain hloop rfl rfl (by decide) (by decide) rfl, hplain hinv rfl rfl (by decide) (by decide) rfl,
    fun h3 => hplain hrate rfl rfl (by decide) (by decide) ?_⟩
  · rw [Hw.rd, hword]
    exact getField_restored _ _ (by decide)
  · have h4 : getField v 2 2 < 4 := getField_lt v 2 2
    have h2 : getField v 2 2 ≤ 2 := by omega
    simp [FieldRow.accepts, h2]

/-- TX_ALLOW stays too when the command is the row of one of the register's other fields. -/
theorem Hw.txAllow_fullWrite_absent {s : Hw} {c : Fin 4} {v : Word} (habs : s.rd (TRK_PMA_STATUS.MOD_ABS c) = 1)
    (hset : getField v 1 1 = 1) :
    (s.fullWrite (TRK_PMA_CTRL.A c) v).rd (TRK_PMA_CTRL.TX_ALLOW c) = s.rd (TRK_PMA_CTRL.TX_ALLOW c) := by
  obtain ⟨r, hrow, hbase, hasc, hallow, -⟩ := rowAt_pmaCtrl c
  have hnew : getField (r.writeFull (s.word (TRK_PMA_CTRL.A c)) v) 1 1 = 1 :=
    (RegRow.getField_writeFull hasc hallow rfl (by decide) rfl _).trans hset
  rw [Hw.rd, Hw.word_fullWrite hrow, hbase, Hw.guardWrite_pmaCtrl_absent habs hnew]
  exact getField_restored _ _ (by decide)

/-- REGISTER_WRITE of the register by an admitted master. -/
theorem exec_registerWrite_pmaCtrl {m : Master} {c : Fin 4} {a : Fin 1099511627776} {s : State} (v : Word)
    (ha : a.val = TRK_PMA_CTRL.A c) (hadm : s.hw.admits m a true) :
    exec (.registerWrite m a 4 (.write v)) s =
      .next (s.finish ((s.hw.reached m a).plainWrite (TRK_PMA_CTRL.A c) v)) := by
  show Host.Outcome.next (s.finish (s.hw.access s.mem m a 4 (.write v))) = _
  have hlow : a.val < stageBase := ha ▸ (pmaCtrl_lt c).trans (by decide)
  rw [Hw.access_write_of_admits s.mem v hadm hlow, ha, Hw.writeReg_pmaCtrl]

/-! ## The removal of a module (R85, R88) -/

/-- Cutting off a burst changes no register. -/
theorem Hw.cutBurst_regs (s : Hw) (c : Nat) : (s.cutBurst c).regs = s.regs :=
  Hw.onlyIf_same Hw.regs s _ _ fun _ => rfl

/-- The end of a two-wire command changes TRK_TWI_CMD and the channel's status word alone. -/
theorem Hw.rd_twiResult {c : Nat} {f : FRef} (s : Hw) (err : Nat) (hcmd : f.addr ≠ TRK_TWI_CMD.A c)
    (hstatus : f.addr ≠ 0x1000000 + c * 0x100000) : (s.twiResult c err).rd f = s.rd f := by
  have hraise (t : Hw) (bit : Nat) : (t.trkRaise c bit).rd f = t.rd f := Hw.rd_raise_addr _ _ _ _ hstatus
  unfold Hw.twiResult
  show (Hw.onlyIf _ _ _).rd f = _
  rw [Hw.onlyIf_same (Hw.rd · f) _ _ _ fun t => hraise t _, hraise, Hw.rd_wr_addr _ _ _ _ hcmd, Hw.rd_wr_addr _ _ _ _ hcmd]

/-- So does the end of what is on the two-wire bus, and of what waits for it. -/
theorem Hw.rd_twiAbort {c : Nat} {f : FRef} (s : Hw) (hcmd : f.addr ≠ TRK_TWI_CMD.A c)
    (hstatus : f.addr ≠ 0x1000000 + c * 0x100000) : (s.twiAbort c).rd f = s.rd f := by
  unfold Hw.twiAbort
  extract_lets busy rec' ended idle
  rw [Hw.onlyIf_same (Hw.rd · f) idle _ (·.emit (.twiRecovery c)) fun _ => rfl]
  exact Hw.onlyIf_same (Hw.rd · f) s _ _ fun t => t.rd_twiResult 4 hcmd hstatus

/-- A removal clears TX_ALLOW (R86). -/
theorem Hw.txAllow_moduleRemoved {s : Hw} {c : Nat} (h : s.rd (TRK_PMA_STATUS.MOD_ABS c) = 0) :
    (s.moduleRemoved c).rd (TRK_PMA_CTRL.TX_ALLOW c) = 0 := by
  have hstatus : TRK_PMA_CTRL.A c ≠ 0x1000000 + c * 0x100000 := by simp only [TRK_PMA_CTRL.A]; omega
  have hcmd : TRK_PMA_CTRL.A c ≠ TRK_TWI_CMD.A c := by simp only [TRK_PMA_CTRL.A, TRK_TWI_CMD.A]; omega
  unfold Hw.moduleRemoved
  rw [if_neg (by rw [h]; decide), Hw.trkRaise, Hw.rd_raise_addr _ _ _ _ hstatus, Hw.rd_twiAbort _ hcmd hstatus,
    Hw.rd_congr (Hw.cutBurst_regs _ _), Hw.rd_wr_self _ _ _ (show 1 + 1 ≤ 32 by decide)]
  rfl

end Sys2Proof.Machine

namespace Sys2Proof
open Machine

/-- Settles O17: the value written, TX_ALLOW = 1 in it, meets the rule between fields of TRK_PMA_CTRL, which puts the old
TX_ALLOW back and leaves the other fields; a removal writes 0 and nothing after it touches the register. -/
theorem txAllowFallsWithTheModule : Obligations.TxAllowFallsWithTheModule := by
  refine ⟨?_, fun c v h habs hset => Hw.txAllow_fullWrite_absent habs hset, fun c s habs => ⟨_, rfl, ?_⟩⟩
  · intro m c v s a ha hadm h habs hset
    have hfinish (g : Hw) (lo n : Nat) : (s.finish g).hw.rd ⟨TRK_PMA_CTRL.A c, lo, n⟩ = g.rd ⟨TRK_PMA_CTRL.A c, lo, n⟩ :=
      s.finish_rd g _ ((pmaCtrl_lt c).trans (by decide))
    refine ⟨_, exec_registerWrite_pmaCtrl v ha hadm, ?_⟩
    simpa only [hfinish] using Hw.plainWrite_pmaCtrl_absent habs hset
  · exact (s.finish_rd _ _ ((pmaCtrl_lt c).trans (by decide))).trans (Hw.txAllow_moduleRemoved habs)

end Sys2Proof
end

section
/-!
SUPPORT. The flow of a classified packet (R219): an equation of `Hw.flowOf` for contexts not in use and one per FLOW_MODE
under contexts in use, and the settlement of the statement about them.
-/
namespace Sys2Proof.Machine

section
variable {s : Hw} {e : Nat}

/-- Contexts not in use, no action selects a flow (R219). -/
theorem Hw.flowOf_of_contextsOff (hoff : s.rd THR_CTX_BASE.CTX_EN = 0) (r : ParseRec) : s.flowOf e r = none := by
  rw [Hw.flowOf, if_pos hoff]

theorem Hw.flowOf_of_mode_zero (hmode : actF e (ACTION.FLOW_MODE 0) = 0) (r : ParseRec) : s.flowOf e r = none := by
  rw [Hw.flowOf, hmode]
  exact ite_self none

theorem Hw.flowOf_of_mode_one (hon : s.rd THR_CTX_BASE.CTX_EN ≠ 0) (hmode : actF e (ACTION.FLOW_MODE 0) = 1) (r : ParseRec) :
    s.flowOf e r = some (actF e (ACTION.FLOW_ID 0)) := by
  simp only [Hw.flowOf, if_neg hon, hmode]

/-- Word 0 of the user words, under the action's mask, spreads the packets over flows from FLOW_ID on (R219). -/
theorem Hw.flowOf_of_mode_two (hon : s.rd THR_CTX_BASE.CTX_EN ≠ 0) (hmode : actF e (ACTION.FLOW_MODE 0) = 2) (r : ParseRec) :
    s.flowOf e r =
      some ((actF e (ACTION.FLOW_ID 0) + (r.user.getD 0 0 &&& actF e (ACTION.FLOW_MASK 0))) % 2 ^ 20) := by
  simp only [Hw.flowOf, if_neg hon, hmode]

end

end Sys2Proof.Machine

namespace Sys2Proof
open Machine

/-- Settles O15: contexts not in use there is no flow, and in use the action's FLOW_MODE picks the equation that holds. -/
theorem theActionSelectsTheFlow : Obligations.TheActionSelectsTheFlow := by
  intro h e r
  refine ⟨fun hoff => Hw.flowOf_of_contextsOff hoff r, fun hset => ?_⟩
  have hon : h.rd THR_CTX_BASE.CTX_EN ≠ 0 := hset ▸ Nat.one_ne_zero
  exact ⟨fun hmode => Hw.flowOf_of_mode_zero hmode r, fun hmode => Hw.flowOf_of_mode_one hon hmode r,
    fun hmode => Hw.flowOf_of_mode_two hon hmode r⟩

end Sys2Proof
end

section
/-!
SUPPORT. The hardware locks (R407, R408): the IDs of the masters, the winner among the masters that read a lock in the same cycle, the word in which a
lock and an answer show the owner, and the settlement of the statement about a read of a lock.
-/
namespace Sys2Proof.Machine

/-! ## Master IDs (R59) -/

/-- A master ID has 8 bits. -/
theorem Master.id_lt (m : Master) : m.id < 256 := by
  cases m <;> simp only [Master.id] <;> omega

/-- No two masters have one ID. -/
theorem Master.id_inj {m n : Master} (h : m.id = n.id) : m = n := by
  cases m <;> cases n <;> simp only [Master.id, reduceCtorEq, Master.core.injEq, Master.engine.injEq, Fin.ext_iff] at h ⊢ <;>
    omega

/-! ## The winner -/

/-- How far ID `i` comes after the pointer `p`, counting upward modulo 256. -/
abbrev lockDistance (p i : Nat) : Nat := (i + 256 - p) % 256

/-- The winner is one of the readers. -/
theorem lockWinner_mem (p : Nat) : ∀ (ids : List Nat) (id : Nat), lockWinner p ids id ∈ id :: ids
  | [], _ => List.mem_singleton_self _
  | i :: t, id => by
    show lockWinner p t (if lockDistance p i < lockDistance p id then i else id) ∈ id :: i :: t
    split
    · exact List.mem_cons_of_mem _ (lockWinner_mem p t i)
    · exact (List.cons_subset_cons id (List.subset_cons_self i t)) (lockWinner_mem p t id)

/-- No reader comes before the winner. -/
theorem lockWinner_distance_le (p : Nat) : ∀ (ids : List Nat) (id : Nat), ∀ j ∈ id :: ids,
    lockDistance p (lockWinner p ids id) ≤ lockDistance p j
  | [], id, j, hj => by
    rw [List.mem_singleton.mp hj]
    rfl
  | i :: t, id, j, hj => by
    show lockDistance p (lockWinner p t (if lockDistance p i < lockDistance p id then i else id)) ≤ _
    have hbest := lockWinner_distance_le p t (if lockDistance p i < lockDistance p id then i else id)
    have hpair : lockDistance p (if lockDistance p i < lockDistance p id then i else id) ≤
        min (lockDistance p id) (lockDistance p i) := by split <;> omega
    have hwinner := (hbest _ List.mem_cons_self).trans hpair
    rcases List.mem_cons.mp hj with rfl | hj
    · exact hwinner.trans (min_le_left _ _)
    rcases List.mem_cons.mp hj with rfl | hj
    · exact hwinner.trans (min_le_right _ _)
    · exact hbest j (List.mem_cons_of_mem _ hj)

/-! ## The word of a lock -/

/-- The word of a lock held by master `w`; ACQUIRED is `b`. -/
def lockWord (b w : Nat) : Word := BitVec.ofNat 32 (b + 2 + w * 256)

theorem lockWord_fields {b w : Nat} (hb : b < 2) (hw : w < 256) :
    getField (lockWord b w) 0 1 = b ∧ getField (lockWord b w) 1 1 = 1 ∧ getField (lockWord b w) 8 8 = w := by
  simp only [getField, lockWord, BitVec.toNat_ofNat]
  omega

/-! ## A read -/

/-- Lock `n` is granted to master `w`. -/
def Hw.lockGranted (s : Hw) (n w : Nat) : Hw :=
  { s.setWord (HW_LOCK.A n) (lockWord 0 w) with
    ctl := { s.ctl with lockPtr := s.ctl.lockPtr.set 0 n ((w + 1) % 256) } }

theorem Hw.word_lockGranted (s : Hw) (n w a : Nat) :
    (s.lockGranted n w).word a = if a = HW_LOCK.A n then lockWord 0 w else s.word a :=
  s.word_setWord (HW_LOCK.A n) a (lockWord 0 w)

/-- The fields of a lock that has been granted. -/
theorem Hw.rd_lockGranted (s : Hw) (n : Nat) {w : Nat} (hw : w < 256) :
    (s.lockGranted n w).rd (HW_LOCK.HELD n) = 1 ∧ (s.lockGranted n w).rd (HW_LOCK.OWNER n) = w := by
  obtain ⟨-, hheld, howner⟩ := lockWord_fields Nat.two_pos hw
  simp only [Hw.rd, Hw.word_lockGranted, if_true]
  exact ⟨hheld, howner⟩

/-- A free lock is granted to the winner, and the answer names it. -/
theorem Hw.lockRead_of_free {s : Hw} {n : Nat} (hfree : s.rd (HW_LOCK.HELD n) = 0) (id : Nat) (rivals : List Nat) :
    let w := lockWinner (s.ctl.lockPtr.get 0 n) rivals id
    s.lockRead n id rivals = (s.lockGranted n w).answer (lockWord (b2n (w == id)) w) := by
  unfold Hw.lockRead
  exact if_neg (by rw [hfree]; decide)

/-- A held lock stays as it is, and the answer names its holder. -/
theorem Hw.lockRead_of_held {s : Hw} {n : Nat} (hheld : s.rd (HW_LOCK.HELD n) = 1) (id : Nat) (rivals : List Nat) :
    s.lockRead n id rivals = s.answer (lockWord 0 (s.rd (HW_LOCK.OWNER n))) := by
  unfold Hw.lockRead lockWord
  rw [if_pos hheld, Nat.zero_add]

/-- LOCK_ACQUIRE of an admitted master. -/
theorem exec_lockAcquire {m : Master} {n : Fin 64} {s : State} (hadm : s.hw.admits m (HW_LOCK.A n) false)
    (rivals : List Master) :
    exec (.lockAcquire m n rivals) s =
      .next (s.finish ((s.hw.reached m (HW_LOCK.A n)).lockRead n m.id (rivals.map Master.id))) :=
  congrArg (fun h => Host.Outcome.next (s.finish h)) (Hw.onAccess_admits hadm _)

end Sys2Proof.Machine

namespace Sys2Proof
open Machine

/-- Settles O13: a read of a free lock is a grant to the winner, the reader at the least distance from the pointer; a read of
a held lock is an answer alone. -/
theorem locksAreGrantedToOneReader : Obligations.LocksAreGrantedToOneReader := by
  refine ⟨fun m n rivals s hadm => ?_, fun _ => rfl⟩
  intro h p ids
  have hlow : HW_LOCK.A n < 0x9000000 := by simp only [HW_LOCK.A]; omega
  refine ⟨fun hfree => ?_, fun hheld => ?_⟩
  · let w := lockWinner p (rivals.map Master.id) m.id
    have hmem : w ∈ ids := lockWinner_mem p _ _
    have hw : w < 256 := by
      obtain ⟨k, -, hk⟩ := List.mem_map.mp (show w ∈ (m :: rivals).map Master.id from hmem)
      exact hk ▸ k.id_lt
    have hbit : b2n (w == m.id) = if w = m.id then 1 else 0 := by
      simp only [b2n, beq_iff_eq]
    obtain ⟨hacq, hanswer, hname⟩ := lockWord_fields (b := b2n (w == m.id)) (by rw [hbit]; split <;> decide) hw
    obtain ⟨hrd, howner⟩ := h.rd_lockGranted n hw
    refine ⟨_, w, exec_lockAcquire hadm rivals, hmem, lockWinner_distance_le p _ _, ?_⟩
    rw [Hw.lockRead_of_free hfree, State.finish_rdata, State.finish_ctl_lockPtr, Hw.answer_rdata]
    refine ⟨hacq.trans hbit, hanswer, hname, (s.finish_rd _ _ hlow).trans hrd, (s.finish_rd _ _ hlow).trans howner,
      Sparse.get_set_self _ _ _ _, fun k hk => Sparse.get_set_ne _ _ _ _ _ _ hk, fun a ha hne => ?_⟩
    exact (s.finish_word _ a ha).trans ((h.word_lockGranted n w a).trans (if_neg hne))
  · obtain ⟨hacq, hanswer, hname⟩ := lockWord_fields Nat.two_pos (getField_lt (h.word (HW_LOCK.A n)) 8 8)
    refine ⟨_, exec_lockAcquire hadm rivals, ?_⟩
    rw [Hw.lockRead_of_held hheld, State.finish_rdata, Hw.answer_rdata]
    exact ⟨hacq, hanswer, hname, s.finish_ctl_lockPtr _, fun a ha => s.finish_word _ a ha⟩

end Sys2Proof
end

section
/-!
SUPPORT. Posts to mailboxes (R399): the status that a post meets, what a read of MBX_SEND does under each status, and that the
wake of the receiver leaves the channel's messages and MBX_POST_ERR; the settlement of the statement about a read of MBX_SEND.
-/
namespace Sys2Proof.Machine

/-! ## The status of a post, in the order of log entry 22 -/

/-- Master `id` may not post on channel `ch`: it is not valid, or another master's. -/
abbrev Hw.notSender (s : Hw) (id ch : Nat) : Prop :=
  s.t (MBX_CFG.VALID ch) = 0 ∨ (s.t (MBX_CFG.TX_MASTER ch) ≠ 255 ∧ s.t (MBX_CFG.TX_MASTER ch) ≠ id)

section
variable {s : Hw} {id ch : Nat}

theorem Hw.postStatus_of_notSender (h : s.notSender id ch) : s.postStatus id ch = 3 := if_pos h

theorem Hw.postStatus_of_domDown (hsender : ¬s.notSender id ch) (hdown : s.domDown (s.t (MBX_CFG.RX_DOM ch)) = true) :
    s.postStatus id ch = 2 := by
  rw [Hw.postStatus, if_neg hsender, if_pos hdown]

theorem Hw.postStatus_of_domUp (hsender : ¬s.notSender id ch) (hup : ¬s.domDown (s.t (MBX_CFG.RX_DOM ch)) = true)
    (htwin : s.t (MBX_CFG.RX_DOM ch) ≠ 28) :
    s.postStatus id ch = if 16 ≤ (s.mbx ch).msgs.length then 1 else 0 := by
  rw [Hw.postStatus, if_neg hsender, if_neg hup, if_neg fun h => htwin h.1]

/-! ## What a read of MBX_SEND does -/

/-- The words that master `id` has staged (R399). -/
abbrev Hw.staged (s : Hw) (id : Nat) : List Word := (List.range 8).map (fun i => s.ctl.stage.get 0#32 (id * 8 + i))

theorem Hw.mbxSend_of_ok (h : s.postStatus id ch = 0) :
    s.mbxSend id ch = (s.mbxStore id ch (s.staged id) (s.masterGen id)).answer 0#32 := by
  simp only [Hw.mbxSend, h]

theorem Hw.mbxSend_of_domainOff (h : s.postStatus id ch = 2) :
    s.mbxSend id ch = (s.count MBX_POST_ERR.COUNT).answer 2#32 := by
  simp only [Hw.mbxSend, h]

theorem Hw.mbxSend_of_refused (hok : s.postStatus id ch ≠ 0) (hoff : s.postStatus id ch ≠ 2) :
    s.mbxSend id ch = s.answer (BitVec.ofNat 32 (s.postStatus id ch)) := by
  unfold Hw.mbxSend
  dsimp only
  split
  · next h => exact absurd h hok
  · next h => exact absurd h hoff
  · rfl

theorem Hw.mbxSend_rdata (s : Hw) (id ch : Nat) : (s.mbxSend id ch).rdata = BitVec.ofNat 32 (s.postStatus id ch) := rfl

end

/-! ## What a wake leaves of a channel (R400) -/

/-- What a post shows on channel `ch`: the word of MBX_POST_ERR, and the messages that wait. -/
def Hw.posted (s : Hw) (ch : Nat) : Word × List Msg := (s.word MBX_POST_ERR.A, (s.mbx ch).msgs)

section
variable (s : Hw) (ch : Nat)

theorem Hw.posted_wr (f : FRef) (v : Nat) (h : f.addr ≠ MBX_POST_ERR.A) : (s.wr f v).posted ch = s.posted ch := by
  rw [Hw.posted, Hw.word_wr, if_neg h.symm]
  rfl

theorem Hw.posted_raise (b bit : Nat) (h : b ≠ MBX_POST_ERR.A) : (s.raise b bit).posted ch = s.posted ch := by
  rw [Hw.posted, Hw.word_raise, if_neg h.symm, Hw.mbx, Hw.raise_ctl_mbx]
  rfl

theorem Hw.posted_ctlRaise (bit : Nat) : (s.ctlRaise bit).posted ch = s.posted ch := s.posted_raise ch _ bit (by decide)

theorem Hw.posted_msix (v : Nat) : (s.msix v).posted ch = s.posted ch := by
  obtain ⟨p, o, h⟩ := s.msix_rest v
  rw [h]
  rfl

theorem Hw.posted_note (o kind : Nat) : (s.note o kind).posted ch = s.posted ch := rfl

/-- A channel's own change puts its messages there and leaves the other channels. -/
theorem Hw.posted_setMbx (c : Nat) (x : Mbx) :
    (s.setMbx c x).posted ch = (s.word MBX_POST_ERR.A, if ch = c then x.msgs else (s.mbx ch).msgs) := by
  have haddr : (MBX_RX_STATUS.LEVEL c).addr ≠ MBX_POST_ERR.A := by simp only [MBX_RX_STATUS.A, MBX_POST_ERR.A]; omega
  rw [Hw.setMbx, Hw.posted_wr _ _ _ _ haddr]
  simp only [Hw.posted, Hw.mbx, Sparse.get_set]
  split <;> rfl

/-- A channel that is put back with the messages it had. -/
theorem Hw.posted_setMbx_of_msgs {t : Hw} {c : Nat} {x : Mbx} (hkeeps : ∀ d, t.posted d = s.posted d)
    (hmsgs : x.msgs = (s.mbx c).msgs) : (t.setMbx c x).posted ch = s.posted ch := by
  have hcount : t.word MBX_POST_ERR.A = s.word MBX_POST_ERR.A := congrArg Prod.fst (hkeeps ch)
  rw [Hw.posted_setMbx]
  split
  · next hc => rw [hcount, hmsgs, ← hc, Hw.posted]
  · exact hkeeps ch

theorem Hw.posted_mbxNotify (c : Nat) : (s.mbxNotify c).posted ch = s.posted ch := by
  unfold Hw.mbxNotify
  rw [Hw.onlyIf_same (·.posted ch) _ _ _ fun t => t.posted_msix ch _,
    Hw.onlyIf_same (·.posted ch) _ _ _ fun t => t.posted_ctlRaise ch _]

theorem Hw.posted_mbxEmptyInt (c : Nat) : (s.mbxEmptyInt c).posted ch = s.posted ch := by
  unfold Hw.mbxEmptyInt
  extract_lets x down
  split
  · exact s.posted_setMbx_of_msgs ch (fun _ => rfl) rfl
  · exact s.posted_setMbx_of_msgs ch (fun d => (Hw.onlyIf_same (·.posted d) _ _ _ fun t => t.posted_msix d _).trans
      (Hw.onlyIf_same (·.posted d) _ _ _ fun t => t.posted_ctlRaise d _)) rfl

theorem Hw.posted_dbDeliver (n : Nat) : (s.dbDeliver n).posted ch = s.posted ch := by
  unfold Hw.dbDeliver
  split
  · rw [Hw.onlyIf_same (·.posted ch) _ _ _ fun t => t.posted_msix ch _,
      Hw.onlyIf_same (·.posted ch) _ _ _ fun t => t.posted_ctlRaise ch _]
  · rfl

theorem Hw.posted_domainUp (d : Nat) : (s.domainUp d).posted ch = s.posted ch := by
  unfold Hw.domainUp
  rw [Hw.forAll_same (·.posted ch) _ fun t n => t.posted_dbDeliver ch n, Hw.forAll_same (·.posted ch) _ fun t c => ?_]
  rw [Hw.onlyIf_same (·.posted ch) _ _ _ fun u => u.posted_mbxNotify ch _,
    Hw.onlyIf_same (·.posted ch) _ _ _ fun u => u.posted_mbxEmptyInt ch _]

theorem Hw.posted_setClkOut (v : ClkOut) : (s.setClkOut v).posted ch = s.posted ch := by
  unfold Hw.setClkOut
  split <;> rfl

theorem Hw.posted_clkSync : s.clkSync.posted ch = s.posted ch := by
  unfold Hw.clkSync
  dsimp only
  split_ifs
  · rw [Hw.posted_setClkOut]
    rfl
  · rfl
  · exact s.posted_setClkOut ch _

/-- The source of the time is followed in the registers of the TIM block alone. -/
theorem Hw.posted_timSource : s.timSource.posted ch = s.posted ch := by
  unfold Hw.timSource
  split
  · rfl
  · extract_lets ok t v u off was now w
    have hw : w.posted ch = s.posted ch :=
      (t.posted_wr ch _ _ (by decide)).trans (s.posted_wr ch _ _ (by decide))
    split
    · exact hw
    · rw [Hw.posted_raise _ _ _ _ (by decide), Hw.posted_wr _ _ _ _ (by decide), hw]

theorem Hw.posted_timStart : s.timStart.posted ch = s.posted ch := by
  unfold Hw.timStart
  extract_lets was _ t u
  have hu : u.posted ch = s.posted ch := t.posted_wr ch _ _ (by decide)
  rw [Hw.posted_clkSync, Hw.posted_timSource]
  split
  · exact hu
  · rw [Hw.posted_raise _ _ _ _ (by decide), hu]

theorem Hw.posted_domainBegins (d : Nat) : (s.domainBegins d).posted ch = s.posted ch := by
  unfold Hw.domainBegins
  extract_lets t u v
  have ht : t.posted ch = s.posted ch := Hw.onlyIf_same (·.posted ch) s _ _ fun w => w.posted_timStart ch
  have hu : u.posted ch = t.posted ch := Hw.onlyIf_same (·.posted ch) t _ _ fun _ => rfl
  have hv : v.posted ch = u.posted ch := Hw.onlyIf_same (·.posted ch) u _ _ fun w =>
    Hw.forAll_same (·.posted ch) _ (fun x o => Hw.onlyIf_same (·.posted ch) x _ _ fun y => y.posted_note ch o 24) w _
  rw [Hw.posted_domainUp, hv, hu, ht]

/-- The wake of a domain that has a condition in PWR_DOM_STATE. -/
theorem Hw.posted_wakeOne {d : Nat} (hd : d < 32) : (s.wakeOne d).posted ch = s.posted ch := by
  have haddr : PWR_DOM_STATE.A (d / 16) ≠ MBX_POST_ERR.A := by simp only [PWR_DOM_STATE.A, MBX_POST_ERR.A]; omega
  unfold Hw.wakeOne
  split
  · rw [Hw.posted_domainBegins]
    exact s.posted_wr ch _ _ haddr
  · rfl

/-! ## A message is stored (R400-R402) -/

theorem Hw.posted_mbxForward (c : Nat) : (s.mbxForward c).posted ch = s.posted ch := by
  unfold Hw.mbxForward
  split
  · rfl
  · split <;> rfl

/-- An entry field of a table is less than 2 to its width. -/
theorem Hw.t_lt (r : TRef) : s.t r < 2 ^ r.width := Nat.mod_lt _ (by positivity)

/-- A stored message stands behind those that wait; MBX_POST_ERR stays. -/
theorem Hw.posted_mbxStoreAs (msg : Msg) :
    (s.mbxStoreAs ch msg).posted ch =
      (s.word MBX_POST_ERR.A, (s.mbx ch).msgs ++ [{ msg with seq := (s.mbx ch).seq }]) := by
  unfold Hw.mbxStoreAs
  extract_lets x t on u
  have ht : t.posted ch = (s.word MBX_POST_ERR.A, (s.mbx ch).msgs ++ [{ msg with seq := (s.mbx ch).seq }]) :=
    (s.posted_setMbx ch ch _).trans (by rw [if_pos rfl])
  have hu : u.posted ch = t.posted ch :=
    Hw.onlyIf_same (·.posted ch) _ _ _ fun v => v.posted_wakeOne ch (v.t_lt (MBX_CFG.RX_DOM ch))
  rw [Hw.posted_mbxForward, ← ht, ← hu]
  split
  · exact u.posted_mbxNotify ch ch
  · rfl

end

/-! ## A post, by its status (R399) -/

section
variable {s : Hw} {id ch : Nat}

/-- With status OK the staged message stands at the tail, stamped with the poster's ID. -/
theorem Hw.posted_mbxSend_of_ok (h : s.postStatus id ch = 0) :
    ∃ x, (s.mbxSend id ch).posted ch = (s.word MBX_POST_ERR.A, (s.mbx ch).msgs ++ [x]) ∧ x.master = id ∧
      x.words = s.staged id := by
  rw [Hw.mbxSend_of_ok h]
  exact ⟨_, s.posted_mbxStoreAs ch _, rfl, rfl⟩

/-- With any other status no mailbox changes, and no register but MBX_POST_ERR. -/
theorem Hw.mbxSend_frame (h : s.postStatus id ch ≠ 0) :
    (s.mbxSend id ch).ctl.mbx = s.ctl.mbx ∧ ∀ a, a ≠ MBX_POST_ERR.A → (s.mbxSend id ch).word a = s.word a := by
  by_cases hoff : s.postStatus id ch = 2
  · rw [Hw.mbxSend_of_domainOff hoff]
    exact ⟨congrArg (·.mbx) (s.count_ctl _ _), fun a ha => s.word_count_ne _ _ a ha⟩
  · rw [Hw.mbxSend_of_refused h hoff]
    exact ⟨rfl, fun _ _ => rfl⟩

/-- MBX_POST_ERR counts the posts that met DOMAIN_OFF, and stays under any other status. -/
theorem Hw.mbxSend_postErr (s : Hw) (id ch : Nat) :
    (s.mbxSend id ch).rd MBX_POST_ERR.COUNT =
      if s.postStatus id ch = 2 then min (s.rd MBX_POST_ERR.COUNT + 1) (2 ^ MBX_POST_ERR.COUNT.width - 1)
      else s.rd MBX_POST_ERR.COUNT := by
  split
  · next hoff =>
    rw [Hw.mbxSend_of_domainOff hoff]
    exact s.rd_count_self _ 1 (by decide)
  · next hoff =>
    by_cases hok : s.postStatus id ch = 0
    · obtain ⟨x, hx, -⟩ := Hw.posted_mbxSend_of_ok hok
      exact congrArg (getField · 0 32) (congrArg Prod.fst hx)
    · rw [Hw.mbxSend_of_refused hok hoff]
      rfl

end

/-- MBX_SEND of an admitted master. -/
theorem exec_mbxSend {m : Master} {ch : Fin 256} {s : State} (hadm : s.hw.admits m (MBX_SEND.A ch) false) :
    exec (.mbxSend m ch) s = .next (s.finish ((s.hw.reached m (MBX_SEND.A ch)).mbxSend m.id ch)) :=
  congrArg (fun h => Host.Outcome.next (s.finish h)) (Hw.onAccess_admits hadm _)

end Sys2Proof.Machine

namespace Sys2Proof
open Machine

/-- Settles O14: the status is `Hw.postStatus`, checked in the order of log entry 22; under OK the message goes behind those
that wait and the wake of its receiver keeps them, and under any other status a count is all that can change. -/
theorem aPostStoresOnlyWithStatusOk : Obligations.APostStoresOnlyWithStatusOk := by
  refine ⟨fun m ch s hadm => ?_, fun m n i j hi hj hkey => ?_⟩
  · intro h wrong down full
    refine ⟨_, h.postStatus m.id ch, exec_mbxSend hadm, ?_, Hw.postStatus_of_notSender, Hw.postStatus_of_domDown,
      Hw.postStatus_of_domUp, fun hok => ?_, fun hnot => ?_, ?_⟩
    · rw [State.finish_rdata]
      exact h.mbxSend_rdata _ _
    · obtain ⟨x, hx, hmaster, hwords⟩ := Hw.posted_mbxSend_of_ok hok
      refine ⟨x, ?_, hmaster, hwords⟩
      rw [Hw.mbx, State.finish_ctl_mbx]
      exact congrArg Prod.snd hx
    · obtain ⟨hmbx, hword⟩ := Hw.mbxSend_frame hnot
      exact ⟨(s.finish_ctl_mbx _).trans hmbx, fun a ha hne => (s.finish_word _ a ha).trans (hword a hne)⟩
    · rw [State.finish_rd _ _ _ (by decide)]
      exact h.mbxSend_postErr _ _
  · obtain rfl : m = n := Master.id_inj (by omega)
    exact ⟨rfl, by omega⟩

end Sys2Proof
end

section
/-!
SUPPORT. Steps: every command ends in `State.finish`, so every step goes on, keeps the queue, and leaves a sound state; the
settlement of the statements about steps, the queue, reset and the opcode table.
-/
namespace Sys2Proof.Machine

/-- Every command answers a next state, and ends as `State.finish` ends it: each arm of `exec` is `State.on` or
`State.onMem`. -/
theorem exec_finish (c : Instr) (s : State) : ∃ h, exec c s = .next (s.finish h) := by
  cases c <;> exact ⟨_, rfl⟩

/-- So does a step, from the state without the command in front. -/
theorem step_finish (s : State) : ∃ h rest, step s = .next (({ s with pending := rest } : State).finish h) := by
  cases hp : s.pending with
  | nil =>
    have hs : ({ s with pending := [] } : State) = s := by rw [← hp]
    exact ⟨s.hw.tick, [], by rw [step, hp, hs]; rfl⟩
  | cons c rest =>
    obtain ⟨h, hc⟩ := exec_finish c { s with pending := rest }
    exact ⟨h, rest, by rw [step, hp]; exact hc⟩

/-- What `State.finish` leaves is sound where the memory was in canonical form. -/
theorem State.finish_sound {s : State} (hmem : Memory.wf s.mem = true) (h : Hw) : (s.finish h).Sound :=
  ⟨s.finish_wf h hmem, s.finish_isQuiet h⟩

end Sys2Proof.Machine

namespace Sys2Proof
open Machine

/-- Settles O3: a step ends in `State.finish`, which keeps the canonical form and leaves nothing waiting. -/
theorem everyStepGoesOn : Obligations.EveryStepGoesOn := by
  intro s ⟨hmem, _⟩
  obtain ⟨h, rest, hstep⟩ := step_finish s
  exact ⟨_, hstep, State.finish_sound (s := { s with pending := rest }) hmem h⟩

/-- Settles O5: `State.finish` keeps the queue. -/
theorem noCommandTouchesTheQueue : Obligations.NoCommandTouchesTheQueue := by
  intro c s t hexec
  obtain ⟨h, hfin⟩ := exec_finish c s
  obtain rfl : s.finish h = t := Host.Outcome.next.inj (hfin.symm.trans hexec)
  exact s.finish_pending h

/-- Settles O1: the two branches of `step`. -/
theorem stepTakesTheFrontCommand : Obligations.StepTakesTheFrontCommand :=
  ⟨fun _ _ _ => rfl, fun _ => rfl⟩

/-- Settles O4: everything in the reset state is empty. -/
theorem resetIsSound : Obligations.ResetIsSound :=
  ⟨⟨rfl, rfl, rfl⟩, rfl, rfl⟩

/-- Settles O6: `decodeTableWord` gives no word a command, so `withFetchWord` has none to put in front. -/
theorem noWordSpellsACommand : Obligations.NoWordSpellsACommand :=
  ⟨fun _ _ => rfl, fun _ _ _ => rfl⟩

end Sys2Proof
end

section
/-!
SUPPORT. Plain writes bit by bit (R16, R18), and the settlement of the statement about a field's access type.
-/
namespace Sys2Proof.Machine

variable {f : FieldRow} {v : Word}

/-- Bit `i` of a word after the bits written as 1 have been cleared inside a field. -/
theorem getLsbD_clear (w v : Word) (lo n : Nat) {i : Nat} (hi : i < 32) :
    (w &&& ~~~(v &&& fieldMask lo n)).getLsbD i = (w.getLsbD i && !(v.getLsbD i && decide (lo ≤ i ∧ i < lo + n))) := by
  simp only [BitVec.getLsbD_and, BitVec.getLsbD_not, getLsbD_fieldMask, hi, decide_true, Bool.true_and]

/-- A write leaves every bit outside its field. -/
theorem FieldRow.getLsbD_write_of_outside {i : Nat} (hi : i < 32) (hout : ¬(f.lo ≤ i ∧ i < f.lo + f.width)) (w : Word) :
    (f.write w v).getLsbD i = w.getLsbD i := by
  have hset (x : Nat) : (setField w f.lo f.width x).getLsbD i = w.getLsbD i := by
    rw [getLsbD_setField _ _ _ _ _ hi, if_neg hout]
  have hclear : (w &&& ~~~(v &&& fieldMask f.lo f.width)).getLsbD i = w.getLsbD i := by
    rw [getLsbD_clear _ _ _ _ hi, decide_eq_false hout, Bool.and_false, Bool.not_false, Bool.and_true]
  unfold FieldRow.write
  split
  · split
    · exact hset _
    · rfl
  · split
    · exact hset _
    · rfl
  · split
    · rfl
    · exact hclear
  · rfl

/-- Each 1 written to a W1C field clears its bit, each 0 leaves it. -/
theorem FieldRow.getLsbD_write_w1c {i : Nat} (hacc : f.acc = .w1c) (hown : f.own = false) (hi : i < 32)
    (hin : f.lo ≤ i ∧ i < f.lo + f.width) (w : Word) : (f.write w v).getLsbD i = (w.getLsbD i && !v.getLsbD i) := by
  simp only [FieldRow.write, hacc, hown, Bool.false_eq_true, if_false]
  rw [getLsbD_clear _ _ _ _ hi, decide_eq_true hin, Bool.and_true]

/-- A reserved encoding changes nothing. -/
theorem FieldRow.write_of_reserved (hacc : f.acc = .rw) (hres : f.accepts (getField v f.lo f.width) = false) (w : Word) :
    f.write w v = w := by
  simp [FieldRow.write, hacc, hres]

/-- A field whose write is a command of its own is not changed by a plain write (log entry 8). -/
theorem FieldRow.write_of_own (hown : f.own = true) (w : Word) : f.write w v = w := by
  unfold FieldRow.write
  split <;> simp [hown]

/-- Nor is a field that a write does not reach. -/
theorem FieldRow.write_of_unwritable (hacc : f.acc = .ro ∨ f.acc = .rc ∨ f.acc = .wo) (w : Word) : f.write w v = w := by
  rcases hacc with h | h | h <;> simp [FieldRow.write, h]

end Sys2Proof.Machine

namespace Sys2Proof
open Machine

/-- Settles O19: one lemma per access type, and one for the bits outside the field. That a field with a row of its own is
not reached by a plain write is log entry 8. -/
theorem fieldsFollowTheirAccessTypes : Obligations.FieldsFollowTheirAccessTypes := by
  intro f w v hfit
  refine ⟨fun hacc hown hok => FieldRow.getField_write_self hacc hown hfit hok w,
    fun hacc _ hres => FieldRow.write_of_reserved hacc hres w,
    fun hacc hown i hi hlo hhi => FieldRow.getLsbD_write_w1c hacc hown hi ⟨hlo, hhi⟩ w, fun hacc => ?_,
    fun i hi hout => FieldRow.getLsbD_write_of_outside hi hout w⟩
  rcases hacc with h | h | h | h
  · exact FieldRow.write_of_unwritable (.inl h) w
  · exact FieldRow.write_of_unwritable (.inr (.inl h)) w
  · exact FieldRow.write_of_unwritable (.inr (.inr h)) w
  · exact FieldRow.write_of_own h w

end Sys2Proof
end

section
/-!
SUPPORT. The capture of access errors (spec/02, "Bus error capture"): what a first error and a later one leave in the GLB
registers, and the settlement of the statement about them.
-/
namespace Sys2Proof.Machine

/-- The fields of GLB_BUS_ERR_INFO as an error is captured there. -/
theorem busErrInfo_fields (m : Master) (w : Bool) {r : Nat} (hr : r < 8) :
    getField (busErrInfo m w r) 0 8 = m.id ∧ getField (busErrInfo m w r) 8 1 = b2n w ∧
      getField (busErrInfo m w r) 9 3 = r ∧ getField (busErrInfo m w r) 31 1 = 1 := by
  have hid := m.id_lt
  have hw : b2n w < 2 := by cases w <;> decide
  simp only [getField, busErrInfo, BitVec.toNat_ofNat]
  omega

section
variable {s : Hw} (m : Master) (a : Nat) (w : Bool) (r : Nat)

/-- The count leaves the capture. -/
theorem Hw.rd_errorValid_count (s : Hw) : (s.count GLB_BUS_ERR_COUNT.COUNT).rd GLB_BUS_ERR_INFO.VALID = s.rd GLB_BUS_ERR_INFO.VALID :=
  s.rd_count_addr _ _ 1 (by decide)

/-- A later error is counted alone. -/
theorem Hw.busError_of_valid (h : s.rd GLB_BUS_ERR_INFO.VALID = 1) :
    s.busError m a w r = s.count GLB_BUS_ERR_COUNT.COUNT :=
  if_pos (s.rd_errorValid_count.trans h)

/-- A first error is captured. -/
theorem Hw.busError_of_free (h : s.rd GLB_BUS_ERR_INFO.VALID ≠ 1) :
    s.busError m a w r =
      ((((s.count GLB_BUS_ERR_COUNT.COUNT).setWord GLB_BUS_ERR_INFO.A (busErrInfo m w r)).setWord GLB_BUS_ERR_ADDR.A
        (BitVec.ofNat 32 a)).wr GLB_BUS_ERR_ADDR_HI.ADDR_HI (a / 2 ^ 32)).raise 0 EV_GLB.BUS_ERR :=
  if_neg (s.rd_errorValid_count.symm ▸ h)

/-- Its words: the event's status bit, the three of the capture, and the count. -/
theorem Hw.word_busError_of_free (h : s.rd GLB_BUS_ERR_INFO.VALID ≠ 1) (b : Nat) :
    (s.busError m a w r).word b =
      if b = 0 then setField ((s.count GLB_BUS_ERR_COUNT.COUNT).word 0) EV_GLB.BUS_ERR 1 1
      else if b = GLB_BUS_ERR_ADDR_HI.A then
        setField ((s.count GLB_BUS_ERR_COUNT.COUNT).word GLB_BUS_ERR_ADDR_HI.A) 0 5 (a / 2 ^ 32)
      else if b = GLB_BUS_ERR_ADDR.A then BitVec.ofNat 32 a
      else if b = GLB_BUS_ERR_INFO.A then busErrInfo m w r
      else (s.count GLB_BUS_ERR_COUNT.COUNT).word b := by
  rw [Hw.busError_of_free _ _ _ _ h, Hw.word_raise, Hw.word_wr, Hw.word_setWord, Hw.word_setWord]
  by_cases h0 : b = 0
  · subst h0
    rfl
  · simp only [h0, if_false]
    split
    · next hb => subst hb; rfl
    · rfl

/-- In every case the error is counted. -/
theorem Hw.rd_busError_count (s : Hw) : (s.busError m a w r).rd GLB_BUS_ERR_COUNT.COUNT =
    min (s.rd GLB_BUS_ERR_COUNT.COUNT + 1) (2 ^ GLB_BUS_ERR_COUNT.COUNT.width - 1) := by
  rw [← s.rd_count_self GLB_BUS_ERR_COUNT.COUNT 1 (by decide)]
  by_cases hv : s.rd GLB_BUS_ERR_INFO.VALID = 1
  · rw [Hw.busError_of_valid _ _ _ _ hv]
  · rw [Hw.rd, Hw.word_busError_of_free _ _ _ _ hv]
    rfl

/-- And nothing outside the five registers of the capture changes. -/
theorem Hw.word_busError_frame (s : Hw) {b : Nat}
    (hb : b ∉ [0, GLB_BUS_ERR_COUNT.A, GLB_BUS_ERR_INFO.A, GLB_BUS_ERR_ADDR.A, GLB_BUS_ERR_ADDR_HI.A]) :
    (s.busError m a w r).word b = s.word b := by
  simp only [List.mem_cons, List.not_mem_nil, or_false, not_or] at hb
  obtain ⟨hev, hcount, hinfo, haddr, hhi⟩ := hb
  have hcounted : (s.count GLB_BUS_ERR_COUNT.COUNT).word b = s.word b := s.word_count_ne _ _ _ hcount
  by_cases hv : s.rd GLB_BUS_ERR_INFO.VALID = 1
  · rw [Hw.busError_of_valid _ _ _ _ hv, hcounted]
  · rw [Hw.word_busError_of_free _ _ _ _ hv, if_neg hev, if_neg hhi, if_neg haddr, if_neg hinfo, hcounted]

end

end Sys2Proof.Machine

namespace Sys2Proof
open Machine

/-- Settles O8: the access ends in `Hw.busError`, which counts, and captures where nothing is held. -/
theorem anAccessErrorChangesOnlyTheCapture : Obligations.AnAccessErrorChangesOnlyTheCapture := by
  intro c s t m a r w hquiet hc hengine hdeaf herr hr hexec
  have hcounted : s.hw.counted m = s.hw := by
    cases m with
    | engine e => exact absurd rfl (hengine e)
    | _ => rfl
  obtain ⟨f, hf⟩ := exec_of_accessOf hc s
  rw [hf, Hw.onAccess_error hdeaf (hcounted.symm ▸ herr), hcounted] at hexec
  obtain rfl := Host.Outcome.next.inj hexec
  let g := (s.hw.busError m a w (r + 1)).answer 0#32
  have hword (b : Nat) (hb : b < 0x9000000) : (s.finish g).hw.word b = (s.hw.busError m a w (r + 1)).word b :=
    s.finish_word g b hb
  have hrd (x : FRef) (hx : x.addr < 0x9000000) : (s.finish g).hw.rd x = (s.hw.busError m a w (r + 1)).rd x :=
    s.finish_rd g x hx
  refine ⟨s.finish_rdata g, (hrd _ (by decide)).trans (s.hw.rd_busError_count m a w (r + 1)), fun hv => ?_, fun hv => ?_,
    fun b hb hout => ?_, fun b => ?_⟩
  · intro b hb hne
    rw [hword b hb, Hw.busError_of_valid _ _ _ _ hv]
    exact s.hw.word_count_ne _ _ _ (by simpa using hne)
  · have hcap (b : Nat) := Hw.word_busError_of_free m a w (r + 1) hv b
    obtain ⟨hmaster, hwrite, hreason, hvalid⟩ := busErrInfo_fields m w hr
    have hinfo (lo n : Nat) : (s.hw.busError m a w (r + 1)).rd ⟨GLB_BUS_ERR_INFO.A, lo, n⟩ =
        getField (busErrInfo m w (r + 1)) lo n := congrArg (getField · lo n) (hcap _)
    refine ⟨(hrd _ (by decide)).trans ((hinfo 0 8).trans hmaster), (hrd _ (by decide)).trans ((hinfo 8 1).trans hwrite),
      (hrd _ (by decide)).trans ((hinfo 9 3).trans hreason), (hrd _ (by decide)).trans ((hinfo 31 1).trans hvalid),
      (hword _ (by decide)).trans (hcap _), ?_, ?_⟩
    · rw [hrd _ (by decide), Hw.rd, hcap]
      exact getField_setField_self _ _ _ _ (by decide)
    · rw [hrd _ (by decide), Hw.rd, hcap]
      exact getField_setField_self _ _ _ _ (by decide)
  · exact (hword b hb).trans (s.hw.word_busError_frame m a w (r + 1) hout)
  · rw [State.finish_mem]
    exact (s.hw.busError_wlog m a w (r + 1)).trans hquiet.1

end Sys2Proof
end

section
/-!
SUPPORT. The local time in a cycle (R333): what its tick adds, and that nothing else of the cycle touches it; the settlement
of the statement about the tick.
-/
namespace Sys2Proof.Machine

/-! ## What a cycle leaves of the TIM block -/

section
variable (s : Hw)

theorem Hw.tim_laneSync (l : Nat) : (s.laneSync l).tim = s.tim := by
  unfold Hw.laneSync
  dsimp only
  split <;> rfl

theorem Hw.tim_lpiEnd (l : Nat) : (s.lpiEnd l).tim = s.tim := by
  unfold Hw.lpiEnd
  split
  · rfl
  · refine (Hw.forAll_same Hw.tim _ (fun t p => ?_) _ _).trans (Hw.tim_laneSync _ _)
    exact Hw.onlyIf_same Hw.tim t _ _ fun _ => rfl

theorem Hw.tim_macFrame (p : Nat) (f : Bytes) : (s.macFrame p f).tim = s.tim := by
  unfold Hw.macFrame Hw.putFrame
  dsimp only
  rw [Hw.emit_tim, Hw.count64_tim, Hw.count64_tim]
  exact s.tim_lpiEnd _

theorem Hw.tim_pfcSend (p : Nat) : (s.pfcSend p).tim = s.tim := by
  unfold Hw.pfcSend
  extract_lets x now quanta en t
  split
  · rfl
  · exact (Hw.count_tim _ _ _).trans (Hw.tim_macFrame _ _ _)

theorem Hw.tim_macPump (p : Nat) : (s.macPump p).tim = s.tim := by
  unfold Hw.macPump
  split
  · rfl
  · split
    · exact s.tim_pfcSend p
    · split
      · rfl
      · exact Hw.tim_macFrame _ _ _

theorem Hw.tim_tickMacs : s.tickMacs.tim = s.tim := Hw.forAll_same Hw.tim _ (fun t p => t.tim_macPump p) s _

theorem Hw.tim_tickStalls : s.tickStalls.tim = s.tim := by
  refine Hw.forAll_same Hw.tim _ (fun t i => ?_) s _
  have hcount (u : Hw) (c : Prop) [Decidable c] (n : Nat) : (u.onlyIf c (·.clsCount n 4)).tim = u.tim :=
    Hw.onlyIf_same Hw.tim u _ _ fun v => v.count_tim _ _
  exact ((hcount _ _ 19).trans (hcount _ _ 21)).trans (hcount t _ 20)

theorem Hw.tim_tickDelays : s.tickDelays.tim = s.tim := by
  unfold Hw.tickDelays
  split
  · exact Hw.forAll_same Hw.tim _ (fun t l => Hw.onlyIf_same Hw.tim _ _ _ fun u => u.count_tim _ _) s _
  · rfl

theorem Hw.tim_perf (e code k : Nat) : (s.perf e code k).tim = s.tim := by
  refine Hw.forAll_same Hw.tim _ (fun t n => ?_) s _
  dsimp only
  split
  · rw [Hw.onlyIf_same Hw.tim _ _ _ fun u => u.raise_tim _ _, Hw.count64_tim]
  · rfl

theorem Hw.tim_tickEngine (e : Nat) : (s.tickEngine e).tim = s.tim := by
  unfold Hw.tickEngine
  dsimp only
  split
  · rfl
  · rw [Hw.onlyIf_same Hw.tim _ _ _ fun u => u.tim_perf _ _ _, Hw.onlyIf_same Hw.tim _ _ _ fun u => u.tim_perf _ _ _,
      Hw.count64_tim]
    rfl

theorem Hw.tim_tickEngines : s.tickEngines.tim = s.tim := Hw.forAll_same Hw.tim _ (fun t e => t.tim_tickEngine e) s _

theorem Hw.tim_prbsHalt (lane : RxLane) : (s.prbsHalt lane).tim = s.tim := by
  unfold Hw.prbsHalt
  split <;> rfl

theorem Hw.tim_prbsTick (lane : RxLane) : (s.prbsTick lane).tim = s.tim := by
  unfold Hw.prbsTick
  split
  · rfl
  · split
    · exact s.tim_prbsHalt lane
    · cases lane with
      | trunk c => exact (Hw.count64_tim _ _ _ _).trans (Hw.count64_tim _ _ _ _)
      | sub l => exact (Hw.count64_tim _ _ _ _).trans (Hw.count64_tim _ _ _ _)

theorem Hw.tim_tickPrbs : s.tickPrbs.tim = s.tim := by
  unfold Hw.tickPrbs
  rw [Hw.forAll_same Hw.tim _ (fun t l => t.tim_prbsTick _), Hw.forAll_same Hw.tim _ (fun t c => t.tim_prbsTick _)]

theorem Hw.tim_tickFuse : s.tickFuse.tim = s.tim := by
  unfold Hw.tickFuse Hw.svnBlow
  dsimp only
  split
  · split <;> rfl
  · rfl

theorem Hw.tim_tickSpi : s.tickSpi.tim = s.tim := by
  unfold Hw.tickSpi Hw.spiRelease
  split
  · split
    · split <;> rfl
    · rfl
  · rfl

theorem Hw.tim_tickDma : s.tickDma.tim = s.tim := by
  unfold Hw.tickDma
  split <;> rfl

/-- CLKOUT follows without a change of the local time. -/
theorem Hw.now_clkSync : s.clkSync.tim.now = s.tim.now := by
  have hset (t : Hw) (v : ClkOut) : (t.setClkOut v).tim.now = t.tim.now := by
    unfold Hw.setClkOut
    split <;> rfl
  unfold Hw.clkSync
  dsimp only
  split_ifs
  · exact hset _ _
  · rfl
  · exact hset _ _

end

/-- With no change of power state under way or due, out of Rest, and with no domain to turn off, the logic's cycle leaves the
local time. -/
theorem Hw.now_tickLogic {s : Hw} (hbusy : s.rd PWR_STATE_STATUS.BUSY ≠ 1) (hrest : s.powerState ≠ 3)
    (htodo : s.pwr.todo = []) (htrim : s.pwr.trimDue = []) (hoff : s.offDue = []) : s.tickLogic.tim.now = s.tim.now := by
  unfold Hw.tickLogic
  split
  · rfl
  · rw [Hw.tim_tickDma, Hw.tim_tickSpi, Hw.tim_tickFuse, Hw.now_clkSync, Hw.tim_tickMacs, Hw.tim_tickPrbs, Hw.tim_tickEngines,
      Hw.tim_tickDelays, Hw.tim_tickStalls, Hw.offAll_none hoff, Hw.powerWatch_tim hbusy hrest htodo htrim]

/-- So a cycle advances the local time by its tick alone. -/
theorem Hw.now_tick {s : Hw} (hruns : s.timRuns = true) (hbusy : s.rd PWR_STATE_STATUS.BUSY ≠ 1) (hrest : s.powerState ≠ 3)
    (htodo : s.pwr.todo = []) (htrim : s.pwr.trimDue = []) (hoff : s.offDue = []) :
    s.tick.tim.now = s.tim.now.next (s.rd TIM_INC_FRAC.INC) := by
  have htime : s.tickTime = { s with tim := { s.tim with now := s.tim.now.next (s.rd TIM_INC_FRAC.INC) } } := if_pos hruns
  obtain ⟨htim, hregs, hcap, -, hpwr⟩ := s.tickTime.tickSlept_rest
  have hregs' : s.tickTime.tickSlept.regs = s.regs := by rw [hregs, htime]
  have hpwr' : s.tickTime.tickSlept.pwr = s.pwr := by rw [hpwr, htime]
  have hcap' : s.tickTime.tickSlept.cap = s.cap := by rw [hcap, htime]
  unfold Hw.tick
  rw [Hw.cycled_tim, Hw.now_tickLogic, htim, htime]
  · rwa [Hw.rd_congr hregs']
  · rwa [Hw.powerState, Hw.rd_congr hregs']
  · rwa [hpwr']
  · rwa [hpwr']
  · rwa [Hw.offDue_congr hregs' hcap']

/-- The tick of R333, carry by carry. -/
theorem LTime.next_parts {n : LTime} {inc : Nat} (hns : n.ns < 1000000000) (hfrac : n.frac < 2 ^ 32) (hinc : inc < 2 ^ 32)
    (hsec : n.sec < 2 ^ 48) :
    let f := n.frac + inc
    let x := n.ns + 4 + f / 2 ^ 32
    (n.next inc).frac = f % 2 ^ 32 ∧
      (n.next inc).ns = (if 1000000000 ≤ x then x - 1000000000 else x) ∧
      (n.next inc).sec = (if 1000000000 ≤ x then (n.sec + 1) % 2 ^ 48 else n.sec) := by
  simp only [LTime.next, LTime.ofParts, LTime.parts, LTime.abs]
  refine ⟨by omega, ?_, ?_⟩ <;> split <;> omega

end Sys2Proof.Machine

namespace Sys2Proof
open Machine

/-- Settles O2: a step with no command waiting is a cycle (log entry 5), whose tick alone touches the local time. -/
theorem tickAdvancesTheLocalClock : Obligations.TickAdvancesTheLocalClock := by
  intro s hpending hruns hbusy hrest htodo htrim hoff n hns hfrac hsec f x
  have hstep : step s = .next (s.finish s.hw.tick) := by
    unfold step
    rw [hpending]
    rfl
  have hnow : (s.finish s.hw.tick).hw.tim.now = n.next (s.hw.rd TIM_INC_FRAC.INC) := by
    rw [State.finish_tim]
    exact Hw.now_tick hruns hbusy hrest htodo htrim hoff
  refine ⟨_, hstep, ?_⟩
  rw [hnow]
  exact LTime.next_parts hns hfrac (getField_lt _ _ _) hsec

end Sys2Proof
end

section
/-!
SUPPORT. The external memory window (R45, R259): what a store of a word leaves in the memory and what a read of it answers, and
the settlement of the statement about stores.
-/
namespace Sys2Proof.Machine

/-! ## An admitted access of the window -/

/-- It is aligned and inside the window, and its master is one the window is not reserved to (log entry 12). -/
theorem Hw.admits_window {s : Hw} {m : Master} {a : Nat} {w : Bool} (hadm : s.admits m a w) (hwin : extBase ≤ a) :
    a % 4 = 0 ∧ a < extBase + 0x800000000 ∧ m ≠ .host := by
  obtain ⟨-, herr⟩ := hadm
  refine ⟨?_, ?_, ?_⟩
  · by_contra h
    rw [Hw.accessError_align (.inr h)] at herr
    omega
  · by_contra h
    by_cases halign : a % 4 = 0
    · rw [Hw.accessError_unmapped halign (le_trans (by decide) hwin) (.inr (by omega))] at herr
      omega
    · rw [Hw.accessError_align (.inr halign)] at herr
      omega
  · rintro rfl
    by_cases halign : a % 4 = 0
    · rw [Hw.accessError_window_reserved halign hwin (.inl rfl)] at herr
      omega
    · rw [Hw.accessError_align (.inr halign)] at herr
      omega

section
variable {s : Hw} {m : Master} {a : Nat} (mem : List Host.Cell)

/-- Nothing but the window itself takes the access: not the staging window of the host, nor the MSI-X table. -/
theorem Hw.access_window {acc : Access} (hadm : s.admits m a (acc != .read)) (hwin : extBase ≤ a) :
    busAddr m a = a ∧ s.stages m a 4 acc = false ∧ s.msixArea m a 4 = false := by
  obtain ⟨-, -, hhost⟩ := Hw.admits_window hadm hwin
  exact ⟨if_neg fun h => hhost h.1, by simp [Hw.stages, hhost], by simp [Hw.msixArea, hhost]⟩

theorem Hw.access_store (hadm : s.admits m a true) (hwin : extBase ≤ a) (v : Word) :
    s.access mem m a 4 (.write v) = ((s.counted m).wakeByAccess 14).memWrite (a - extBase) (leBytes 4 v.toNat) := by
  obtain ⟨hbus, hstage, hmsix⟩ := Hw.access_window (acc := .write v) (by simpa using hadm) hwin
  obtain ⟨hdeaf, herr⟩ := hadm
  unfold Hw.access
  cases m <;> simp only [Hw.counted] at herr ⊢ <;> simp [hdeaf, hbus, hstage, hmsix, herr, hwin]

theorem Hw.access_fetch (hadm : s.admits m a false) (hwin : extBase ≤ a) :
    s.access mem m a 4 .read = ((s.counted m).wakeByAccess 14).readExt mem (a - extBase) := by
  obtain ⟨hbus, hstage, hmsix⟩ := Hw.access_window (acc := .read) hadm hwin
  obtain ⟨hdeaf, herr⟩ := hadm
  unfold Hw.access
  cases m <;> simp only [Hw.counted] at herr ⊢ <;> simp [hdeaf, hbus, hstage, hmsix, herr, hwin]

end

/-! ## What a wake leaves of the window -/

/-- The parts of the logic that say how the window reads and what is written to it. -/
def Hw.window (s : Hw) : Sparse Dram × List Nat × List MemW := (s.grn.dram, s.clean, s.wlog)

/-- What waited for a domain is delivered as interrupts, messages and marks of the channels: what these three keep, it keeps. -/
theorem Hw.domainUp_same {β : Type} (v : Hw → β) (hraise : ∀ t bit, v (t.ctlRaise bit) = v t)
    (hmsix : ∀ t n, v (t.msix n) = v t) (hmbx : ∀ t ch x, v (t.setMbx ch x) = v t) (s : Hw) (d : Nat) :
    v (s.domainUp d) = v s := by
  have hnotify (t : Hw) (ch : Nat) : v (t.mbxNotify ch) = v t :=
    (Hw.onlyIf_same v _ _ _ fun u => hmsix u _).trans (Hw.onlyIf_same v _ _ _ fun u => hraise u _)
  have hempty (t : Hw) (ch : Nat) : v (t.mbxEmptyInt ch) = v t := by
    unfold Hw.mbxEmptyInt
    extract_lets x down
    split
    · exact hmbx _ _ _
    · exact (hmbx _ _ _).trans ((Hw.onlyIf_same v _ _ _ fun u => hmsix u _).trans (Hw.onlyIf_same v _ _ _ fun u => hraise u _))
  have hdb (t : Hw) (n : Nat) : v (t.dbDeliver n) = v t := by
    unfold Hw.dbDeliver
    split
    · exact (Hw.onlyIf_same v _ _ _ fun u => hmsix u _).trans (Hw.onlyIf_same v _ _ _ fun u => hraise u _)
    · rfl
  refine (Hw.forAll_same v _ hdb _ _).trans (Hw.forAll_same v _ (fun t ch => ?_) _ _)
  exact (Hw.onlyIf_same v _ _ _ fun u => hnotify u ch).trans (Hw.onlyIf_same v _ _ _ fun u => hempty u ch)

section
variable (s : Hw)

theorem Hw.window_raise (b bit : Nat) : (s.raise b bit).window = s.window := by
  rw [Hw.window, Hw.raise_grn, Hw.raise_clean, Hw.raise_wlog, Hw.window]

theorem Hw.window_count (f : FRef) (n : Nat) : (s.count f n).window = s.window := by
  rw [Hw.window, Hw.count_grn, Hw.count_clean, Hw.count_wlog, Hw.window]

theorem Hw.window_count64 (a n k : Nat) : (s.count64 a n k).window = s.window := by
  rw [Hw.window, Hw.count64_grn, Hw.count64_clean, Hw.count64_wlog, Hw.window]

theorem Hw.window_msix (n : Nat) : (s.msix n).window = s.window := by
  obtain ⟨_, _, h⟩ := s.msix_rest n
  rw [h]
  rfl

theorem Hw.window_domainUp (d : Nat) : (s.domainUp d).window = s.window :=
  Hw.domainUp_same Hw.window (fun t _ => t.window_raise _ _) (fun t _ => t.window_msix _) (fun _ _ _ => rfl) s d

/-- The wake of the memory ends self-refresh and nothing else of it. -/
theorem Hw.window_wakeByAccess_grn : (s.wakeByAccess 14).window = s.window := by
  unfold Hw.wakeByAccess Hw.wakeOne
  split
  · exact (Hw.window_count _ _ _).trans (Hw.window_domainUp _ _)
  · rfl

theorem Hw.window_counted (m : Master) : (s.counted m).window = s.window := by
  cases m with
  | engine e =>
    refine Hw.forAll_same Hw.window _ (fun t n => ?_) s _
    dsimp only
    split
    · rw [Hw.onlyIf_same Hw.window _ _ _ fun u => u.window_raise _ _, Hw.window_count64]
    · rfl
  | _ => rfl

theorem Hw.window_readExt (mem : List Host.Cell) (off : Nat) : (s.readExt mem off).window = s.window := by
  show (s.extRead mem off 4).1.window = s.window
  unfold Hw.extRead
  split
  · exact (Hw.window_raise _ _ _).trans (Hw.window_raise _ _ _)
  · exact s.window_count _ _

end

/-! ## Poisoned lines (R259) -/

section
variable {g : GrnSt} {clean : List Nat} {off : Nat}

/-- A line's loss depends on the channels alone. -/
theorem GrnSt.linePoisoned_congr {k : GrnSt} (h : k.dram = g.dram) (c : List Nat) (l : Nat) :
    k.linePoisoned c l = g.linePoisoned c l := by
  have hdram (x : GrnSt) : x.linePoisoned c l = ({ dram := x.dram } : GrnSt).linePoisoned c l := rfl
  rw [hdram k, hdram g, h]

/-- Without a channel that something happened to, no line is poisoned. -/
theorem GrnSt.linePoisoned_of_isEmpty (h : g.dram.isEmpty = true) (c : List Nat) (l : Nat) : g.linePoisoned c l = false := by
  simp [GrnSt.linePoisoned, GrnSt.lineLost, GrnSt.ch, List.isEmpty_iff.mp h]

/-- A line that has been rewritten reads again, unless it is lost for good. -/
theorem GrnSt.linePoisoned_of_clean {l : Nat} (hlost : g.lineLost l = false) (hclean : l ∈ clean) :
    g.linePoisoned clean l = false := by
  unfold GrnSt.linePoisoned
  rw [hlost]
  split
  · simp [hclean]
  · rfl

/-- An aligned word lies in one line. -/
theorem linesOf_word (halign : off % 4 = 0) : linesOf off 4 = [off / 64] := by
  have hspan : (off + 4 - 1) / 64 - off / 64 + 1 = 1 := by omega
  rw [linesOf, if_neg (by decide), hspan]
  simp

/-- The store of an aligned word: a poisoned line is filled with zeros first, and is clean. -/
theorem Memory.one_word (mem : List Host.Cell) (halign : off % 4 = 0) {bs : Bytes} (hlen : bs.length = 4) :
    Memory.one g (mem, clean) (.put off bs) =
      if g.linePoisoned clean (off / 64) = true then
        (Memory.store (Memory.store mem (off / 64 * 64) (List.replicate 64 0)) off bs, (off / 64) :: clean)
      else (Memory.store mem off bs, clean) := by
  simp only [Memory.one, MemW.resolve, hlen, linesOf_word halign, Memory.put]
  by_cases hempty : g.dram.isEmpty = true
  · simp [hempty, GrnSt.linePoisoned_of_isEmpty hempty]
  · by_cases hpois : g.linePoisoned clean (off / 64) = true <;> simp [hempty, hpois]

/-- What every byte reads as after it. -/
theorem Memory.read_one_word (mem : List Host.Cell) (halign : off % 4 = 0) (v : Word) (b : Nat) :
    Memory.read (Memory.one g (mem, clean) (.put off (leBytes 4 v.toNat))).1 b =
      if off ≤ b ∧ b < off + 4 then BitVec.ofNat 8 (v.toNat / 256 ^ (b - off))
      else if b / 64 = off / 64 ∧ g.linePoisoned clean (b / 64) = true then 0 else Memory.read mem b := by
  have hlen : (leBytes 4 v.toNat).length = 4 := rfl
  have hline : (off / 64 * 64 ≤ b ∧ b < off / 64 * 64 + 64) ↔ b / 64 = off / 64 := by omega
  have hstore (k : List Host.Cell) := Memory.read_store (leBytes 4 v.toNat) k off b
  rw [hlen] at hstore
  rw [Memory.one_word mem halign hlen]
  by_cases hin : off ≤ b ∧ b < off + 4
  · have hoctet : (leBytes 4 v.toNat).getD (b - off) 0 = BitVec.ofNat 8 (v.toNat / 256 ^ (b - off)) := by
      obtain h | h | h | h : b - off = 0 ∨ b - off = 1 ∨ b - off = 2 ∨ b - off = 3 := by omega
      all_goals simp [h, leBytes, Nat.div_div_eq_div_mul]
    split <;> rw [hstore, if_pos hin, hoctet]
  · split
    · next hpois =>
      rw [hstore, if_neg hin, Memory.read_store, List.length_replicate]
      by_cases hb : b / 64 = off / 64
      · rw [if_pos (hline.mpr hb), if_pos ⟨hb, hb ▸ hpois⟩, List.getD_replicate]
        omega
      · rw [if_neg fun h => hb (hline.mp h), if_neg fun h => hb h.1]
    · next hpois =>
      rw [hstore, if_neg hin]
      exact (if_neg fun (h : b / 64 = off / 64 ∧ g.linePoisoned clean (b / 64) = true) => hpois (h.1 ▸ h.2)).symm

/-- After it the line is not poisoned, unless it is lost for good. -/
theorem GrnSt.linePoisoned_one_word (mem : List Host.Cell) (halign : off % 4 = 0) {bs : Bytes} (hlen : bs.length = 4)
    (hlost : g.lineLost (off / 64) = false) :
    g.linePoisoned (Memory.one g (mem, clean) (.put off bs)).2 (off / 64) = false := by
  rw [Memory.one_word mem halign hlen]
  split
  · exact GrnSt.linePoisoned_of_clean hlost (.head _)
  · next hpois => exact Bool.not_eq_true _ ▸ hpois

end

/-- A read of an aligned word of a line that is not poisoned answers its octets, lowest first. -/
theorem Hw.rdata_readExt {s : Hw} {mem : List Host.Cell} {off : Nat} (halign : off % 4 = 0)
    (hpois : s.grn.linePoisoned s.clean (off / 64) = false) {v : Word}
    (hread : ∀ i < 4, Memory.read mem (off + i) = BitVec.ofNat 8 (v.toNat / 256 ^ i)) : (s.readExt mem off).rdata = v := by
  have hclear : s.poisoned off 4 = false := by
    simp [Hw.poisoned, linesOf_word halign, hpois]
  have hbytes : s.memBytes mem off 4 = [BitVec.ofNat 8 (v.toNat / 256 ^ 0), BitVec.ofNat 8 (v.toNat / 256 ^ 1),
      BitVec.ofNat 8 (v.toNat / 256 ^ 2), BitVec.ofNat 8 (v.toNat / 256 ^ 3)] := by
    rw [← hread 0 (by omega), ← hread 1 (by omega), ← hread 2 (by omega), ← hread 3 (by omega)]
    rfl
  have hv := v.isLt
  unfold Hw.readExt Hw.extRead
  rw [if_neg (by rw [hclear]; decide), Hw.answer_rdata, hbytes]
  apply BitVec.eq_of_toNat_eq
  simp only [leNat, BitVec.toNat_ofNat]
  omega

end Sys2Proof.Machine

namespace Sys2Proof
open Machine

/-- Settles O18: the store is one logged write of an aligned word, which `State.finish` carries out; that poison goes by
lines is log entry 92. -/
theorem storesReachTheMemoryAlone : Obligations.StoresReachTheMemoryAlone := by
  intro m a v s hquiet hadm hwin off h
  obtain ⟨hword, -, -⟩ := Hw.admits_window hadm hwin
  have halign : off % 4 = 0 := by
    have : extBase % 4 = 0 := by decide
    omega
  have hwindow : h.window = s.hw.window := (Hw.window_wakeByAccess_grn _).trans (s.hw.window_counted m)
  have hwlog : h.wlog = [] := (congrArg (·.2.2) hwindow).trans hquiet.1
  let g := h.memWrite off (leBytes 4 v.toNat)
  let one := Memory.one h.grn (s.mem, h.clean) (.put off (leBytes 4 v.toNat))
  have hone : Memory.apply g.grn s.mem g.clean g.wlog = one := by
    show Memory.one h.grn (Memory.apply h.grn s.mem h.clean h.wlog) _ = one
    rw [hwlog]
    rfl
  have hexec : exec (.registerWrite m a 4 (.write v)) s = .next (s.finish g) :=
    congrArg (fun x => Host.Outcome.next (s.finish x)) (Hw.access_store s.mem hadm hwin v)
  have hmem : (s.finish g).mem = one.1 := congrArg Prod.fst hone
  have hclean : (s.finish g).hw.clean = one.2 := congrArg Prod.snd hone
  have hgrn : (s.finish g).hw.grn = h.grn := s.finish_grn g
  have hread (b : Nat) := Memory.read_one_word (g := h.grn) (clean := h.clean) s.mem halign v b
  refine ⟨s.finish g, hexec, fun b => hmem ▸ hread b, fun b hb => s.finish_word g b hb, fun hlost hadm' => ?_⟩
  let k := ((s.finish g).hw.counted m).wakeByAccess 14
  have hk : k.window = (s.finish g).hw.window := (Hw.window_wakeByAccess_grn _).trans (Hw.window_counted _ m)
  have hpois : k.grn.linePoisoned k.clean (off / 64) = false := by
    have hkclean : k.clean = one.2 := (congrArg (·.2.1) hk).trans hclean
    rw [GrnSt.linePoisoned_congr ((congrArg Prod.fst hk).trans (congrArg GrnSt.dram hgrn)), hkclean]
    exact GrnSt.linePoisoned_one_word s.mem halign rfl hlost
  refine ⟨_, congrArg (fun x => Host.Outcome.next ((s.finish g).finish x)) (Hw.access_fetch _ hadm' hwin), ?_, ?_⟩
  · rw [State.finish_rdata]
    refine Hw.rdata_readExt halign hpois fun i hi => ?_
    rw [hmem, hread, if_pos (by omega), Nat.add_sub_cancel_left]
  · exact State.finish_mem _ _ ((congrArg (·.2.2) ((Hw.window_readExt _ _ _).trans hk)).trans (s.finish_wlog g))

end Sys2Proof
end

section
/-!
SUPPORT. Alarms and their soaks (R506; log entry 65): what a sample does while the defect agrees with the alarm, within the soak
and past it, and the settlement of the statement about soaks.
-/
namespace Sys2Proof.Machine

/-! ## What a sample counts -/

/-- Samples in a row that contradicted alarm (`t`, `i`). -/
abbrev Hw.soaked (s : Hw) (t i : Nat) : Nat := s.pm.soak.get 0 (alarmIdx t i)

/-- The samples that an alarm of type `t`, raised or not, waits before it changes (R506). -/
def Hw.soakTime (s : Hw) (t : Nat) (up : Bool) : Nat :=
  10 * (if up then s.t (ALARM_TYPE.CLEAR_SOAK t) else s.t (ALARM_TYPE.RAISE_SOAK t))

/-- The count of alarm entry `x` is put at `n`. -/
def Hw.setSoak (s : Hw) (x n : Nat) : Hw := { s with pm := { s.pm with soak := s.pm.soak.set 0 x n } }

/-- What a sample leaves when it ends no soak: the defect shown, and the count. -/
abbrev Hw.sampled (s : Hw) (t i : Nat) (d : Bool) (n : Nat) : Hw :=
  (s.ts (ALARM_STATE.DEFECT (alarmIdx t i)) (b2n d)).setSoak (alarmIdx t i) n

/-- What a sample that ends a soak leaves: the alarm changes, and the change is logged unless it is masked. -/
def Hw.alarmTurned (s : Hw) (t i : Nat) (d : Bool) : Hw :=
  let u := (s.sampled t i d 0).ts (ALARM_STATE.ACTIVE (alarmIdx t i)) (b2n d)
  let v := u.onlyIf (d = true) (fun s => s.ts (ALARM_STATE.RAISE_SEC (alarmIdx t i)) s.localTime.sec)
  v.onlyIf (v.alarmMasked t i = false) (fun s => s.alarmLog t i d)

section
variable {s : Hw} {t i : Nat} {d : Bool}

theorem Hw.alarmSample_of_agrees (h : s.defect t i = s.alarmActive t i) :
    s.alarmSample t i = s.sampled t i (s.defect t i) 0 := if_pos h

theorem Hw.alarmSample_within (hd : s.defect t i = d) (hup : s.alarmActive t i = !d)
    (hn : s.soaked t i + 1 ≤ s.soakTime t (!d)) : s.alarmSample t i = s.sampled t i d (s.soaked t i + 1) := by
  have hne : ¬d = !d := by cases d <;> decide
  unfold Hw.alarmSample
  simp only [hd, hup, if_neg hne]
  exact if_pos hn

theorem Hw.alarmSample_past (hd : s.defect t i = d) (hup : s.alarmActive t i = !d)
    (hn : s.soakTime t (!d) < s.soaked t i + 1) : s.alarmSample t i = s.alarmTurned t i d := by
  have hne : ¬d = !d := by cases d <;> decide
  unfold Hw.alarmSample
  simp only [hd, hup, if_neg hne]
  exact if_neg (not_le.mpr hn)

end

/-! ## What the sample leaves of the alarm -/

theorem Hw.t_congr {s u : Hw} (h : u.tabs = s.tabs) (r : TRef) : u.t r = s.t r := by
  unfold Hw.t
  rw [Hw.tabWords_congr _ u s _ fun j _ _ => by rw [Hw.tabWord, Hw.tabWord, h]]

section
variable (s : Hw) (t i : Nat)

theorem Hw.t_setSoak (x n : Nat) (r : TRef) : (s.setSoak x n).t r = s.t r :=
  Hw.t_congr (s := s) (u := s.setSoak x n) rfl r

theorem Hw.soaked_sampled (d : Bool) (n : Nat) : (s.sampled t i d n).soaked t i = n := Sparse.get_set_self _ _ _ _

/-- The shown defect stands in another bit than the alarm. -/
theorem Hw.alarmActive_sampled (d : Bool) (n : Nat) : (s.sampled t i d n).alarmActive t i = s.alarmActive t i := by
  have hbits := s.t_ts_bits (ALARM_STATE.DEFECT (alarmIdx t i)) (ALARM_STATE.ACTIVE (alarmIdx t i)) (b2n d) (by simp) (by simp)
    (by simp) (by simp)
  exact congrArg (· == 1) ((Hw.t_setSoak _ _ _ _).trans hbits)

/-- And in another table than the soaks. -/
theorem Hw.soakTime_sampled {t : Nat} (ht : t < 25) (i : Nat) (d : Bool) (n : Nat) (up : Bool) :
    (s.sampled t i d n).soakTime t up = s.soakTime t up := by
  have hkeeps (r : TRef) (hr : r.base = ALARM_TYPE.E t) (hlo : r.lo + r.width ≤ 32) : (s.sampled t i d n).t r = s.t r :=
    (Hw.t_setSoak _ _ _ _).trans
      (s.t_ts_key _ r (b2n d) (by simp only [ALARM_STATE.E, ALARM_TYPE.E, tabKey] at hr ⊢; omega))
  rw [Hw.soakTime, Hw.soakTime, hkeeps _ rfl (by simp), hkeeps _ rfl (by simp)]

/-- A log entry and its event leave the tables. -/
theorem Hw.tabs_alarmLog (up : Bool) : (s.alarmLog t i up).tabs = s.tabs := by
  refine (Hw.raise_tabs _ _ _).trans ?_
  unfold Hw.logWrite
  extract_lets now
  split
  · rfl
  · exact (Hw.raise_tabs _ _ _).trans (Hw.count_tabs _ _ _)

/-- A sample that ends a soak turns the alarm. -/
theorem Hw.alarmActive_alarmTurned (d : Bool) : (s.alarmTurned t i d).alarmActive t i = d := by
  unfold Hw.alarmTurned
  extract_lets u v
  have hu : u.t (ALARM_STATE.ACTIVE (alarmIdx t i)) = b2n d := by
    refine (Hw.t_ts_self _ _ _).trans ?_
    cases d <;> rfl
  have hv : v.t (ALARM_STATE.ACTIVE (alarmIdx t i)) = b2n d :=
    (Hw.onlyIf_same (·.t (ALARM_STATE.ACTIVE (alarmIdx t i))) u _ _ fun w =>
      w.t_ts_key _ _ _ (by simp only [ALARM_STATE.E, tabKey]; omega)).trans hu
  have hlog : (v.onlyIf (v.alarmMasked t i = false) (fun s => s.alarmLog t i d)).t (ALARM_STATE.ACTIVE (alarmIdx t i)) = b2n d :=
    (Hw.onlyIf_same (·.t (ALARM_STATE.ACTIVE (alarmIdx t i))) v _ _ fun w => Hw.t_congr (w.tabs_alarmLog t i d) _).trans hv
  rw [Hw.alarmActive, hlog]
  cases d <;> rfl

end

/-- Samples that all contradict an alarm at rest count up to its soak. -/
theorem Hw.soaking_iterate {h : Hw} {t i : Nat} {d : Bool} (ht : t < 25) (hup : h.alarmActive t i = !d) (hrest : h.soaked t i = 0) :
    ∀ n ≤ h.soakTime t (!d), (∀ k < n, ((fun x : Hw => x.alarmSample t i)^[k] h).defect t i = d) →
      let x := (fun x : Hw => x.alarmSample t i)^[n] h
      x.alarmActive t i = (!d) ∧ x.soaked t i = n ∧ x.soakTime t (!d) = h.soakTime t (!d) := by
  intro n
  induction n with
  | zero => exact fun _ _ => ⟨hup, hrest, rfl⟩
  | succ n ih =>
    intro hn hdef
    obtain ⟨hact, hcount, htime⟩ := ih (by omega) fun k hk => hdef k (by omega)
    rw [Function.iterate_succ_apply']
    intro x
    have hx : x = _ := Hw.alarmSample_within (hdef n (by omega)) hact (by omega)
    rw [hx]
    exact ⟨(Hw.alarmActive_sampled _ _ _ _ _).trans hact, (Hw.soaked_sampled _ _ _ _ _).trans (congrArg (· + 1) hcount),
      (Hw.soakTime_sampled _ ht _ _ _ _).trans htime⟩

end Sys2Proof.Machine

namespace Sys2Proof
open Machine

/-- Settles O20: the samples of the soak count, the one after it turns the alarm (log entry 65), and a sample that agrees puts
the count back. -/
theorem alarmsWaitForTheirSoak : Obligations.AlarmsWaitForTheirSoak := by
  intro t i h d hup hrest soak after
  have hsoak : soak = h.soakTime t (!d) := by cases d <;> rfl
  refine ⟨fun hdef => ⟨fun n hn => ?_, ?_⟩, fun g hagree => ?_⟩
  · exact (Hw.soaking_iterate t.isLt hup hrest n (hsoak ▸ hn) fun k hk => hdef k (by omega)).1
  · obtain ⟨hact, hcount, htime⟩ := Hw.soaking_iterate t.isLt hup hrest soak hsoak.le fun k hk => hdef k hk.le
    have hturn : after (soak + 1) = (after soak).alarmTurned t i d := by
      refine (Function.iterate_succ_apply' _ _ _).trans (Hw.alarmSample_past (hdef soak le_rfl) hact ?_)
      rw [hcount, htime, ← hsoak]
      exact Nat.lt_succ_self soak
    rw [hturn]
    exact Hw.alarmActive_alarmTurned _ _ _ _
  · rw [Hw.alarmSample_of_agrees hagree]
    exact Hw.soaked_sampled _ _ _ _ _

end Sys2Proof
end

section
/-!
SUPPORT. What an event touches: the words of the registers that it may change, with nothing waiting for the memory. One rule
per operation of the state; then the events of the trunk, the lanes, the local time and the external memory, and the
settlement of the statement about them.
-/
namespace Sys2Proof.Machine
open Claims

/-- `t` holds what `s` held in every register outside the PM block, those of `l` apart, and no further write waits for the
memory. -/
structure Hw.Touches (s t : Hw) (l : List Nat) : Prop where
  word : ∀ a, a < 0x9000000 → a ∉ l → t.word a = s.word a
  wlog : t.wlog = s.wlog

section
variable {s t u : Hw} {l : List Nat}

/-- What changes no register and stores nothing touches nothing. -/
theorem Hw.touches_of_eq (hregs : t.regs = s.regs) (hwlog : t.wlog = s.wlog) : s.Touches t l :=
  ⟨fun a _ _ => Hw.word_congr hregs a, hwlog⟩

theorem Hw.touches_self (s : Hw) : s.Touches s l := Hw.touches_of_eq rfl rfl

theorem Hw.Touches.trans (h : s.Touches t l) (h' : t.Touches u l) : s.Touches u l :=
  ⟨fun a ha hout => (h'.word a ha hout).trans (h.word a ha hout), h'.wlog.trans h.wlog⟩

theorem Hw.Touches.rd (h : s.Touches t l) {f : FRef} (hf : f.addr < 0x9000000) (hout : f.addr ∉ l) : t.rd f = s.rd f :=
  congrArg (getField · f.lo f.width) (h.word f.addr hf hout)

theorem Hw.Touches.wr (h : s.Touches t l) {f : FRef} (hf : f.addr ∈ l) (v : Nat) : s.Touches (t.wr f v) l :=
  h.trans ⟨fun a _ hout => (t.word_wr f v a).trans (if_neg fun (heq : a = f.addr) => hout (heq ▸ hf)), rfl⟩

theorem Hw.Touches.raise (h : s.Touches t l) {b : Nat} (hb : b ∈ l) (bit : Nat) : s.Touches (t.raise b bit) l :=
  h.trans ⟨fun a _ hout => (t.word_raise b bit a).trans (if_neg fun (heq : a = b) => hout (heq ▸ hb)), t.raise_wlog b bit⟩

theorem Hw.Touches.count (h : s.Touches t l) {f : FRef} (hf : f.addr ∈ l) (n : Nat) : s.Touches (t.count f n) l :=
  h.trans ⟨fun a _ hout => t.word_count_ne f n a fun heq => hout (heq ▸ hf), t.count_wlog f n⟩

/-- A change of what is no register and stores nothing. -/
theorem Hw.Touches.then (h : s.Touches t l) (hregs : u.regs = t.regs) (hwlog : u.wlog = t.wlog) : s.Touches u l :=
  h.trans (Hw.touches_of_eq hregs hwlog)

theorem Hw.Touches.onlyIf (h : s.Touches t l) {c : Prop} [Decidable c] {f : Hw → Hw} (hf : c → s.Touches t l → s.Touches (f t) l) :
    s.Touches (t.onlyIf c f) l := by
  unfold Hw.onlyIf
  split
  · next hc => exact hf hc h
  · exact h

theorem Hw.Touches.forAll {α : Type} {f : Hw → α → Hw} {xs : List α} (h : s.Touches t l)
    (hf : ∀ x ∈ xs, ∀ u, s.Touches u l → s.Touches (f u x) l) : s.Touches (t.forAll xs f) l := by
  induction xs generalizing t with
  | nil => exact h
  | cons x xs ih => exact ih (hf x (by simp) t h) fun y hy => hf y (by simp [hy])

end

section
variable {s t : Hw} {l : List Nat}

theorem Hw.Touches.laneSync (h : s.Touches t l) (k : Nat) : s.Touches (t.laneSync k) l := by
  unfold Hw.laneSync
  extract_lets v
  split
  · exact h
  · exact h.then rfl rfl

theorem Hw.Touches.lpiEnd (h : s.Touches t l) {k : Nat} (hk : SRD_LANE_STATUS.A k ∈ l) : s.Touches (t.lpiEnd k) l := by
  unfold Hw.lpiEnd
  split
  · exact h
  · exact ((h.wr hk 0).laneSync k).forAll fun p _ u hu => hu.onlyIf fun _ hu => hu.then rfl rfl

theorem Hw.Touches.timSource (h : s.Touches t l) (hst : TIM_STATUS.A ∈ l) (hinc : TIM_INC_FRAC.A ∈ l) (hev : 0x5000000 ∈ l) :
    s.Touches t.timSource l := by
  unfold Hw.timSource
  split
  · exact h
  · have hset := ((h.wr (f := TIM_STATUS.SRC_SYNC) hst (b2n t.srcSync)).wr (f := TIM_INC_FRAC.INC) hinc
      (if t.srcSync = true ∧ (t.wr TIM_STATUS.SRC_SYNC (b2n t.srcSync)).rd TIM_STATUS.STATE ≠ 2 then 0
        else (t.wr TIM_STATUS.SRC_SYNC (b2n t.srcSync)).tim.freqMem.getD 0))
    extract_lets ok s1 s2 off was now tim s3
    have hlocked : s.Touches s3 l := hset.then rfl rfl
    split
    · exact hlocked
    · exact (hlocked.wr hst _).raise hev _

/-- Outside Rest, with no change of state under way, a wake source does nothing. -/
theorem Hw.wakeFire_idle {src : Nat} (hbusy : s.rd PWR_STATE_STATUS.BUSY ≠ 1) (hrest : s.powerState ≠ 3) : s.wakeFire src = s := by
  have hstart : ¬ (s.powerState = 3 ∧ ¬ s.rd PWR_STATE_STATUS.BUSY = 1) := fun h => hrest h.1
  have habort : ¬ (s.rd PWR_STATE_STATUS.BUSY = 1 ∧ s.pwr.target = 3 ∧ s.pwr.todo ≠ [] ∧ src ≠ 0) := fun h => hbusy h.1
  unfold Hw.wakeFire
  simp only [if_neg hstart, if_neg habort, ite_self]

end

/-- A command whose row is an event that touches `l` alone leaves the rest alone, in the state that its step answers. -/
theorem State.keeps_of_touches {c : Instr} {f : Hw → Hw} {s t : State} {l : List Nat} (hexec : exec c s = s.on f) (hquiet : s.Quiet)
    (ht : exec c s = .next t) (htouch : s.hw.Touches (f s.hw) l) : s.KeepsMem t ∧ s.KeepsRegs t l := by
  obtain rfl := Host.Outcome.next.inj (hexec.symm.trans ht)
  refine ⟨fun a => ?_, fun a ha hout => (s.finish_word (f s.hw) a ha).trans (htouch.word a ha hout)⟩
  rw [s.finish_mem (f s.hw) (htouch.wlog.trans hquiet.1)]

/-- Where that holds in every state. -/
theorem leaves_of_touches {c : Instr} {f : Hw → Hw} {l : List Nat} (hexec : ∀ s, exec c s = s.on f) (htouch : ∀ s : Hw, s.Touches (f s) l) :
    Leaves c l :=
  fun s _ hquiet ht => State.keeps_of_touches (hexec s) hquiet ht (htouch s.hw)

section
variable (s : Hw)

theorem Hw.touches_moduleInserted (c : Nat) : s.Touches (s.moduleInserted c) [0x1000000 + c * 0x100000, TRK_PMA_STATUS.A c] := by
  unfold Hw.moduleInserted
  split
  · exact s.touches_self
  · exact (s.touches_self.wr (by simp) 0).raise (by simp) _

theorem Hw.touches_cdrUnlock (c : Nat) : s.Touches (s.cdrUnlock c) [0x1000000 + c * 0x100000, TRK_PMA_STATUS.A c] := by
  unfold Hw.cdrUnlock
  split
  · exact (s.touches_self.wr (by simp) 0).raise (by simp) _
  · exact s.touches_self

theorem Hw.touches_energy (k : Nat) : s.Touches (s.energy k) [SRD_LANE_STATUS.A k, 0x210000 + k * 0x10000] := by
  unfold Hw.energy
  split
  · exact (s.touches_self.wr (by simp) 1).raise (by simp) _
  · exact s.touches_self

/-- Outside Rest the energy that wakes nothing is all that the event shows. -/
theorem Hw.touches_energyDetect {k : Nat} (hk : k < 64) (hbusy : s.rd PWR_STATE_STATUS.BUSY ≠ 1) (hrest : s.powerState ≠ 3) :
    s.Touches ((s.energy k).onlyIf ((s.energy k).rd (SRD_LANE_STATUS.ENERGY k) = 1) (·.wakeFire 3))
      [SRD_LANE_STATUS.A k, 0x210000 + k * 0x10000] := by
  have henergy := s.touches_energy k
  have hpower : PWR_STATE_STATUS.A ∉ [SRD_LANE_STATUS.A k, 0x210000 + k * 0x10000] := by
    simp only [List.mem_cons, List.not_mem_nil, or_false, PWR_STATE_STATUS.A, SRD_LANE_STATUS.A]
    omega
  refine henergy.onlyIf fun _ _ => ?_
  rwa [Hw.wakeFire_idle (by rwa [henergy.rd (by decide) hpower]) (by rwa [Hw.powerState, henergy.rd (by decide) hpower])]

theorem Hw.touches_lpiRxChange (k : Nat) (v : Bool) :
    s.Touches (s.onlyIf (s.laneOn k = true) (fun s => s.wr (SRD_LANE_STATUS.LPI_RX k) (b2n v))) [SRD_LANE_STATUS.A k] :=
  s.touches_self.onlyIf fun _ h => h.wr (by simp) _

theorem Hw.touches_lpiSync (k : Nat) :
    s.Touches (s.lpiSync k) (SRD_LANE_STATUS.A k :: (lanePorts k).map (fun q => (SUB_PORT_CNT.COUNT q 9).addr)) := by
  unfold Hw.lpiSync
  split
  · exact s.touches_self.lpiEnd (by simp)
  split
  · refine ((s.touches_self.wr (by simp) 1).laneSync k).forAll fun q hq u hu => hu.count (List.mem_cons_of_mem _ ?_) _
    exact List.mem_map_of_mem (List.mem_of_mem_filter hq)
  · exact s.touches_self

theorem Hw.touches_wakeDone (p : Nat) :
    s.Touches ((s.modPort p (fun x => { x with waking := false })).lpiSync (p / 8))
      (SRD_LANE_STATUS.A (p / 8) :: (lanePorts (p / 8)).map (fun q => (SUB_PORT_CNT.COUNT q 9).addr)) :=
  have hwoken : s.Touches (s.modPort p (fun x => { x with waking := false })) _ := Hw.touches_of_eq rfl rfl
  hwoken.trans (Hw.touches_lpiSync _ _)

theorem Hw.touches_ppsBoundary : s.Touches s.ppsBoundary [] := by
  unfold Hw.ppsBoundary
  split
  · have hsecond : s.Touches { s with tim := { s.tim with pps := s.tim.now.sec } } [] := s.touches_self.then rfl rfl
    exact hsecond.onlyIf fun _ h => h.then rfl rfl
  · exact s.touches_self

theorem Hw.touches_pageCopied (r : Nat) :
    s.Touches (s.onlyIf (s.chState r = 2 ∧ (s.dramCh r).copied < s.sharedPages)
      (fun s => s.modDram r (fun d => { d with copied := d.copied + 1 }))) [] :=
  s.touches_self.onlyIf fun _ h => h.then rfl rfl

theorem Hw.touches_edgeCapture (i : Nat) (v : Bool) : s.Touches (s.edgeCapture i v) [TIM_CNT.A 6, TIM_CNT.A 7, 0x5000000] := by
  unfold Hw.edgeCapture
  split
  · exact s.touches_self
  have hlate : s.Touches (s.onlyIf (i = 4) (·.timCount 7)) [TIM_CNT.A 6, TIM_CNT.A 7, 0x5000000] :=
    s.touches_self.onlyIf fun _ h => h.count (by simp) 1
  extract_lets u xs e tim
  split
  · exact hlate.count (by simp) 1
  · have hjoined : s.Touches { u with tim := { tim with caps := tim.caps.set [] i (xs ++ [e]) } } [TIM_CNT.A 6, TIM_CNT.A 7, 0x5000000] :=
      hlate.then rfl rfl
    exact hjoined.raise (by simp) _

theorem Hw.touches_freqMeasured (v : Word) (o : Bool) : s.Touches (s.freqMeasured v o) [TIM_STATUS.A, TIM_INC_FRAC.A, 0x5000000] := by
  unfold Hw.freqMeasured
  split
  · have hkept : s.Touches { s with tim := { s.tim with freqMem := some v.toNat, offRate := o } }
        [TIM_STATUS.A, TIM_INC_FRAC.A, 0x5000000] := s.touches_self.then rfl rfl
    exact (hkept.wr (f := TIM_STATUS.FREQ_MEM_VALID) (by simp) 1).timSource (by simp) (by simp) (by simp)
  · exact s.touches_self

theorem Hw.touches_refreshAdjust (r k : Nat) : s.Touches (s.refreshAdjust r k) [GRN_DRAM_CLAMP_COUNT.A, GRN_DRAM_CH_STATUS.A r] := by
  unfold Hw.refreshAdjust
  extract_lets into cur aim
  split
  · exact (s.touches_self.onlyIf fun _ h => h.count (by simp) 1).wr (by simp) _
  · exact s.touches_self

end

end Sys2Proof.Machine

namespace Sys2Proof
open Machine

/-- Settles O23: event by event, from what it touches. -/
theorem lineEventsLeaveTheRestAlone : Obligations.LineEventsLeaveTheRestAlone := by
  refine ⟨fun c => ?_, fun c => ?_, fun l v => ?_, fun l s t hquiet hrest hbusy ht => ?_, fun p => ?_, ?_, fun r => ?_, fun i v => ?_,
    fun v o => ?_, fun r v => ?_⟩
  · exact leaves_of_touches (fun _ => rfl) fun h => h.touches_moduleInserted c
  · exact leaves_of_touches (fun _ => rfl) fun h => h.touches_cdrUnlock c
  · exact leaves_of_touches (fun _ => rfl) fun h => h.touches_lpiRxChange l v
  · exact State.keeps_of_touches (f := fun h => (h.energy l).onlyIf ((h.energy l).rd (SRD_LANE_STATUS.ENERGY l) = 1) (·.wakeFire 3)) rfl
      hquiet ht (s.hw.touches_energyDetect l.isLt hbusy hrest)
  · exact leaves_of_touches (fun _ => rfl) fun h => h.touches_wakeDone p
  · exact leaves_of_touches (fun _ => rfl) Hw.touches_ppsBoundary
  · exact leaves_of_touches (fun _ => rfl) fun h => h.touches_pageCopied r
  · exact leaves_of_touches (fun _ => rfl) fun h => h.touches_edgeCapture i v
  · exact leaves_of_touches (fun _ => rfl) fun h => h.touches_freqMeasured v o
  · exact leaves_of_touches (fun _ => rfl) fun h => h.touches_refreshAdjust r v

end Sys2Proof
end

section
/-!
SUPPORT. What the events of the control complex, Husk, the ciphers, power, the pins and the twin link touch, and the
settlement of the statement about them.
-/
namespace Sys2Proof.Machine
open Claims

section
variable {s t : Hw} {l : List Nat}

theorem Hw.Touches.msix (h : s.Touches t l) (v : Nat) : s.Touches (t.msix v) l := by
  obtain ⟨p, o, heq⟩ := t.msix_rest v
  rw [heq]
  exact h.then rfl rfl

theorem Hw.Touches.ts (h : s.Touches t l) (r : TRef) (v : Nat) : s.Touches (t.ts r v) l :=
  h.then (t.ts_regs r v) (t.ts_wlog r v)

theorem Hw.Touches.cutBurst (h : s.Touches t l) (c : Nat) : s.Touches (t.cutBurst c) l := by
  have hcut : s.Touches (t.onlyIf ((t.act c).bursts.any (fun b => b.launched) = true) (fun s => s.emit (.burstCut c))) l :=
    h.onlyIf fun _ h => h.then rfl rfl
  exact hcut.then rfl rfl

theorem Hw.Touches.twinLaneSync (h : s.Touches t l) : s.Touches t.twinLaneSync l := by
  unfold Hw.twinLaneSync
  exact h.forAll fun i _ _ hu => hu.laneSync (64 + i)

end

section
variable (s : Hw)

theorem Hw.touches_wdogWarn (n : Nat) :
    s.Touches ((s.wdogHalted n).onlyIf ((s.wdogHalted n).wdogPast 75 = true) (fun s => s.ctlRaise EV_CTL.WDOG_WARN)) [0x7000000] := by
  have hhalted : s.Touches (s.wdogHalted n) [0x7000000] := Hw.touches_of_eq rfl rfl
  exact hhalted.onlyIf fun _ h => h.raise (by simp) _

/-- Outside Rest, with no change of state under way, the pin that wakes nothing is all that shows. -/
theorem Hw.touches_gpioChange (j : Nat) (v : Bool) (hbusy : s.rd PWR_STATE_STATUS.BUSY ≠ 1) (hrest : s.powerState ≠ 3) :
    s.Touches (s.gpioChange j v) [GLB_GPIO_IN.A, 0] := by
  unfold Hw.gpioChange
  extract_lets was s1 s2
  have hseen : s.Touches s2 [GLB_GPIO_IN.A, 0] := (s.touches_self.wr (by simp) _).onlyIf fun _ h => h.raise (by simp) _
  rwa [Hw.wakeFire_idle (by rwa [hseen.rd (by decide) (by decide)]) (by rwa [Hw.powerState, hseen.rd (by decide) (by decide)])]

theorem Hw.touches_avsOff : s.Touches s.avsOff [PWR_AVS_STATUS.A] :=
  s.touches_self.onlyIf fun _ h => ((h.wr (by simp) 40).wr (by simp) 0).then rfl rfl

theorem Hw.pwr_avsOff : s.avsOff.pwr.todo = s.pwr.todo ∧ s.avsOff.pwr.trimDue = s.pwr.trimDue := by
  unfold Hw.avsOff Hw.onlyIf
  split <;> exact ⟨rfl, rfl⟩

theorem Hw.touches_aonArrive : s.Touches s.aonArrive [PWR_AVS_STATUS.A] := by
  unfold Hw.aonArrive
  split
  · exact s.touches_self
  · next w ws _ =>
    have harrived : s.Touches { s with aon := { s.aon with writes := ws, arrived := s.aon.arrived.set (resetWord w.1) w.1 w.2 } }
      [PWR_AVS_STATUS.A] := s.touches_self.then rfl rfl
    exact harrived.onlyIf fun _ h => h.trans (Hw.touches_avsOff _)

theorem Hw.pwr_aonArrive : s.aonArrive.pwr.todo = s.pwr.todo ∧ s.aonArrive.pwr.trimDue = s.pwr.trimDue := by
  unfold Hw.aonArrive
  split
  · exact ⟨rfl, rfl⟩
  · unfold Hw.onlyIf
    split
    · exact Hw.pwr_avsOff _
    · exact ⟨rfl, rfl⟩

/-- With no change of state under way or due, the power controller's watch changes no register. -/
theorem Hw.touches_powerWatch (hbusy : s.rd PWR_STATE_STATUS.BUSY ≠ 1) (hrest : s.powerState ≠ 3) (htodo : s.pwr.todo = [])
    (htrim : s.pwr.trimDue = []) (l : List Nat) : s.Touches s.powerWatch l := by
  unfold Hw.powerWatch
  extract_lets u v
  have hwatch : u.regs = s.regs ∧ u.wlog = s.wlog ∧ u.pwr.todo = [] ∧ u.pwr.trimDue = [] := by
    unfold u Hw.onlyIf
    split
    · exact ⟨rfl, rfl, htodo, htrim⟩
    · exact ⟨rfl, rfl, htodo, htrim⟩
  obtain ⟨hregs, hwlog, htodo, htrim⟩ := hwatch
  have hidle (src : Nat) : u.wakeFire src = u :=
    Hw.wakeFire_idle (by rwa [Hw.rd_congr hregs]) (by rwa [Hw.powerState, Hw.rd_congr hregs])
  have hv : v = u := by
    unfold v Hw.trimLate
    rw [hidle, hidle, if_pos (.inl htrim)]
  rw [hv, htodo]
  exact Hw.touches_of_eq hregs hwlog

theorem Hw.touches_aonWriteArrive (hbusy : s.rd PWR_STATE_STATUS.BUSY ≠ 1) (hrest : s.powerState ≠ 3) (htodo : s.pwr.todo = [])
    (htrim : s.pwr.trimDue = []) : s.Touches s.aonArrive.powerWatch [PWR_AVS_STATUS.A] := by
  have harrive := s.touches_aonArrive
  obtain ⟨htodo', htrim'⟩ := s.pwr_aonArrive
  have hstate (f : FRef) (hf : f.addr = PWR_STATE_STATUS.A) : s.aonArrive.rd f = s.rd f :=
    harrive.rd (by rw [hf]; decide) (by rw [hf]; decide)
  exact harrive.trans (Hw.touches_powerWatch _ (by rwa [hstate _ rfl]) (by rwa [Hw.powerState, hstate _ rfl]) (htodo'.trans htodo)
    (htrim'.trans htrim) _)

theorem Hw.Touches.crossCut {s t : Hw} {l : List Nat} (h : s.Touches t l) (b : Blk) : s.Touches (t.crossCut b).1 l := by
  cases b with
  | trk c =>
    dsimp only [Hw.crossCut]
    split
    · exact h
    · exact (h.cutBurst c).then rfl rfl
  | sub p =>
    dsimp only [Hw.crossCut]
    split
    · exact h.then rfl rfl
    · exact h
  | lane k => exact h.forAll fun _ _ _ hu => hu.then rfl rfl
  | _ => exact h

theorem Hw.touches_crossing (b : Blk) (v : Bool) :
    s.Touches (s.onlyIf (s.domOff b.base = false) (fun s => s.crossError b v)) [b.base] :=
  s.touches_self.onlyIf fun _ h => ((h.raise (by simp) EV.CDC_ERR).crossCut b).then rfl rfl

theorem Hw.touches_svnBlow (n : Nat) : s.Touches (s.svnBlow n) [HSK_STATUS.A] := by
  unfold Hw.svnBlow
  extract_lets k
  split
  · exact s.touches_self
  · have hblown : s.Touches (s.modHsk (fun h => { h with svnLeft := h.svnLeft - k, fuses := { h.fuses with svn := h.fuses.svn + k } }))
      [HSK_STATUS.A] := s.touches_self.then rfl rfl
    exact ((hblown.wr (by simp) _).wr (by simp) _).wr (by simp) _

theorem Hw.Touches.mono {s t : Hw} {l l' : List Nat} (h : s.Touches t l) (hl : l ⊆ l') : s.Touches t l' :=
  ⟨fun a ha hout => h.word a ha fun hin => hout (hl hin), h.wlog⟩

theorem Hw.touches_hskDone : s.Touches s.hskDone [HSK_CMD.A, HSK_STATUS.A, 0x7800000] := by
  unfold Hw.hskDone
  split
  · exact s.touches_self
  · have hblown : s.Touches ((s.svnBlow s.hsk.svnLeft).modHsk (fun h => { h with cmd := none })) [HSK_CMD.A, HSK_STATUS.A, 0x7800000] :=
      ((s.touches_svnBlow _).mono (by simp)).then rfl rfl
    exact ((hblown.wr (by simp) _).wr (by simp) _).raise (by simp) _

theorem Hw.touches_zeroiseDone : s.Touches s.zeroiseDone [0x8000000] := by
  unfold Hw.zeroiseDone
  split
  · have hended : s.Touches { s with cip := { s.cip with zeroising := false } } [0x8000000] := s.touches_self.then rfl rfl
    exact hended.raise (by simp) _
  · exact s.touches_self

theorem Hw.touches_ringInt (d r : Nat) : s.Touches (s.ringInt d r) [] := by
  have hlevel : s.Touches (s.modRing d r (fun _ => { acc := 0, level := true })) [] := s.touches_self.then rfl rfl
  exact hlevel.onlyIf (f := fun s => s.msix (s.capRd (RING_INT.VEC d r))) fun _ h => h.msix _

theorem Hw.touches_ringIntTimer (d r : Nat) :
    s.Touches (s.onlyIf ((s.ring d r).acc ≠ 0 ∧ s.rd (RING_INT.INT_USEC d r) ≠ 0) (fun s => s.ringInt d r)) [] :=
  s.touches_self.onlyIf fun _ _ => s.touches_ringInt d r

theorem Hw.touches_twinIdleEntry :
    s.Touches (s.onlyIf (s.rd TWN_CTRL.IDLE_EN = 1 ∧ s.linkUp = true ∧ s.twinQuiet = true)
      (fun s => ({ s with twn := { s.twn with idle := true } }).twinLaneSync)) [] := by
  have hidle : s.Touches { s with twn := { s.twn with idle := true } } [] := s.touches_self.then rfl rfl
  exact s.touches_self.onlyIf fun _ _ => hidle.twinLaneSync

theorem Hw.Touches.modObj {s t : Hw} {l : List Nat} (h : s.Touches t l) (o : Nat) (f : PmObj → PmObj) : s.Touches (t.modObj o f) l :=
  h.then rfl rfl

theorem Hw.touches_windowEnd (o : Nat) (v : Bool) : s.Touches (s.windowEnd o v) [] := by
  unfold Hw.windowEnd
  split
  · exact s.touches_self
  extract_lets x t s1 s2 s3
  have hshown : s.Touches s3 [] := ((((((s.touches_self.ts _ _).ts _ _).ts _ _).ts _ _).ts _ _).ts _ _).ts _ _
  exact hshown.modObj _ _

theorem Hw.touches_setUart (tx rx wait : Bytes) : s.Touches (s.setUart tx rx wait) [CTL_UART_STATUS.A] := by
  have hqueues : s.Touches { s with ctl := { s.ctl with uartTx := tx, uartRx := rx, uartWait := wait } } [CTL_UART_STATUS.A] :=
    s.touches_self.then rfl rfl
  exact (hqueues.wr (by simp) _).wr (by simp) _

theorem Hw.touches_uartRx (b : Byte) (v : Bool) : s.Touches (s.uartRx b v) [CTL_UART_STATUS.A] := by
  unfold Hw.uartRx
  split
  · exact s.touches_self
  split
  · exact s.touches_self.wr (by simp) 1
  split
  · exact s.touches_self.wr (by simp) 1
  · exact s.touches_setUart _ _ _

theorem Hw.touches_uartSent : s.Touches s.uartSent [CTL_UART_STATUS.A] := by
  unfold Hw.uartSent
  split
  · exact s.touches_self
  split
  · exact s.touches_self
  · exact (s.touches_setUart _ _ _).then rfl rfl

theorem Hw.touches_drained :
    s.Touches (s.onlyIf (s.rd THR_EPOCH_STATUS.SWAP_COMPLETE = 0 ∧ s.inFlight (s.rd THR_EPOCH_STATUS.OLD_EPOCH) = 0)
      (fun s => (s.wr THR_EPOCH_STATUS.SWAP_COMPLETE 1).thrRaise EV_THR.EPOCH_DONE)) [THR_EPOCH_STATUS.A, 0x2000000] :=
  s.touches_self.onlyIf fun _ h => (h.wr (by simp) 1).raise (by simp) _

theorem Hw.touches_ctxDone : s.Touches s.ctxDone [THR_CTX_STATUS.A, 0x2000000] := by
  unfold Hw.ctxDone
  split
  · exact s.touches_self
  · have hended : s.Touches { s with thr := { s.thr with ctxCmd := none } } [THR_CTX_STATUS.A, 0x2000000] := s.touches_self.then rfl rfl
    exact ((hended.wr (by simp) _).wr (by simp) _).raise (by simp) _

theorem Hw.touches_avsStep (v : Nat) :
    s.Touches (s.avsStep v) [PWR_AVS_STATUS.A, PWR_SAFETY_CNT.A, PWR_AVS_CLAMP_COUNT.A, 0x100000] := by
  unfold Hw.avsStep
  split
  · exact s.touches_avsOff.mono (by simp)
  extract_lets lo hi cur was s1 s2 s3 s4 want goal s5
  have hshown : s.Touches s1 [PWR_AVS_STATUS.A, PWR_SAFETY_CNT.A, PWR_AVS_CLAMP_COUNT.A, 0x100000] := s.touches_self.wr (by simp) v
  split
  · have hover : s.Touches s2 [PWR_AVS_STATUS.A, PWR_SAFETY_CNT.A, PWR_AVS_CLAMP_COUNT.A, 0x100000] :=
      ((hshown.wr (by simp) v).wr (by simp) 1).then rfl rfl
    split
    · exact hover
    · exact (hover.count (by simp) 1).raise (by simp) _
  · have hsafe : s.Touches s3 [PWR_AVS_STATUS.A, PWR_SAFETY_CNT.A, PWR_AVS_CLAMP_COUNT.A, 0x100000] := hshown.wr (by simp) 0
    split
    · exact hsafe.wr (by simp) _
    · have hkept : s.Touches s4 [PWR_AVS_STATUS.A, PWR_SAFETY_CNT.A, PWR_AVS_CLAMP_COUNT.A, 0x100000] := hsafe.then rfl rfl
      exact (hkept.onlyIf fun _ h => h.count (by simp) 1).wr (by simp) _

theorem Hw.touches_retrain :
    s.Touches (s.onlyIf (s.st .twinLink = 2 ∧ s.rd TWN_STATUS.LINK_STATE = 0) (fun s => (s.wr TWN_STATUS.LINK_STATE 1).twinLaneSync))
      [TWN_STATUS.A] := by
  have htrain : s.Touches (s.wr TWN_STATUS.LINK_STATE 1) [TWN_STATUS.A] := s.touches_self.wr (by simp) 1
  exact s.touches_self.onlyIf fun _ _ => htrain.twinLaneSync

theorem Hw.touches_rngHealthFail :
    s.Touches ((s.wr HSK_STATUS.RNG_OK 0).hskRaise EV_HSK.RNG_FAIL) [HSK_STATUS.A, 0x7800000] :=
  (s.touches_self.wr (by simp) 0).raise (by simp) _

theorem Hw.touches_rngRecover : s.Touches (s.wr HSK_STATUS.RNG_OK 1) [HSK_STATUS.A] := s.touches_self.wr (by simp) 1

end

end Sys2Proof.Machine

namespace Sys2Proof
open Machine

/-- Settles O24: event by event, from what it touches. -/
theorem controlEventsLeaveTheRestAlone : Obligations.ControlEventsLeaveTheRestAlone := by
  refine ⟨fun n => ?_, fun j v s t hquiet hrest hbusy ht => ?_, fun s t hquiet hrest hbusy htodo htrim ht => ?_, fun b v => ?_, ?_, ?_, ?_,
    ?_, fun d r => ?_, ?_, fun o => ?_, fun b v => ?_, ?_, ?_, ?_, fun v => ?_, ?_⟩
  · exact leaves_of_touches (fun _ => rfl) fun h => h.touches_wdogWarn n
  · exact State.keeps_of_touches (f := (·.gpioChange j v)) rfl hquiet ht (s.hw.touches_gpioChange j v hbusy hrest)
  · exact State.keeps_of_touches (f := (·.aonArrive.powerWatch)) rfl hquiet ht (s.hw.touches_aonWriteArrive hbusy hrest htodo htrim)
  · exact leaves_of_touches (fun _ => rfl) fun h => h.touches_crossing b v
  · exact leaves_of_touches (fun _ => rfl) Hw.touches_rngHealthFail
  · exact leaves_of_touches (fun _ => rfl) Hw.touches_rngRecover
  · exact leaves_of_touches (fun _ => rfl) Hw.touches_hskDone
  · exact leaves_of_touches (fun _ => rfl) Hw.touches_zeroiseDone
  · exact leaves_of_touches (fun _ => rfl) fun h => h.touches_ringIntTimer d r
  · exact leaves_of_touches (fun _ => rfl) Hw.touches_twinIdleEntry
  · exact leaves_of_touches (fun _ => rfl) fun h => h.touches_windowEnd o false
  · exact leaves_of_touches (fun _ => rfl) fun h => h.touches_uartRx b v
  · exact leaves_of_touches (fun _ => rfl) Hw.touches_uartSent
  · exact leaves_of_touches (fun _ => rfl) Hw.touches_drained
  · exact leaves_of_touches (fun _ => rfl) Hw.touches_ctxDone
  · exact leaves_of_touches (fun _ => rfl) fun h => h.touches_avsStep v
  · exact leaves_of_touches (fun _ => rfl) Hw.touches_retrain

end Sys2Proof
end

section
/-!
SUPPORT. How a command completes: the step's answer, from what its row makes of the logic. A row that is an event works on
the logic alone or with the external memory; a row that is a register access works on the state that the access reaches.
-/
namespace Sys2Proof.Machine

section
variable {s : State} {g : Hw}

/-- A row of the logic. -/
theorem next_on {f : Hw → Hw} (hrow : f s.hw = g) : s.on f = .next (s.finish g) :=
  congrArg (fun h => Host.Outcome.next (s.finish h)) hrow

/-- A row that reads the external memory too. -/
theorem next_onMem {f : List Host.Cell → Hw → Hw} (hrow : f s.mem s.hw = g) : s.onMem f = .next (s.finish g) :=
  congrArg (fun h => Host.Outcome.next (s.finish h)) hrow

variable {m : Master} {a : Nat} {w : Bool}

/-- A row that is a register access, admitted. -/
theorem next_onAccess {f : Hw → Hw} (hadm : s.hw.admits m a w) (hrow : f (s.hw.reached m a) = g) :
    s.on (fun h => h.onAccess m a w f) = .next (s.finish g) :=
  next_on ((Hw.onAccess_admits hadm f).trans hrow)

/-- Such a row that reads the external memory too. -/
theorem next_onMemAccess {f : List Host.Cell → Hw → Hw} (hadm : s.hw.admits m a w) (hrow : f s.mem (s.hw.reached m a) = g) :
    s.onMem (fun mem h => h.onAccess m a w (f mem)) = .next (s.finish g) :=
  next_onMem ((Hw.onAccess_admits hadm (f s.mem)).trans hrow)

end

end Sys2Proof.Machine
end

section
/-!
SUPPORT. Where the commands of alarms, masks, the event log, histories, bandwidth windows and the console complete, and the
settlement of the statement about them.
-/
namespace Sys2Proof.Machine

theorem alarmSample_completes : Claims.alarmSample := fun _ hdomRuns =>
  next_on (if_pos hdomRuns)

theorem alarmMaskWrite_completes : Claims.alarmMaskWrite := fun _ _ _ _ _ hadm =>
  next_onAccess hadm rfl

theorem alarmMaskWrite_type_completes : Claims.alarmMaskWrite_type := fun _ _ _ _ _ hadm =>
  next_onAccess hadm rfl

theorem logPop_completes : Claims.logPop := fun _ _ _ hadm hfield =>
  next_onAccess hadm (if_pos hfield)

theorem historyWriteDone_completes : Claims.historyWriteDone := fun lost _ s hclose15 =>
  show execHistoryWriteDone false lost s = _ from
    next_on (by simp [Hw.historyDone, hclose15])

theorem historyWriteDone_daily_completes : Claims.historyWriteDone_daily := fun lost _ s hclose24 =>
  show execHistoryWriteDone true lost s = _ from
    next_on (by simp [Hw.historyDone, hclose24])

theorem bwWindowEnd_completes : Claims.bwWindowEnd := fun o s hwinEn =>
  show execBwWindowEnd o s = _ from next_on (if_neg hwinEn)

theorem uartDataWrite_completes : Claims.uartDataWrite := fun _ _ _ hadm hhandoff huartTx huartWait =>
  next_onAccess hadm (by simp [Hw.uartWrite, hhandoff, huartTx, huartWait])

theorem uartDataRead_completes : Claims.uartDataRead := fun _ _ _ _ hadm huartRx =>
  next_onAccess hadm (by simp [Hw.uartRead, huartRx])

theorem uartDataRead_empty_completes : Claims.uartDataRead_empty := fun _ _ hadm huartRx =>
  next_onAccess hadm (by simp [Hw.uartRead, huartRx])

theorem uartByteRx_completes : Claims.uartByteRx := fun b frameErr s huartOn hframeErr huartRx =>
  show execUartByteRx b frameErr s = _ from
    next_on (by simp [Hw.uartRx, huartOn, hframeErr, huartRx])

theorem uartByteRx_full_completes : Claims.uartByteRx_full := fun b frameErr s huartOn hframeErr huartRx =>
  show execUartByteRx b frameErr s = _ from
    next_on (by simp [Hw.uartRx, huartOn, hframeErr, huartRx])

theorem uartByteSent_completes : Claims.uartByteSent := fun _ _ _ huartOn huartTx =>
  next_on (by simp [Hw.uartSent, huartOn, huartTx])

end Sys2Proof.Machine

namespace Sys2Proof
open Machine

/-- Settles O25: each row, under its conditions, has the effect named. -/
theorem alarmAndBinCommandsComplete : Obligations.AlarmAndBinCommandsComplete :=
  ⟨alarmSample_completes, alarmMaskWrite_completes, alarmMaskWrite_type_completes, logPop_completes, historyWriteDone_completes,
    historyWriteDone_daily_completes, bwWindowEnd_completes, uartDataWrite_completes, uartDataRead_completes,
    uartDataRead_empty_completes, uartByteRx_completes, uartByteRx_full_completes, uartByteSent_completes⟩

end Sys2Proof
end

section
/-!
SUPPORT. Where the commands of image verification, start-up records, hand-off and image loading complete, and the settlement
of the statement about them.
-/
namespace Sys2Proof.Machine

theorem imageVerifyDone_completes : Claims.imageVerifyDone := fun slotA slotB readErr flash s hbooting hload => by
  have hready : ¬ (!s.hw.booting .boot || (decide (2 ≤ s.hw.bootPath) && s.hw.hsk.load.isNone)) = true := by
    simp only [hbooting, Bool.not_true, Bool.false_or, Bool.and_eq_true, decide_eq_true_eq, not_and, Bool.not_eq_true]
    intro hpath
    rw [← Option.not_isSome, hload hpath]
    rfl
  show execImageVerifyDone slotA slotB readErr s flash = _
  exact next_on (if_neg hready)

theorem recordWrite_completes : Claims.recordWrite := fun s hbooting hnext hop hmask haccess => by
  have hrow : s.hw.recordWrite s.mem s.hw.hsk.next =
      ((s.hw.settle (s.hw.recWord s.hw.hsk.next 1)).writeAll s.mem .husk (s.hw.recWord s.hw.hsk.next 1)
        (BitVec.ofNat 32 (s.hw.recWord s.hw.hsk.next 3))).recordDone := by
    have hwhole : BitVec.ofNat 32 (s.hw.recWord s.hw.hsk.next 2) = 0xFFFFFFFF#32 := BitVec.eq_of_toNat_eq hmask
    simp [Hw.recordWrite, hwhole, haccess]
  show execRecordWrite s = _
  exact next_onMem (by simp [Hw.onRecord, hbooting, hnext, hop, hrow])

theorem recordWait_completes : Claims.recordWait := fun s happly himage himage' hrecWord =>
  show execRecordWait s = _ from
    next_onMem (by simp [Hw.onRecord, Hw.recordPoll, happly, himage, himage', hrecWord])

theorem recordWaitDone_completes : Claims.recordWaitDone := fun _ happly himage himage' hwait =>
  next_on (by simp [happly, himage, himage', hwait])

theorem recordWaitDone_timeout_completes : Claims.recordWaitDone_timeout := fun _ happly himage himage' hwait =>
  next_on (by simp [happly, himage, himage', hwait])

theorem recordDelay_completes : Claims.recordDelay := fun _ happly himage himage' =>
  next_on (by simp [happly, himage, himage'])

theorem recordTable_completes : Claims.recordTable := fun _ _ happly himage himage' hhusk hgateRegBase hrecWord =>
  next_on (by simp [Hw.recordTable, happly, himage, himage', hhusk, hgateRegBase, hrecWord])

theorem recordSections_completes : Claims.recordSections := fun _ happly himage himage' =>
  next_on (by simp [happly, himage, himage'])

theorem handoff_completes : Claims.handoff := fun s hbooting hnext hrunsNewer => by
  show execHandoff s = _
  exact next_on (by simp [Hw.handoff, Hw.onlyIf, Hw.modHsk, hbooting, hnext, hrunsNewer])

theorem handoff_newer_completes : Claims.handoff_newer := fun s hbooting hnext hrunsNewer hfirst hgen => by
  show execHandoff s = _
  exact next_on (by simp [Hw.handoff, Hw.onlyIf, Hw.modHsk, hbooting, hnext, hrunsNewer, hfirst, hgen, b2n])

theorem confirm_completes : Claims.confirm := fun _ _ _ hadm hfield hhandoff =>
  next_onAccess hadm (by simp [Hw.confirm, Hw.onlyIf, hfield, hhandoff])

theorem pcieLoadWord_completes : Claims.pcieLoadWord := fun v s hhost hhostLoad hload hboot =>
  show execPcieLoadWord v s = _ from
    next_on (by simp [Hw.hostLoadWord, hhost, hhostLoad, hload, hboot])

theorem xmodemBlockRx_completes : Claims.xmodemBlockRx := fun bs s hrecovering hlen hfirst hnum hcrc hnext => by
  have hstart {c : Byte} (hc : c.toNat ≠ 2) : bs.head? ≠ some c := by
    intro hhead
    rw [List.head?_eq_getElem?] at hhead
    exact hc (by simpa [byteAt, List.getD_eq_getElem?_getD, hhead] using hfirst)
  have hgood : ¬ (bs.length ≠ 1029 ∨ byteAt bs 0 ≠ 2 ∨ byteAt bs 1 + byteAt bs 2 ≠ 255 ∨
      crc16 ((bs.drop 3).take 1024) ≠ beAt bs 1027 2) := by
    simp [hlen, hfirst, hnum, hcrc]
  show execXmodemBlockRx bs s = _
  exact next_on ((if_neg (by simp [hrecovering])).trans ((if_neg (hstart (by decide))).trans
    ((if_neg (hstart (by decide))).trans ((if_neg hgood).trans (if_pos hnext)))))

theorem xmodemBlockRx_end_completes : Claims.xmodemBlockRx_end := fun bs s hrecovering hhead =>
  show execXmodemBlockRx bs s = _ from
    next_on (by simp [Hw.xmodemRx, hrecovering, hhead])

theorem recoveryTimeout_completes : Claims.recoveryTimeout := fun _ hrecovering =>
  next_on (if_pos hrecovering)

end Sys2Proof.Machine

namespace Sys2Proof
open Machine

/-- Settles O26: each row, under its conditions, has the effect named. -/
theorem startUpCommandsComplete : Obligations.StartUpCommandsComplete :=
  ⟨imageVerifyDone_completes, recordWrite_completes, recordWait_completes, recordWaitDone_completes,
    recordWaitDone_timeout_completes, recordDelay_completes, recordTable_completes, recordSections_completes, handoff_completes,
    handoff_newer_completes, confirm_completes, pcieLoadWord_completes, xmodemBlockRx_completes, xmodemBlockRx_end_completes,
    recoveryTimeout_completes⟩

end Sys2Proof
end

section
/-!
SUPPORT. Where the commands of activation, ranging timers, PLOAM transmission and burst assembly complete, and the settlement
of the statement about them.
-/
namespace Sys2Proof.Machine

section
variable {s : Hw} {c : Nat} {u : Burst} (hfront : (s.act c).bursts.find? (fun x => !x.staged) = some u)
  (hon : s.trkOn c = true) (hlods : s.rd (TRK_DLN_STATUS.LODS c) ≠ 1) (hforced : s.txdisForced c = false)
  (hdark : s.txdisState c = false) (hsends : s.stateSends c u.kind = true) (hwindow : s.windowTooLong c u.tenthPs = false)
include hfront hon hlods hforced hdark hsends hwindow

/-- The cutoff of a ranging response with a message queued stages it, and the message leaves its queue (R136). -/
theorem Hw.cutoff_ranging {msg : Bytes} {t : List Bytes} (hkind : u.kind = .ranging) (hqueue : (s.act c).ploamTx = msg :: t) :
    s.cutoff c = (s.setUnstaged c
      { u with staged := true, cur := u.grants.length, items := s.burstHead c u ++ [.ploam msg] }).popPloamTx c := by
  simp only [Hw.cutoff, hfront]
  rw [if_neg (by simp [hon, hlods]), if_neg (by simp [hforced]), if_neg (by simp [hdark, hsends]), if_neg (by simp [hwindow])]
  simp only [hkind, hqueue]

/-- The cutoff of a data burst closes its grants and stages it (R143, R144). -/
theorem Hw.cutoff_data {items : List BurstItem} {r : Hw × List Grant} (hkind : u.kind = .data)
    (hitems : s.burstHead c u ++ (if u.grants.head?.any (fun g => g.ploamu) then
      [BurstItem.ploam ((s.act c).ploamTx.headD [])] else []) = items)
    (hr : s.closeGrants c (s.respace c u u.grants) = r) : s.cutoff c =
    (if u.grants.head?.any (fun g => g.ploamu) then
      (r.1.setUnstaged c { u with staged := true, fec := s.burstFec c u, items := items, grants := r.2 }).popPloamTx c
    else r.1.setUnstaged c { u with staged := true, fec := s.burstFec c u, items := items, grants := r.2 }) := by
  simp only [Hw.cutoff, hfront]
  rw [if_neg (by simp [hon, hlods]), if_neg (by simp [hforced]), if_neg (by simp [hdark, hsends]), if_neg (by simp [hwindow])]
  simp only [hkind, hitems, hr]

end

theorem enterO4_completes : Claims.enterO4 := fun _ _ _ _ hadm htrkOn hactState honuIdValid =>
  next_onAccess hadm (by simp [Hw.actCmd, Hw.enterO4, htrkOn, hactState, honuIdValid])

theorem enterO4_reject_completes : Claims.enterO4_reject := fun _ _ _ _ _ hadm hreject =>
  next_onAccess hadm (if_neg (by simpa [and_assoc] using hreject))

theorem enterO5_completes : Claims.enterO5 := fun _ _ _ _ hadm htrkOn hactState heqdValid =>
  next_onAccess hadm (by simp [Hw.actCmd, Hw.enterO5, htrkOn, hactState, heqdValid])

theorem enterO5_reject_completes : Claims.enterO5_reject := fun _ _ _ _ _ hadm hreject =>
  next_onAccess hadm (if_neg (by simpa [and_assoc] using hreject))

theorem deactivate_completes : Claims.deactivate := fun _ _ _ _ hadm htrkOn hactState hactState' =>
  next_onAccess hadm (by simp [Hw.actCmd, Hw.deactivate, htrkOn, hactState, hactState'])

theorem deactivate_reject_completes : Claims.deactivate_reject := fun _ _ _ _ _ hadm hreject =>
  next_onAccess hadm (if_neg (by simpa [and_assoc] using hreject))

theorem restart_completes : Claims.restart := fun _ _ _ _ hadm htrkOn hactState =>
  next_onAccess hadm (by simp [Hw.actCmd, Hw.restart, htrkOn, hactState])

theorem restart_reject_completes : Claims.restart_reject := fun _ _ _ _ _ hadm hreject =>
  next_onAccess hadm (if_neg (by simpa [and_assoc] using hreject))

theorem serialNumberAdvance_completes : Claims.serialNumberAdvance := fun _ _ htrkOn hactState hsnEn htestHold hprofileValid =>
  next_on (if_pos ⟨htrkOn, hactState, hsnEn, htestHold, hprofileValid⟩)

theorem to1Expire_completes : Claims.to1Expire := fun _ _ htrkOn hactState hto1Run =>
  next_on (if_pos ⟨htrkOn, hactState, hto1Run⟩)

theorem to2Expire_completes : Claims.to2Expire := fun _ _ htrkOn hactState hto2Run =>
  next_on (if_pos ⟨htrkOn, hactState, hto2Run⟩)

theorem ploamPush_completes : Claims.ploamPush := fun _ _ _ _ hadm hfield hploamTx =>
  next_onAccess hadm (by simp [Hw.ploamPush, hfield, hploamTx])

theorem ploamPush_full_completes : Claims.ploamPush_full := fun _ _ _ _ hadm hfield hploamTx =>
  next_onAccess hadm (by simp [Hw.ploamPush, hfield, hploamTx])

theorem assemblyCutoff_ranging_completes : Claims.assemblyCutoff_ranging :=
  fun c _ _ _ s hfront hon hlods hforced hdark hsends hwindow hkind hqueue =>
  show execAssemblyCutoff c s = _ from
    next_on (Hw.cutoff_ranging hfront hon hlods hforced hdark (by rw [hkind]; exact hsends) hwindow hkind hqueue)

theorem assemblyCutoff_completes : Claims.assemblyCutoff :=
  fun c _ s hfront hon hlods hforced hdark hsends hwindow hkind =>
  show execAssemblyCutoff c s = _ from
    next_on (Hw.cutoff_data hfront hon hlods hforced hdark (by rw [hkind]; exact hsends) hwindow hkind rfl rfl)

theorem assemblyCutoff_dark_completes : Claims.assemblyCutoff_dark := fun c _ s hstaged htrkOn hlods htxdisForced =>
  show execAssemblyCutoff c s = _ from
    next_on (by simp [Hw.cutoff, hstaged, htrkOn, hlods, htxdisForced])

theorem assemblyCutoff_state_completes : Claims.assemblyCutoff_state := fun c _ s hstaged htrkOn hlods htxdisForced hkind =>
  show execAssemblyCutoff c s = _ from
    next_on (by simp [Hw.cutoff, hstaged, htrkOn, hlods, htxdisForced, hkind])

end Sys2Proof.Machine

namespace Sys2Proof
open Machine

/-- Settles O27: each row, under its conditions, has the effect named. -/
theorem activationCommandsComplete : Obligations.ActivationCommandsComplete :=
  ⟨enterO4_completes, enterO4_reject_completes, enterO5_completes, enterO5_reject_completes, deactivate_completes,
    deactivate_reject_completes, restart_completes, restart_reject_completes, serialNumberAdvance_completes, to1Expire_completes,
    to2Expire_completes, ploamPush_completes, ploamPush_full_completes, assemblyCutoff_ranging_completes,
    assemblyCutoff_completes, assemblyCutoff_dark_completes, assemblyCutoff_state_completes⟩

end Sys2Proof
end

section
/-!
SUPPORT. Where the commands of load estimates, upstream selection, key switches, watchful sleep, delays and test holds
complete, and the settlement of the statement about them.
-/
namespace Sys2Proof.Machine

section
variable {s g : Hw} {full : Nat} {x : Staging} {t : List Staging}

/-- The first staging in the order that can place something places it (R279, R280). -/
theorem Hw.upstreamSelect_of_place (hstaged : s.stagings ≠ [])
    (hplace : (s.stagings.filter (fun y => bitN full y.chan == 0)).findSome?
      (fun y => s.stageFrom y ((s.burstAt y).grants.length - (s.burstAt y).cur)) = some g) :
    s.upstreamSelect false full = g := by
  unfold Hw.upstreamSelect
  split
  · contradiction
  · simp only [if_neg Bool.false_ne_true, hplace]

/-- Where none can, the earliest with transmit room closes its grant. -/
theorem Hw.upstreamSelect_of_none (hroom : s.stagings.filter (fun y => bitN full y.chan == 0) = x :: t)
    (hnone : (s.stagings.filter (fun y => bitN full y.chan == 0)).findSome?
      (fun y => s.stageFrom y ((s.burstAt y).grants.length - (s.burstAt y).cur)) = none) :
    s.upstreamSelect false full = s.idleFill x := by
  unfold Hw.upstreamSelect
  split
  · next hnil => rw [hnil] at hroom; cases hroom
  · simp only [if_neg Bool.false_ne_true, hnone]
    simp only [hroom]

/-- A staging that can place something in its current grant does so there. -/
theorem Hw.stageFrom_of_step (hcur : (s.burstAt x).cur < (s.burstAt x).grants.length) (hstep : s.stageStep x = some g) :
    s.stageFrom x ((s.burstAt x).grants.length - (s.burstAt x).cur) = some g := by
  obtain ⟨n, hn⟩ := Nat.exists_eq_succ_of_ne_zero (Nat.sub_ne_zero_of_lt hcur)
  rw [hn, Hw.stageFrom, hstep]

end

theorem laEstimateUpdate_completes : Claims.laEstimateUpdate := fun _ =>
  next_on (by simp [Hw.laUpdate])

theorem upstreamSelect_completes : Claims.upstreamSelect := fun f _ _ _ s hstaged hplace => by
  show execUpstreamSelect false s f = _
  exact next_on (Hw.upstreamSelect_of_place (by simp [hstaged]) hplace)

theorem upstreamSelect_frame_completes : Claims.upstreamSelect_frame :=
  fun f t x g k p s hstaged hroom hcur hslot hcont hmarker hselect hhead hvalid hmember => by
  have hplaced : (g.take k.q).placePkt x k.q p = ((g.take k.q).modGrant x (fun y => { y with framed := true })).placePayload x k.q p 0 := by
    simp [Hw.placePkt, hvalid, hmember]
  have hstep : s.hw.stageStep x =
      some ((((g.take k.q).modGrant x (fun y => { y with framed := true })).placePayload x k.q p 0).trimGrant x) := by
    simp [Hw.stageStep, Hw.placeFrame, hslot, hcont, hmarker, hselect, hhead, hplaced]
  show execUpstreamSelect false s f = _
  refine next_on (Hw.upstreamSelect_of_place (by simp [hstaged]) ?_)
  rw [hstaged, List.filter_cons_of_pos (by simp [hroom]), List.findSome?_cons, Hw.stageFrom_of_step hcur hstep]

theorem upstreamSelect_idle_completes : Claims.upstreamSelect_idle := fun f _ _ s hroom hnone => by
  show execUpstreamSelect false s f = _
  exact next_on (Hw.upstreamSelect_of_none hroom hnone)

theorem upstreamSelect_underrun_completes : Claims.upstreamSelect_underrun := fun f _ _ s hstagings =>
  show execUpstreamSelect true s f = _ from
    next_on (by simp [Hw.upstreamSelect, hstagings])

theorem upstreamSelect_full_completes : Claims.upstreamSelect_full := fun f _ _ s hstaged hfull => by
  show execUpstreamSelect false s f = _
  refine next_on ?_
  rw [hstaged] at hfull
  simp [Hw.upstreamSelect, hstaged, hfull]

theorem keySwitchArm_completes : Claims.keySwitchArm := fun _ _ _ _ hadm harm htime =>
  next_onAccess hadm ((if_neg (by simp [harm])).trans (if_neg (Nat.not_le.mpr htime)))

theorem keySwitchArm_late_completes : Claims.keySwitchArm_late := fun _ _ _ _ hadm harm hlate =>
  next_onAccess hadm ((if_neg (by simp [harm])).trans (if_pos hlate))

theorem wsAllowedWrite_completes : Claims.wsAllowedWrite := fun _ _ _ _ hadm htrkOn hactState hallowed hpmState =>
  next_onAccess hadm ((if_neg (by rw [htrkOn, hactState]; decide)).trans (by rw [hpmState, hallowed]; rfl))

theorem wsAllowedWrite_wake_completes : Claims.wsAllowedWrite_wake := fun _ _ _ _ hadm htrkOn hactState hallowed hpmState =>
  next_onAccess hadm ((if_neg (by rw [htrkOn, hactState]; decide)).trans
    (by rcases hpmState with hsleep | hwatch
        · rw [hsleep, hallowed]; rfl
        · rw [hwatch, hallowed]; rfl))

theorem awareToWatch_completes : Claims.awareToWatch := fun _ _ hpmState =>
  next_on (if_pos hpmState)

theorem watchIntervalStart_completes : Claims.watchIntervalStart := fun _ _ hpmState hrxOn =>
  next_on (by simp [Hw.receiverOn, hpmState, hrxOn])

theorem watchIntervalEnd_completes : Claims.watchIntervalEnd := fun _ _ hpmState =>
  next_on (if_pos hpmState)

theorem watchSyncTimeout_completes : Claims.watchSyncTimeout := fun _ _ hresync hrxOn hinSync =>
  next_on (if_pos ⟨hresync, hrxOn, hinSync⟩)

theorem testHoldWrite_completes : Claims.testHoldWrite := fun _ _ _ _ hadm hactState =>
  next_onAccess hadm (if_pos hactState)

theorem eqdWrite_completes : Claims.eqdWrite := fun _ _ _ _ hadm =>
  next_onAccess hadm rfl

end Sys2Proof.Machine

namespace Sys2Proof
open Machine

/-- Settles O28: each row, under its conditions, has the effect named. -/
theorem upstreamAndSleepCommandsComplete : Obligations.UpstreamAndSleepCommandsComplete :=
  ⟨laEstimateUpdate_completes, upstreamSelect_completes, upstreamSelect_frame_completes, upstreamSelect_idle_completes,
    upstreamSelect_underrun_completes, upstreamSelect_full_completes, keySwitchArm_completes, keySwitchArm_late_completes,
    wsAllowedWrite_completes, wsAllowedWrite_wake_completes, awareToWatch_completes, watchIntervalStart_completes,
    watchIntervalEnd_completes, watchSyncTimeout_completes, testHoldWrite_completes, eqdWrite_completes⟩

end Sys2Proof
end

section
/-!
SUPPORT. Where the commands of the input FIFO, the pipelines, their contexts and tasks complete, and the settlement of the
statement about them.
-/
namespace Sys2Proof.Machine

theorem inputFifoArrival_completes : Claims.inputFifoArrival := fun _ _ _ hsource hreq =>
  next_on (by simp [hsource, hreq])

theorem inputFifoArrival_full_completes : Claims.inputFifoArrival_full := fun _ _ _ hsource hreq hsource' =>
  next_on (by simp [hsource, hreq, hsource'])

theorem inputFifoArrival_other_completes : Claims.inputFifoArrival_other := fun _ _ _ hsource =>
  next_on (by simp [hsource])

theorem pipelineInputGrant_completes : Claims.pipelineInputGrant := fun pipe upset src p t s hbusy hturn hhead => by
  let k : Hw := { s.hw with thr := { s.hw.thr with upset := (s.hw.thr.upset ++ upset.map Fin.val).eraseDups } }
  have hbusy' : k.pipeBusy pipe = false := hbusy
  have hturn' : k.grantSource pipe = some src := hturn
  have hhead' : k.fifo pipe src = p :: t := hhead
  have hrow : k.pipeGrant pipe = Hw.pipeline (if 516 ≤ src ∧ src ≤ 517 then k.setFifo pipe src t
      else { k.setFifo pipe src t with
        thr := { (k.setFifo pipe src t).thr with rr := (k.setFifo pipe src t).thr.rr.set 0 pipe (src + 1) } }) pipe p := by
    simp only [Hw.pipeGrant, hbusy', hturn', hhead', Bool.false_eq_true, if_false]
  show execPipelineInputGrant pipe s upset = _
  exact next_on hrow

theorem contextReadReturn_completes : Claims.contextReadReturn := fun flow err corr s hflow herr hctxAddr =>
  show execContextReadReturn flow err s corr = _ from
    next_onMem (by simp [Hw.ctxReturn, hflow, herr, hctxAddr])

theorem contextReadReturn_err_completes : Claims.contextReadReturn_err := fun flow err corr s hflow herr =>
  show execContextReadReturn flow err s corr = _ from
    next_onMem (by simp [Hw.ctxReturn, hflow, herr])

theorem taskAccepted_completes : Claims.taskAccepted := fun pipe _ _ s hpipe hdeal hpkt htask =>
  show execTaskAccepted pipe s = _ from
    next_on (by simp [Hw.heldAgain, Hw.taskGo, hpipe, hdeal, hpkt, htask])

theorem epochSwap_completes : Claims.epochSwap := fun _ _ _ hadm hfield hswapComplete =>
  next_onAccess hadm (by simp [Hw.epochSwap, hfield, hswapComplete])

theorem epochSwap_early_completes : Claims.epochSwap_early := fun _ _ _ hadm hfield hswapComplete =>
  next_onAccess hadm (by simp [Hw.epochSwap, hfield, hswapComplete])

theorem epochDrainComplete_completes : Claims.epochDrainComplete := fun _ hswapComplete holdEpoch =>
  next_on (if_pos ⟨hswapComplete, holdEpoch⟩)

end Sys2Proof.Machine

namespace Sys2Proof
open Machine

/-- Settles O29: each row, under its conditions, has the effect named. -/
theorem pipelineCommandsComplete : Obligations.PipelineCommandsComplete :=
  ⟨inputFifoArrival_completes, inputFifoArrival_full_completes, inputFifoArrival_other_completes, pipelineInputGrant_completes,
    contextReadReturn_completes, contextReadReturn_err_completes, taskAccepted_completes, epochSwap_completes,
    epochSwap_early_completes, epochDrainComplete_completes⟩

end Sys2Proof
end

section
/-!
SUPPORT. Where the commands of epochs, the context cache, ageing, spread windows, throttling, performance counters and
Gleaner complete, and the settlement of the statement about them.
-/
namespace Sys2Proof.Machine

theorem ctxUpdate_completes : Claims.ctxUpdate := fun m v s hadm hfield hfield' hctxEn =>
  show execCtxUpdate m v s = _ from
    next_onMemAccess hadm (by simp [Hw.ctxUpdate, Hw.ctxUpdateWrite, hfield, hfield', hctxEn])

theorem ctxRead_completes : Claims.ctxRead := fun m v _ s hadm hfield hfield' hctxEn hctxFind =>
  show execCtxRead m v s = _ from
    next_onMemAccess hadm (by simp [Hw.ctxFetch, Hw.ctxUpdateWrite, hfield, hfield', hctxEn, hctxFind])

theorem ctxRead_memory_completes : Claims.ctxRead_memory := fun m v s hadm hfield hfield' hctxEn hctxFind hctxAddr =>
  show execCtxRead m v s = _ from
    next_onMemAccess hadm (by simp [Hw.ctxFetch, Hw.ctxUpdateWrite, hfield, hfield', hctxEn, hctxFind, hctxAddr])

theorem ctxInval_completes : Claims.ctxInval := fun _ _ _ _ hadm hgo hctxEn hfind =>
  next_onAccess hadm ((if_neg (by simp [hgo])).trans ((if_neg hctxEn).trans (by rw [hfind]; rfl)))

theorem ctxCmdDone_completes : Claims.ctxCmdDone := fun _ _ hctxCmd =>
  next_on (by simp [Hw.ctxDone, hctxCmd])

theorem ageSweep_completes : Claims.ageSweep := fun _ hageTime =>
  next_on (if_neg hageTime)

theorem spreadRrTimeout_completes : Claims.spreadRrTimeout := fun g _ _ s hout hdone =>
  show execSpreadRrTimeout g s = _ from
    next_on (by simp [hout, hdone])

theorem throttleStep_completes : Claims.throttleStep := fun k temp s habove hmin hmax => by
  have hwant : max (min (Int.ofNat (s.hw.rd (TIL_CL_THROT.GATED k)) + 1) (Int.ofNat (s.hw.rd (TIL_CL_THROT.THROT_MAX k))))
      (Int.ofNat (s.hw.rd (TIL_CL_THROT.THROT_MIN k))) = Int.ofNat (s.hw.rd (TIL_CL_THROT.GATED k) + 1) := by
    simp only [Int.ofNat_eq_natCast]
    omega
  have hfree : ¬ (Int.ofNat (s.hw.rd (TIL_CL_THROT.GATED k) + 1) ≠ Int.ofNat (s.hw.rd (TIL_CL_THROT.GATED k)) + 1 ∨
      s.hw.rd (TIL_CL_THROT.GATED k) < s.hw.rd (TIL_CL_THROT.THROT_MIN k) ∨
      s.hw.rd (TIL_CL_THROT.THROT_MAX k) < s.hw.rd (TIL_CL_THROT.GATED k)) := by
    simp only [Int.ofNat_eq_natCast]
    omega
  have hmoves : (Int.ofNat (s.hw.rd (TIL_CL_THROT.GATED k) + 1)).toNat ≠ s.hw.rd (TIL_CL_THROT.GATED k) := Nat.succ_ne_self _
  show execThrottleStep k temp s = _
  refine next_on ?_
  unfold Hw.throttle
  simp only [if_pos habove, hwant]
  rw [Hw.onlyIf_neg _ _ hfree, Hw.onlyIf_pos _ _ hmoves]
  rfl

theorem perfCounterWrap_completes : Claims.perfCounterWrap := fun e n s hevent hval64 =>
  show execPerfCounterWrap e n s = _ from
    next_on (by simp [Hw.perfWrap, Hw.onlyIf, hevent, hval64])

theorem gleanerSample_completes : Claims.gleanerSample := fun e pc addr latency s hen hengMask hexecuting hperiod hroom => by
  show execGleanerSample e pc addr latency s = _
  exact next_on ((if_neg (by simp [hen, hengMask, hexecuting])).trans ((if_neg (Nat.not_lt.mpr hperiod)).trans
    (if_neg (fun hfull => hroom.elim (· hfull.1) (· hfull.2)))))

theorem gleanerSample_full_completes : Claims.gleanerSample_full := fun e pc addr latency s hen hengMask hexecuting hperiod hheld hwrap =>
  show execGleanerSample e pc addr latency s = _ from
    next_on (by simp [Hw.glean, hen, hengMask, hexecuting, hperiod, hheld, hwrap])

theorem gleanerSample_between_completes : Claims.gleanerSample_between := fun e pc addr latency s hen hengMask hexecuting hperiod =>
  show execGleanerSample e pc addr latency s = _ from
    next_on (by simp [Hw.glean, hen, hengMask, hexecuting, hperiod])

end Sys2Proof.Machine

namespace Sys2Proof
open Machine

/-- Settles O30: each row, under its conditions, has the effect named. -/
theorem epochAndContextCommandsComplete : Obligations.EpochAndContextCommandsComplete :=
  ⟨ctxUpdate_completes, ctxRead_completes, ctxRead_memory_completes, ctxInval_completes, ctxCmdDone_completes,
    ageSweep_completes, spreadRrTimeout_completes, throttleStep_completes, perfCounterWrap_completes, gleanerSample_completes,
    gleanerSample_full_completes, gleanerSample_between_completes⟩

end Sys2Proof
end

section
/-!
SUPPORT. Where the commands of register and window accesses, counters, interrupts and table gates complete, and the
settlement of the statement about them.
-/
namespace Sys2Proof.Machine

/-- A register below the windows, written as a word with no window in between. -/
theorem Hw.access_write_of_unstaged {s : Hw} {m : Master} {a : Nat} (mem : List Host.Cell) (v : Word)
    (hadm : s.admits m (busAddr m a) true) (hstage : s.stages m (busAddr m a) 4 (.write v) = false) (hlow : busAddr m a < 0x10000000) :
    s.access mem m a 4 (.write v) = (s.reached m (busAddr m a)).writeReg m (busAddr m a) v := by
  obtain ⟨hdeaf, herr⟩ := hadm
  have hmsix : s.msixArea m (busAddr m a) 4 = false := s.msixArea_of_lt_bar2 m 4 (hlow.trans (by decide))
  have hext : ¬extBase ≤ busAddr m a := (hlow.trans (by decide)).not_ge
  unfold Hw.access
  cases m <;> simp only [Hw.counted, Hw.reached] at herr ⊢ <;> simp [hdeaf, hstage, hmsix, herr, hext]

/-- An access by the host to the MSI-X area is the endpoint's (R389). -/
theorem Hw.access_msix {s : Hw} {a : Nat} (mem : List Host.Cell) (acc : Access) (hdeaf : s.deaf .host = false)
    (hstage : s.stages .host (busAddr .host a) 4 acc = false) (hmsix : s.msixArea .host (busAddr .host a) 4 = true) :
    s.access mem .host a 4 acc = ((s.endReset 29).wakeByAccess 29).msixAccess (busAddr .host a) acc := by
  unfold Hw.access
  simp only [hdeaf, hstage, hmsix, Bool.false_eq_true, if_false, if_true]

theorem registerWrite_reg_completes : Claims.registerWrite_reg := fun m a v s hadm hstages hreg => by
  show execRegisterWrite m a 4 (.write v) s = _
  exact next_onMem (Hw.access_write_of_unstaged _ _ hadm hstages hreg)

theorem registerWrite_read_completes : Claims.registerWrite_read := fun m a s hadm hstages hreg => by
  show execRegisterWrite m a 4 .read s = _
  exact next_onMem (Hw.access_read_of_admits _ hadm hstages hreg)

theorem registerWrite_store_completes : Claims.registerWrite_store := fun m a v s hadm _ _ hwindow => by
  obtain ⟨-, -, hhost⟩ := Hw.admits_window hadm hwindow
  have hbus : busAddr m a = a := if_neg fun h => hhost h.1
  rw [hbus] at hadm hwindow
  show execRegisterWrite m a 4 (.write v) s = .next (s.finish (((s.hw.counted m).wakeByAccess 14).memWrite (busAddr m a - extBase) _))
  rw [hbus]
  exact next_onMem (Hw.access_store _ hadm hwindow v)

theorem registerWrite_msix_completes : Claims.registerWrite_msix := by
  intro a acc s hdeaf hstages hbus hmsix
  have hexec (m : Master) : exec (.registerWrite m a 4 acc) s = s.onMem (fun mem h => h.access mem m a 4 acc) := rfl
  refine (hexec .host).trans (next_onMem ?_)
  rw [Hw.access_msix s.mem acc hdeaf (by rwa [hbus]) (by rwa [hbus]), hbus]

theorem counterLoRead_completes : Claims.counterLoRead := fun _ _ _ hadm hisLo hperfClosed =>
  next_onAccess hadm (by simp [Hw.counterLo, Hw.onlyIf, Hw.onlyIf, hisLo, hperfClosed])

theorem counterHiRead_completes : Claims.counterHiRead := fun _ _ _ hadm hisHi hperfClosed =>
  next_onAccess hadm (by simp [Hw.counterHi, Hw.onlyIf, Hw.onlyIf, hisHi, hperfClosed])

theorem counterClear_completes : Claims.counterClear := fun _ _ _ hadm hc64lo =>
  next_onAccess hadm (if_pos hc64lo)

theorem counterClear_other_completes : Claims.counterClear_other := fun _ _ _ _ hadm hveq =>
  next_onAccess hadm (by simp [Hw.counterClear, Hw.onlyIf, accOf, Hw.onlyIf, hveq])

theorem intSet_completes : Claims.intSet := fun _ _ _ _ hadm =>
  next_onAccess hadm rfl

theorem intEoi_completes : Claims.intEoi := fun _ _ _ hadm hsummary =>
  next_onAccess hadm (if_pos hsummary)

theorem intEoi_clear_completes : Claims.intEoi_clear := fun _ _ _ hadm hsummary =>
  next_onAccess hadm (by simp [Hw.intEoi, hsummary])

theorem tableRead_completes : Claims.tableRead := fun _ _ _ _ _ hadm hbase hentryErr =>
  next_onAccess hadm (by simp [Hw.gateCommand, hbase, hentryErr])

theorem tableCommit_completes : Claims.tableCommit := fun _ _ _ _ _ hadm hbase hentryErr =>
  next_onAccess hadm (by simp [Hw.gateCommand, hbase, hentryErr])

end Sys2Proof.Machine

namespace Sys2Proof
open Machine

/-- Settles O31: each row, under its conditions, has the effect named. -/
theorem registerAndGateCommandsComplete : Obligations.RegisterAndGateCommandsComplete :=
  ⟨registerWrite_reg_completes, registerWrite_read_completes, registerWrite_store_completes, registerWrite_msix_completes,
    counterLoRead_completes, counterHiRead_completes, counterClear_completes, counterClear_other_completes, intSet_completes,
    intEoi_completes, intEoi_clear_completes, tableRead_completes, tableCommit_completes⟩

end Sys2Proof
end

section
/-!
SUPPORT. Where the commands of gate writes, the end of gate commands and the start of functions complete, and the settlement
of the statement about them.
-/
namespace Sys2Proof.Machine

section
variable {s : Hw} {f : Fn} {g : Hw → Hw}

/-- A change that raises the effective enable starts the function (R60). -/
theorem Hw.follow_up {w : Hw} (hw : g s = w) (hbefore : s.effEnable f = false) (hafter : w.effEnable f = true) :
    s.follow f g = w.fnUp f := by
  subst hw
  simp [Hw.follow, hbefore, hafter]

/-- One that lowers it stops the function. -/
theorem Hw.follow_down {w : Hw} (hw : g s = w) (hbefore : s.effEnable f = true) (hafter : w.effEnable f = false) :
    s.follow f g = w.fnDown f := by
  subst hw
  simp [Hw.follow, hbefore, hafter]

theorem Hw.fnUp_of_off (hoff : s.st f = 0) : s.fnUp f = ((s.wr f.STATE 1).capture f).fnStarting f := by
  simp [Hw.fnUp, Hw.lcUp, Hw.onlyIf, hoff]

theorem Hw.fnUp_of_stopping (hstopping : s.st f = 3) : s.fnUp f = s.wr f.RP 1 := by
  simp [Hw.fnUp, Hw.lcUp, Hw.onlyIf, hstopping]

theorem Hw.fnDown_of_running (hrun : s.st f = 1 ∨ s.st f = 2) : s.fnDown f = ((s.noteDown f).wr f.STATE 3).fnStopping f := by
  simp [Hw.fnDown, Hw.lcDown, Hw.onlyIf, hrun]

theorem Hw.fnDown_of_stopping (hstopping : s.st f = 3) : s.fnDown f = s.wr f.RP 0 := by
  simp [Hw.fnDown, Hw.lcDown, Hw.onlyIf, hstopping]

/-- A write of the control register that no group member's rules refuse is followed as the enable changes. -/
theorem Hw.fnWrite_of_accepted {en : Nat} (v : Word) (hmember : (∀ g c, f ≠ .member g c) ∨ s.rd f.ENABLE = 1 ∨ en = 0) :
    s.fnWrite f en v = ((s.wr f.HELD (if s.st f = 0 then b2n (s.heldNow f) else s.rd f.HELD)).follow f
      (fun s => s.fullWrite f.ctl (setField v 0 1 en))).fnLive f := by
  unfold Hw.fnWrite
  cases f with
  | member g c =>
    have haccepted : (en == 1 && s.rd (Fn.member g c).ENABLE == 0) = false := by
      rcases hmember with hkind | hon | hen
      · exact absurd rfl (hkind g c)
      · simp [hon]
      · simp [hen]
    simp only [haccepted, Bool.false_and, Bool.false_eq_true, if_false]
  | _ => rfl

/-- What holds an enabled function lets go of it. -/
theorem Hw.holdSync_released (hheld : s.rd f.HELD = 1) (hnow : s.heldNow f = false) (hafter : (s.wr f.HELD 0).effEnable f = true) :
    s.holdSync f = (s.wr f.HELD 0).fnUp f := by
  have hchange : s.rd f.HELD ≠ b2n (s.heldNow f) := by simp [hheld, hnow, b2n]
  have hbefore : s.effEnable f = false := by simp [Hw.effEnable, hheld]
  rw [Hw.holdSync, if_neg hchange]
  exact Hw.follow_up (by rw [hnow]; rfl) hbefore hafter

/-- Or comes to hold it. -/
theorem Hw.holdSync_held (hheld : s.rd f.HELD = 0) (hnow : s.heldNow f = true) (henable : s.rd f.ENABLE = 1)
    (hafter : (s.wr f.HELD 1).effEnable f = false) : s.holdSync f = (s.wr f.HELD 1).fnDown f := by
  have hchange : s.rd f.HELD ≠ b2n (s.heldNow f) := by simp [hheld, hnow, b2n]
  have hbefore : s.effEnable f = true := by simp [Hw.effEnable, hheld, henable]
  rw [Hw.holdSync, if_neg hchange]
  exact Hw.follow_down (by rw [hnow]; rfl) hbefore hafter

end

/-- A gate command that is no accepted WRITE changes no table as it ends (R53). -/
theorem Hw.gateFinish_of_plain {s : Hw} {b : Nat} {r : GateRun} (hrun : s.gates.get ({} : GateRun) (gateOf b) = r) (hop : r.op ≠ 0)
    (hplain : ¬ (r.op = 2 ∧ r.err = 0)) :
    s.gateFinish b = ((({ s with gates := s.gates.set ({} : GateRun) (gateOf b) {} }).wr (gateBUSY b) 0).wr (gateERR b) r.err).onlyIf
      (r.err ≠ 0) (fun s => s.raise b EV.TBL_ERR) := by
  unfold Hw.gateFinish
  simp only [hrun, if_neg hop, if_neg hplain]
  cases s.gateSel b <;> rfl

theorem tableWrite_completes : Claims.tableWrite := fun _ _ _ _ _ hadm hbase hentryErr =>
  next_onAccess hadm (by simp [Hw.gateCommand, hbase, hentryErr])

theorem tableCmdComplete_completes : Claims.tableCmdComplete := fun b s hop hkind => by
  have hclean : s.hw.gateEcc b.base 0 = s.hw := if_pos (.inr (.inr rfl))
  show execTableCmdComplete b s 0 = _
  refine next_on ?_
  show (s.hw.gateEcc b.base 0).gateFinish b.base = _
  rw [hclean, Hw.gateFinish_of_plain rfl hop fun h => hkind.elim (· h.1) (· h.2), Hw.onlyIf, ite_not]

theorem tableCmdComplete_write_completes : Claims.tableCmdComplete_write := fun b _ s hop herr hbase =>
  show execTableCmdComplete b s 0 = _ from
    next_on (by simp [Hw.gateEcc, Hw.gateFinish, Hw.onlyIf, hop, herr, hbase])

theorem tableCmdComplete_ecc_completes : Claims.tableCmdComplete_ecc := fun b s hop herr =>
  show execTableCmdComplete b s 1 = _ from
    next_on (by simp [Hw.gateEcc, hop, herr])

theorem functionEnable_completes : Claims.functionEnable := fun _ f v _ hadm halias hmember hbefore hafter hoff =>
  next_onAccess hadm ((Hw.onlyIf_pos _ _ halias).trans (by
    rw [Hw.fnWrite_of_accepted v (hmember.imp_right .inl),
      Hw.follow_up (g := (·.fullWrite f.ctl (setField v 0 1 1))) rfl hbefore hafter, Hw.fnUp_of_off hoff]))

theorem functionEnable_pending_completes : Claims.functionEnable_pending := fun _ f v _ hadm halias hmember hbefore hafter hstopping =>
  next_onAccess hadm ((Hw.onlyIf_pos _ _ halias).trans (by
    rw [Hw.fnWrite_of_accepted v (hmember.imp_right .inl),
      Hw.follow_up (g := (·.fullWrite f.ctl (setField v 0 1 1))) rfl hbefore hafter, Hw.fnUp_of_stopping hstopping]))

theorem functionEnable_member_completes : Claims.functionEnable_member := fun _ _ _ _ _ hadm hctl hmember hmemberRefused =>
  next_onAccess hadm (by simp [Hw.fnWrite, Hw.onlyIf, hctl, hmember, hmemberRefused])

theorem functionEnable_released_completes : Claims.functionEnable_released := fun m f s hheld hnow _ hafter hoff => by
  have hrow : s.hw.holdSync f = (((s.hw.wr f.HELD 0).wr f.STATE 1).capture f).fnStarting f := by
    rw [Hw.holdSync_released hheld hnow hafter, Hw.fnUp_of_off hoff]
  show execFunctionEnable m f none s = _
  exact next_on hrow

theorem functionEnable_alias_completes : Claims.functionEnable_alias := fun _ _ _ _ hadm hctl =>
  next_onAccess hadm (by simp [Hw.onlyIf, hctl])

theorem functionDisable_completes : Claims.functionDisable := fun _ f v _ hadm halias hbefore hafter hrun =>
  next_onAccess hadm ((Hw.onlyIf_pos _ _ halias).trans (by
    rw [Hw.fnWrite_of_accepted v (.inr (.inr rfl)),
      Hw.follow_down (g := (·.fullWrite f.ctl (setField v 0 1 0))) rfl hbefore hafter, Hw.fnDown_of_running hrun]))

theorem functionDisable_pending_completes : Claims.functionDisable_pending := fun _ f v _ hadm halias hbefore hafter hstopping =>
  next_onAccess hadm ((Hw.onlyIf_pos _ _ halias).trans (by
    rw [Hw.fnWrite_of_accepted v (.inr (.inr rfl)),
      Hw.follow_down (g := (·.fullWrite f.ctl (setField v 0 1 0))) rfl hbefore hafter, Hw.fnDown_of_stopping hstopping]))

theorem functionDisable_held_completes : Claims.functionDisable_held := fun m f s hheld hnow henable hafter hrun => by
  have hrow : s.hw.holdSync f = (((s.hw.wr f.HELD 1).noteDown f).wr f.STATE 3).fnStopping f := by
    rw [Hw.holdSync_held hheld hnow henable hafter, Hw.fnDown_of_running hrun]
  show execFunctionDisable m f none s = _
  exact next_on hrow

theorem functionDisable_alias_completes : Claims.functionDisable_alias := fun _ _ _ _ hadm hctl =>
  next_onAccess hadm (by simp [Hw.onlyIf, hctl])

theorem startConditionMet_completes : Claims.startConditionMet := fun f s hkind hstarting hcan => by
  have hlc : s.hw.lcOn f = (s.hw.wr f.STATE 2).raise f.blk EV.LIFECYCLE_DONE := if_pos hstarting
  show execStartConditionMet f s = _
  refine next_on ((Hw.onlyIf_pos _ _ ⟨hstarting, hcan⟩).trans ?_)
  cases f with
  | page p => exact absurd rfl (hkind p)
  | trk c => exact congrArg (·.trkEnterOn c) hlc
  | lane l => exact congrArg (fun w => (w.laneLinks l).laneSync l) hlc
  | port p => exact congrArg (·.portOn p) hlc
  | twinLink => exact congrArg (fun w => (w.wr TWN_STATUS.LINK_STATE 1).twinLaneSync) hlc
  | _ => exact hlc

theorem startConditionMet_page_completes : Claims.startConditionMet_page := fun _ _ hpage hpage' =>
  next_on (if_pos ⟨hpage, hpage'⟩)

end Sys2Proof.Machine

namespace Sys2Proof
open Machine

/-- Settles O32: each row, under its conditions, has the effect named. -/
theorem lifecycleCommandsComplete : Obligations.LifecycleCommandsComplete :=
  ⟨tableWrite_completes, tableCmdComplete_completes, tableCmdComplete_write_completes, tableCmdComplete_ecc_completes,
    functionEnable_completes, functionEnable_pending_completes, functionEnable_member_completes,
    functionEnable_released_completes, functionEnable_alias_completes, functionDisable_completes,
    functionDisable_pending_completes, functionDisable_held_completes, functionDisable_alias_completes,
    startConditionMet_completes, startConditionMet_page_completes⟩

end Sys2Proof
end

section
/-!
SUPPORT. Where the commands of stops, resets, supplies, reference clocks, access wakes and crossing FIFOs complete, and the
settlement of the statement about them.
-/
namespace Sys2Proof.Machine

theorem stopFlushComplete_completes : Claims.stopFlushComplete := fun _ _ _ hst hfnFlushed heeq heeq' hweq =>
  next_on (by simp [Hw.fnOff, Hw.lcOff, Hw.onlyIf, hst, hfnFlushed, heeq, heeq', hweq])

theorem stopFlushComplete_restart_completes : Claims.stopFlushComplete_restart := fun _ _ _ hst hfnFlushed heeq heeq' hweq =>
  next_on (by simp [Hw.fnOff, Hw.lcOff, Hw.onlyIf, hst, hfnFlushed, heeq, heeq', hweq])

theorem stopFlushComplete_page_completes : Claims.stopFlushComplete_page := fun _ _ hpage =>
  next_on (by simp [Hw.fnFlushed, Hw.fnOff, hpage])

theorem domainSoftReset_completes : Claims.domainSoftReset := fun m _ d s hadm hdom hnamed hcond =>
  next_onAccess hadm (by
    have hlive : ¬ (d.val < 2 ∨ 31 < d.val ∨ (s.hw.reached m GLB_SOFT_RESET.A).cond d = 2) := by
      rintro (hlow | hhigh | hoff)
      · omega
      · omega
      · exact hcond hoff
    rw [hnamed]
    exact congrArg Hw.offAll (if_neg hlive))

theorem domainSoftReset_many_completes : Claims.domainSoftReset_many := fun _ _ _ hadm =>
  next_onAccess hadm rfl

theorem softResetComplete_completes : Claims.softResetComplete := fun _ _ hreset hperst =>
  next_on (if_pos ⟨hreset, fun h => Bool.noConfusion ((hperst h.1).symm.trans h.2)⟩)

theorem chipReset_completes : Claims.chipReset := fun _ _ hadm htrip =>
  next_onAccess hadm (by simp [Hw.chipReset, htrip])

theorem chipReset_other_completes : Claims.chipReset_other := fun _ _ _ hadm hveq =>
  next_onAccess hadm (if_neg hveq)

theorem pornAssert_completes : Claims.pornAssert := fun s =>
  show execPornAssert s = _ from next_on rfl

theorem pornRelease_completes : Claims.pornRelease := fun straps s hporn hvin =>
  show execPornRelease straps s = _ from
    next_on (by simp [Hw.effPorn, hporn, hvin])

theorem vinUvloFall_completes : Claims.vinUvloFall := fun _ hvin =>
  next_on (by simp [Hw.uvlo, hvin])

theorem vinGood_completes : Claims.vinGood := fun straps s hvin =>
  show execVinGood straps s = _ from
    next_on (by simp [hvin])

theorem clockLoss_completes : Claims.clockLoss := fun _ _ hok =>
  next_on (if_pos hok)

theorem clockRecover_completes : Claims.clockRecover := fun _ _ hok =>
  next_on (if_pos hok)

theorem accessWakeReturn_completes : Claims.accessWakeReturn := fun _ _ hwoken =>
  next_on (by simp [Hw.modPwr, hwoken])

theorem crossingFifoError_completes : Claims.crossingFifoError := fun _ _ _ hbase =>
  next_on (if_pos hbase)

end Sys2Proof.Machine

namespace Sys2Proof
open Machine

/-- Settles O33: each row, under its conditions, has the effect named. -/
theorem resetAndSupplyCommandsComplete : Obligations.ResetAndSupplyCommandsComplete :=
  ⟨stopFlushComplete_completes, stopFlushComplete_restart_completes, stopFlushComplete_page_completes, domainSoftReset_completes,
    domainSoftReset_many_completes, softResetComplete_completes, chipReset_completes, chipReset_other_completes,
    pornAssert_completes, pornRelease_completes, vinUvloFall_completes, vinGood_completes, clockLoss_completes,
    clockRecover_completes, accessWakeReturn_completes, crossingFifoError_completes⟩

end Sys2Proof
end

section
/-!
SUPPORT. Where the commands of the watchdog, PCIe, the supply of AON, the pins and the rings complete, and the settlement of
the statement about them.
-/
namespace Sys2Proof.Machine

/-- The one descriptor of a frame, fetched from host memory. -/
theorem Hw.txFetch_one {s : Hw} {r : Nat} {d : TxDesc} {ds : List TxDesc} (mem : List Host.Cell) (hon : s.ringState 1 r = 2)
    (hloc : s.capRd (RING_CTRL.LOC 1 r) = 0) (hone : ds.take (s.ringAvail 1 r) = [d]) (heop : d.eop = true) :
    s.txFetch mem r ds false = s.txFrame r [d] false := by
  simp [Hw.txFetch, hon, hloc, hone, heop]

theorem wdogKick_completes : Claims.wdogKick := fun _ _ _ hadm hveq =>
  next_onAccess hadm (if_pos hveq)

theorem wdogKick_other_completes : Claims.wdogKick_other := fun _ _ _ hadm hveq =>
  next_onAccess hadm (if_neg hveq)

theorem wdogWarn_completes : Claims.wdogWarn := fun halted s hwdogPast =>
  show execWdogWarn s halted = _ from next_on (if_pos hwdogPast)

theorem wdogExpire_completes : Claims.wdogExpire := fun halted s hwdogPast hcond hinReset htrip =>
  show execWdogExpire s halted = _ from
    next_on (by simp [Hw.chipReset, Hw.onlyIf, hwdogPast, hcond, hinReset, htrip])

theorem pcieFunctionReset_completes : Claims.pcieFunctionReset := fun s hcond =>
  show execPcieFunctionReset s = _ from
    next_on (by simp [Hw.softReset, Hw.onlyIf, hcond])

theorem perstAssert_completes : Claims.perstAssert := fun s hcond =>
  show execPerstAssert s = _ from
    next_on (by simp [Hw.softReset, Hw.onlyIf, hcond])

theorem perstRelease_completes : Claims.perstRelease := fun s =>
  show execPerstRelease s = _ from next_on rfl

theorem pcieLinkUp_completes : Claims.pcieLinkUp := fun _ hcond hinReset hperst hpcieOk =>
  next_on (if_pos ⟨hcond, hinReset, hperst, hpcieOk⟩)

theorem pcieLinkDown_completes : Claims.pcieLinkDown := fun s =>
  show execPcieLinkDown s = _ from next_on rfl

theorem vkeepLoss_completes : Claims.vkeepLoss := fun s =>
  show execVkeepLoss s = _ from next_on rfl

theorem vkeepReturn_completes : Claims.vkeepReturn := fun s =>
  show execVkeepReturn s = _ from next_on rfl

theorem gpioChange_completes : Claims.gpioChange := fun j v s hin =>
  show execGpioChange j v s = _ from
    next_on (by simp [Hw.gpioChange, Hw.onlyIf, hin])

theorem ringTailWrite_completes : Claims.ringTailWrite := fun _ _ _ _ hadm hminFree =>
  next_onAccess hadm (if_pos hminFree)

theorem ringTailWrite_tx_completes : Claims.ringTailWrite_tx := fun _ _ _ _ hadm =>
  next_onAccess hadm rfl

theorem txRingFetch_completes : Claims.txRingFetch := fun r d ds s hon hloc hone heop hsop hlen hlow hhigh hmode => by
  have hbytes : ([d].map (fun d => d.data.take d.len)).flatten = d.data.take d.len := by simp
  have hlong : (decide ((d.data.take d.len).length < 18 ∨ 12288 < (d.data.take d.len).length)) = false :=
    decide_eq_false (by omega)
  have hsized : ([d].any (fun d => d.len == 0)) = false := by simp [hlen]
  show execTxRingFetch r ds false s = _
  refine next_onMem ((Hw.txFetch_one _ hon hloc hone heop).trans ?_)
  simp only [Hw.txFrame, hbytes, hsop, hlong, hsized, Bool.not_true, Bool.or_false, Bool.false_eq_true, if_false, Hw.forAll,
    List.foldl_cons, List.foldl_nil, hmode, if_true]

theorem txRingFetch_bad_completes : Claims.txRingFetch_bad := fun r d ds s hon hloc hone heop hshort => by
  have hbytes : ([d].map (fun d => d.data.take d.len)).flatten = d.data.take d.len := by simp
  have hbad : (decide ((d.data.take d.len).length < 18 ∨ 12288 < (d.data.take d.len).length)) = true :=
    decide_eq_true (.inl hshort)
  show execTxRingFetch r ds false s = _
  refine next_onMem ((Hw.txFetch_one _ hon hloc hone heop).trans ?_)
  simp only [Hw.txFrame, hbytes, hbad, Bool.or_true, Bool.true_or, if_true, Hw.forAll, List.foldl_cons, List.foldl_nil]

end Sys2Proof.Machine

namespace Sys2Proof
open Machine

/-- Settles O34: each row, under its conditions, has the effect named. -/
theorem watchdogPcieAndRingCommandsComplete : Obligations.WatchdogPcieAndRingCommandsComplete :=
  ⟨wdogKick_completes, wdogKick_other_completes, wdogWarn_completes, wdogExpire_completes, pcieFunctionReset_completes,
    perstAssert_completes, perstRelease_completes, pcieLinkUp_completes, pcieLinkDown_completes, vkeepLoss_completes,
    vkeepReturn_completes, gpioChange_completes, ringTailWrite_completes, ringTailWrite_tx_completes, txRingFetch_completes,
    txRingFetch_bad_completes⟩

end Sys2Proof
end

section
/-!
SUPPORT. Where the commands of ring interrupts, mailboxes, doorbells, locks and the writes to AON complete, and the
settlement of the statement about them.
-/
namespace Sys2Proof.Machine

theorem ringIntTimer_completes : Claims.ringIntTimer := fun _ _ _ hacc hintUsec =>
  next_on (if_pos ⟨hacc, hintUsec⟩)

theorem ringIntAck_completes : Claims.ringIntAck := fun _ _ _ _ _ hadm =>
  next_onAccess hadm rfl

theorem mbxSend_completes : Claims.mbxSend := fun _ _ _ hadm hid =>
  next_onAccess hadm (by simp [Hw.mbxSend, hid])

theorem mbxSend_refused_completes : Claims.mbxSend_refused := fun _ _ _ hadm hstatus =>
  next_onAccess hadm (Hw.mbxSend_of_refused (by omega) (by omega))

theorem mbxSend_domain_completes : Claims.mbxSend_domain := fun _ _ _ hadm hid =>
  next_onAccess hadm (by simp [Hw.mbxSend, hid])

theorem mbxPop_completes : Claims.mbxPop := fun _ _ _ _ _ _ _ hadm hfield hmsgs =>
  next_onAccess hadm (by simp [Hw.mbxPop, Hw.mbxRemove, hfield, hmsgs])

theorem mbxPop_last_completes : Claims.mbxPop_last := fun _ _ _ _ _ hadm hfield hmsgs =>
  next_onAccess hadm (by simp [Hw.mbxPop, Hw.mbxRemove, hfield, hmsgs])

theorem mbxEmptyStatusRead_completes : Claims.mbxEmptyStatusRead := fun _ _ _ hadm htxMaster =>
  next_onAccess hadm (by simp [Hw.mbxEmptyRead, htxMaster])

theorem mbxEmptyStatusRead_other_completes : Claims.mbxEmptyStatusRead_other := fun _ _ _ hadm htxMaster htxMaster' =>
  next_onAccess hadm (by simp [Hw.mbxEmptyRead, htxMaster, htxMaster'])

theorem dbSet_completes : Claims.dbSet := fun _ _ _ hadm hrd =>
  next_onAccess hadm (if_neg hrd)

theorem dbSet_merged_completes : Claims.dbSet_merged := fun _ _ _ hadm hrd =>
  next_onAccess hadm (if_pos hrd)

theorem lockAcquire_completes : Claims.lockAcquire := fun _ _ _ hadm hrd =>
  next_onAccess hadm (by simp [Hw.lockRead, b2n, lockWinner, hrd])

theorem lockAcquire_held_completes : Claims.lockAcquire_held := fun _ _ _ _ hadm hrd =>
  next_onAccess hadm (if_pos hrd)

theorem lockRelease_completes : Claims.lockRelease := fun _ _ _ _ hadm hrd hfield =>
  next_onAccess hadm (if_pos ⟨hrd, hfield⟩)

theorem lockRelease_bad_completes : Claims.lockRelease_bad := fun _ _ _ _ hadm hfield =>
  next_onAccess hadm (if_neg hfield)

theorem lockBreak_completes : Claims.lockBreak := by
  intro m c v s h hadm hcore hheld
  subst hcore
  exact next_onAccess hadm (if_pos hheld)

theorem aonWriteArrive_completes : Claims.aonWriteArrive := fun _ _ _ s hwrites =>
  show execAonWriteArrive s = _ from
    next_on (by simp [Hw.aonArrive, Hw.onlyIf, hwrites])

end Sys2Proof.Machine

namespace Sys2Proof
open Machine

/-- Settles O35: each row, under its conditions, has the effect named. -/
theorem mailboxLockAndConsoleCommandsComplete : Obligations.MailboxLockAndConsoleCommandsComplete :=
  ⟨ringIntTimer_completes, ringIntAck_completes, mbxSend_completes, mbxSend_refused_completes, mbxSend_domain_completes,
    mbxPop_completes, mbxPop_last_completes, mbxEmptyStatusRead_completes, mbxEmptyStatusRead_other_completes, dbSet_completes,
    dbSet_merged_completes, lockAcquire_completes, lockAcquire_held_completes, lockRelease_completes, lockRelease_bad_completes,
    lockBreak_completes, aonWriteArrive_completes⟩

end Sys2Proof
end

section
/-!
SUPPORT. Where the commands of frame search, superframes and codewords complete, and the settlement of the statement about
them.
-/
namespace Sys2Proof.Machine

section
variable {s : Hw} {c errs v : Nat} {hec oc : Hec} (hon : s.trkOn c = true) (hrx : (s.act c).rxOn = true)
  (hlooped : s.looped c = false)
include hon hrx hlooped

/-- On a channel that receives, a position in PRESYNC is judged there, its HEC counted first (R96). -/
theorem Hw.framePosition_presync (hstate : s.rd (TRK_DLN_STATUS.SYNC_STATE c) = 1) :
    s.framePosition c errs hec v oc = (s.sfcHec c hec).presyncPosition c errs hec v oc := by
  refine (if_neg (by simp [hon, hrx, hlooped])).trans ?_
  simp only [hstate]

/-- So is a position in SYNC (R98). -/
theorem Hw.framePosition_sync (hstate : s.rd (TRK_DLN_STATUS.SYNC_STATE c) = 2) :
    s.framePosition c errs hec v oc = (s.sfcHec c hec).syncPosition c errs hec v oc := by
  refine (if_neg (by simp [hon, hrx, hlooped])).trans ?_
  simp only [hstate]

end

/-- A good position short of N_CONFIRM (R96). -/
theorem Hw.presyncPosition_confirm {s : Hw} {c errs v : Nat} {oc : Hec} (htol : errs ≤ s.rd (TRK_DLN_CFG.PSYNC_TOL c))
    (hfew : s.rd (TRK_DLN_STATUS.CONFIRM_CNT c) + 1 <
      (s.wr (TRK_DLN_STATUS.CONFIRM_CNT c) (s.rd (TRK_DLN_STATUS.CONFIRM_CNT c) + 1)).rd (TRK_DLN_CFG.N_CONFIRM c)) :
    s.presyncPosition c errs .ok v oc =
      (s.wr (TRK_DLN_STATUS.CONFIRM_CNT c) (s.rd (TRK_DLN_STATUS.CONFIRM_CNT c) + 1)).frameSeed c v :=
  (if_pos ⟨htol, by decide⟩).trans (if_neg (Nat.not_le.mpr hfew))

section
variable {s k : Hw} {c errs v : Nat} {hec oc : Hec}
  (hk : k = s.modDln c (fun d => { d with frameAt := d.frameAt + framePeriod }))
include hk

/-- A frame in SYNC whose PSync and SFC HEC are good (R98, R104). -/
theorem Hw.syncPosition_good (htol : errs ≤ k.rd (TRK_DLN_CFG.PSYNC_TOL c)) : s.syncPosition c errs .ok v oc =
    (if v = (s.sfc c + 1) % 2 ^ 51 then k.wr (TRK_DLN_STATUS.LOSS_CNT c) 0
      else ((k.wr (TRK_DLN_STATUS.LOSS_CNT c) 0).dlnCount c DLN_N.SFC_JUMP_COUNT).trkRaise c EV_TRK.SFC_JUMP).frameBegins
        c v oc := by
  subst hk
  have hgood : (decide (Hw.rd _ (TRK_DLN_CFG.PSYNC_TOL c) < errs) || Hec.ok == Hec.bad) = false :=
    Bool.or_eq_false_iff.mpr ⟨decide_eq_false (Nat.not_lt.mpr htol), rfl⟩
  unfold Hw.syncPosition
  simp only [hgood, Bool.false_eq_true, false_and, if_false]

variable (hbad : (decide (k.rd (TRK_DLN_CFG.PSYNC_TOL c) < errs) || hec == .bad) = true)
include hbad

/-- The frame in error that is the M_LOSS-th (R98). -/
theorem Hw.syncPosition_lost (hlast : k.rd (TRK_DLN_CFG.M_LOSS c) ≤ k.rd (TRK_DLN_STATUS.LOSS_CNT c) + 1) :
    s.syncPosition c errs hec v oc = k.hunt c := by
  subst hk
  exact if_pos ⟨hbad, hlast⟩

/-- A frame in error short of that is processed under the expected count (R98, R104). -/
theorem Hw.syncPosition_run (hfew : k.rd (TRK_DLN_STATUS.LOSS_CNT c) + 1 < k.rd (TRK_DLN_CFG.M_LOSS c)) :
    s.syncPosition c errs hec v oc = (k.wr (TRK_DLN_STATUS.LOSS_CNT c) (k.rd (TRK_DLN_STATUS.LOSS_CNT c) + 1)).frameBegins
      c ((s.sfc c + 1) % 2 ^ 51) oc := by
  subst hk
  refine (if_neg fun h => Nat.not_le.mpr hfew h.2).trans ((if_pos hbad).trans ?_)
  rw [if_pos hbad]

end

theorem psyncMatch_completes : Claims.psyncMatch := fun c pos v hec s hsearching hsyncState =>
  show execPsyncMatch c pos s v hec = _ from
    next_on (by simp [Hw.psyncMatch, Hw.takeCandidate, hsearching, hsyncState])

theorem psyncMatch_table_completes : Claims.psyncMatch_table := fun c pos v hec s hsearching hsyncState =>
  show execPsyncMatch c pos s v hec = _ from
    next_on (by simp [Hw.psyncMatch, hsearching, hsyncState])

theorem candidateStale_completes : Claims.candidateStale := fun c s =>
  show execCandidateStale c s = _ from next_on rfl

theorem framePosition_confirm_completes : Claims.framePosition_confirm :=
  fun c errs sfc oc s hon hrx hlooped hstate htol hfew =>
  show execFramePosition c errs .ok sfc oc s = _ from
    next_on ((Hw.framePosition_presync hon hrx hlooped hstate).trans (Hw.presyncPosition_confirm htol hfew))

theorem framePosition_false_completes : Claims.framePosition_false := fun c errs sfc oc s hon hrx hlooped hstate htol =>
  show execFramePosition c errs .ok sfc oc s = _ from
    next_on ((Hw.framePosition_presync hon hrx hlooped hstate).trans (if_neg fun h => Nat.not_le.mpr htol h.1))

theorem framePosition_completes : Claims.framePosition := fun c errs sfc oc s hon hrx hlooped hstate htol =>
  show execFramePosition c errs .ok sfc oc s = _ from
    next_on ((Hw.framePosition_sync hon hrx hlooped hstate).trans (Hw.syncPosition_good rfl htol))

theorem framePosition_lost_completes : Claims.framePosition_lost :=
  fun c errs sfc oc s hon hrx hlooped hstate htol hlast =>
  show execFramePosition c errs .ok sfc oc s = _ from
    next_on ((Hw.framePosition_sync hon hrx hlooped hstate).trans
      (Hw.syncPosition_lost rfl (Bool.or_eq_true_iff.mpr (.inl (decide_eq_true htol))) hlast))

theorem framePosition_run_completes : Claims.framePosition_run := fun c errs sfc oc s hon hrx hlooped hstate hfew =>
  show execFramePosition c errs .bad sfc oc s = _ from
    next_on ((Hw.framePosition_sync hon hrx hlooped hstate).trans
      (Hw.syncPosition_run rfl (Bool.or_eq_true_iff.mpr (.inr rfl)) hfew))

theorem framePosition_expected_completes : Claims.framePosition_expected :=
  fun c errs sfc oc s hon hrx hlooped hstate htol hfew =>
  show execFramePosition c errs .ok sfc oc s = _ from
    next_on ((Hw.framePosition_sync hon hrx hlooped hstate).trans
      (Hw.syncPosition_run rfl (Bool.or_eq_true_iff.mpr (.inl (decide_eq_true htol))) hfew))

theorem resync_completes : Claims.resync := fun _ _ _ _ hadm hfield =>
  next_onAccess hadm (if_pos hfield)

theorem codewordDecoded_completes : Claims.codewordDecoded := fun c w line s hdecoding hframe => by
  show execCodewordDecoded c w s line = _
  refine next_on ?_
  cases w with
  | clean =>
    simp [Hw.codeword, Hw.uncorrectable, Hw.onlyIf, hdecoding, hframe]
    rfl
  | corrected bits iters =>
    by_cases hiters : s.hw.rd (TRK_DLN_CFG.ITER_MAX c) < iters
    · simp [Hw.codeword, Hw.uncorrectable, Hw.onlyIf, hdecoding, hframe, hiters]
      rfl
    · simp [Hw.codeword, Hw.uncorrectable, Hw.onlyIf, hdecoding, hframe, hiters]
      rfl
  | bad =>
    simp [Hw.codeword, Hw.uncorrectable, Hw.onlyIf, hdecoding, hframe]
    rfl

theorem codewordDecoded_presync_completes : Claims.codewordDecoded_presync := fun c w line s hdecoding hframe htail => by
  have hcounts : ((s.hw.dln c).inFrame || (s.hw.dln c).tailCounts) = false := by simp [hframe, htail]
  show execCodewordDecoded c w s line = _
  refine next_on ((if_neg (by simp [hdecoding])).trans ?_)
  simp only [hcounts, Bool.false_eq_true, if_false]
  rfl

end Sys2Proof.Machine

namespace Sys2Proof
open Machine

/-- Settles O36: each row, under its conditions, has the effect named. -/
theorem delineationCommandsComplete : Obligations.DelineationCommandsComplete :=
  ⟨psyncMatch_completes, psyncMatch_table_completes, candidateStale_completes, framePosition_confirm_completes,
    framePosition_false_completes, framePosition_completes, framePosition_lost_completes, framePosition_run_completes,
    framePosition_expected_completes, resync_completes, codewordDecoded_completes, codewordDecoded_presync_completes⟩

end Sys2Proof
end

section
/-!
SUPPORT. Where the commands of allocation structures, PLOAM and GEM frames complete, and the settlement of the statement
about them.
-/
namespace Sys2Proof.Machine

/-- A grant that begins a burst, in O5 with a valid profile on an awake channel, is assembled (R138, R140-R142). -/
theorem Hw.grantPassed_opens {s p : Hw} {c : Nat} {g : GrantIn} (hopens : g.opens = true)
    (hp : p = (s.keySwitch c).modDln c (fun d => { d with prevFate := 0 })) (hawake : p.rd (TRK_ACT_STATUS.PM_STATE c) ≠ 3)
    (hact : p.rd (TRK_ACT_STATUS.ACT_STATE c) = 5) (hprofile : p.profileValid c g.profile = true) :
    s.grantPassed c g = p.assemble c g := by
  subst hp
  simp [Hw.grantPassed, hopens, hawake, hact, hprofile]

theorem Hw.dln_modDln (s : Hw) (c : Nat) (f : Dln → Dln) : (s.modDln c f).dln c = f (s.dln c) := Sparse.get_set_self _ _ _ _

theorem Hw.dln_note (s : Hw) (c o kind n : Nat) : (s.note o kind n).dln c = s.dln c := by
  simp [Hw.dln]

/-- Payload in the clear for a port that requires no encryption stays as it is. -/
theorem Hw.lineDecrypt_clear {s : Hw} {c x : Nat} (pos : Nat) (bs : Bytes) (henc : s.t (GEM_PORT.ENC_REQ c x) = 0) :
    s.lineDecrypt c x 0 pos bs = (s, some bs) := by
  simp [Hw.lineDecrypt, henc]

/-- A whole frame, no fragment open or due, is delivered as it came (R116). -/
theorem Hw.gemAccept_whole {s : Hw} {c : Nat} (x port : Nat) (first : Bool) (bs : Bytes) (hfrag : (s.dln c).frag = none)
    (hdue : (s.dln c).fragDue = false) :
    s.gemAccept c x port true first bs = s.gemDeliver c
      { port := port, bytes := bs, bonded := s.t (GEM_PORT.BONDED c x) == 1, group := s.t (GEM_PORT.GROUP c x),
        dest := s.t (GEM_PORT.DEST c x) } := by
  simp [Hw.gemAccept, hfrag, hdue]

theorem hlendRx_completes : Claims.hlendRx := fun c maps ploams s hinFrame hhl =>
  show execHlendRx c .bad s maps ploams = _ from
    next_on (by simp [Hw.hlend, hinFrame, hhl])

theorem hlendRx_good_completes : Claims.hlendRx_good := fun c hec maps ploams s hinFrame hhl hbad =>
  show execHlendRx c hec s maps ploams = _ from
    next_on (by simp [Hw.hlend, hinFrame, hhl, hbad])

theorem allocationStructure_completes : Claims.allocationStructure := by
  intro c id st size profile ploamu dbru late x s h m eqd t a b k p g hmap hown hend hstart hcount heqd hfree hawake hact hprofile
  have hpassed : (m.dropOverlapped c a b).grantPassed c g = p.assemble c g := Hw.grantPassed_opens rfl rfl hawake hact hprofile
  have hm : s.hw.modDln c (fun d => { d with maps := d.maps - 1 }) = m := rfl
  have hrange : ¬ (m.usWords c < st + size ∨ m.usWords c ≤ st) := by omega
  clear_value m
  simp only [g, a, b, t, eqd] at heqd hfree hpassed ⊢
  show execAllocationStructure c .ok id (some st) size profile ploamu dbru false late s = _
  refine next_on ?_
  simp only [Hw.allocation, h, hm, hmap, hown, if_neg hrange, if_neg (Nat.not_le.mpr hcount), heqd, hfree, hpassed, Hw.onlyIf,
    Option.isSome_some, Bool.false_and, Bool.false_eq_true, reduceCtorEq, if_true, if_false]

theorem allocationStructure_hec_completes : Claims.allocationStructure_hec := fun c id st size profile ploamu dbru wake late s hinMap =>
  show execAllocationStructure c .bad id st size profile ploamu dbru wake late s = _ from
    next_on (by simp [Hw.allocation, Hw.structureLost, hinMap])

theorem allocationStructure_foreign_completes : Claims.allocationStructure_foreign := fun c id st size profile ploamu dbru wake late s
    hinMap hallocOwn =>
  show execAllocationStructure c .ok id st size profile ploamu dbru wake late s = _ from
    next_on (by simp [Hw.allocation, Hw.onlyIf, Hw.structureLost, hinMap, hallocOwn])

theorem ploamMessageRx_completes : Claims.ploamMessageRx := fun c onu msg s hinPloam honuIdValid honuId hneq hpmState =>
  show execPloamMessageRx c onu msg false s = _ from
    next_on (by simp [Hw.ploamRx, Hw.putPloam, hinPloam, honuIdValid, honuId, hneq, hpmState])

theorem ploamMessageRx_errored_completes : Claims.ploamMessageRx_errored := fun c onu msg s hinPloam =>
  show execPloamMessageRx c onu msg true s = _ from
    next_on (by simp [Hw.ploamRx, hinPloam])

theorem ploamPop_completes : Claims.ploamPop := fun _ _ _ _ hadm hfield hlevel =>
  next_onAccess hadm (by simp [Hw.ploamPop, Hw.onlyIf, hfield, hlevel])

theorem ploamPop_more_completes : Claims.ploamPop_more := fun m c v s hadm hpop hmore =>
  next_onAccess hadm ((if_neg (by rw [hpop]; omega)).trans (Hw.onlyIf_pos _ _ hmore))

theorem gemFrameRx_completes : Claims.gemFrameRx := by
  intro c pli port remaining pos payload x s h g n hpayload hleft hfrag hpli hport henc hdue
  have hdln : n.dln c = { s.hw.dln c with firstGem := false, fsLeft := (s.hw.dln c).fsLeft - 8 - pli } := by
    simp only [n, g, h, Hw.dln_note, Hw.dln_modDln]
  have hlive : ¬ ((s.hw.dln c).inPayload = false ∨ (s.hw.dln c).fsLeft < 8) :=
    not_or.mpr ⟨fun hoff => Bool.noConfusion (hpayload.symm.trans hoff), Nat.not_lt.mpr hleft⟩
  have haccept := Hw.gemAccept_whole (s := n) x port (s.hw.dln c).firstGem (payload.take pli) (by rw [hdln, hfrag]) (by rw [hdln, hdue])
  have hdecrypt := Hw.lineDecrypt_clear pos (payload.take pli) henc
  simp only [n, g, h] at haccept hdecrypt hport ⊢
  show execGemFrameRx c .ok pli 0 port true false false remaining pos payload s = _
  refine next_on ((if_neg hlive).trans ?_)
  simp only [hport, hdecrypt, haccept, Hw.onlyIf, false_or, Bool.false_eq_true, reduceCtorEq, if_false,
    Fin.isValue, Fin.coe_ofNat_eq_mod, Nat.zero_mod]
  exact if_neg (Nat.not_lt.mpr hpli)

theorem gemFrameRx_lost_completes : Claims.gemFrameRx_lost := fun c pli idx port lf idle errored remaining pos payload s hinPayload
    hfsLeft hfragDue =>
  show execGemFrameRx c .bad pli idx port lf idle errored remaining pos payload s = _ from
    next_on (by simp [Hw.gemRx, hinPayload, hfsLeft, hfragDue])

end Sys2Proof.Machine

namespace Sys2Proof
open Machine

/-- Settles O37: each row, under its conditions, has the effect named. -/
theorem grantPloamAndGemCommandsComplete : Obligations.GrantPloamAndGemCommandsComplete :=
  ⟨hlendRx_completes, hlendRx_good_completes, allocationStructure_completes, allocationStructure_hec_completes,
    allocationStructure_foreign_completes, ploamMessageRx_completes, ploamMessageRx_errored_completes, ploamPop_completes,
    ploamPop_more_completes, gemFrameRx_completes, gemFrameRx_lost_completes⟩

end Sys2Proof
end

section
/-!
SUPPORT. Where the commands of the packet instructions of the engines complete, and the settlement of the statement about
them.
-/
namespace Sys2Proof.Machine

/-- A command of an executing engine, admitted: its status is written behind its effect (R362). -/
theorem next_engineCmd {s : State} {e : Fin 64} {v : Word} {f : Hw → Hw × Nat} {w : Hw} {st : Nat}
    (hexec : s.hw.executing e = true) (hadm : s.hw.admits (.engine e) (ENG_CMD.A e) true)
    (hrow : f (((s.hw.reached (.engine e) (ENG_CMD.A e)).plainWrite (ENG_CMD.A e) v).perf e 0x0E) = (w, st)) :
    s.on (fun h => h.engineCmd e v f) = .next (s.finish (w.wr (ENG_CMD.STATUS e) st)) := by
  refine next_on ((if_pos hexec).trans ((Hw.onAccess_admits hadm _).trans ?_))
  simp only [hrow]

section
variable {g : Hw} {e : Nat} {t : Task} {p : Pkt} {bs : Bytes}

/-! What each packet instruction answers, by its arguments and the task (R366). -/

theorem Hw.engineSend_plain (hspread : t.spread = none) (q : Nat) (p : Pkt) :
    g.engineSend t q p = ((g.enqueueAt q p).1, if (g.enqueueAt q p).2 then STATUS_OK else STATUS_DROPPED) := by
  simp [Hw.engineSend, hspread]

theorem Hw.emitCmd_noPkt (copy : Bool) (hrun : (g.eng e).run = some t) (hpkt : t.pkt = none) :
    g.emitCmd e copy = (g, STATUS_NO_PKT) := by
  simp only [Hw.emitCmd, hrun, hpkt]

theorem Hw.emitCmd_moves (hrun : (g.eng e).run = some t) (hpkt : t.pkt = some p) (hbytes : g.emitBytes e p = some bs) :
    g.emitCmd e false =
      ((g.setTaskPkt e none).poolUpdate p.source).engineSend t (getField (g.arg e 0) 0 18) (g.emitPkt e t p bs) := by
  simp only [Hw.emitCmd, hrun, hpkt, hbytes, Bool.false_eq_true, if_false]

theorem Hw.emitCmd_copies (hrun : (g.eng e).run = some t) (hpkt : t.pkt = some p) (hbytes : g.emitBytes e p = some bs)
    (hcells : (g.emitPkt e t p bs).cells ≤ g.freeCells) :
    g.emitCmd e true = g.engineSend t (getField (g.arg e 0) 0 18) (g.emitPkt e t p bs) := by
  simp only [Hw.emitCmd, hrun, hpkt, hbytes, if_true, if_neg (Nat.not_lt.mpr hcells)]

theorem Hw.emitCmd_noCells (hrun : (g.eng e).run = some t) (hpkt : t.pkt = some p) (hbytes : g.emitBytes e p = some bs)
    (hcells : g.freeCells < (g.emitPkt e t p bs).cells) : g.emitCmd e true = (g, STATUS_NO_CELLS) := by
  simp only [Hw.emitCmd, hrun, hpkt, hbytes, if_true, if_pos hcells]

theorem Hw.dropCmd_held (hrun : (g.eng e).run = some t) (hpkt : t.pkt = some p) :
    g.dropCmd e = ((g.setTaskPkt e none).poolUpdate p.source, STATUS_OK) := by
  simp only [Hw.dropCmd, hrun, hpkt, Option.map_some, Option.getD_some]

theorem Hw.postCmd_plain (halign : (g.arg e 0).toNat % 64 = 0) (hplace : (g.arg e 0).toNat < 0x20000)
    (hgive : getField (g.arg e 1) 12 1 = 0) :
    g.postCmd e =
      if getField (g.arg e 2) 0 24 = 0 then
        (g.postTask e none (((g.eng e).run.map Task.ds).getD false)).1.postNow
          (g.postTask e none (((g.eng e).run.map Task.ds).getD false)).2 g
      else
        (g.postTask e none (((g.eng e).run.map Task.ds).getD false)).1.postLater e (getField (g.arg e 1) 10 2)
          (getField (g.arg e 2) 0 24) (g.postTask e none (((g.eng e).run.map Task.ds).getD false)).2 g := by
  have hgood : ¬ ((g.arg e 0).toNat % 64 ≠ 0 ∨ 0x20000 ≤ (g.arg e 0).toNat) := by omega
  unfold Hw.postCmd
  simp only [if_neg hgood, hgive, zero_ne_one, if_false, Option.isSome_none, Bool.false_eq_true]

theorem Hw.postNow_ready {k : Task} {moved : Bool} (keep : Hw) (hroute : g.taskRoute t = some (k, moved)) (hfree : g.freeDescs ≠ 0)
    (hquota : g.readyCount (k.engine / 8) < g.rd (TIL_CL_CFG.CL_QUOTA (k.engine / 8))) :
    g.postNow t keep = ((g.onlyIf (moved = true) (·.tilCount 1)).taskEnter k, STATUS_OK) := by
  have hroom : ¬ (g.freeDescs = 0 ∨ g.rd (TIL_CL_CFG.CL_QUOTA (k.engine / 8)) ≤ g.readyCount (k.engine / 8)) := by omega
  simp only [Hw.postNow, hroute, if_neg hroom]

theorem Hw.postNow_noEngine (keep : Hw) (hroute : g.taskRoute t = none) : g.postNow t keep = (g.taskNoEngine t, STATUS_OK) := by
  simp only [Hw.postNow, hroute]

theorem Hw.endCmd_task (hrun : (g.eng e).run = some t) :
    g.endCmd e = ((g.perf e 4).onlyIf (t.pkt.isSome = true) (fun s => s.count (ENG_CNT.COUNT e 2))).engineFree e := by
  simp only [Hw.endCmd, hrun]

theorem Hw.endCmd_init (hrun : (g.eng e).run = none)
    (hon : ((g.modEng e (fun x => { x with init := false })).lcOn (engFn e)).engOn e = true) :
    g.endCmd e = ((g.modEng e (fun x => { x with init := false })).lcOn (engFn e)).wr (TIL_CL_STATUS.DRAINING (e / 8)) 0 := by
  simp only [Hw.endCmd, hrun, Hw.onlyIf, if_pos hon]

end

theorem emit_completes : Claims.emit := fun e v _ _ _ s hexec hadm hrun hpkt hbytes hspread =>
  show execEmit e v s = _ from
    next_engineCmd hexec hadm ((Hw.emitCmd_moves hrun hpkt hbytes).trans (Hw.engineSend_plain hspread _ _))

theorem emit_no_pkt_completes : Claims.emit_no_pkt := fun e v _ s hexec hadm hrun hpkt =>
  show execEmit e v s = _ from next_engineCmd hexec hadm (Hw.emitCmd_noPkt false hrun hpkt)

theorem emitCopy_completes : Claims.emitCopy := fun e v _ _ _ s hexec hadm hrun hpkt hbytes hcells hspread =>
  show execEmitCopy e v s = _ from
    next_engineCmd hexec hadm ((Hw.emitCmd_copies hrun hpkt hbytes hcells).trans (Hw.engineSend_plain hspread _ _))

theorem emitCopy_cells_completes : Claims.emitCopy_cells := fun e v _ _ _ s hexec hadm hrun hpkt hbytes hcells =>
  show execEmitCopy e v s = _ from next_engineCmd hexec hadm (Hw.emitCmd_noCells hrun hpkt hbytes hcells)

theorem drop_completes : Claims.drop := fun e v _ _ s hexec hadm hrun hpkt =>
  show execDrop e v s = _ from next_engineCmd hexec hadm (Hw.dropCmd_held hrun hpkt)

theorem new_completes : Claims.new := fun e v s hexec hadm hlow hhigh hplace hcells hspread =>
  show execNew e v s = _ from
    next_engineCmd hexec hadm ((if_neg (by omega)).trans ((if_neg (Nat.not_lt.mpr hcells)).trans (Hw.engineSend_plain hspread _ _)))

theorem new_bad_completes : Claims.new_bad := fun e v s hexec hadm hbad =>
  show execNew e v s = _ from next_engineCmd hexec hadm (if_pos hbad)

theorem post_completes : Claims.post := fun e v _ _ s hexec hadm halign hplace hgive hnow hroute hfree hquota =>
  show execPost e v s = _ from
    next_engineCmd hexec hadm ((Hw.postCmd_plain halign hplace hgive).trans ((if_pos hnow).trans
      (Hw.postNow_ready _ hroute hfree hquota)))

theorem post_no_engine_completes : Claims.post_no_engine := fun e v s hexec hadm halign hplace hgive hnow hroute =>
  show execPost e v s = _ from
    next_engineCmd hexec hadm ((Hw.postCmd_plain halign hplace hgive).trans ((if_pos hnow).trans (Hw.postNow_noEngine _ hroute)))

theorem post_delay_completes : Claims.post_delay := fun e v s hexec hadm halign hplace hgive hdelay hroom hfree =>
  show execPost e v s = _ from
    next_engineCmd hexec hadm ((Hw.postCmd_plain halign hplace hgive).trans ((if_neg hdelay).trans
      ((if_neg (Nat.not_le.mpr hroom)).trans (if_neg hfree))))

theorem post_bad_completes : Claims.post_bad := fun e v s hexec hadm hbad =>
  show execPost e v s = _ from next_engineCmd hexec hadm (if_pos hbad)

theorem cancel_completes : Claims.cancel := fun e v _ s hexec hadm hfind =>
  show execCancel e v s = _ from next_engineCmd hexec hadm (by simp only [Hw.cancelCmd, hfind])

theorem cancel_not_found_completes : Claims.cancel_not_found := fun e v s hexec hadm hfind =>
  show execCancel e v s = _ from next_engineCmd hexec hadm (by simp only [Hw.cancelCmd, hfind])

theorem endTask_completes : Claims.endTask := fun e v _ s hexec hadm hrun =>
  show execEnd e v s = _ from next_engineCmd hexec hadm (congrArg (·, _) (Hw.endCmd_task hrun))

theorem endTask_init_completes : Claims.endTask_init := fun e v s hexec hadm hrun hon =>
  show execEnd e v s = _ from next_engineCmd hexec hadm (congrArg (·, _) (Hw.endCmd_init hrun hon))

end Sys2Proof.Machine

namespace Sys2Proof
open Machine

/-- Settles O38: each row, under its conditions, has the effect named. -/
theorem packetInstructionsComplete : Obligations.PacketInstructionsComplete :=
  ⟨emit_completes, emit_no_pkt_completes, emitCopy_completes, emitCopy_cells_completes, drop_completes, new_completes,
    new_bad_completes, post_completes, post_no_engine_completes, post_delay_completes, post_bad_completes, cancel_completes,
    cancel_not_found_completes, endTask_completes, endTask_init_completes⟩

end Sys2Proof
end

section
/-!
SUPPORT. Where the commands of engine faults and accesses, Tiller and the drain of a cluster complete, and the settlement of
the statement about them.
-/
namespace Sys2Proof.Machine

section
variable {s : Hw} {mem : List Host.Cell} {e : Fin 64} {pc a n : Nat}

/-- Below the aliases an access is one of the engine's own memories (R360). -/
theorem Hw.engineAccess_local (hlow : a < 0x200000) (w : Option Bytes) :
    s.engineAccess mem e pc a n w = s.engineData mem e pc a n w := by
  have halias : ¬ 0x200000 ≤ a := by omega
  have hregs : ¬ 0x100000000 ≤ a := by omega
  simp only [Hw.engineAccess, halias, hregs, false_and, decide_false, Bool.and_false, Bool.false_eq_true, if_false]

theorem Hw.engineData_load (hexec : s.executing e = true) (hn : n ≠ 0) (hlow : 0x10000 ≤ a) (hhigh : a + n ≤ 0x30000) :
    s.engineData mem e pc a n none = { s with edata := s.dmemBytes e (a - 0x10000) n } := by
  simp only [Hw.engineData, hexec, hn, hlow, hhigh, Option.map_none, Option.getD_none, Bool.not_true, Bool.false_or, decide_false,
    Bool.false_eq_true, if_false, true_and, decide_true, if_true]

theorem Hw.engineData_store {bs : Bytes} (hexec : s.executing e = true) (hbs : bs ≠ []) (hlow : 0x10000 ≤ a)
    (hhigh : a + bs.length ≤ 0x30000) : s.engineData mem e pc a n (some bs) = s.dmemStore e (a - 0x10000) bs := by
  have hlen : bs.length ≠ 0 := fun h => hbs (List.length_eq_zero_iff.mp h)
  simp only [Hw.engineData, hexec, hlen, hlow, hhigh, Option.map_some, Option.getD_some, Bool.not_true, Bool.false_or, decide_false,
    Bool.false_eq_true, if_false, true_and, decide_true, if_true]

/-- Below data memory a program has nothing. -/
theorem Hw.engineData_nothing (hexec : s.executing e = true) (hn : n ≠ 0) (hlow : a < 0x10000) :
    s.engineData mem e pc a n none =
      ({ s.busError (.engine ⟨e % 64, Nat.mod_lt _ (by decide)⟩) a false 2 with edata := List.replicate n 0 }).engineFault e 2 pc a := by
  have hdata : ¬ 0x10000 ≤ a := by omega
  have hcluster : ¬ 0x100000 ≤ a := by omega
  have hwindow : ¬ 0x300000 ≤ a := by omega
  have hext : ¬ extBase ≤ a := by
    simp only [extBase]
    omega
  simp only [Hw.engineData, hexec, hn, hdata, hcluster, hwindow, hext, Option.map_none, Option.getD_none, Option.isSome_none,
    Bool.not_true, Bool.false_or, decide_false, Bool.false_eq_true, if_false, false_and]

/-- An engine's window onto its own registers (R360). -/
theorem Hw.engineAccess_alias (hexec : s.executing e = true) (w : Option Bytes) (hn : (w.map List.length).getD n ≠ 0)
    (hlow : 0x200000 ≤ a) (hhigh : a + (w.map List.length).getD n ≤ 0x210000) :
    s.engineAccess mem e pc a n w =
      s.engineReg mem e pc a (0x6000000 + e * 0x10000 + (a - 0x200000)) ((w.map List.length).getD n) false w := by
  simp [Hw.engineAccess, hexec, hn, hlow, hhigh]

/-- And the register space as a program sees it. -/
theorem Hw.engineAccess_far (hexec : s.executing e = true) (w : Option Bytes) (hn : (w.map List.length).getD n ≠ 0)
    (hlow : 0x100000000 ≤ a) (hhigh : a + (w.map List.length).getD n ≤ 0x110000000) :
    s.engineAccess mem e pc a n w = s.engineReg mem e pc a (a - 0x100000000) ((w.map List.length).getD n) true w := by
  have halias : ¬ a + (w.map List.length).getD n ≤ 0x210000 := by omega
  simp [Hw.engineAccess, hexec, hn, hlow, hhigh, halias]

theorem Hw.engineReg_write {g : Nat} {bs : Bytes} (haccess : s.accessError (.engine e) g n true = 0) :
    s.engineReg mem e pc a g n false (some bs) = s.access mem (.engine e) g n (.write (BitVec.ofNat 32 (leNat bs))) := by
  simp [Hw.engineReg, Hw.onlyIf, haccess]

/-- A read of the ENG window through the register space is an error and a fault (R46, R360, R378). -/
theorem Hw.engineReg_window {g : Nat} (hlow : 0x6000000 ≤ g) (hhigh : g < 0x7000000) :
    s.engineReg mem e pc a g 4 true none =
      ({ ((s.perf e 0x0C).busError (.engine e) g false 2).answer 0#32 with
        edata := leBytes 4 (((s.perf e 0x0C).busError (.engine e) g false 2).answer 0#32).rdata.toNat }).engineFault e 2 pc a := by
  simp [Hw.engineReg, Hw.onlyIf, hlow, hhigh]

end

theorem engineFault_completes : Claims.engineFault := fun _ _ _ _ _ hfaultMay _ hfaultValid' =>
  next_on (by simp [Hw.engineFault, Hw.onlyIf, hfaultMay, hfaultValid'])

theorem engineFault_held_completes : Claims.engineFault_held := fun _ _ _ _ _ hfaultMay hfaultValid =>
  next_on (by simp [Hw.engineFault, Hw.onlyIf, hfaultMay, hfaultValid])

theorem engineDataAccess_completes : Claims.engineDataAccess := fun e pc a n s hexec hn hlow hhigh =>
  show execEngineDataAccess e pc a n none s = _ from
    next_onMem ((Hw.engineAccess_local (by omega) _).trans (Hw.engineData_load hexec hn hlow hhigh))

theorem engineDataAccess_store_completes : Claims.engineDataAccess_store := fun e pc a n bs s hexec hbs hlow hhigh => by
  have hlen : bs.length ≠ 0 := fun h => hbs (List.length_eq_zero_iff.mp h)
  show execEngineDataAccess e pc a n (some bs) s = _
  exact next_onMem ((Hw.engineAccess_local (by omega) _).trans (Hw.engineData_store hexec hbs hlow hhigh))

theorem engineDataAccess_fault_completes : Claims.engineDataAccess_fault := fun e pc a n s hexec hn hlow =>
  show execEngineDataAccess e pc a n none s = _ from
    next_onMem ((Hw.engineAccess_local (by omega) _).trans (Hw.engineData_nothing hexec hn hlow))

theorem engineDataAccess_register_completes : Claims.engineDataAccess_register := fun e pc a n v s hexec hlow hhigh haccess => by
  show execEngineDataAccess e pc a n (some (leBytes 4 v.toNat)) s = _
  exact next_onMem ((Hw.engineAccess_alias hexec (some (leBytes 4 v.toNat)) (Nat.succ_ne_zero 3) hlow hhigh).trans (Hw.engineReg_write haccess))

theorem engineDataAccess_reserved_completes : Claims.engineDataAccess_reserved := by
  intro e pc a n s h g hexec hn hlow hhigh
  have hfar : s.hw.engineAccess s.mem e pc a n none = s.hw.engineReg s.mem e pc a (a - 0x100000000) 4 true none := by
    have hread : s.hw.engineAccess s.mem e pc a 4 none = s.hw.engineReg s.mem e pc a (a - 0x100000000) 4 true none :=
      Hw.engineAccess_far hexec none (Nat.succ_ne_zero 3) (by omega) (hhigh.trans (by decide))
    rwa [hn]
  show execEngineDataAccess e pc a n none s = _
  exact next_onMem (hfar.trans (Hw.engineReg_window (by omega) (by omega)))

theorem taskDispatch_completes : Claims.taskDispatch := fun e _ s hengIdle hengIdle' =>
  show execTaskDispatch e s = _ from
    next_on (by simp [Hw.dispatch, hengIdle, hengIdle'])

theorem tillerTick_completes : Claims.tillerTick := fun i s htimRuns hfallback hneq =>
  show execTillerTick i s = _ from
    next_on (by simp [Hw.tillerTick, htimRuns, hfallback, hneq])

theorem tillerTick_fallback_completes : Claims.tillerTick_fallback := fun i s htimRuns =>
  show execTillerTick i s = _ from
    next_on (by simp [Hw.tillerTick, htimRuns])

theorem delayDue_completes : Claims.delayDue := fun i _ _ _ _ s hfirstDue htask hclQuota =>
  show execDelayDue i s = _ from
    next_on (by simp [Hw.delayDue, Hw.onlyIf, hfirstDue, htask, hclQuota])

theorem delayDue_waits_completes : Claims.delayDue_waits := fun i _ _ _ _ s hfirstDue htask hclQuota =>
  show execDelayDue i s = _ from
    next_on (by simp [Hw.delayDue, hfirstDue, htask, hclQuota])

theorem clusterDrainDone_completes : Claims.clusterDrainDone := fun _ _ hdraining hdrained hrange =>
  next_on (if_pos ⟨hdraining, hdrained, hrange⟩)

end Sys2Proof.Machine

namespace Sys2Proof
open Machine

/-- Settles O39: each row, under its conditions, has the effect named. -/
theorem tillerAndEngineEventsComplete : Obligations.TillerAndEngineEventsComplete :=
  ⟨engineFault_completes, engineFault_held_completes, engineDataAccess_completes, engineDataAccess_store_completes,
    engineDataAccess_fault_completes, engineDataAccess_register_completes, engineDataAccess_reserved_completes,
    taskDispatch_completes, tillerTick_completes, tillerTick_fallback_completes, delayDue_completes, delayDue_waits_completes,
    clusterDrainDone_completes⟩

end Sys2Proof
end

section
/-!
SUPPORT. Where the commands of meters, queue flushes, spill and refill, DRAM start and training complete, and the settlement
of the statement about them.
-/
namespace Sys2Proof.Machine

theorem meterStatWrite_completes : Claims.meterStatWrite := fun _ _ _ hadm =>
  next_onAccess hadm rfl

theorem queueFlush_completes : Claims.queueFlush := fun _ _ _ hadm hfield =>
  next_onAccess hadm (if_pos hfield)

theorem flushOnchipRelease_completes : Claims.flushOnchipRelease := fun _ _ hflush =>
  next_on (by simp [Hw.flushRelease, hflush])

theorem queueFlushDone_completes : Claims.queueFlushDone := fun _ _ hflush =>
  next_on (by simp [Hw.flushDone, Hw.flushFinish, hflush])

theorem spillMove_completes : Claims.spillMove := fun q _ _ _ s hstaging hlen =>
  show execSpillMove q s = _ from
    next_on (by simp [Hw.spillMove, hstaging, hlen])

theorem refillMove_completes : Claims.refillMove := fun q n _ s hreadable hrefillTh hcells =>
  show execRefillMove q s n = _ from
    next_on (by simp [Hw.refillMove, hreadable, hrefillTh, hcells])

theorem dramInit_completes : Claims.dramInit := fun _ _ _ hadm hfield hbulkLeft hdramUp =>
  next_onAccess hadm (if_pos ⟨hfield, hbulkLeft, hdramUp⟩)

theorem dramUp_completes : Claims.dramUp := fun _ htraining =>
  next_on (if_pos htraining)

theorem dramRetrain_completes : Claims.dramRetrain := fun _ _ _ _ hadm hfield hdramActive =>
  next_onAccess hadm (if_pos ⟨hfield, hdramActive⟩)

theorem dramRetrainComplete_completes : Claims.dramRetrainComplete := fun _ _ _ hchState hpass =>
  next_on ((if_pos hchState).trans (if_pos hpass))

theorem dramRetrainComplete_fail_completes : Claims.dramRetrainComplete_fail := fun _ _ _ hchState hpass =>
  next_on (by simp [hchState, hpass])

end Sys2Proof.Machine

namespace Sys2Proof
open Machine

/-- Settles O40: each row, under its conditions, has the effect named. -/
theorem queueMeterAndDramCommandsComplete : Obligations.QueueMeterAndDramCommandsComplete :=
  ⟨meterStatWrite_completes, queueFlush_completes, flushOnchipRelease_completes, queueFlushDone_completes, spillMove_completes,
    refillMove_completes, dramInit_completes, dramUp_completes, dramRetrain_completes, dramRetrainComplete_completes,
    dramRetrainComplete_fail_completes⟩

end Sys2Proof
end

section
/-!
SUPPORT. Where the commands of retired channels, memory errors, refresh and shaper debts complete, and the settlement of the
statement about them.
-/
namespace Sys2Proof.Machine

theorem dramRetire_completes : Claims.dramRetire := fun _ _ _ _ hadm hfield hdramActive hchState =>
  next_onAccess hadm (if_pos ⟨hfield, hdramActive, hchState⟩)

theorem dramPageCopyDone_completes : Claims.dramPageCopyDone := fun _ _ hchState hsharedPages =>
  next_on (if_pos ⟨hchState, hsharedPages⟩)

theorem dramRelocationDone_completes : Claims.dramRelocationDone := fun _ _ hchState hsharedPages htrue =>
  next_on (by simp [hchState, hsharedPages, htrue])

theorem dramUncorrError_completes : Claims.dramUncorrError := fun r w s hwindow hfailLimit =>
  show execDramUncorrError r w s = _ from
    next_onMem (by simp [Hw.dramUncorr, hwindow, hfailLimit])

theorem dramUncorrError_packet_completes : Claims.dramUncorrError_packet := fun r q s hfailLimit =>
  show execDramUncorrError r (.packet q) s = _ from
    next_onMem (by simp [Hw.dramUncorr, hfailLimit])

theorem dramUncorrError_context_completes : Claims.dramUncorrError_context := fun r f s hfailLimit =>
  show execDramUncorrError r (.context f) s = _ from
    next_onMem (by simp [Hw.dramUncorr, hfailLimit])

theorem dramUncorrError_fail_completes : Claims.dramUncorrError_fail := fun r w s hwindow hfailLimit hdramUp hchState =>
  show execDramUncorrError r w s = _ from
    next_onMem (by simp [Hw.dramUncorr, hwindow, hfailLimit, hdramUp, hchState])

theorem refreshAdjust_completes : Claims.refreshAdjust := fun _ _ _ hdomRuns hrefMin hrefMin' hrefMax =>
  next_on (by simp [Hw.onlyIf, hdomRuns, hrefMin, hrefMin', hrefMax])

theorem refreshAdjust_clamp_completes : Claims.refreshAdjust_clamp := fun _ _ _ hdomRuns hinto =>
  next_on (by simp [Hw.onlyIf, hdomRuns, hinto])

theorem clearDebt_completes : Claims.clearDebt := fun _ _ _ _ _ hadm hfield hfield' hfield'' =>
  next_onAccess hadm (by simp [Hw.shpCmd, hfield, hfield', hfield''])

theorem clearDebt_bad_completes : Claims.clearDebt_bad := fun _ _ _ hadm hfield hfield' =>
  next_onAccess hadm (by simp [Hw.shpCmd, hfield, hfield'])

end Sys2Proof.Machine

namespace Sys2Proof
open Machine

/-- Settles O41: each row, under its conditions, has the effect named. -/
theorem dramRepairAndShaperCommandsComplete : Obligations.DramRepairAndShaperCommandsComplete :=
  ⟨dramRetire_completes, dramPageCopyDone_completes, dramRelocationDone_completes, dramUncorrError_completes,
    dramUncorrError_packet_completes, dramUncorrError_context_completes, dramUncorrError_fail_completes, refreshAdjust_completes,
    refreshAdjust_clamp_completes, clearDebt_completes, clearDebt_bad_completes⟩

end Sys2Proof
end

section
/-!
SUPPORT. Where the commands of the commands of Husk and its random generator complete, and the settlement of the statement
about them.
-/
namespace Sys2Proof.Machine

/-- A Husk command after HANDOFF, by a master whose access is admitted: the running one ends first, its effect is at once, and
its result waits behind BUSY (R418). -/
theorem Hw.hskCmd_admitted {s : Hw} {m : Master} {v : Word} {f : Hw → Hw × Nat} {w : Hw} {st : Nat}
    (hadm : s.admits m HSK_CMD.A true) (hhandoff : ((s.reached m HSK_CMD.A).hskDone.fullWrite HSK_CMD.A v).rd HSK_STATUS.HANDOFF ≠ 0)
    (hrow : f ((s.reached m HSK_CMD.A).hskDone.fullWrite HSK_CMD.A v) = (w, st)) :
    s.hskCmd m v f = (w.modHsk (fun h => { h with cmd := some st })).wr HSK_CMD.BUSY 1 := by
  refine (Hw.onAccess_admits hadm _).trans ((if_neg hhandoff).trans ?_)
  simp only [hrow]

theorem getId_completes : Claims.getId := fun m v s hadm hhandoff hlife hbacked =>
  show execGetId m v s = _ from
    next_on (Hw.hskCmd_admitted hadm hhandoff ((if_neg hlife).trans (if_pos hbacked)))

theorem getId_mem_completes : Claims.getId_mem := fun m v s hadm hhandoff hlife hbacked =>
  show execGetId m v s = _ from
    next_on (Hw.hskCmd_admitted hadm hhandoff ((if_neg hlife).trans (if_neg (Bool.not_eq_true _ ▸ hbacked))))

theorem attest_completes : Claims.attest := fun m v s hadm hhandoff hlife hrng hbacked =>
  show execAttest m v s = _ from
    next_onMem (Hw.hskCmd_admitted hadm hhandoff ((if_neg hlife).trans ((if_neg hrng).trans (if_pos hbacked))))

theorem attest_rng_completes : Claims.attest_rng := fun m v s hadm hhandoff hlife hrng =>
  show execAttest m v s = _ from
    next_onMem (Hw.hskCmd_admitted hadm hhandoff ((if_neg hlife).trans (if_pos hrng)))

theorem measExtend_completes : Claims.measExtend := fun m v s hadm hhandoff hbacked =>
  show execMeasExtend m v s = _ from
    next_onMem (Hw.hskCmd_admitted hadm hhandoff (if_pos hbacked))

theorem revoke_completes : Claims.revoke := fun m v fail s hadm hhandoff hrunning hothers hfail =>
  show execRevoke m v fail s = _ from
    next_on (Hw.hskCmd_admitted hadm hhandoff ((if_neg (by
      simpa [hothers, or_iff_not_imp_left] using hrunning)).trans (if_neg (by simp [hfail]))))

theorem advanceSvn_completes : Claims.advanceSvn := fun m v s hadm hhandoff hrange habove himage =>
  show execAdvanceSvn m v none s = _ from
    next_on (Hw.hskCmd_admitted hadm hhandoff ((if_neg (Nat.not_lt.mpr hrange)).trans ((if_neg (Nat.not_le.mpr habove)).trans
      (if_neg (Nat.not_lt.mpr himage)))))

theorem advanceSvn_refused_completes : Claims.advanceSvn_refused := fun m v fail s hadm hhandoff hrange habove himage =>
  show execAdvanceSvn m v fail s = _ from
    next_on (Hw.hskCmd_admitted hadm hhandoff ((if_neg (Nat.not_lt.mpr hrange)).trans ((if_neg (Nat.not_le.mpr habove)).trans
      (if_pos himage))))

theorem setProduction_completes : Claims.setProduction := fun m v fail s hadm hhandoff hword hlife hfail =>
  show execSetProduction m v fail s = _ from
    next_on (Hw.hskCmd_admitted hadm hhandoff ((if_neg (not_not.mpr hword)).trans ((if_neg (not_not.mpr hlife)).trans
      (if_neg (by simp [hfail])))))

theorem hskCmdDone_completes : Claims.hskCmdDone := fun _ _ hcmd =>
  next_on (by simp [Hw.hskDone, hcmd])

theorem hskRngRead_completes : Claims.hskRngRead := fun _ _ hadm hrngOk =>
  next_onAccess hadm (if_pos hrngOk)

theorem hskRngRead_fail_completes : Claims.hskRngRead_fail := fun _ _ hadm hrngOk =>
  next_onAccess hadm (if_neg hrngOk)

theorem rngHealthFail_completes : Claims.rngHealthFail := fun s =>
  show execRngHealthFail s = _ from next_on rfl

end Sys2Proof.Machine

namespace Sys2Proof
open Machine

/-- Settles O42: each row, under its conditions, has the effect named. -/
theorem huskCommandsComplete : Obligations.HuskCommandsComplete :=
  ⟨getId_completes, getId_mem_completes, attest_completes, attest_rng_completes, measExtend_completes, revoke_completes,
    advanceSvn_completes, advanceSvn_refused_completes, setProduction_completes, hskCmdDone_completes, hskRngRead_completes,
    hskRngRead_fail_completes, rngHealthFail_completes⟩

end Sys2Proof
end

section
/-!
SUPPORT. Where the commands of the check-value engine and zeroisation complete, and the settlement of the statement about
them.
-/
namespace Sys2Proof.Machine

section
variable {s g : Hw} {m : Master} {op : Nat} {v : Word} (mem : List Host.Cell) (hadm : s.admits m CVE_CTRL.A true)
  (howner : (s.reached m CVE_CTRL.A).cveOwner m = true)
  (hgo : (s.reached m CVE_CTRL.A).cveDone.fullWrite CVE_CTRL.A (setField v 0 2 op) = g)
include hadm howner hgo

/-- GO of an operation that is refused: the refusal is what the operation will end with (R434). -/
theorem Hw.cveGo_refused {why : Nat} (hrefused : g.cveRefusal m op = some why) : s.cveGo mem m op v =
    ((({ g with cip := { g.cip with cve := some { op := op, slot := g.rd CVE_CTRL.SLOT, result := why } } } : Hw).wr
      CVE_STATUS.BUSY 1).onlyIf
        (why == 7 && g.poisoned ((g.word CVE_SRC_LO.A).toNat + 2 ^ 32 * (g.word CVE_SRC_HI.A).toNat - extBase)
          (g.rd CVE_LEN.BYTES))
        (fun x => x.grnRaise EV_GRN.DRAM_UNCORR_EV)) := by
  refine (Hw.onAccess_admits hadm _).trans ((if_neg (by simp [howner])).trans ?_)
  simp only [hgo, hrefused]

/-- GO of an operation that is not refused: the operation's result is known, and none of its results is 7, the one that
tells of a poisoned message (R434). -/
theorem Hw.cveGo_runs {a : Nat} {msg mac : Bytes}
    (ha : (g.word CVE_SRC_LO.A).toNat + 2 ^ 32 * (g.word CVE_SRC_HI.A).toNat = a)
    (hmsg : (if g.rd CVE_CTRL.SRC_BUF = 1 then (g.regBytes (CVE_BUF.A 0) 16).take (g.rd CVE_LEN.BYTES)
      else g.memBytes mem (a - extBase) (g.rd CVE_LEN.BYTES)) = msg)
    (hmac : macOf (g.rd CVE_CTRL.ALG) (g.t (CVE_KEY.KEY (g.rd CVE_CTRL.SLOT))) (g.t (CVE_KEY.KEY_LEN (g.rd CVE_CTRL.SLOT))) msg = mac)
    (hnone : g.cveRefusal m op = none) : s.cveGo mem m op v =
    ({ g with cip := { g.cip with cve := some ({
        op := op, slot := g.rd CVE_CTRL.SLOT, dst := g.rd CVE_CTRL.DST_SLOT, tagLen := g.rd CVE_CTRL.TAG_LEN
        result := if op = 2 then
          (if (List.range (g.rd CVE_CTRL.TAG_LEN)).all (fun i => byteAt mac i == byteAt (g.regBytes (CVE_TAG.A 0) 12) i)
            then 1 else 2) else 0
        mac := (List.range 48).map (fun i => BitVec.ofNat 8 (byteAt mac i))
        secureOnly := g.t (CVE_KEY.SECURE_ONLY (g.rd CVE_CTRL.SLOT)) == 1
          || g.t (CVE_KEY.SECURE_ONLY (g.rd CVE_CTRL.DST_SLOT)) == 1 } : CveRun) } } : Hw).wr CVE_STATUS.BUSY 1 := by
  refine (Hw.onAccess_admits hadm _).trans ((if_neg (by simp [howner])).trans ?_)
  simp only [hgo, hnone, ha, hmsg, hmac]
  refine Hw.onlyIf_neg _ _ ?_
  split
  · split <;> simp
  · simp

end

theorem rngRecover_completes : Claims.rngRecover := fun s =>
  show execRngRecover s = _ from next_on rfl

theorem cveDone_generate_completes : Claims.cveDone_generate := fun r s hcve hop hresult hsoft =>
  next_on (by
    simp only [Hw.cveDone, hcve, hop, Nat.not_le.mpr hresult, if_false]
    rw [Hw.onlyIf_neg _ _ fun h => h.1 hsoft])

theorem cveDone_completes : Claims.cveDone := fun _ _ hcve hresult =>
  next_on (by simp [Hw.cveDone, hcve, hresult])

theorem zeroise_completes : Claims.zeroise := fun _ _ _ hadm hfield =>
  next_onAccess hadm (by simp [Hw.zeroise, hfield])

theorem zeroiseDone_completes : Claims.zeroiseDone := fun _ hzeroising =>
  next_on (if_pos hzeroising)

theorem cveGenerate_completes : Claims.cveGenerate := fun m v s hadm howner hnone =>
  show execCveGenerate m v s = _ from next_onMem (Hw.cveGo_runs _ hadm howner rfl rfl rfl rfl hnone)

theorem cveGenerate_refused_completes : Claims.cveGenerate_refused := fun m v _ s hadm howner hrefused =>
  show execCveGenerate m v s = _ from next_onMem (Hw.cveGo_refused _ hadm howner rfl hrefused)

theorem cveVerify_completes : Claims.cveVerify := fun m v s hadm howner hnone =>
  show execCveVerify m v s = _ from next_onMem (Hw.cveGo_runs _ hadm howner rfl rfl rfl rfl hnone)

theorem cveVerify_refused_completes : Claims.cveVerify_refused := fun m v _ s hadm howner hrefused =>
  show execCveVerify m v s = _ from next_onMem (Hw.cveGo_refused _ hadm howner rfl hrefused)

theorem cveDerive_completes : Claims.cveDerive := fun m v s hadm howner hnone =>
  show execCveDerive m v s = _ from next_onMem (Hw.cveGo_runs _ hadm howner rfl rfl rfl rfl hnone)

theorem cveDerive_refused_completes : Claims.cveDerive_refused := fun m v _ s hadm howner hrefused =>
  show execCveDerive m v s = _ from next_onMem (Hw.cveGo_refused _ hadm howner rfl hrefused)

end Sys2Proof.Machine

namespace Sys2Proof
open Machine

/-- Settles O43: each row, under its conditions, has the effect named. -/
theorem checkValueAndZeroiseCommandsComplete : Obligations.CheckValueAndZeroiseCommandsComplete :=
  ⟨rngRecover_completes, cveDone_generate_completes, cveDone_completes, zeroise_completes, zeroiseDone_completes,
    cveGenerate_completes, cveGenerate_refused_completes, cveVerify_completes, cveVerify_refused_completes, cveDerive_completes,
    cveDerive_refused_completes⟩

end Sys2Proof
end

section
/-!
SUPPORT. Where the commands of the trunk receivers, loss of signal and the optical modules complete, and the settlement of
the statement about them.
-/
namespace Sys2Proof.Machine

/-- A trunk loop that wants the code above its bound takes the bound, and a clamp is counted (R71, R72). -/
theorem Hw.adaptTrunk_clamped {s m : Hw} {c : Fin 4} {ctle : Nat} {thr dfe1 : Int} {dfe : List Int}
    (hadapts : s.adapts (.trunk c) = true) (hm : s.moveCodes (.trunk c) = m)
    (hbeyond : m.rd (TRK_RX_BOUNDS.CTLE_MAX c) < ctle) : s.adaptTrunk c ctle thr dfe1 dfe false =
    ((((m.wr (TRK_RX_EQ_STATUS.CTLE c) (m.rd (TRK_RX_BOUNDS.CTLE_MAX c))).wr (TRK_RX_EQ_STATUS.THR c)
      (unsigned 6 (clampInt (m.rdS (TRK_RX_BOUNDS.THR_MIN c)) (m.rdS (TRK_RX_BOUNDS.THR_MAX c)) thr))).wr
        (TRK_RX_EQ_STATUS.DFE1 c) (unsigned 8 dfe1)).modOpt c (fun o => { o with dfe := dfe })).count
          (TRK_RX_CLAMP_COUNT.POLICY_CLAMP_COUNT c) := by
  have hcode : min (m.rd (TRK_RX_BOUNDS.CTLE_MAX c)) (max (m.rd (TRK_RX_BOUNDS.CTLE_MIN c)) ctle) =
      m.rd (TRK_RX_BOUNDS.CTLE_MAX c) := by omega
  refine (if_pos hadapts).trans ((Hw.onlyIf_neg _ _ Bool.false_ne_true).trans ?_)
  simp only [hm, hcode]
  exact Hw.onlyIf_pos _ _ (.inl (Nat.ne_of_lt hbeyond))

theorem cdrLockAcquired_completes : Claims.cdrLockAcquired := fun _ _ hcdrRuns hlos hcdrLock hrxOn =>
  next_on (if_pos ⟨hcdrRuns, hlos, hcdrLock, hrxOn⟩)

theorem cdrUnlock_completes : Claims.cdrUnlock := fun _ _ hcdrLock =>
  next_on (if_pos hcdrLock)

theorem adaptStep_within_completes : Claims.adaptStep_within := fun _ _ _ _ _ _ _ htrunk hctleMin hctleMax hthrMin hthrMax =>
  next_on (by simp [clampInt, Hw.onlyIf, htrunk, hctleMin, hctleMax, hthrMin, hthrMax])

theorem adaptStep_clamp_completes : Claims.adaptStep_clamp := fun c ctle thr dfe1 dfe s hadapts _ hbeyond =>
  show execAdaptStep (.trunk c) ctle thr dfe1 dfe false s = _ from
    next_on (Hw.adaptTrunk_clamped hadapts rfl hbeyond)

theorem adaptStep_lane_completes : Claims.adaptStep_lane := fun _ _ _ _ _ _ _ hsub =>
  next_on (if_pos hsub)

theorem rxBoundsWrite_completes : Claims.rxBoundsWrite := fun _ _ _ _ hadm hadapts =>
  next_onAccess hadm (if_pos hadapts)

theorem rxBoundsWrite_frozen_completes : Claims.rxBoundsWrite_frozen := fun _ _ _ _ hadm hadapts =>
  next_onAccess hadm (by simp [Hw.rxBounds, hadapts])

theorem losCfgWrite_completes : Claims.losCfgWrite := fun _ _ _ _ hadm =>
  next_onAccess hadm rfl

theorem losSourceChange_completes : Claims.losSourceChange := fun c pin ampMv s hdomRuns =>
  show execLosSourceChange c pin ampMv s = _ from next_on (if_pos hdomRuns)

theorem losSourceChange_stopped_completes : Claims.losSourceChange_stopped := fun c pin ampMv s hdomRuns =>
  show execLosSourceChange c pin ampMv s = _ from
    next_on (by simp [Hw.losSource, hdomRuns])

theorem losDeclare_completes : Claims.losDeclare := fun c s hdomRuns hlos hlosAsserted =>
  show execLosDeclare c s = _ from
    next_on (by simp [Hw.losDeclare, hdomRuns, hlos, hlosAsserted])

end Sys2Proof.Machine

namespace Sys2Proof
open Machine

/-- Settles O44: each row, under its conditions, has the effect named. -/
theorem trunkReceiverAndModuleCommandsComplete : Obligations.TrunkReceiverAndModuleCommandsComplete :=
  ⟨cdrLockAcquired_completes, cdrUnlock_completes, adaptStep_within_completes, adaptStep_clamp_completes,
    adaptStep_lane_completes, rxBoundsWrite_completes, rxBoundsWrite_frozen_completes, losCfgWrite_completes,
    losSourceChange_completes, losSourceChange_stopped_completes, losDeclare_completes⟩

end Sys2Proof
end

section
/-!
SUPPORT. Where the commands of the bursts at the pins and the guard complete, and the settlement of the statement about them.
-/
namespace Sys2Proof.Machine

section
variable {s : Hw} {c : Nat} {b : Burst} (hfront : (s.act c).bursts.find? (fun x => !x.launched) = some b)
  (hstaged : b.staged = true) (hon : s.trkOn c = true) (hlods : s.rd (TRK_DLN_STATUS.LODS c) ≠ 1)
  (hforced : s.txdisForced c = false) (hdark : s.txdisState c = false) (hsends : s.stateSends c b.kind = true)
include hfront hstaged hon hlods hforced hdark hsends

/-- A staged burst that the state transmits, with nothing to keep the laser dark, leaves (R76, R125). -/
theorem Hw.burstLaunch_leaves : s.burstLaunch c = s.launch c b := by
  simp only [Hw.burstLaunch, hfront]
  refine (if_neg (by simp [hstaged, hon, hlods])).trans ((if_neg (by simp [hforced])).trans (if_neg ?_))
  simp [hdark, hsends]

end

theorem losClear_completes : Claims.losClear := fun c s hdomRuns hlos hlosAsserted =>
  show execLosClear c s = _ from
    next_on (by simp [Hw.losClear, hdomRuns, hlos, hlosAsserted])

theorem moduleRemoved_completes : Claims.moduleRemoved := fun c s hmodAbs =>
  show execModuleRemoved c s = _ from next_on (if_neg hmodAbs)

theorem moduleInserted_completes : Claims.moduleInserted := fun c s hmodAbs =>
  show execModuleInserted c s = _ from next_on (if_neg hmodAbs)

theorem burstLaunch_completes : Claims.burstLaunch := fun c _ s hfront hstaged hon hlods hforced hdark hsends hkind hopened =>
  show execBurstLaunch c s = _ from
    next_on ((Hw.burstLaunch_leaves hfront hstaged hon hlods hforced hdark hsends).trans
      (by simp [Hw.launch, Hw.onlyIf, hkind, hopened]))

theorem burstLaunch_serial_completes : Claims.burstLaunch_serial := fun c _ s hfront hstaged hon hlods hforced hdark hsends hkind hopened =>
  show execBurstLaunch c s = _ from
    next_on ((Hw.burstLaunch_leaves hfront hstaged hon hlods hforced hdark hsends).trans
      (by simp [Hw.launch, Hw.onlyIf, hkind, hopened]))

theorem burstLaunch_dark_completes : Claims.burstLaunch_dark := fun c _ s hlaunched hstaged htrkOn hlods htxdisForced =>
  show execBurstLaunch c s = _ from
    next_on (by simp [Hw.burstLaunch, hlaunched, hstaged, htrkOn, hlods, htxdisForced])

theorem burstLaunch_merged_completes : Claims.burstLaunch_merged := fun c _ s hfront hstaged hon hlods hforced hdark hsends hkind hopened =>
  show execBurstLaunch c s = _ from
    next_on ((Hw.burstLaunch_leaves hfront hstaged hon hlods hforced hdark hsends).trans
      (by simp [Hw.launch, Hw.onlyIf, hkind, hopened]))

theorem burstLaunch_state_completes : Claims.burstLaunch_state := fun c _ s hlaunched hstaged htrkOn hlods htxdisForced hkind =>
  show execBurstLaunch c s = _ from
    next_on (by simp [Hw.burstLaunch, hlaunched, hstaged, htrkOn, hlods, htxdisForced, hkind])

theorem burstEnd_completes : Claims.burstEnd := fun c _ s hlaunched hmergedNext =>
  show execBurstEnd c s = _ from
    next_on (by simp [Hw.burstEnd, hlaunched, hmergedNext])

theorem burstEnd_merged_completes : Claims.burstEnd_merged := fun c _ _ s hlaunched hmergedNext hlaunched' =>
  show execBurstEnd c s = _ from
    next_on (by simp [Hw.burstEnd, hlaunched, hmergedNext, hlaunched'])

theorem guardOutsideWindow_completes : Claims.guardOutsideWindow := fun _ _ hcond hwindows =>
  next_on (if_pos ⟨hcond, hwindows⟩)

theorem guardTooLong_completes : Claims.guardTooLong := fun _ _ hcond =>
  next_on (if_pos hcond)

theorem guardPadMismatch_completes : Claims.guardPadMismatch := fun _ _ hcond =>
  next_on (if_pos hcond)

end Sys2Proof.Machine

namespace Sys2Proof
open Machine

/-- Settles O45: each row, under its conditions, has the effect named. -/
theorem burstAndGuardCommandsComplete : Obligations.BurstAndGuardCommandsComplete :=
  ⟨losClear_completes, moduleRemoved_completes, moduleInserted_completes, burstLaunch_completes, burstLaunch_serial_completes,
    burstLaunch_dark_completes, burstLaunch_merged_completes, burstLaunch_state_completes, burstEnd_completes,
    burstEnd_merged_completes, guardOutsideWindow_completes, guardTooLong_completes, guardPadMismatch_completes⟩

end Sys2Proof
end

section
/-!
SUPPORT. Where the commands of the two-wire bus, the pattern tests and the head end's disables complete, and the settlement
of the statement about them.
-/
namespace Sys2Proof.Machine

/-- A message that names another serial number changes nothing (R133). -/
theorem Hw.heMessage_other {s : Hw} {c serial : Nat} (disable : Bool)
    (hother : serial ≠ s.rd (TRK_SERIAL_HI.SERIAL_HI c) * 2 ^ 32 + s.rd (TRK_SERIAL.SERIAL_LO c)) :
    s.heMessage c (some serial) disable = s := by
  simp only [Hw.heMessage, if_neg hother]
  exact ite_self s

theorem twiCommand_completes : Claims.twiCommand := fun _ _ _ _ hadm hfield hbusy hpolling =>
  next_onAccess hadm (by simp [Hw.twiCommand, Hw.twiStart, hfield, hbusy, hpolling])

theorem twiCommand_waits_completes : Claims.twiCommand_waits := fun _ _ _ _ hadm hfield hbusy hpolling =>
  next_onAccess hadm (by simp [Hw.twiCommand, hfield, hbusy, hpolling])

theorem twiDone_completes : Claims.twiDone := fun _ _ _ htwiCmd hmodAbs hread =>
  next_on (by simp [Hw.onlyIf, Hw.twiResult, htwiCmd, hmodAbs, hread])

theorem twiDone_err_completes : Claims.twiDone_err := fun _ _ _ _ htwiCmd hmodAbs heeq =>
  next_on (by simp [Hw.onlyIf, Hw.twiResult, htwiCmd, hmodAbs, heeq])

theorem twiRecover_completes : Claims.twiRecover := fun _ _ _ _ hadm hfield hpolling =>
  next_onAccess hadm (by simp [Hw.twiRecover, hfield, hpolling])

theorem twiMonitorPoll_completes : Claims.twiMonitorPoll := fun c s hperiod hmodAbs hpolling htwiCmd =>
  show execTwiMonitorPoll c none [] s = _ from
    next_on (by simp [Hw.twiMonitor, Hw.twiPollStart, hperiod, hmodAbs, hpolling, htwiCmd])

theorem twiMonitorPoll_done_completes : Claims.twiMonitorPoll_done := fun _ _ _ hpolling =>
  next_on (if_pos hpolling)

theorem twiMonitorPoll_err_completes : Claims.twiMonitorPoll_err := fun _ _ _ _ hpolling heeq =>
  next_on (by simp [Hw.onlyIf, hpolling, heeq])

theorem prbsClear_completes : Claims.prbsClear := fun _ _ _ _ hadm hfield =>
  next_onAccess hadm (if_pos hfield)

theorem prbsCheckerLock_completes : Claims.prbsCheckerLock := fun _ _ hprbsFits =>
  next_on (if_pos hprbsFits)

theorem prbsLockLoss_completes : Claims.prbsLockLoss := fun _ _ _ hprbs =>
  next_on (if_pos hprbs)

theorem testBurstLaunch_completes : Claims.testBurstLaunch := fun _ _ harm hperiod hlength htxdisForced htestHold hinSync hlength' =>
  next_on (by simp [harm, hperiod, hlength, htxdisForced, htestHold, hinSync, hlength'])

theorem heDisableOnu_completes : Claims.heDisableOnu := fun c serial s hgood hmaps hploamCount hserialHi =>
  show execHeDisableOnu c serial s = _ from
    next_on (by simp [Hw.heMessage, hgood, hmaps, hploamCount, hserialHi])

theorem heDisableOnu_other_completes : Claims.heDisableOnu_other := fun c serial s hother =>
  show execHeDisableOnu c serial s = _ from next_on (Hw.heMessage_other true hother)

theorem heEnableOnu_completes : Claims.heEnableOnu := fun c serial s hgood hmaps hploamCount hserialHi =>
  show execHeEnableOnu c serial s = _ from
    next_on (by simp [Hw.heMessage, hgood, hmaps, hploamCount, hserialHi])

theorem heDisableAll_completes : Claims.heDisableAll := fun c s hgood hmaps hploamCount =>
  show execHeDisableAll c s = _ from
    next_on (by simp [Hw.heMessage, hgood, hmaps, hploamCount])

theorem heEnableAll_completes : Claims.heEnableAll := fun c s hgood hmaps hploamCount =>
  show execHeEnableAll c s = _ from
    next_on (by simp [Hw.heMessage, hgood, hmaps, hploamCount])

end Sys2Proof.Machine

namespace Sys2Proof
open Machine

/-- Settles O46: each row, under its conditions, has the effect named. -/
theorem twoWireAndPatternCommandsComplete : Obligations.TwoWireAndPatternCommandsComplete :=
  ⟨twiCommand_completes, twiCommand_waits_completes, twiDone_completes, twiDone_err_completes, twiRecover_completes,
    twiMonitorPoll_completes, twiMonitorPoll_done_completes, twiMonitorPoll_err_completes, prbsClear_completes,
    prbsCheckerLock_completes, prbsLockLoss_completes, testBurstLaunch_completes, heDisableOnu_completes,
    heDisableOnu_other_completes, heEnableOnu_completes, heDisableAll_completes, heEnableAll_completes⟩

end Sys2Proof
end

section
/-!
SUPPORT. Where the commands of the downstream scheduler, the PCS and MDIO frames complete, and the settlement of the
statement about them.
-/
namespace Sys2Proof.Machine

/-- A port node that does not forward to the twin gets its frame at its MAC (R269, R454). -/
theorem Hw.dsSelect_port {s a g : Hw} {nodes ok : List Nat} {p : Nat} {c : Cand} {k : Pkt}
    (hnodes : ((s.backlog true).map (fun q => (s.pathOf true q 0).top)).eraseDups = nodes)
    (ha : ((s.pumpAll).lpiWake nodes).dsTrim nodes = a) (hok : nodes.filter (fun p => !(a.nodeCands p).isEmpty) = ok)
    (hsome : ok ≠ []) (hturn : a.nodeTurn ok = p) (htree : a.selectTree true p (a.nodeCands p) = some (g, c))
    (hhead : g.headPkt c.q = some k) (hport : p < 512) (hhere : ((g.take c.q).nodeServed p).forwards = false) :
    s.dsSelect = (((g.take c.q).nodeServed p).macSend p k).dsTrim [p] := by
  simp only [Hw.dsSelect, hnodes, ha, hok, hturn]
  refine (if_neg (by simpa using hsome)).trans ?_
  simp only [htree, hhead]
  rw [if_neg (show p ≠ 512 by omega), if_neg (show p ≠ 514 by omega), if_neg (by simp [hhere])]

theorem dsSelect_completes : Claims.dsSelect := fun _ _ _ s hok htree hhead hport hhere =>
  show execDsSelect s = _ from next_on (Hw.dsSelect_port rfl rfl rfl hok rfl htree hhead hport hhere)

theorem pcsLockAcquire_completes : Claims.pcsLockAcquire := fun _ _ hstep hlaneOn hlock =>
  next_on (by simp [Hw.lockGained, hstep, hlaneOn, hlock])

theorem pcsLockLoss_completes : Claims.pcsLockLoss := fun l s hlock =>
  show execPcsLockLoss l s = _ from next_on (if_neg hlock)

theorem polarityFlip_completes : Claims.polarityFlip := fun _ _ hlaneOn hpolAuto =>
  next_on (if_pos ⟨hlaneOn, hpolAuto⟩)

theorem autonegComplete_completes : Claims.autonegComplete := fun _ _ hlaneOn hmode hanEn =>
  next_on (if_pos ⟨hlaneOn, hmode, hanEn⟩)

theorem mdioWrite_completes : Claims.mdioWrite := fun _ _ _ _ hadm hfield hbusy =>
  next_onAccess hadm (by simp [Hw.mdioCommand, hfield, hbusy])

theorem mdioWrite_busy_completes : Claims.mdioWrite_busy := fun _ _ _ _ hadm hbusy =>
  next_onAccess hadm (by simp [Hw.mdioCommand, hbusy])

theorem mdioRead_completes : Claims.mdioRead := fun _ _ _ _ hadm hfield hbusy =>
  next_onAccess hadm (by simp [Hw.mdioCommand, hfield, hbusy])

theorem mdioAddress_completes : Claims.mdioAddress := fun _ _ _ _ hadm hfield hbusy =>
  next_onAccess hadm (by simp [Hw.mdioCommand, hfield, hbusy])

theorem mdioReadIncrement_completes : Claims.mdioReadIncrement := fun _ _ _ _ hadm hfield hbusy =>
  next_onAccess hadm (by simp [Hw.mdioCommand, hfield, hbusy])

theorem mdioDone_completes : Claims.mdioDone := fun _ _ _ _ hcmd hop hundriven =>
  next_on (by simp [Hw.onlyIf, b2n, hcmd, hop, hundriven])

theorem mdioDone_undriven_completes : Claims.mdioDone_undriven := fun _ _ _ _ hcmd hop hundriven =>
  next_on (by simp [Hw.onlyIf, b2n, hcmd, hop, hundriven])

theorem mdioDone_write_completes : Claims.mdioDone_write := fun _ _ _ _ hcmd hop hop' =>
  next_on (by simp [Hw.onlyIf, b2n, hcmd, hop, hop'])

end Sys2Proof.Machine

namespace Sys2Proof
open Machine

/-- Settles O47: each row, under its conditions, has the effect named. -/
theorem schedulerLaneAndMdioCommandsComplete : Obligations.SchedulerLaneAndMdioCommandsComplete :=
  ⟨dsSelect_completes, pcsLockAcquire_completes, pcsLockLoss_completes, polarityFlip_completes, autonegComplete_completes,
    mdioWrite_completes, mdioWrite_busy_completes, mdioRead_completes, mdioAddress_completes, mdioReadIncrement_completes,
    mdioDone_completes, mdioDone_undriven_completes, mdioDone_write_completes⟩

end Sys2Proof
end

section
/-!
SUPPORT. Where the commands of MDIO polling and received frames complete, and the settlement of the statement about them.
-/
namespace Sys2Proof.Machine

section
variable {s : Hw} {l t0 t1 : Nat} {bs : Bytes} {codeErr : Bool} (hon : s.laneOn l = true)
  (hmode : 4 ≤ s.capRd (SRD_LANE_CTRL.MODE l)) (hlock : s.rd (SRD_LANE_STATUS.LOCK l) ≠ 0)
include hon hmode hlock

/-- A tag that fails a check (R287). -/
theorem Hw.spikeletRx_badTag (htag : t0 / 16 ≠ 0xA ∨ t0 % 2 ≠ 0 ∨ t1 ≠ crc8 [BitVec.ofNat 8 t0]) :
    s.spikeletRx l t0 t1 bs codeErr = (s.count (SRD_LANE_CNT.COUNT l 0)).laneRaise l EV_LANE.TAG_ERR_EV :=
  (if_neg (by simp [hon, hmode, hlock])).trans (if_pos htag)

/-- A good tag of a port that is ON (R286). -/
theorem Hw.spikeletRx_port (hmark : t0 / 16 = 0xA) (heven : t0 % 2 = 0) (hcrc : t1 = crc8 [BitVec.ofNat 8 t0])
    (hslot : t0 / 2 % 8 < modePorts (s.capRd (SRD_LANE_CTRL.MODE l))) (hport : s.portState (8 * l + t0 / 2 % 8) = 2) :
    s.spikeletRx l t0 t1 bs codeErr = s.macRx (8 * l + t0 / 2 % 8) bs codeErr :=
  (if_neg (by simp [hon, hmode, hlock])).trans <| (if_neg (by simp [hmark, heven, hcrc])).trans <|
    (if_neg (Nat.not_le.mpr hslot)).trans (if_neg (not_not_intro hport))

end

/-- A good data frame at a port that is ON, no slot packet, its lane without MACsec of its own (R298, R299). -/
theorem Hw.macRx_plain {s : Hw} {p : Nat} {bs : Bytes} (hport : s.portState p = 2) (hstep : (s.lane (p / 8)).stepWritten = false)
    (hfcs : fcsOk bs = true) (hshort : 64 ≤ bs.length) (hlong : bs.length ≤ s.capRd (SUB_PORT_CTRL.MAX_LEN p))
    (hdata : beAt bs 12 2 ≠ 0x8808) (hslot : s.slotAt bs = none) (hsecure : s.securePort p = false) :
    s.macRx p bs false = (s.rxFifo p bs.length {
      bytes := bs, source := p
      rxTs := if s.rd (SUB_TS_CFG.TS_RX_EN p) = 1 then
        some ((s.tim.now.addPs (s.rdS (SUB_TS_ADJ.RX_ADJ p))).sec % 2 ^ 32, (s.tim.now.addPs (s.rdS (SUB_TS_ADJ.RX_ADJ p))).ns)
        else none }).1 := by
  refine (if_neg (not_not_intro hport)).trans <| (if_neg (by simp [hstep])).trans <| (if_neg Bool.false_ne_true).trans <|
    (if_neg (by simp [hfcs])).trans <| (if_neg (Nat.not_lt.mpr hshort)).trans <| (if_neg (Nat.not_lt.mpr hlong)).trans <|
    (if_neg hdata).trans <| (if_neg (by simp [hsecure])).trans ?_
  simp only [hslot]

theorem mdioPollRound_completes : Claims.mdioPollRound := fun i s hpollMs =>
  show execMdioPollRound i s = _ from next_on (if_neg hpollMs)

theorem mdioPollFrameDone_completes : Claims.mdioPollFrameDone := fun i undriven data _ _ s hpoll hundriven =>
  show execMdioPollFrameDone i undriven data s = _ from
    next_on (by simp [Hw.pollDone, hpoll, hundriven])

theorem mdioPollFrameDone_undriven_completes : Claims.mdioPollFrameDone_undriven := fun i undriven data _ _ s hpoll hundriven =>
  show execMdioPollFrameDone i undriven data s = _ from
    next_on (by simp [Hw.pollDone, hpoll, hundriven])

theorem spikeletFrameRx_completes : Claims.spikeletFrameRx :=
  fun l t0 t1 bs codeErr s hon hmode hlock hmark heven hcrc hslot hport =>
  show execSpikeletFrameRx l t0 t1 bs codeErr s = _ from
    next_on (Hw.spikeletRx_port hon hmode hlock hmark heven hcrc hslot hport)

theorem spikeletFrameRx_tag_completes : Claims.spikeletFrameRx_tag := fun l t0 t1 bs codeErr s hon hmode hlock htag =>
  show execSpikeletFrameRx l t0 t1 bs codeErr s = _ from
    next_on (Hw.spikeletRx_badTag hon hmode hlock (.inr (.inr htag)))

theorem macFrameRx_completes : Claims.macFrameRx :=
  fun p bs _ s hexists hlock hport hstep hcode hfcs hshort hlong hdata hslot hsecure => by
  subst hcode
  exact show execMacFrameRx p bs false s = _ from next_on ((Hw.onlyIf_pos _ _ ⟨hexists, .inl hlock⟩).trans
    (Hw.macRx_plain hport hstep hfcs hshort hlong hdata hslot hsecure))

theorem macFrameRx_fcs_completes : Claims.macFrameRx_fcs := fun _ _ _ _ hportExists hlock hportState hstepWritten hcodeErr hfcsOk =>
  next_on (by simp [Hw.macRx, hportExists, hlock, hportState, hstepWritten, hcodeErr, hfcsOk])

theorem macsecIcvFail_completes : Claims.macsecIcvFail := fun e s hicvDue heeq =>
  show execMacsecIcvFail e s = _ from
    next_on (by simp [Hw.icvFail, Hw.onlyIf, hicvDue, heeq])

theorem pfcFrameRx_completes : Claims.pfcFrameRx := fun p bs s hportState =>
  show execPfcFrameRx p bs s = _ from
    next_on (by simp [Hw.pfcRx, Hw.onlyIf, hportState])

theorem pfcPauseExpire_completes : Claims.pfcPauseExpire := fun p i s hclk =>
  show execPfcPauseExpire p i s = _ from
    next_on (by simp [Hw.pauseExpire, hclk])

theorem pfcPauseExpire_early_completes : Claims.pfcPauseExpire_early := fun p i s hpause =>
  show execPfcPauseExpire p i s = _ from next_on (if_pos hpause)

theorem pfcRefresh_completes : Claims.pfcRefresh := fun _ _ hpfcTxXoff hportState =>
  next_on (by simp [Hw.pfcWant, hpfcTxXoff, hportState])

end Sys2Proof.Machine

namespace Sys2Proof
open Machine

/-- Settles O48: each row, under its conditions, has the effect named. -/
theorem pollAndReceivedFrameCommandsComplete : Obligations.PollAndReceivedFrameCommandsComplete :=
  ⟨mdioPollRound_completes, mdioPollFrameDone_completes, mdioPollFrameDone_undriven_completes, spikeletFrameRx_completes,
    spikeletFrameRx_tag_completes, macFrameRx_completes, macFrameRx_fcs_completes, macsecIcvFail_completes, pfcFrameRx_completes,
    pfcPauseExpire_completes, pfcPauseExpire_early_completes, pfcRefresh_completes⟩

end Sys2Proof
end

section
/-!
SUPPORT. Where the commands of priority flow control, low power idle, rate steps and recalibration complete, and the
settlement of the statement about them.
-/
namespace Sys2Proof.Machine

section
variable {s g : Hw} {l o : Nat} (hrate : s.rateOctets l = (o, g)) (hon : g.laneOn l = true)
  (hmode : g.capRd (SRD_LANE_CTRL.MODE l) ≤ 3) (hrd : g.rd (SRD_LANE_CTRL.RD_EN l) ≠ 0) (hport : g.portState (8 * l) = 2)
  (hstep : (g.lane l).step = none)
include hrate hon hmode hrd hport hstep

/-- Octets above the share that asks for the next mode, below the ceiling (R305). -/
theorem Hw.rateEval_up (hfloor : g.rd (SRD_RD_CFG.RD_FLOOR l) ≤ g.rd (SRD_LANE_STATUS.CUR_MODE l))
    (hceil : g.rd (SRD_LANE_STATUS.CUR_MODE l) < g.rd (SRD_RD_CFG.RD_CEIL l)) (htop : g.rd (SRD_LANE_STATUS.CUR_MODE l) < 3)
    (habove : g.rateAbove l o (modeRate (g.rd (SRD_LANE_STATUS.CUR_MODE l))) (g.capRd (SRD_RD_CFG.RD_HI_PCT l)) = true) :
    s.rateEval l =
      (g.modLane l (fun x => { x with lows := 0 })).stepStart l (g.rd (SRD_LANE_STATUS.CUR_MODE l) + 1) := by
  simp only [Hw.rateEval, hrate]
  rw [if_neg (by simp [hon, hmode, hrd, hport, hstep]), if_neg (Nat.not_lt.mpr hfloor), if_neg (Nat.not_lt.mpr hceil.le),
    if_pos ⟨htop, habove⟩, if_pos hceil]

/-- The last of the low intervals in a row that a step down takes, above the floor (R305). -/
theorem Hw.rateEval_down (hfloor : g.rd (SRD_RD_CFG.RD_FLOOR l) < g.rd (SRD_LANE_STATUS.CUR_MODE l))
    (hceil : g.rd (SRD_LANE_STATUS.CUR_MODE l) ≤ g.rd (SRD_RD_CFG.RD_CEIL l))
    (habove : ¬ (g.rd (SRD_LANE_STATUS.CUR_MODE l) < 3
      ∧ g.rateAbove l o (modeRate (g.rd (SRD_LANE_STATUS.CUR_MODE l))) (g.capRd (SRD_RD_CFG.RD_HI_PCT l)) = true))
    (hbelow : g.rateBelow l o (modeRate (g.rd (SRD_LANE_STATUS.CUR_MODE l) - 1)) (g.capRd (SRD_RD_CFG.RD_LO_PCT l)) = true)
    (hhold : (g.modLane l (fun x => { x with lows := x.lows + 1 })).capRd (SRD_RD_CFG.RD_HOLD l)
      ≤ ((g.modLane l (fun x => { x with lows := x.lows + 1 })).lane l).lows) :
    s.rateEval l =
      (g.modLane l (fun x => { x with lows := x.lows + 1 })).stepStart l (g.rd (SRD_LANE_STATUS.CUR_MODE l) - 1) := by
  simp only [Hw.rateEval, hrate]
  rw [if_neg (by simp [hon, hmode, hrd, hport, hstep]), if_neg (Nat.not_lt.mpr hfloor.le), if_neg (Nat.not_lt.mpr hceil),
    if_neg habove, if_pos ⟨Nat.zero_lt_of_lt hfloor, hbelow⟩, if_neg (Nat.not_lt.mpr hhold), if_pos hfloor]

end

/-- A step whose write neither runs nor waits is abandoned (R306). -/
theorem Hw.stepPhyWritten_none {s : Hw} {l k : Nat} (hstep : (s.lane l).step = some k)
    (hwritten : (s.lane l).stepWritten = false) (hrun : (s.mdio (l / 16)).run ≠ .write l)
    (hwaits : (s.mdio (l / 16)).writes.contains l = false) :
    s.stepPhyWritten l = (s.count (SRD_MDIO_CFG.POLL_ERR (l / 16))).stepEnd l := by
  simp only [Hw.stepPhyWritten, hstep]
  rw [if_neg (by simp [hwritten]), if_neg hrun, if_neg (by simpa using hwaits)]

theorem lpiEnter_completes : Claims.lpiEnter := fun _ _ hportState hlpiAllowed hlpiTx hwaking =>
  next_on (by simp [Hw.lpiSync, hportState, hlpiAllowed, hlpiTx, hwaking])

theorem lpiEnter_waits_completes : Claims.lpiEnter_waits := fun _ _ hportState hlpiAllowed hwaking =>
  next_on (by simp [Hw.lpiSync, hportState, hlpiAllowed, hwaking])

theorem lpiWakeDone_completes : Claims.lpiWakeDone := fun p s =>
  show execLpiWakeDone p s = _ from next_on rfl

theorem lpiRxChange_completes : Claims.lpiRxChange := fun _ _ _ hlaneOn =>
  next_on (if_pos hlaneOn)

theorem rateDownEval_completes : Claims.rateDownEval :=
  fun l load s hon hmode hrd hport hstep hfloor hceil htop habove =>
  show execRateDownEval l load s = _ from next_on (Hw.rateEval_up rfl hon hmode hrd hport hstep hfloor hceil htop habove)

theorem rateDownEval_low_completes : Claims.rateDownEval_low :=
  fun l load s hon hmode hrd hport hstep hfloor hceil habove hbelow hhold =>
  show execRateDownEval l load s = _ from
    next_on (Hw.rateEval_down rfl hon hmode hrd hport hstep hfloor hceil habove hbelow hhold)

theorem rateDownEval_clamp_completes : Claims.rateDownEval_clamp := fun l load s hlaneOn hmode hrdEn hportState hstep hrdFloor =>
  show execRateDownEval l load s = _ from
    next_on (by simp [Hw.rateEval, hlaneOn, hmode, hrdEn, hportState, hstep, hrdFloor])

theorem rateStepPhyWritten_completes : Claims.rateStepPhyWritten := fun l _ s hstep hstepWritten hwrite =>
  show execRateStepPhyWritten l s = _ from
    next_on (by simp [Hw.stepPhyWritten, hstep, hstepWritten, hwrite])

theorem rateStepPhyWritten_none_completes : Claims.rateStepPhyWritten_none := fun l _ s hstep hwritten hrun hwaits =>
  show execRateStepPhyWritten l s = _ from next_on (Hw.stepPhyWritten_none hstep hwritten hrun hwaits)

theorem rateStepLocked_completes : Claims.rateStepLocked := fun _ _ hstepWritten =>
  next_on (if_pos hstepWritten)

theorem rateStepTimeout_completes : Claims.rateStepTimeout := fun l _ s hstep _ =>
  show execRateStepTimeout l s = _ from
    next_on (by simp [Hw.stepFail, hstep])

theorem recalGo_completes : Claims.recalGo := fun _ _ _ _ hadm hfield hlaneOn hrecalBusy hstep =>
  next_onAccess hadm (by simp [Hw.onlyIf, Hw.recalStart, hfield, hlaneOn, hrecalBusy, hstep])

theorem recalPeriodExpire_completes : Claims.recalPeriodExpire := fun _ _ hrecalPeriod hlaneOn hrecalBusy hstep =>
  next_on (by simp [Hw.recalStart, hrecalPeriod, hlaneOn, hrecalBusy, hstep])

theorem recalDone_completes : Claims.recalDone := fun l ctle dfe offset s hrecalBusy =>
  show execRecalDone l s ctle dfe offset = _ from next_on (if_neg hrecalBusy)

end Sys2Proof.Machine

namespace Sys2Proof
open Machine

/-- Settles O49: each row, under its conditions, has the effect named. -/
theorem flowControlAndLaneCommandsComplete : Obligations.FlowControlAndLaneCommandsComplete :=
  ⟨lpiEnter_completes, lpiEnter_waits_completes, lpiWakeDone_completes, lpiRxChange_completes, rateDownEval_completes,
    rateDownEval_low_completes, rateDownEval_clamp_completes, rateStepPhyWritten_completes, rateStepPhyWritten_none_completes,
    rateStepLocked_completes, rateStepTimeout_completes, recalGo_completes, recalPeriodExpire_completes, recalDone_completes⟩

end Sys2Proof
end

section
/-!
SUPPORT. Where the commands of power-state requests, wakes and restarts complete, and the settlement of the statement about
them.
-/
namespace Sys2Proof.Machine

/-- A request that is taken arms its change (R474, R475). -/
theorem Hw.stateRequest_taken {s g : Hw} {v : Word} {t : Nat} (ht : getField v 0 2 = t)
    (hg : s.aonFlush.fullWrite PWR_STATE_REQ.A v = g) (hgo : getField v 31 1 = 1)
    (hbusy : s.aonFlush.rd PWR_STATE_STATUS.BUSY ≠ 1) (hwake : t = 3 → s.aonFlush.rd PWR_WAKE_EN.EN ≠ 0)
    (htrunk : t = 3 → bitN (s.aonFlush.rd PWR_WAKE_EN.EN) 5 = 1 → s.aonFlush.rd PWR_REST_CFG.REST_CH_EN ≠ 0)
    (hother : g.powerState ≠ t) (hrest : g.powerState ≠ 3) : s.stateRequest v =
    if t = 3 ∧ ((g.wr PWR_STATE_STATUS.RESULT 0).changeArm t (g.changeLists t)).wakeSeen 1 = true then
      ((g.wr PWR_STATE_STATUS.RESULT 0).changeArm t (g.changeLists t)).wakeFire 1
    else ((g.wr PWR_STATE_STATUS.RESULT 0).changeArm t (g.changeLists t)).stopBegin := by
  simp only [Hw.stateRequest, ht, hg]
  rw [if_neg (by simp [hgo]), if_neg, if_neg hother, if_neg hrest]
  rintro (h | ⟨h3, hen⟩ | ⟨h3, h5, hch⟩)
  · exact hbusy h
  · exact hwake h3 hen
  · exact htrunk h3 h5 hch

theorem stateRequest_completes : Claims.stateRequest :=
  fun m v s hadm hgo hbusy hwake htrunk hother hrest =>
  show execStateRequest m v s = _ from
    next_onAccess hadm (Hw.stateRequest_taken rfl rfl hgo hbusy hwake htrunk hother hrest)

theorem stateRequest_rejected_completes : Claims.stateRequest_rejected := fun _ _ _ hadm hfield hbusy =>
  next_onAccess hadm (by simp [Hw.stateRequest, hfield, hbusy])

theorem domainAgree_completes : Claims.domainAgree := fun _ _ _ htodo htodo' hcond htarget htarget' =>
  next_on (by simp [Hw.domainAgree, Hw.stopJudge, htodo, htodo', hcond, htarget, htarget'])

theorem domainAgree_refuses_completes : Claims.domainAgree_refuses := fun _ _ _ _ htodo htodo' hcond htarget =>
  next_on (by simp [Hw.domainAgree, Hw.stopJudge, htodo, htodo', hcond, htarget])

theorem entryTimeout_completes : Claims.entryTimeout := fun _ _ _ htodo hcond htarget htarget' =>
  next_on (by simp [Hw.entryTimeout, Hw.stopJudge, htodo, hcond, htarget, htarget'])

theorem wakeSourceFire_completes : Claims.wakeSourceFire := fun src s hwakeSeen hpowerState hbusy =>
  show execWakeSourceFire src s = _ from
    next_on (by simp [Hw.wakeFire, Hw.wakeMark, hwakeSeen, hpowerState, hbusy])

theorem wakeSourceFire_entry_completes : Claims.wakeSourceFire_entry := fun src s hwakeSeen hbusy htarget htodo hsrc =>
  show execWakeSourceFire src s = _ from
    next_on (by simp [Hw.powerState, Hw.wakeFire, Hw.wakeMark, hwakeSeen, hbusy, htarget, htodo, hsrc])

theorem wakeTimerExpire_completes : Claims.wakeTimerExpire := fun _ hpowerState hbusy hen hwakeMs =>
  next_on (by simp [Hw.wakeFire, Hw.wakeMark, Hw.wakeSeen, hpowerState, hbusy, hen, hwakeMs])

theorem domainRestartNext_completes : Claims.domainRestartNext := fun _ _ _ _ hrestart =>
  next_on (by simp [Hw.restartNext, hrestart])

theorem domainRestartNext_last_completes : Claims.domainRestartNext_last := fun _ _ hrestart htodo =>
  next_on (by simp [Hw.restartNext, hrestart, htodo])

end Sys2Proof.Machine

namespace Sys2Proof
open Machine

/-- Settles O50: each row, under its conditions, has the effect named. -/
theorem powerStateCommandsComplete : Obligations.PowerStateCommandsComplete :=
  ⟨stateRequest_completes, stateRequest_rejected_completes, domainAgree_completes, domainAgree_refuses_completes,
    entryTimeout_completes, wakeSourceFire_completes, wakeSourceFire_entry_completes, wakeTimerExpire_completes,
    domainRestartNext_completes, domainRestartNext_last_completes⟩

end Sys2Proof
end

section
/-!
SUPPORT. Where the commands of Trim masks, domains, the voltage loop and the thermal guard complete, and the settlement of
the statement about them.
-/
namespace Sys2Proof.Machine

/-- Outside Trim and the entry to it a mask is only kept (R473). -/
theorem Hw.trimWrite_kept {s : Hw} {v : Word} (hstate : (s.fullWrite PWR_TRIM_MASK.A v).powerState ≠ 1)
    (hentry : (s.fullWrite PWR_TRIM_MASK.A v).rd PWR_STATE_STATUS.BUSY = 0
      ∨ (s.fullWrite PWR_TRIM_MASK.A v).pwr.target ≠ 1) :
    s.trimWrite v = s.fullWrite PWR_TRIM_MASK.A v := by
  refine if_pos ⟨hstate, fun ⟨hbusy, htarget⟩ => ?_⟩
  rcases hentry with h | h
  · exact absurd (h.symm.trans hbusy) (by decide)
  · exact h htarget

/-- In Trim, with no change under way, a change of the mask begins one where it moves a domain (R473). -/
theorem Hw.trimWrite_live {s g : Hw} {v : Word} {l : List Nat} (hg : s.fullWrite PWR_TRIM_MASK.A v = g)
    (hl : watchOrder.filter (fun d => bitN (s.word PWR_TRIM_MASK.A ^^^ g.word PWR_TRIM_MASK.A).toNat d == 1) = l)
    (hstate : g.powerState = 1) (hbusy : g.rd PWR_STATE_STATUS.BUSY = 0) (hlists : g.trimLists l ≠ ([], [])) :
    s.trimWrite v = (g.changeArm 1 (g.trimLists l)).stopBegin := by
  simp only [Hw.trimWrite, hg, hl]
  exact (if_neg fun h => h.1 hstate).trans ((if_pos hbusy).trans (if_neg hlists))

/-- A step of the loop whose reference is no higher than its bounds, all of what it wants within them (R483). -/
theorem Hw.avsStep_within {s : Hw} {vreq want : Nat} (hen : s.aonRd PWR_AVS_CFG.AVS_EN ≠ 0)
    (hreq : vreq ≤ s.aonRd PWR_AVS_CFG.VMAX) (hlo : s.aonRd PWR_AVS_CFG.VMIN ≤ s.rd PWR_AVS_STATUS.VCORE)
    (hhi : s.rd PWR_AVS_STATUS.VCORE ≤ s.aonRd PWR_AVS_CFG.VMAX)
    (hwant : (if s.rd PWR_AVS_STATUS.VCORE < vreq + 2 then s.rd PWR_AVS_STATUS.VCORE + 1
      else if vreq + 2 < s.rd PWR_AVS_STATUS.VCORE then s.rd PWR_AVS_STATUS.VCORE - 1 else s.rd PWR_AVS_STATUS.VCORE) = want)
    (hwlo : s.aonRd PWR_AVS_CFG.VMIN ≤ want) (hwhi : want ≤ s.aonRd PWR_AVS_CFG.VMAX) : s.avsStep vreq =
    ((((s.wr PWR_AVS_STATUS.VREQ vreq).wr PWR_AVS_STATUS.SAFETY 0).modPwr (fun p => { p with vOver := false })).wr
      PWR_AVS_STATUS.VCORE (max vreq want)) := by
  refine (if_neg hen).trans <| (if_neg (Nat.not_lt.mpr hreq)).trans <| (if_neg ?_).trans ?_
  · simp [Nat.not_lt.mpr hhi]
  · simp only [hwant]
    rw [Hw.onlyIf_neg _ _ (by omega), if_neg (Nat.not_lt.mpr hlo), if_neg (Nat.not_lt.mpr hhi), Nat.max_eq_right hwlo,
      Nat.min_eq_right hwhi]

section
variable {s g k : Hw} {temps : List Int} {top : Int} {hot : Sparse Nat} (htop : temps.foldl max (temps.headD 0) = top)
  (hg : (s.wr PWR_THERM.TEMP_MAX (unsigned 8 top)).wr PWR_THERM.TEMP_PEAK (unsigned 8 (max top (s.rdS PWR_THERM.TEMP_PEAK))) = g)
  (hhot : (List.range temps.length).foldl (fun (m : Sparse Nat) i =>
    m.set 0 i (if 115 ≤ temps.getD i 0 then g.pwr.hot.get 0 i + 1 else 0)) [] = hot)
  (hk : g.modPwr (fun p => { p with hot := hot }) = k) (htrip : k.pwr.trip = false)
include htop hg hhot hk htrip

/-- A sample below the alert threshold by more than 5 °C, no sensor three times at 115 °C (R484). -/
theorem Hw.thermalSample_cool (hcool : top < Int.ofNat (k.aonRd PWR_THERM.ALERT_TH) - 5)
    (hthree : hot.any (fun e => decide (3 ≤ e.2)) = false) :
    s.thermalSample temps = k.modPwr (fun p => { p with alert := false }) := by
  simp only [Hw.thermalSample, htop, hg, hhot, hk]
  rw [if_neg (by simp [htrip]), if_neg (c := Int.ofNat _ ≤ top ∧ _) (fun h => by have := h.1; omega), if_pos hcool,
    if_neg (by simp [hthree])]

/-- A sensor at 115 °C for the third time, the alert standing (R484). -/
theorem Hw.thermalSample_third (halert : k.pwr.alert = true) (hwarm : Int.ofNat (k.aonRd PWR_THERM.ALERT_TH) - 5 ≤ top)
    (hporn : k.effPorn = true) (hthree : hot.any (fun e => decide (3 ≤ e.2)) = true) :
    s.thermalSample temps = k.thermalTrip := by
  simp only [Hw.thermalSample, htop, hg, hhot, hk]
  rw [if_neg (by simp [htrip]), if_neg (c := Int.ofNat _ ≤ top ∧ _) (fun h => by simp [halert] at h),
    if_neg (Int.not_lt.mpr hwarm), if_pos ⟨hporn, hthree⟩]

end

/-- A lane whose domain is held and that looks for energy shows it (R311). -/
theorem Hw.energy_seen {s : Hw} {l : Nat} (hheld : s.pwr.held.contains (19 + l / 8) = true)
    (hen : s.rd (SRD_LANE_CTRL.ED_EN l) = 1) :
    s.energy l = (s.wr (SRD_LANE_STATUS.ENERGY l) 1).laneRaise l EV_LANE.ENERGY_EV :=
  if_pos ⟨hheld, hen⟩

theorem trimMaskWrite_completes : Claims.trimMaskWrite := fun m v s hadm hstate hentry =>
  show execTrimMaskWrite m v s = _ from next_onAccess hadm (Hw.trimWrite_kept hstate hentry)

theorem trimMaskWrite_live_completes : Claims.trimMaskWrite_live := fun m v s hadm hstate hbusy hlists =>
  show execTrimMaskWrite m v s = _ from next_onAccess hadm (Hw.trimWrite_live rfl rfl hstate hbusy hlists)

theorem domOffWrite_completes : Claims.domOffWrite := fun _ _ _ hadm =>
  next_onAccess hadm rfl

theorem avsStep_completes : Claims.avsStep := fun vreq s hen hreq hlo hhi hwlo hwhi =>
  show execAvsStep vreq s = _ from next_on (Hw.avsStep_within hen hreq hlo hhi rfl hwlo hwhi)

theorem avsStep_off_completes : Claims.avsStep_off := fun vreq s havsEn =>
  show execAvsStep vreq s = _ from
    next_on (by simp [Hw.avsOff, Hw.avsStep, Hw.onlyIf, havsEn])

theorem avsStep_safety_completes : Claims.avsStep_safety := fun vreq s havsEn hvmax =>
  show execAvsStep vreq s = _ from next_on ((if_neg havsEn).trans (if_pos hvmax))

theorem avsStep_falls_completes : Claims.avsStep_falls := fun vreq s havsEn hvmax hvOver hvmax' =>
  show execAvsStep vreq s = _ from
    next_on (by simp [Hw.avsStep, havsEn, hvmax, hvOver, hvmax'])

theorem thermalSample_completes : Claims.thermalSample := fun temps s htrip hcool hthree =>
  show execThermalSample temps s = _ from next_on (Hw.thermalSample_cool rfl rfl rfl rfl htrip hcool hthree)

theorem thermalSample_trip_completes : Claims.thermalSample_trip := fun temps s htrip halert hwarm hporn hthree =>
  show execThermalSample temps s = _ from
    next_on (Hw.thermalSample_third rfl rfl rfl rfl htrip halert hwarm hporn hthree)

theorem thermalRecover_completes : Claims.thermalRecover := fun _ htrip htempMax =>
  next_on (by simp [Hw.thermalRecover, htrip, htempMax])

theorem energyDetect_completes : Claims.energyDetect := fun l s hheld hen =>
  show execEnergyDetect l s = _ from next_on (by rw [Hw.energy_seen hheld hen])

end Sys2Proof.Machine

namespace Sys2Proof
open Machine

/-- Settles O51: each row, under its conditions, has the effect named. -/
theorem powerLoopCommandsComplete : Obligations.PowerLoopCommandsComplete :=
  ⟨trimMaskWrite_completes, trimMaskWrite_live_completes, domOffWrite_completes, avsStep_completes, avsStep_off_completes,
    avsStep_safety_completes, avsStep_falls_completes, thermalSample_completes, thermalSample_trip_completes,
    thermalRecover_completes, energyDetect_completes⟩

end Sys2Proof
end

section
/-!
SUPPORT. Where the commands of bonded frames, joins, leaves and shedding complete, and the settlement of the statement about
them.
-/
namespace Sys2Proof.Machine

/-- A frame that holds NEXT_SN is at distance 0 of it. -/
theorem Hw.snDist_nextSn (s : Hw) (g : Nat) : s.snDist g (s.nextSn g) = 0 := by
  simp [Hw.snDist]

/-- A data frame in its turn goes on to pipeline A, and its octets count (R180). -/
theorem Hw.shfNext_data (s : Hw) (g : Nat) {f : HeldFrame} (hdata : f.marker = false) : s.shfNext g f =
    ((((s.wr (SHF_GRP_RX_STATUS.NEXT_SN g) (s.nextSn g + 1)).modGrp g
      (fun x => { x with dsOctets := x.dsOctets + f.bytes.length })).fifoPush pipeA
        { bytes := f.bytes, source := 520 + f.chan }).1) :=
  if_neg (by simp [hdata])

/-- The frame expected next, with nothing held: it is delivered, and no held frame follows it (R176). -/
theorem Hw.shfAccept_expected {s : Hw} {g : Nat} {f : HeldFrame} (hsynced : s.rd (SHF_GRP_RX_STATUS.SN_SYNCED g) ≠ 0)
    (hsn : f.sn = s.nextSn g) (hheld : (s.grp g).held = []) : s.shfAccept g f = s.shfNext g f := by
  refine (if_neg hsynced).trans ((if_pos (by rw [hsn, Hw.snDist_nextSn])).trans ?_)
  simp only [hheld]
  rfl

/-- The first frame of a group gives NEXT_SN, and is delivered (R176). -/
theorem Hw.shfAccept_first {s : Hw} {g : Nat} {f : HeldFrame} (hunsynced : s.rd (SHF_GRP_RX_STATUS.SN_SYNCED g) = 0) :
    s.shfAccept g f =
      ((s.wr (SHF_GRP_RX_STATUS.NEXT_SN g) f.sn).wr (SHF_GRP_RX_STATUS.SN_SYNCED g) 1).shfNext g f :=
  if_pos hunsynced

/-- A data frame of a member, with its group and its channel in its shim, passes the checks (R160). -/
theorem Hw.bondedRx_data {s : Hw} {c : Nat} {b : Bonded} (hc : c < 4) (hlen : 4 ≤ b.bytes.length)
    (hgroup : bitsOf (beAt b.bytes 0 4) 28 4 = b.group) (hhint : bitsOf (beAt b.bytes 0 4) 24 3 = c)
    (hdata : bitN (beAt b.bytes 0 4) 27 = 0) (hmember : s.st (memberFn b.group c) ≠ 0) :
    s.bondedRx c b = s.shfAccept b.group
      { sn := bitsOf (beAt b.bytes 0 4) 0 24, chan := c, marker := false, bytes := b.bytes.drop 4 } := by
  refine (if_neg (Nat.not_lt.mpr hlen)).trans <| (if_neg (not_not_intro hgroup)).trans <|
    (if_neg (Nat.not_lt.mpr (by omega))).trans <| (if_neg hmember).trans ?_
  simp only [hhint, hdata]
  rw [Hw.onlyIf_neg _ _ (not_not_intro rfl)]
  rfl

/-- The channel of the rotation's turn gives its oldest frame. -/
theorem Hw.bondedTake_cons {s : Hw} {c : Nat} {b : Bonded} {t : List Bonded} (hinbox : s.shf.inbox.get [] c = b :: t) :
    s.bondedTake c = (({ s with shf := { s.shf with
      inbox := s.shf.inbox.set [] c t, turn := (c + 1) % 4 } } : Hw).bondedRx c b).poolUpdate 512 := by
  simp only [Hw.bondedTake, hinbox]

/-- The row of a bonded frame takes the frame of the channel of the rotation's turn. -/
theorem execBondedFrameRx_turn {s : State} {c : Nat} {g : Hw} (d : Fin 4) (hturn : s.hw.bondedTurn = some c)
    (hrow : s.hw.bondedTake c = g) : execBondedFrameRx d s = .next (s.finish g) :=
  next_on (by simp only [hturn, hrow])

/-- Octets below what one member fewer would carry, the hold not yet over: one more low interval (R180, R184). -/
theorem Hw.shedEval_low {s o : Hw} {g octets n : Nat} (hoctets : max (s.grp g).dsOctets (s.grp g).usOctets = octets)
    (ho : s.modGrp g (fun x => { x with dsOctets := 0, usOctets := 0 }) = o) (hn : (o.activeMembers g).length = n)
    (hen : o.rd (SHF_SHED_CFG.SHED_EN g) ≠ 0) (hstable : o.shedUnstable g = false)
    (hsleep : o.loadBelow g octets n (o.rd (SHF_SHED_CFG.LO_PCT g)) = true)
    (hceil : n ≤ (o.sleepAgain g).rd (SHF_SHED_CFG.CEIL g)) (hfloor : (o.sleepAgain g).rd (SHF_SHED_CFG.FLOOR g) ≤ n)
    (habove : (o.sleepAgain g).loadAbove g octets n ((o.sleepAgain g).rd (SHF_SHED_CFG.HI_PCT g)) = false)
    (hbelow : (o.sleepAgain g).loadBelow g octets (n - 1) ((o.sleepAgain g).rd (SHF_SHED_CFG.LO_PCT g)) = true)
    (hhold : ((o.sleepAgain g).grp g).shedCnt + 1 < (o.sleepAgain g).rd (SHF_SHED_CFG.SHED_HOLD g)) :
    s.shedEval g = (o.sleepAgain g).modGrp g (fun x => { x with shedCnt := ((o.sleepAgain g).grp g).shedCnt + 1 }) := by
  simp only [Hw.shedEval, hoctets, ho, hn]
  rw [if_neg hen, if_neg (by simp [hstable]), Hw.onlyIf_pos _ _ hsleep, if_neg (fun h => Nat.not_lt.mpr hceil h.1),
    if_neg (fun h => Nat.not_lt.mpr hfloor h.1)]
  exact (if_neg (by simp [habove])).trans ((if_pos hbelow).trans (if_pos hhold))

theorem bondedFrameRx_completes : Claims.bondedFrameRx :=
  fun c _ _ d s hturn hinbox hlen hgroup hhint hdata hmember hsynced hsn hheld =>
  show execBondedFrameRx d s = _ from execBondedFrameRx_turn d hturn ((Hw.bondedTake_cons hinbox).trans
    (congrArg (Hw.poolUpdate · 512) ((Hw.bondedRx_data c.isLt hlen hgroup hhint hdata hmember).trans
      ((Hw.shfAccept_expected hsynced hsn hheld).trans (Hw.shfNext_data _ _ rfl)))))

theorem bondedFrameRx_first_completes : Claims.bondedFrameRx_first :=
  fun c _ _ d s hturn hinbox hlen hgroup hhint hdata hmember hunsynced =>
  show execBondedFrameRx d s = _ from execBondedFrameRx_turn d hturn ((Hw.bondedTake_cons hinbox).trans
    (congrArg (Hw.poolUpdate · 512) ((Hw.bondedRx_data c.isLt hlen hgroup hhint hdata hmember).trans
      ((Hw.shfAccept_first hunsynced).trans (Hw.shfNext_data _ _ rfl)))))

theorem bondedFrameRx_short_completes : Claims.bondedFrameRx_short := fun _ _ _ d s hbondedTurn hinbox hbytes =>
  show execBondedFrameRx d s = _ from
    next_on (by simp [Hw.bondedRx, Hw.bondedTake, hbondedTurn, hinbox, hbytes])

theorem reorderTimeout_completes : Claims.reorderTimeout := fun g _ s hheld hshfLowest =>
  show execReorderTimeout g s = _ from
    next_on (by simp [Hw.reorderTimeout, Hw.shfSkip, hheld, hshfLowest])

theorem joinAckRx_completes : Claims.joinAckRx := fun g c token s hphase htoken hready =>
  show execJoinAckRx g c token s = _ from
    next_on (by simp [Hw.joinAckRx, hphase, htoken, hready])

theorem joinAckRx_unexpected_completes : Claims.joinAckRx_unexpected := fun g c token s hother =>
  show execJoinAckRx g c token s = _ from next_on (if_neg fun ⟨hphase, htoken⟩ => hother.elim (· hphase) (· htoken))

theorem leaveRx_completes : Claims.leaveRx := fun g c reason token s hphase =>
  show execLeaveRx g c reason token s = _ from next_on (if_pos hphase)

theorem leaveAckRx_completes : Claims.leaveAckRx := fun g c token s hphase hleaveSent htoken =>
  show execLeaveAckRx g c token s = _ from next_on (if_pos ⟨hphase, hleaveSent, htoken⟩)

theorem joinRetryExpire_again_completes : Claims.joinRetryExpire_again := fun _ _ _ hphase hready houtstanding hplaced htries =>
  next_on (by simp [hphase, hready, houtstanding, hplaced, htries])

theorem joinRetryExpire_completes : Claims.joinRetryExpire := fun _ _ _ hphase hready houtstanding hplaced htries =>
  next_on (by simp [hphase, hready, houtstanding, hplaced, htries])

theorem joinRetry_completes : Claims.joinRetry := fun _ _ _ _ _ hadm hfield hphase =>
  next_onAccess hadm (if_pos ⟨hfield, hphase⟩)

theorem rejoinHoldExpire_completes : Claims.rejoinHoldExpire := fun _ _ _ hphase =>
  next_on (if_pos hphase)

theorem leaveFlushDrained_completes : Claims.leaveFlushDrained := fun g c s hphase hleaveSent hleaveWaits htransmits hmemberQueues =>
  show execLeaveFlushDrained g c s = _ from
    next_on (by simp [Hw.leaveFlush, Hw.sendLeave, hphase, hleaveSent, hleaveWaits, htransmits, hmemberQueues])

theorem leaveTimeoutExpire_completes : Claims.leaveTimeoutExpire := fun _ _ _ hphase hleaveSent =>
  next_on (if_pos ⟨hphase, hleaveSent⟩)

theorem shedEvaluate_shed_completes : Claims.shedEvaluate_shed := fun g load s hshedEn hshedUnstable hloPct hceil hshedPick =>
  show execShedEvaluate g load s = _ from
    next_on (by simp [Hw.shedEval, Hw.onlyIf, hshedEn, hshedUnstable, hloPct, hceil, hshedPick])

theorem shedEvaluate_low_completes : Claims.shedEvaluate_low :=
  fun g load s hen hstable hsleep hceil hfloor habove hbelow hhold =>
  show execShedEvaluate g load s = _ from
    next_on (Hw.shedEval_low rfl rfl rfl hen hstable hsleep hceil hfloor habove hbelow hhold)

end Sys2Proof.Machine

namespace Sys2Proof
open Machine

/-- Settles O52: each row, under its conditions, has the effect named. -/
theorem bondingCommandsComplete : Obligations.BondingCommandsComplete :=
  ⟨bondedFrameRx_completes, bondedFrameRx_first_completes, bondedFrameRx_short_completes, reorderTimeout_completes,
    joinAckRx_completes, joinAckRx_unexpected_completes, leaveRx_completes, leaveAckRx_completes,
    joinRetryExpire_again_completes, joinRetryExpire_completes, joinRetry_completes, rejoinHoldExpire_completes,
    leaveFlushDrained_completes, leaveTimeoutExpire_completes, shedEvaluate_shed_completes, shedEvaluate_low_completes⟩

end Sys2Proof
end

section
/-!
SUPPORT. Where the commands of slot containers, playout and page changes complete, and the settlement of the statement about
them.
-/
namespace Sys2Proof.Machine

section
variable {s : Hw} {x f0 at' pg : Nat} {n g : Hw} {cap : Nat × Nat × Nat} (hstart : (s.circ x).start = some (f0, at'))
  (hpage : s.pageNear ((f0 + (s.circ x).played) % 65536) = some pg) (hpath : s.t (CIRCUIT_STATE.ACTIVE_PATH x) = 0)
  (hsf : s.t (CIRCUIT_STATE.SF_W x) = 0) (hplm : s.t (CIRCUIT_STATE.PLM x) = 0) (hcap : s.circCap pg x = cap)
  (hn : s.modCirc x (fun k => { k with played := k.played + 1 }) = n) (hvalid : n.cf x (CIRCUIT.VALID x) = 1)
  (hdown : n.cf x (CIRCUIT.DS_EN x) = 1)
include hstart hpage hpath hsf hplm hcap hn hvalid hdown

/-- The last frame of a slot packet, in the store of the working path's channel: the packet leaves (R323, R326). -/
theorem Hw.playout_last {fr : SlotFrame}
    (hstore : (s.slotCh (s.pathCh x 0)).store.get none ((f0 + (s.circ x).played) % 65536 % 32) = some fr)
    (hno : fr.no = (f0 + (s.circ x).played) % 65536)
    (hg : n.modCirc x (fun k => { k with gather := k.gather ++ [fr.circuit x cap.1], defect := k.defect || false }) = g)
    (hfull : cap.2.1 ≤ (g.circ x).gather.length) :
    s.playout x = g.slotSend x cap.2.2 (g.slotPacket x cap.2.2 (g.circ x).gather (g.circ x).defect) := by
  subst hcap hn
  simp only [Hw.playout, hstart, hpage, hpath, hsf, hplm, hstore, if_pos hno]
  refine (if_neg (by simp [hvalid, hdown])).trans ?_
  rw [Hw.onlyIf_neg _ _ (by simp)]
  subst hg
  exact if_neg (Nat.not_lt.mpr hfull)

/-- A frame that was not accepted, short of a whole slot packet: octets of 0xFF stand in its place (R326). -/
theorem Hw.playout_missing (hstore : (s.slotCh (s.pathCh x 0)).store.get none ((f0 + (s.circ x).played) % 65536 % 32) = none)
    (hg : ((n.circCount (CIRCUIT_STATE.DS_MISSING x) (some (x, 2))).note (4 + x) 22).modCirc x (fun k => { k with
      gather := k.gather ++ [List.replicate cap.1 (0xFF#8)], defect := k.defect || false }) = g)
    (hshort : (g.circ x).gather.length < cap.2.1) : s.playout x = g := by
  subst hcap hn
  simp only [Hw.playout, hstart, hpage, hpath, hsf, hplm, hstore]
  refine (if_neg (by simp [hvalid, hdown])).trans ?_
  rw [Hw.onlyIf_pos _ _ (by simp)]
  subst hg
  exact if_pos hshort

end

/-- The packet expected next, from the circuit's port, with room for its frames (R325). -/
theorem Hw.slotRx_expected {s : Hw} {p o x seq pg : Nat} {bs body : Bytes} {cap : Nat × Nat × Nat} {g : Hw}
    (hx : beAt bs (o + 2) 4 / 2 ^ 22 = x) (hseq : beAt bs (o + 2) 4 % 4096 = seq)
    (hbody : (bs.take (bs.length - 4)).drop (o + 6) = body) (hon : s.sltOn = true) (hvalid : s.cf x (CIRCUIT.VALID x) ≠ 0)
    (hpage : s.pageNear s.fLoc = some pg) (hcap : s.circCap pg x = cap) (hup : s.cf x (CIRCUIT.US_EN x) ≠ 0)
    (hport : cap.2.2 = p) (hlen : body.length = cap.2.1 * cap.1) (hexpect : (s.circ x).expect = some seq)
    (hg : s.modCirc x (fun q => { q with expect := some ((seq + 1) % 4096) }) = g)
    (hroom : (g.circ x).jitter.length + (slotFrames cap.1 body cap.2.1).length ≤ g.cf x (CIRCUIT.JB_FRAMES x)) :
    s.slotRx p o bs = g.modCirc x (fun q => { q with jitter := q.jitter ++ slotFrames cap.1 body cap.2.1 }) := by
  have hnext : (seq + 4096 - (some seq).getD seq) % 4096 = 0 := by simp
  simp only [Hw.slotRx, hx, hseq, hbody, hpage, hcap, hexpect, hnext]
  rw [if_neg (by simp [hon]), if_neg hvalid, if_neg (by simp [hup, hport]), if_neg (by simp [hlen]),
    if_neg (by decide), Hw.onlyIf_neg (c := 0 ≠ 0) _ _ (by decide), hg, Hw.onlyIf_neg (c := 16 ≤ 0) _ _ (by decide),
    Hw.onlyIf_neg (c := 0 ≠ 0) _ _ (by decide), if_neg (Nat.not_lt.mpr hroom)]

/-- Past what every boundary does, the page that serves the new frame gives the mate its containers (R318, R457). -/
def Hw.boundaryTwin (s : Hw) (f : Nat) : Hw :=
  match s.pageFor f with
  | none => s
  | some p =>
    if s.linkUp && s.rd GLB_STRAP.TWIN_EN == 1 then
      s.forAll s.twinChans (fun s c =>
        { (s.buildContainer p c f).1 with twn := { (s.buildContainer p c f).1.twn with
          slots := (s.buildContainer p c f).1.twn.slots ++ [(false, c, (s.buildContainer p c f).2)] } })
    else s

theorem Hw.boundaryTwin_none {s : Hw} {f : Nat} (h : s.pageFor f = none ∨ s.linkUp = false) : s.boundaryTwin f = s := by
  unfold Hw.boundaryTwin
  cases hpage : s.pageFor f with
  | none => rfl
  | some p =>
    have hdown : s.linkUp = false := h.resolve_left (by simp [hpage])
    exact if_neg (by simp [hdown])

theorem Hw.boundaryTwin_some {s : Hw} {f p : Nat} (hpage : s.pageFor f = some p)
    (hlink : (s.linkUp && s.rd GLB_STRAP.TWIN_EN == 1) = true) : s.boundaryTwin f = s.forAll s.twinChans (fun s c =>
      { (s.buildContainer p c f).1 with twn := { (s.buildContainer p c f).1.twn with
        slots := (s.buildContainer p c f).1.twn.slots ++ [(false, c, (s.buildContainer p c f).2)] } }) := by
  unfold Hw.boundaryTwin
  rw [hpage]
  exact if_pos hlink

/-- What every boundary does comes first (R315, R317, R322, R328). -/
theorem Hw.slotBoundary_on {s : Hw} (hon : s.sltOn = true) : s.slotBoundary =
    Hw.boundaryTwin (Hw.slotDefects
      (let o := (s.forAll (List.range 8) (fun s k =>
        let h := s.slotCh k
        let miss := !h.got
        let s := s.onlyIf (miss = true ∧ k < 4) (fun s => s.count (SLT_CH_CNT.COUNT k 4))
        let s := s.onlyIf (k < 4 ∧ s.rd (SLT_CH_CFG.US_EN k) = 1 ∧ h.granted = false)
          (fun s => s.count (SLT_CH_CNT.COUNT k 5))
        s.modSlotCh k (fun h =>
          { h with got := false, granted := false, missing := if miss then min 15 (h.missing + 1) else 0 }))).loseFrames
            ((s.fLoc + 65535) % 65536)
       { o with slt := { o.slt with old := [] } })) s.fLoc :=
  if_neg (by simp [hon])

theorem containerRx_completes : Claims.containerRx := fun c _ _ s hinbox hsltOn hcontCheck =>
  show execContainerRx c s = _ from
    next_on (by simp [Hw.container, Hw.containerRx, Hw.onlyIf, hinbox, hsltOn, hcontCheck])

theorem containerRx_bad_completes : Claims.containerRx_bad := fun c _ _ _ s hinbox hsltOn hcontCheck =>
  show execContainerRx c s = _ from
    next_on (by simp [Hw.container, Hw.containerRx, hinbox, hsltOn, hcontCheck])

theorem slotFrameBoundary_completes : Claims.slotFrameBoundary := fun s hon halone =>
  show execSlotFrameBoundary s = _ from next_on ((Hw.slotBoundary_on hon).trans (Hw.boundaryTwin_none halone))

theorem slotFrameBoundary_twin_completes : Claims.slotFrameBoundary_twin := fun _ s hon hpage hlink =>
  show execSlotFrameBoundary s = _ from next_on ((Hw.slotBoundary_on hon).trans (Hw.boundaryTwin_some hpage hlink))

theorem framePlayout_completes : Claims.framePlayout :=
  fun x _ _ _ _ s hon hdue hstart hpage hpath hsf hplm hstore hno hvalid hdown hfull =>
  show execFramePlayout x s = _ from next_on ((Hw.onlyIf_pos _ _ ⟨hon, hdue⟩).trans
    (Hw.playout_last hstart hpage hpath hsf hplm rfl rfl hvalid hdown hstore hno rfl hfull))

theorem framePlayout_missing_completes : Claims.framePlayout_missing :=
  fun x _ _ _ s hon hdue hstart hpage hpath hsf hplm hstore hvalid hdown hshort =>
  show execFramePlayout x s = _ from next_on ((Hw.onlyIf_pos _ _ ⟨hon, hdue⟩).trans
    (Hw.playout_missing hstart hpage hpath hsf hplm rfl rfl hvalid hdown hstore rfl hshort))

theorem framePlayout_silent_completes : Claims.framePlayout_silent := fun _ _ _ _ _ hsltOn hplayoutDue hstart hpageNear hvalid =>
  next_on (by simp [Hw.playout, hsltOn, hplayoutDue, hstart, hpageNear, hvalid])

theorem slotPacketRx_completes : Claims.slotPacketRx :=
  fun p bs _ _ s hslot hon hvalid hpage hup hport hlen hexpect hroom =>
  show execSlotPacketRx p bs s = _ from next_on (by
    simp only [hslot]
    exact Hw.slotRx_expected rfl rfl rfl hon hvalid hpage rfl hup hport hlen hexpect rfl hroom)

end Sys2Proof.Machine

namespace Sys2Proof
open Machine

/-- Settles O53: each row, under its conditions, has the effect named. -/
theorem slotFrameCommandsComplete : Obligations.SlotFrameCommandsComplete :=
  ⟨containerRx_completes, containerRx_bad_completes, slotFrameBoundary_completes, slotFrameBoundary_twin_completes,
    framePlayout_completes, framePlayout_missing_completes, framePlayout_silent_completes, slotPacketRx_completes⟩

end Sys2Proof
end

section
/-!
SUPPORT. Where the commands of page retirement and the path selectors complete, and the settlement of the statement about
them.
-/
namespace Sys2Proof.Machine

/-- A page that stops is retired: it is OFF or starts again, and an armed other page may go ON (R320, R321). -/
theorem Hw.pageRetire_stopping {s : Hw} (p : Fin 2) (hstopping : s.pageState p = 3) : s.pageRetire p =
    ((s.lcOff (.page p)).onlyIf ((s.lcOff (.page p)).pageState p = 1) (fun s => s.pageStarting p)).pageTry (1 - p) := by
  have hp : (⟨p.val % 2, Nat.mod_lt _ (by decide)⟩ : Fin 2) = p := Fin.ext (Nat.mod_eq_of_lt p.isLt)
  refine (if_neg (not_not_intro hstopping)).trans ?_
  simp only [hp]

theorem pageScanDone_completes : Claims.pageScanDone := fun _ _ hsltOn hpageState harmed =>
  next_on (by simp [Hw.pageScanned, hsltOn, hpageState, harmed])

theorem pageRetire_completes : Claims.pageRetire := fun p s hstopping hstarts =>
  show execPageRetire p s = _ from
    next_on ((Hw.pageRetire_stopping p hstopping).trans (by rw [Hw.onlyIf_pos _ _ hstarts]))

theorem pageRetire_off_completes : Claims.pageRetire_off := fun p s hstopping hends =>
  show execPageRetire p s = _ from
    next_on ((Hw.pageRetire_stopping p hstopping).trans (by rw [Hw.onlyIf_neg _ _ hends]))

theorem pswClear_completes : Claims.pswClear := fun _ _ _ hadm hfield =>
  next_onAccess hadm (by simp [Hw.selectorCommand, hfield])

theorem pswLockout_completes : Claims.pswLockout := fun _ _ _ hadm hfield =>
  next_onAccess hadm (by simp [Hw.selectorCommand, hfield])

theorem pswForceWork_completes : Claims.pswForceWork := fun _ _ _ hadm hfield =>
  next_onAccess hadm (by simp [Hw.selectorCommand, hfield])

theorem pswForceProt_completes : Claims.pswForceProt := fun _ _ _ hadm hfield =>
  next_onAccess hadm (by simp [Hw.selectorCommand, hfield])

theorem pswManualWork_completes : Claims.pswManualWork := fun _ _ _ hadm hfield hsfW =>
  next_onAccess hadm (by simp [Hw.selectorCommand, hfield, hsfW])

theorem pswManualWork_refused_completes : Claims.pswManualWork_refused := fun _ _ _ hadm hfield hsfW =>
  next_onAccess hadm (by simp [Hw.selectorCommand, hfield, hsfW])

theorem pswManualProt_completes : Claims.pswManualProt := fun _ _ _ hadm hfield hsfP =>
  next_onAccess hadm (by simp [Hw.selectorCommand, hfield, hsfP])

theorem pswHoldoffExpire_completes : Claims.pswHoldoffExpire := fun x s =>
  show execPswHoldoffExpire x s = _ from next_on rfl

theorem pswWtrExpire_completes : Claims.pswWtrExpire := fun x s hwtrRun hcmdInForce hcmdInForce' hactivePath =>
  show execPswWtrExpire x s = _ from
    next_on (by simp [Hw.wtrExpire, hwtrRun, hcmdInForce, hcmdInForce', hactivePath])

end Sys2Proof.Machine

namespace Sys2Proof
open Machine

/-- Settles O54: each row, under its conditions, has the effect named. -/
theorem protectionSwitchCommandsComplete : Obligations.ProtectionSwitchCommandsComplete :=
  ⟨pageScanDone_completes, pageRetire_completes, pageRetire_off_completes, pswClear_completes, pswLockout_completes,
    pswForceWork_completes, pswForceProt_completes, pswManualWork_completes, pswManualWork_refused_completes,
    pswManualProt_completes, pswHoldoffExpire_completes, pswWtrExpire_completes⟩

end Sys2Proof
end

section
/-!
SUPPORT. Where the commands of the local clock, time of day and its sources complete, and the settlement of the statement
about them.
-/
namespace Sys2Proof.Machine

section
variable {s g : Hw} {v : Word} (hg : (s.plainWrite TIM_TOD_ARM.A v).wr TIM_TOD_ARM.FORCE (getField v 1 1) = g)
  (harm : getField v 0 1 = 1)
include hg harm

/-- An update whose count is still to come is armed (R337). -/
theorem Hw.todArm_ahead (hahead : (g.todSfc + 2 ^ 51 - g.sfc (g.rd TIM_CTRL.SRC_CH)) % 2 ^ 51 < 2 ^ 50) :
    s.todArm v = g.wr TIM_TOD_ARM.ARM 1 := by
  subst hg
  exact (if_neg (by simp [harm])).trans (if_neg (Nat.not_le.mpr hahead))

/-- An update whose count has passed ends at once (R338). -/
theorem Hw.todArm_past (hpast : 2 ^ 50 ≤ (g.todSfc + 2 ^ 51 - g.sfc (g.rd TIM_CTRL.SRC_CH)) % 2 ^ 51) :
    s.todArm v = ((g.wr TIM_TOD_ARM.ARM 0).timCount 2).timRaise EV_TIM.TOD_LATE_EV := by
  subst hg
  exact (if_neg (by simp [harm])).trans (if_pos hpast)

end

/-- A time with a legal nanosecond value is stepped to (R334). -/
theorem Hw.timSetCmd_legal {s : Hw} {ns : Nat} (hruns : s.timRuns = true) (hns : s.rd TIM_SET_NS.NS = ns)
    (hlegal : ns < 1000000000) : s.timSetCmd 1 = s.timStep
      { sec := s.rd TIM_SET_SEC_HI.SEC * 2 ^ 32 + s.rd TIM_SET_SEC_LO.SEC, ns := ns, frac := 0 } := by
  subst hns
  exact (if_neg (by simp [hruns])).trans (if_neg (Nat.not_le.mpr hlegal))

/-- A step by the signed nanoseconds written (R334). -/
theorem Hw.timSetCmd_add {s : Hw} (hruns : s.timRuns = true) :
    s.timSetCmd 2 = s.timStep (LTime.ofInt (Int.ofNat s.tim.now.parts + s.rdS TIM_SET_NS.NS * 2 ^ 32)) := by
  unfold Hw.timSetCmd
  simp only [hruns]
  simp

theorem timeSet_completes : Claims.timeSet := fun m s hadm hruns hlegal =>
  show execTimeSet m s = _ from next_onAccess hadm (Hw.timSetCmd_legal hruns rfl hlegal)

theorem timeAdd_completes : Claims.timeAdd := fun m s hadm hruns =>
  show execTimeAdd m s = _ from next_onAccess hadm (Hw.timSetCmd_add hruns)

theorem timeReadLatch_completes : Claims.timeReadLatch := fun _ _ hadm =>
  next_onAccess hadm rfl

theorem todArm_completes : Claims.todArm := fun m v s hadm harm hahead =>
  show execTodArm m v s = _ from next_onAccess hadm (Hw.todArm_ahead rfl harm hahead)

theorem todArm_late_completes : Claims.todArm_late := fun m v s hadm harm hpast =>
  show execTodArm m v s = _ from next_onAccess hadm (Hw.todArm_past rfl harm hpast)

theorem todUpdate_completes : Claims.todUpdate := fun _ harm htimRuns hsrcEn htodOther hsrcCh =>
  next_on (by simp [Hw.todUpdate, harm, htimRuns, hsrcEn, htodOther, hsrcCh])

theorem todUpdate_lost_completes : Claims.todUpdate_lost := fun _ harm htimRuns hsrcEn htodOther hsrcCh =>
  next_on (by simp [Hw.todUpdate, harm, htimRuns, hsrcEn, htodOther, hsrcCh])

theorem timSourceWrite_completes : Claims.timSourceWrite := fun _ _ _ hadm harm =>
  next_onAccess hadm (by simp [Hw.sourceWrite, Hw.onlyIf, harm])

theorem timSourceWrite_armed_completes : Claims.timSourceWrite_armed := fun _ _ _ hadm harm =>
  next_onAccess hadm (by simp [Hw.sourceWrite, Hw.onlyIf, harm])

theorem freqMeasurement_completes : Claims.freqMeasurement := fun _ _ _ htimRuns hsrcSync =>
  next_on (if_pos ⟨htimRuns, hsrcSync⟩)

end Sys2Proof.Machine

namespace Sys2Proof
open Machine

/-- Settles O55: each row, under its conditions, has the effect named. -/
theorem clockCommandsComplete : Obligations.ClockCommandsComplete :=
  ⟨timeSet_completes, timeAdd_completes, timeReadLatch_completes, todArm_completes, todArm_late_completes, todUpdate_completes,
    todUpdate_lost_completes, timSourceWrite_completes, timSourceWrite_armed_completes, freqMeasurement_completes⟩

end Sys2Proof
end

section
/-!
SUPPORT. Where the commands of captures, timestamp queues, timed slots and gate lists complete, and the settlement of the
statement about them.
-/
namespace Sys2Proof.Machine

section
variable {s g : Hw} {x : Nat} (hvalid : s.t (SLOT.VALID x) ≠ 0) (hruns : s.timRuns = true)
  (hdue : s.slotTime x ≤ s.tim.now.abs)
  (hg : ({ s with tim := { s.tim with late := s.tim.late.filter (· != x) } } : Hw) = g)
include hvalid hruns hdue hg

/-- A periodic slot in time fires and is due one period later (R351). -/
theorem Hw.slotFire_inTime (hperiod : s.t (SLOT.PERIOD x) ≠ 0) (hlate : s.tim.late.contains x = false) :
    s.slotFire x = (g.setSlotTime x (s.slotTime x + s.t (SLOT.PERIOD x))).slotAct x := by
  refine (if_neg (by simp [hvalid, hruns, hdue])).trans ?_
  simp only [hg, hlate, if_neg hperiod]
  rw [Hw.onlyIf_neg _ _ (by decide), if_neg (by decide)]

/-- A slot without a period in time fires and is no longer valid (R351). -/
theorem Hw.slotFire_once (hperiod : s.t (SLOT.PERIOD x) = 0) (hlate : s.tim.late.contains x = false) :
    s.slotFire x = (g.ts (SLOT.VALID x) 0).slotAct x := by
  refine (if_neg (by simp [hvalid, hruns, hdue])).trans ?_
  simp only [hg, hlate, if_pos hperiod]
  rw [Hw.onlyIf_neg _ _ (by decide)]

/-- A periodic slot committed late fires and is due at its first time still to come; the times skipped count (R351). -/
theorem Hw.slotFire_late (hperiod : s.t (SLOT.PERIOD x) ≠ 0) (hlate : s.tim.late.contains x = true) :
    s.slotFire x = ((g.setSlotTime x (nextSlot (s.slotTime x) (s.t (SLOT.PERIOD x)) s.tim.now.abs).1).timCount 5
      (1 + (nextSlot (s.slotTime x) (s.t (SLOT.PERIOD x)) s.tim.now.abs).2)).slotAct x := by
  refine (if_neg (by simp [hvalid, hruns, hdue])).trans ?_
  simp only [hg, hlate, if_neg hperiod]
  rw [Hw.onlyIf_pos _ _ trivial, if_pos trivial]

end

theorem ppsPulse_completes : Claims.ppsPulse := fun s hen hruns hnew =>
  show execPpsPulse s = _ from next_on ((if_pos ⟨hruns, hnew⟩).trans (Hw.onlyIf_pos _ _ ⟨hen, hruns⟩))

theorem edgeCapture_completes : Claims.edgeCapture := fun i falling s htimRuns hcapEn hedge hieq hcaps =>
  show execEdgeCapture i falling s = _ from
    next_on (by simp [Hw.edgeCapture, Hw.onlyIf, htimRuns, hcapEn, hedge, hieq, hcaps])

theorem edgeCapture_full_completes : Claims.edgeCapture_full := fun i falling s htimRuns hcapEn hedge hieq hcaps =>
  show execEdgeCapture i falling s = _ from
    next_on (by simp [Hw.edgeCapture, Hw.onlyIf, htimRuns, hcapEn, hedge, hieq, hcaps])

theorem capturePop_completes : Claims.capturePop := fun _ _ _ _ hadm hfield =>
  next_onAccess hadm (if_pos hfield)

theorem tsQueuePop_completes : Claims.tsQueuePop := fun _ _ _ _ hadm hfield =>
  next_onAccess hadm (if_pos hfield)

theorem slotFire_completes : Claims.slotFire := fun x s hvalid hruns hdue hperiod hlate =>
  show execSlotFire x s = _ from next_on (Hw.slotFire_inTime hvalid hruns hdue rfl hperiod hlate)

theorem slotFire_once_completes : Claims.slotFire_once := fun x s hvalid hruns hdue hperiod hlate =>
  show execSlotFire x s = _ from next_on (Hw.slotFire_once hvalid hruns hdue rfl hperiod hlate)

theorem slotFire_late_completes : Claims.slotFire_late := fun x s hvalid hruns hdue hperiod hlate =>
  show execSlotFire x s = _ from next_on (Hw.slotFire_late hvalid hruns hdue rfl hperiod hlate)

theorem gateConfigChange_completes : Claims.gateConfigChange := fun _ _ _ _ hadm hfield hlen =>
  next_onAccess hadm (by simp [Hw.gateChange, hfield, hlen])

theorem gateListStart_completes : Claims.gateListStart := fun p _ s hpend htimRuns hstate habs =>
  show execGateListStart p s = _ from
    next_on (by simp [Hw.gateStart, hpend, htimRuns, hstate, habs])

theorem gateEntryAdvance_completes : Claims.gateEntryAdvance := fun _ _ htimRuns hrunning habs =>
  next_on (by simp [htimRuns, hrunning, habs])

end Sys2Proof.Machine

namespace Sys2Proof
open Machine

/-- Settles O56: each row, under its conditions, has the effect named. -/
theorem captureSlotAndGateCommandsComplete : Obligations.CaptureSlotAndGateCommandsComplete :=
  ⟨ppsPulse_completes, edgeCapture_completes, edgeCapture_full_completes, capturePop_completes, tsQueuePop_completes,
    slotFire_completes, slotFire_once_completes, slotFire_late_completes, gateConfigChange_completes, gateListStart_completes,
    gateEntryAdvance_completes⟩

end Sys2Proof
end

section
/-!
SUPPORT. Where the commands of roles, claims and handovers of the twins complete, and the settlement of the statement about
them.
-/
namespace Sys2Proof.Machine

/-- The wire falls while a claim has outlasted its window (R443). -/
theorem Hw.actInChange_falls {s g : Hw} (hg : s.wr TWN_STATUS.ACT_IN 0 = g) (hwas : s.actIn = true)
    (hpaired : g.paired = true) (hrole : g.role = CLAIMING) (hover : g.twn.windowOver = true) :
    s.actInChange false = g.becomeActive := by
  subst hg
  exact (if_neg (by simp [hwas, b2n, hpaired])).trans <| (if_neg Bool.false_ne_true).trans (if_pos ⟨hrole, hover⟩)

/-- The wire rises at twin B in the window of a claim that is no handover (R443). -/
theorem Hw.actInChange_loses {s g : Hw} (hg : s.wr TWN_STATUS.ACT_IN 1 = g) (hwas : s.actIn = false)
    (hpaired : g.paired = true) (hrole : g.role = CLAIMING) (hB : g.isB = true) (hhand : g.twn.handover = false)
    (hover : g.twn.windowOver = false) :
    s.actInChange true = ((g.setRole STANDBY).twnCount 2).twnRaise EV_TWN.CONTEND_LOST_EV := by
  subst hg
  exact (if_neg (by simp [hwas, b2n, hpaired])).trans <| (if_pos rfl).trans <| (if_pos hrole).trans (if_pos ⟨hB, hhand, hover⟩)

theorem twnActInChange_completes : Claims.twnActInChange := fun s hwas hpaired hrole hover =>
  show execTwnActInChange false s = _ from next_on (Hw.actInChange_falls rfl hwas hpaired hrole hover)

theorem twnActInChange_lost_completes : Claims.twnActInChange_lost := fun s hwas hpaired hrole hB hhand hover =>
  show execTwnActInChange true s = _ from next_on (Hw.actInChange_loses rfl hwas hpaired hrole hB hhand hover)

theorem twnActInChange_split_completes : Claims.twnActInChange_split := fun s hactIn hpaired hrole =>
  show execTwnActInChange true s = _ from
    next_on (by simp [Hw.actInChange, Hw.roleSplit, b2n, hactIn, hpaired, hrole])

theorem claimHoldExpire_completes : Claims.claimHoldExpire := fun _ hautoTakeover hlinkUp hactIn hpaired hrole hclaimEn hroleConflict =>
  next_on (by simp [Hw.claim, hautoTakeover, hlinkUp, hactIn, hpaired, hrole, hclaimEn, hroleConflict])

theorem contentionWindowEnd_completes : Claims.contentionWindowEnd := fun _ hrole hhandover =>
  next_on (by simp [Hw.becomeActive, Hw.claimWindowEnd, hrole, hhandover])

theorem contentionWindowEnd_wait_completes : Claims.contentionWindowEnd_wait := fun _ hrole hactIn hhandover =>
  next_on (by simp [Hw.claimWindowEnd, hrole, hactIn, hhandover])

theorem handoverClaimTimeout_completes : Claims.handoverClaimTimeout := fun _ hrole hhandover hactIn =>
  next_on (if_pos ⟨hrole, hhandover, hactIn⟩)

theorem handover_completes : Claims.handover := fun _ _ _ hadm hrole hlinkUp hpeerState hpeerClaimEn hpeerMirrorSync =>
  next_onAccess hadm (by simp [Hw.handoverStart, hrole, hlinkUp, hpeerState, hpeerClaimEn, hpeerMirrorSync])

theorem handoverReqRx_completes : Claims.handoverReqRx := fun _ hlinkUp hpaired =>
  next_on (if_pos ⟨hlinkUp, hpaired⟩)

theorem handoverAckRx_completes : Claims.handoverAckRx := fun _ hlinkUp hrole =>
  next_on (if_pos ⟨hlinkUp, hrole⟩)

theorem yieldRx_completes : Claims.yieldRx := fun _ hlinkUp hpaired hrole hclaimEn hroleConflict =>
  next_on (by simp [Hw.claim, Hw.yieldRx, hlinkUp, hpaired, hrole, hclaimEn, hroleConflict])

theorem handoverAckTimeout_completes : Claims.handoverAckTimeout := fun _ hrole hforward =>
  next_on (by simp [Hw.yieldAbort, hrole, hforward])

end Sys2Proof.Machine

namespace Sys2Proof
open Machine

/-- Settles O57: each row, under its conditions, has the effect named. -/
theorem roleAndHandoverCommandsComplete : Obligations.RoleAndHandoverCommandsComplete :=
  ⟨twnActInChange_completes, twnActInChange_lost_completes, twnActInChange_split_completes, claimHoldExpire_completes,
    contentionWindowEnd_completes, contentionWindowEnd_wait_completes, handoverClaimTimeout_completes, handover_completes,
    handoverReqRx_completes, handoverAckRx_completes, yieldRx_completes, handoverAckTimeout_completes⟩

end Sys2Proof
end

section
/-!
SUPPORT. Where the commands of the end of handovers, heartbeats and link training complete, and the settlement of the
statement about them.
-/
namespace Sys2Proof.Machine

/-- The two ways to write a choice by a Boolean that is negated. -/
theorem ite_not_bool {α : Type} (b : Bool) (x y : α) : (if (!b) = true then x else y) = if b = true then y else x := by
  cases b <;> rfl

theorem handoverDrainExpire_completes : Claims.handoverDrainExpire := fun _ hrole hforward =>
  next_on (if_pos ⟨hrole, hforward⟩)

theorem handoverPortsOff_completes : Claims.handoverPortsOff := fun _ hrole hdrained hportState =>
  next_on (if_pos ⟨hrole, hdrained, hportState⟩)

theorem heartbeatTx_completes : Claims.heartbeatTx := fun _ hlinkSends =>
  next_on (if_pos hlinkSends)

theorem heartbeatRx_completes : Claims.heartbeatRx := fun bs d n s hup =>
  show execHeartbeatRx bs d s n = _ from next_on ((if_neg (by simp [hup])).trans (ite_not_bool _ _ _))

theorem heartbeatMiss_completes : Claims.heartbeatMiss := fun s hup hfew =>
  show execHeartbeatMiss s = _ from next_on ((if_neg (by simp [hup])).trans (if_neg (Nat.not_le.mpr hfew)))

theorem heartbeatMiss_fifth_completes : Claims.heartbeatMiss_fifth := fun _ hlinkUp hmisses hlinkState =>
  next_on (by simp [Hw.beatMiss, Hw.linkFault, hlinkUp, hmisses, hlinkState])

theorem twinTrainComplete_completes : Claims.twinTrainComplete := fun inv r k s htwinLink hlinkState htest hkge =>
  show execTwinTrainComplete inv (some r) k s = _ from
    next_on (by simp [Hw.trained, htwinLink, hlinkState, htest, hkge])

theorem twinTrainComplete_order_completes : Claims.twinTrainComplete_order := fun inv k s htwinLink hlinkState htest =>
  show execTwinTrainComplete inv none k s = _ from
    next_on (by simp [Hw.trained, htwinLink, hlinkState, htest])

end Sys2Proof.Machine

namespace Sys2Proof
open Machine

/-- Settles O58: each row, under its conditions, has the effect named. -/
theorem heartbeatCommandsComplete : Obligations.HeartbeatCommandsComplete :=
  ⟨handoverDrainExpire_completes, handoverPortsOff_completes, heartbeatTx_completes, heartbeatRx_completes,
    heartbeatMiss_completes, heartbeatMiss_fifth_completes, twinTrainComplete_completes, twinTrainComplete_order_completes⟩

end Sys2Proof
end

section
/-!
SUPPORT. Where the commands of the twin link and received twin frames complete, and the settlement of the statement about
them.
-/
namespace Sys2Proof.Machine

/-- The row of a plain twin frame that takes its effect from the header and the octets after it. -/
theorem next_twinRx {s : State} {type : Nat} {bs : Bytes} {f : Hw → Nat → Bytes × Bool → Hw} {g : Hw}
    (hplain : TwinPlain s.hw type bs) (hrow : f s.hw (beAt bs 0 7) (bs.drop 7, false) = g) :
    s.on (fun h => h.twinRx type bs f) = .next (s.finish g) :=
  next_on ((twinRx_plain hplain f).trans hrow)

/-- A record of KIND 0 for an entry that the mate has and may write is committed to its segment (R459). -/
theorem Hw.mirrorRecord_entry {s g : Hw} {r : Bytes} {d b : Nat} {t : Nat × TabRow} (hd : beAt r 0 4 = d)
    (hrole : s.role = STANDBY) (hkind : bitsOf d 29 3 = 0) (hbase : mirrorBase (bitsOf d 0 3) (bitsOf d 16 10) = some b)
    (hruns : s.domOff (b + 0x48) = false) (hnot7 : bitsOf d 0 3 ≠ 7) (hnot6 : bitsOf d 0 3 ≠ 6)
    (htable : gateTable b (bitsOf d 8 8) = some t) (hg : (s.settle (b + 0x48)).gateFinish b = g)
    (hallows : g.entryErr { base := b, gate := t.1, row := t.2, x := beAt r 4 4, seg := bitsOf d 3 4 } 3 = 0) :
    s.mirrorRecord r = g.commitSeg { base := b, gate := t.1, row := t.2, x := beAt r 4 4, seg := bitsOf d 3 4 }
      ((List.range 16).map (fun i => BitVec.ofNat 32 (beAt r (8 + 4 * i) 4))) := by
  refine (if_neg (not_not_intro hrole)).trans ?_
  simp only [hd, hkind, Hw.mirrorEntry, hbase, hg, htable]
  exact (if_neg (by simp [hruns, hnot7])).trans (if_neg (by simp [hallows, hnot6]))

/-- A record of KIND 3 after a sweep received without a loss: the twin is synchronised (R460). -/
theorem Hw.mirrorRecord_end {s : Hw} {r : Bytes} (hrole : s.role = STANDBY) (hkind : bitsOf (beAt r 0 4) 29 3 = 3)
    (hclean : s.twn.clean = true) : s.mirrorRecord r = s.setMirrorSync 1 := by
  refine (if_neg (not_not_intro hrole)).trans ?_
  simp only [hkind]
  exact Hw.onlyIf_pos _ _ hclean

/-- A message that its channel takes is stored, and its RESULT frame waits (R456). -/
theorem Hw.mailboxRx_stored {s : Hw} {h : Nat} {d : Bytes} (hhere : s.t (MBX_CFG.RX_DOM (bitsOf h 29 8)) ≠ 28)
    (hch : bitsOf h 29 8 < 128) (hstatus : s.postStatus 0x70 (bitsOf h 29 8) = 0) : s.mailboxRx h d =
    (s.mbxStoreAs (bitsOf h 29 8)
      { words := (List.range 8).map (fun i => BitVec.ofNat 32 (beAt d (4 * i) 4)), master := 0x70, mode := bitsOf h 10 3
        gen := bitsOf h 13 8, seq := 0, orig := bitsOf h 21 8 }).twinMbx (.result (bitsOf h 29 8) 0) := by
  refine (if_neg hhere).trans ((if_neg fun hbig => Nat.not_le.mpr hch hbig.1).trans ?_)
  simp only [hstatus]

theorem twinLinkRetrain_completes : Claims.twinLinkRetrain := fun _ htwinLink hlinkState =>
  next_on (if_pos ⟨htwinLink, hlinkState⟩)

theorem twinLaneFault_completes : Claims.twinLaneFault := fun _ _ _ hlinkUp hlock =>
  next_on ((if_pos hlinkUp).trans (if_pos hlock))

theorem twinIdleEntry_completes : Claims.twinIdleEntry := fun _ hidleEn hlinkUp htwinQuiet =>
  next_on (if_pos ⟨hidleEn, hlinkUp, htwinQuiet⟩)

theorem portFrameRx_completes : Claims.portFrameRx := fun bs s hplain =>
  show execPortFrameRx bs s = _ from next_twinRx hplain rfl

theorem dsPortRx_completes : Claims.dsPortRx := fun bs s hplain hport hvalid =>
  show execDsPortRx bs s = _ from next_twinRx hplain (if_pos ⟨hport, hvalid⟩)

theorem usQueueRx_completes : Claims.usQueueRx := fun bs s hplain hqueue =>
  show execUsQueueRx bs s = _ from next_twinRx hplain (if_pos hqueue)

theorem mirrorRx_completes : Claims.mirrorRx :=
  fun bs _ _ s hplain hrole hkind hbase hruns hnot7 hnot6 htable hallows =>
  show execMirrorRx bs s = _ from
    next_twinRx hplain (Hw.mirrorRecord_entry rfl hrole hkind hbase hruns hnot7 hnot6 htable rfl hallows)

theorem mirrorRx_end_completes : Claims.mirrorRx_end := fun bs s hplain hrole hkind hclean =>
  show execMirrorRx bs s = _ from next_twinRx hplain (Hw.mirrorRecord_end hrole hkind hclean)

theorem mailboxRx_completes : Claims.mailboxRx := fun bs s hplain hhere hch hstatus =>
  show execMailboxRx bs s = _ from next_twinRx hplain (Hw.mailboxRx_stored hhere hch hstatus)

end Sys2Proof.Machine

namespace Sys2Proof
open Machine

/-- Settles O59: each row, under its conditions, has the effect named. -/
theorem twinFrameCommandsComplete : Obligations.TwinFrameCommandsComplete :=
  ⟨twinLinkRetrain_completes, twinLaneFault_completes, twinIdleEntry_completes, portFrameRx_completes, dsPortRx_completes,
    usQueueRx_completes, mirrorRx_completes, mirrorRx_end_completes, mailboxRx_completes⟩

end Sys2Proof
end

section
/-!
SUPPORT. Where the commands of resent messages, slot frames, mirroring and redirection complete, and the settlement of the
statement about them.
-/
namespace Sys2Proof.Machine

section
variable {s : Hw} {h ch : Nat} (hch : bitsOf h 29 8 = ch) (hsent : s.twn.sent.contains ch = true)
  (hnotFull : s.twn.full.contains ch = false)
include hch hsent hnotFull

/-- The answer that a forwarded message was taken: it leaves its channel, and the next one is forwarded (R456). -/
theorem Hw.mbxResult_taken (hstatus : bitsOf h 27 2 = 0) : s.mbxResult h =
    ((({ s with twn := { s.twn with sent := s.twn.sent.erase ch } } : Hw).twnCount 9).mbxRemove ch).mbxForward ch := by
  subst hch
  refine (if_neg (by rw [hsent, hnotFull]; decide)).trans ?_
  simp only [hstatus]
  rfl

/-- The answer that the channel is full: the message waits to be sent again (R456). -/
theorem Hw.mbxResult_full (hstatus : bitsOf h 27 2 = 1) :
    s.mbxResult h = { s with twn := { s.twn with full := ch :: s.twn.full } } := by
  subst hch
  refine (if_neg (by rw [hsent, hnotFull]; decide)).trans ?_
  simp only [hstatus]

end

/-- An upstream container, with none waiting on its channel (R457). -/
theorem Hw.slotUsRx_alone {s : Hw} {h c : Nat} {bs : Bytes} (hc : bitsOf h 35 2 = c) (hon : s.sltOn = true)
    (hnone : (s.slotCh c).twinUs.isSome = false) :
    s.slotUsRx h bs = s.modSlotCh c (fun x => { x with twinUs := some (s.clk, bs) }) := by
  subst hc
  refine (if_neg (by simp [hon])).trans ?_
  simp only [hnone]
  rfl

theorem mbxResultRx_completes : Claims.mbxResultRx := fun bs s hplain hsent hnotFull hstatus =>
  show execMbxResultRx bs s = _ from
    next_twinRx hplain (Hw.mbxResult_taken rfl hsent hnotFull hstatus)

theorem mbxResultRx_full_completes : Claims.mbxResultRx_full := fun bs s hplain hsent hnotFull hstatus =>
  show execMbxResultRx bs s = _ from
    next_twinRx hplain (Hw.mbxResult_full rfl hsent hnotFull hstatus)

theorem mbxResendTimer_completes : Claims.mbxResendTimer := fun _ _ hfull =>
  next_on (if_pos hfull)

theorem slotDsRx_completes : Claims.slotDsRx := fun bs s hplain hon hpage hfresh =>
  show execSlotDsRx bs s = _ from next_twinRx hplain (if_pos ⟨hon, hpage, hfresh⟩)

theorem slotUsRx_completes : Claims.slotUsRx := fun bs s hplain hon hnone =>
  show execSlotUsRx bs s = _ from next_twinRx hplain (Hw.slotUsRx_alone rfl hon hnone)

theorem mirrorSweep_completes : Claims.mirrorSweep := fun _ _ _ hadm hfield hrole hmirrorEn hlinkUp =>
  next_onAccess hadm (by simp [Hw.mirrorSweep, Hw.sweepStart, hfield, hrole, hmirrorEn, hlinkUp])

theorem revertHoldExpire_completes : Claims.revertHoldExpire := fun _ hrevertEn hcoveredO5 =>
  next_on (if_pos ⟨hrevertEn, hcoveredO5⟩)

theorem clearRedirect_completes : Claims.clearRedirect := fun _ _ _ hadm hcoveredO5 =>
  next_onAccess hadm (if_pos hcoveredO5)

theorem redirectServe_completes : Claims.redirectServe := fun _ _ hredirect hlst hfragsOf hheadPkt hlen =>
  next_on (by simp [Hw.redirect, hredirect, hlst, hfragsOf, hheadPkt, hlen])

theorem twinFrameTx_completes : Claims.twinFrameTx := fun _ _ _ _ s hlinkUp hslots =>
  show execTwinFrameTx s = _ from
    next_onMem (by simp [Hw.twinTx, hlinkUp, hslots])

theorem twinFrameTx_message_completes : Claims.twinFrameTx_message := fun _ _ _ s hlinkUp hslots hmessage =>
  show execTwinFrameTx s = _ from
    next_onMem (by simp [Hw.twinTx, hlinkUp, hslots, hmessage])

theorem twinFrameTx_mirror_completes : Claims.twinFrameTx_mirror := fun _ _ s hlinkUp hslots hmbx hmirrorLost hmirror =>
  show execTwinFrameTx s = _ from
    next_onMem (by simp [Hw.mirrorRecover, Hw.twinTx, hlinkUp, hslots, hmbx, hmirrorLost, hmirror])

end Sys2Proof.Machine

namespace Sys2Proof
open Machine

/-- Settles O60: each row, under its conditions, has the effect named. -/
theorem mirrorAndRedirectCommandsComplete : Obligations.MirrorAndRedirectCommandsComplete :=
  ⟨mbxResultRx_completes, mbxResultRx_full_completes, mbxResendTimer_completes, slotDsRx_completes, slotUsRx_completes,
    mirrorSweep_completes, revertHoldExpire_completes, clearRedirect_completes, redirectServe_completes, twinFrameTx_completes,
    twinFrameTx_message_completes, twinFrameTx_mirror_completes⟩

end Sys2Proof
end
